-- ==== Sys2Proof/Word.lean ====
section
/-! DEFINITION. The word types of the Izril: bytes, 32-bit instruction words, 64-bit scalars and 512-bit vectors
(spec 03_number_and_token_formats.md R33 to R35; 00_scope.md R4, R5). -/
namespace Sys2Proof

/-- One byte of memory. -/
abbrev Byte := BitVec 8

/-- One little-endian instruction word (05 R77). -/
abbrev Word := BitVec 32

/-- A 64-bit scalar, address or predicate mask (03 R33, R36). -/
abbrev Dword := BitVec 64

/-- A 512-bit vector, element 0 in the low bits (03 R34). -/
abbrev Vec := BitVec 512

end Sys2Proof
end

