-- ==== Sys2Proof/Syntax.lean ====
section
/-! DEFINITION. The syntax of the Izril's steps: the instruction forms of spec/05_encodings_and_opcode_map.md (R79 to R82)
and one constructor of `Instr` per row of spec/opcode_table.json. 327 rows are forms of instructions and carry the fields
of their format; 93 rows are device events, which have no encoding, and carry what the event names. -/
namespace Sys2Proof

/-- The fields of an F0 word (05 R79). -/
structure F0 where
  w  : BitVec 2
  t1 : BitVec 9
  t0 : BitVec 9
  pm : BitVec 2
  deriving DecidableEq, Repr

/-- The fields of an FI word (05 R80). -/
structure FI where
  imm : BitVec 11
  t0  : BitVec 9
  pm  : BitVec 2
  deriving DecidableEq, Repr

/-- The fields of an F1 instruction, and with a literal of an F2 instruction (05 R81, R82). -/
structure FX where
  rm    : BitVec 2
  t1    : BitVec 9
  t0    : BitVec 9
  pm    : BitVec 2
  ety   : BitVec 5
  pmask : BitVec 3
  stkB  : BitVec 4
  stkA  : BitVec 4
  srcB  : BitVec 8
  srcA  : BitVec 8
  /-- `none` in F1; the literal word in F2. -/
  lit   : Option Word
  deriving DecidableEq, Repr

/-- An agent that executes blocks: an actor of a launched graph, by its place in its region, or a service thread
(09 R173, 20 R364). `rid` names the launch: LQ number times 2^32 plus sequence number. -/
inductive Aid where
  | actor (rid row col cu slot : Nat)
  | thread (die t : Nat)
  deriving DecidableEq, Repr

/-- A queue (03 R53): a sink-side queue in an MU, a source-side queue of an outbound port, the entry slots of a
neighbour link (named by the consumer's port), a call queue, or the text request queue of a context (24 R436). -/
inductive Qid where
  | mu (rid row col mu idx : Nat)
  | port (rid row col cu slot port : Nat)
  | node (rid row col unit idx : Nat)
  | call (die t : Nat)
  | text (ctx : Nat)
  deriving DecidableEq, Repr

/-- A node of a graph other than an actor (09 R173): `unit` 0 to 3 is an MU, 4 the ME, 5 the router; `idx` is the first
bank of a group, or the join's number. -/
structure Nid where
  rid  : Nat
  row  : Nat
  col  : Nat
  unit : Nat
  idx  : Nat
  deriving DecidableEq, Repr

/-- The four engine queues of an agent (14 R277, 16 R316), in the order of the qfence mask bits (13 R267). -/
inductive EngineKind where
  | copy | matrix | needle | fuller
  deriving DecidableEq, Repr

/-- One step of the machine: one constructor per row of spec/opcode_table.json. -/
inductive Instr where
  /-- ADD_F0 (R109), op 0x01. -/
  | addF0 (f : F0)
  /-- ADD_F1_F2 (R109), op 0x01. -/
  | addF1F2 (f : FX)
  /-- SUB_F0 (R109), op 0x02. -/
  | subF0 (f : F0)
  /-- SUB_F1_F2 (R109), op 0x02. -/
  | subF1F2 (f : FX)
  /-- ADDI_FI (R110), op 0x03. -/
  | addiFi (f : FI)
  /-- ADDI_F2 (R110), op 0x03. -/
  | addiF2 (f : FX)
  /-- MUL_F0 (R109), op 0x04. -/
  | mulF0 (f : F0)
  /-- MUL_F1_F2 (R109), op 0x04. -/
  | mulF1F2 (f : FX)
  /-- MULH_F0 (R109), op 0x05. -/
  | mulhF0 (f : F0)
  /-- MULH_F1_F2 (R109), op 0x05. -/
  | mulhF1F2 (f : FX)
  /-- MULHU_F0 (R109), op 0x06. -/
  | mulhuF0 (f : F0)
  /-- MULHU_F1_F2 (R109), op 0x06. -/
  | mulhuF1F2 (f : FX)
  /-- MAD_F0 (R109), op 0x07. -/
  | madF0 (f : F0)
  /-- MAD_F1_F2 (R109), op 0x07. -/
  | madF1F2 (f : FX)
  /-- DIVS_F0 (R113), op 0x08. -/
  | divsF0 (f : F0)
  /-- DIVS_F1_F2 (R113), op 0x08. -/
  | divsF1F2 (f : FX)
  /-- DIVU_F0 (R113), op 0x09. -/
  | divuF0 (f : F0)
  /-- DIVU_F1_F2 (R113), op 0x09. -/
  | divuF1F2 (f : FX)
  /-- REMS_F0 (R113), op 0x0A. -/
  | remsF0 (f : F0)
  /-- REMS_F1_F2 (R113), op 0x0A. -/
  | remsF1F2 (f : FX)
  /-- REMU_F0 (R113), op 0x0B. -/
  | remuF0 (f : F0)
  /-- REMU_F1_F2 (R113), op 0x0B. -/
  | remuF1F2 (f : FX)
  /-- NEG_F0 (R109), op 0x0C. -/
  | negF0 (f : F0)
  /-- NEG_F1 (R109), op 0x0C. -/
  | negF1 (f : FX)
  /-- ABS_F0 (R109), op 0x0D. -/
  | absF0 (f : F0)
  /-- ABS_F1 (R109), op 0x0D. -/
  | absF1 (f : FX)
  /-- MIN_F0 (R109), op 0x0E. -/
  | minF0 (f : F0)
  /-- MIN_F1_F2 (R109), op 0x0E. -/
  | minF1F2 (f : FX)
  /-- MAX_F0 (R109), op 0x0F. -/
  | maxF0 (f : F0)
  /-- MAX_F1_F2 (R109), op 0x0F. -/
  | maxF1F2 (f : FX)
  /-- MINU_F0 (R109), op 0x10. -/
  | minuF0 (f : F0)
  /-- MINU_F1_F2 (R109), op 0x10. -/
  | minuF1F2 (f : FX)
  /-- MAXU_F0 (R109), op 0x11. -/
  | maxuF0 (f : F0)
  /-- MAXU_F1_F2 (R109), op 0x11. -/
  | maxuF1F2 (f : FX)
  /-- ADDS_F0 (R109), op 0x12. -/
  | addsF0 (f : F0)
  /-- ADDS_F1_F2 (R109), op 0x12. -/
  | addsF1F2 (f : FX)
  /-- ADDSU_F0 (R109), op 0x13. -/
  | addsuF0 (f : F0)
  /-- ADDSU_F1_F2 (R109), op 0x13. -/
  | addsuF1F2 (f : FX)
  /-- SUBS_F0 (R109), op 0x14. -/
  | subsF0 (f : F0)
  /-- SUBS_F1_F2 (R109), op 0x14. -/
  | subsF1F2 (f : FX)
  /-- SUBSU_F0 (R109), op 0x15. -/
  | subsuF0 (f : F0)
  /-- SUBSU_F1_F2 (R109), op 0x15. -/
  | subsuF1F2 (f : FX)
  /-- AVG_F0 (R109), op 0x16. -/
  | avgF0 (f : F0)
  /-- AVG_F1_F2 (R109), op 0x16. -/
  | avgF1F2 (f : FX)
  /-- AND_F0 (R114), op 0x17. -/
  | andF0 (f : F0)
  /-- AND_F1_F2 (R114), op 0x17. -/
  | andF1F2 (f : FX)
  /-- OR_F0 (R114), op 0x18. -/
  | orF0 (f : F0)
  /-- OR_F1_F2 (R114), op 0x18. -/
  | orF1F2 (f : FX)
  /-- XOR_F0 (R114), op 0x19. -/
  | xorF0 (f : F0)
  /-- XOR_F1_F2 (R114), op 0x19. -/
  | xorF1F2 (f : FX)
  /-- ANDN_F0 (R114), op 0x1A. -/
  | andnF0 (f : F0)
  /-- ANDN_F1_F2 (R114), op 0x1A. -/
  | andnF1F2 (f : FX)
  /-- SHL_F0 (R115), op 0x1B. -/
  | shlF0 (f : F0)
  /-- SHL_F1_F2 (R115), op 0x1B. -/
  | shlF1F2 (f : FX)
  /-- SHR_F0 (R115), op 0x1C. -/
  | shrF0 (f : F0)
  /-- SHR_F1_F2 (R115), op 0x1C. -/
  | shrF1F2 (f : FX)
  /-- SAR_F0 (R115), op 0x1D. -/
  | sarF0 (f : F0)
  /-- SAR_F1_F2 (R115), op 0x1D. -/
  | sarF1F2 (f : FX)
  /-- ROTL_F0 (R115), op 0x1E. -/
  | rotlF0 (f : F0)
  /-- ROTL_F1_F2 (R115), op 0x1E. -/
  | rotlF1F2 (f : FX)
  /-- SHLI_FI (R115), op 0x1F. -/
  | shliFi (f : FI)
  /-- SHLI_F2 (R115), op 0x1F. -/
  | shliF2 (f : FX)
  /-- SHRI_FI (R115), op 0x20. -/
  | shriFi (f : FI)
  /-- SHRI_F2 (R115), op 0x20. -/
  | shriF2 (f : FX)
  /-- SARI_FI (R115), op 0x21. -/
  | sariFi (f : FI)
  /-- SARI_F2 (R115), op 0x21. -/
  | sariF2 (f : FX)
  /-- CLZ_F0 (R116), op 0x22. -/
  | clzF0 (f : F0)
  /-- CLZ_F1 (R116), op 0x22. -/
  | clzF1 (f : FX)
  /-- CTZ_F0 (R116), op 0x23. -/
  | ctzF0 (f : F0)
  /-- CTZ_F1 (R116), op 0x23. -/
  | ctzF1 (f : FX)
  /-- POPC_F0 (R116), op 0x24. -/
  | popcF0 (f : F0)
  /-- POPC_F1 (R116), op 0x24. -/
  | popcF1 (f : FX)
  /-- BREV_F0 (R116), op 0x25. -/
  | brevF0 (f : F0)
  /-- BREV_F1 (R116), op 0x25. -/
  | brevF1 (f : FX)
  /-- BSWAP_F0 (R116), op 0x26. -/
  | bswapF0 (f : F0)
  /-- BSWAP_F1 (R116), op 0x26. -/
  | bswapF1 (f : FX)
  /-- BFX_F0 (R117), op 0x27. -/
  | bfxF0 (f : F0)
  /-- BFX_F1_F2 (R117), op 0x27. -/
  | bfxF1F2 (f : FX)
  /-- BFI_F0 (R117), op 0x28. -/
  | bfiF0 (f : F0)
  /-- BFI_F1_F2 (R117), op 0x28. -/
  | bfiF1F2 (f : FX)
  /-- ADDSH_F0 (R112), op 0x29. -/
  | addshF0 (f : F0)
  /-- ADDSH_F1_F2 (R112), op 0x29. -/
  | addshF1F2 (f : FX)
  /-- MOVI (R118), op 0x2A. -/
  | movi (f : FI)
  /-- MOVL (R118), op 0x2B. -/
  | movl (f : FX)
  /-- SEXT (R119), op 0x2C. -/
  | sext (f : FX)
  /-- ZEXT (R119), op 0x2D. -/
  | zext (f : FX)
  /-- MOV_F0 (R120), op 0x2E. -/
  | movF0 (f : F0)
  /-- MOV_F1 (R120), op 0x2E. -/
  | movF1 (f : FX)
  /-- CEQ_F0 (R121), op 0x30. -/
  | ceqF0 (f : F0)
  /-- CEQ_F1_F2 (R121), op 0x30. -/
  | ceqF1F2 (f : FX)
  /-- CNE_F0 (R121), op 0x31. -/
  | cneF0 (f : F0)
  /-- CNE_F1_F2 (R121), op 0x31. -/
  | cneF1F2 (f : FX)
  /-- CLT_F0 (R121), op 0x32. -/
  | cltF0 (f : F0)
  /-- CLT_F1_F2 (R121), op 0x32. -/
  | cltF1F2 (f : FX)
  /-- CLE_F0 (R121), op 0x33. -/
  | cleF0 (f : F0)
  /-- CLE_F1_F2 (R121), op 0x33. -/
  | cleF1F2 (f : FX)
  /-- CLTU_F0 (R121), op 0x34. -/
  | cltuF0 (f : F0)
  /-- CLTU_F1_F2 (R121), op 0x34. -/
  | cltuF1F2 (f : FX)
  /-- CLEU_F0 (R121), op 0x35. -/
  | cleuF0 (f : F0)
  /-- CLEU_F1_F2 (R121), op 0x35. -/
  | cleuF1F2 (f : FX)
  /-- CEQI_FI (R121), op 0x36. -/
  | ceqiFi (f : FI)
  /-- CEQI_F2 (R121), op 0x36. -/
  | ceqiF2 (f : FX)
  /-- CLTI_FI (R121), op 0x37. -/
  | cltiFi (f : FI)
  /-- CLTI_F2 (R121), op 0x37. -/
  | cltiF2 (f : FX)
  /-- SEL_F0 (R122), op 0x38. -/
  | selF0 (f : F0)
  /-- SEL_F1_F2 (R122), op 0x38. -/
  | selF1F2 (f : FX)
  /-- PAND_F0 (R123), op 0x39. -/
  | pandF0 (f : F0)
  /-- PAND_F1_F2 (R123), op 0x39. -/
  | pandF1F2 (f : FX)
  /-- POR_F0 (R123), op 0x3A. -/
  | porF0 (f : F0)
  /-- POR_F1_F2 (R123), op 0x3A. -/
  | porF1F2 (f : FX)
  /-- PXOR_F0 (R123), op 0x3B. -/
  | pxorF0 (f : F0)
  /-- PXOR_F1_F2 (R123), op 0x3B. -/
  | pxorF1F2 (f : FX)
  /-- PNOT_F0 (R123), op 0x3C. -/
  | pnotF0 (f : F0)
  /-- PNOT_F1 (R123), op 0x3C. -/
  | pnotF1 (f : FX)
  /-- PANY_F0 (R123), op 0x3D. -/
  | panyF0 (f : F0)
  /-- PANY_F1 (R123), op 0x3D. -/
  | panyF1 (f : FX)
  /-- PALL_F0 (R123), op 0x3E. -/
  | pallF0 (f : F0)
  /-- PALL_F1 (R123), op 0x3E. -/
  | pallF1 (f : FX)
  /-- PCNT_F0 (R123), op 0x3F. -/
  | pcntF0 (f : F0)
  /-- PCNT_F1 (R123), op 0x3F. -/
  | pcntF1 (f : FX)
  /-- BCAST_F0 (R125), op 0x40. -/
  | bcastF0 (f : F0)
  /-- BCAST_F1_F2 (R125), op 0x40. -/
  | bcastF1F2 (f : FX)
  /-- LGET_F0 (R125), op 0x41. -/
  | lgetF0 (f : F0)
  /-- LGET_F1_F2 (R125), op 0x41. -/
  | lgetF1F2 (f : FX)
  /-- LSET_F0 (R125), op 0x42. -/
  | lsetF0 (f : F0)
  /-- LSET_F1_F2 (R125), op 0x42. -/
  | lsetF1F2 (f : FX)
  /-- PERM_F0 (R125), op 0x43. -/
  | permF0 (f : F0)
  /-- PERM_F1_F2 (R125), op 0x43. -/
  | permF1F2 (f : FX)
  /-- LROT_F0 (R125), op 0x44. -/
  | lrotF0 (f : F0)
  /-- LROT_F1_F2 (R125), op 0x44. -/
  | lrotF1F2 (f : FX)
  /-- ZIP_F0 (R126), op 0x45. -/
  | zipF0 (f : F0)
  /-- ZIP_F1_F2 (R126), op 0x45. -/
  | zipF1F2 (f : FX)
  /-- UNZIP_F0 (R126), op 0x46. -/
  | unzipF0 (f : F0)
  /-- UNZIP_F1_F2 (R126), op 0x46. -/
  | unzipF1F2 (f : FX)
  /-- COMPRESS_F0 (R127), op 0x47. -/
  | compressF0 (f : F0)
  /-- COMPRESS_F1_F2 (R127), op 0x47. -/
  | compressF1F2 (f : FX)
  /-- EXPAND_F0 (R127), op 0x48. -/
  | expandF0 (f : F0)
  /-- EXPAND_F1_F2 (R127), op 0x48. -/
  | expandF1F2 (f : FX)
  /-- RADD_F0 (R128), op 0x49. -/
  | raddF0 (f : F0)
  /-- RADD_F1 (R128), op 0x49. -/
  | raddF1 (f : FX)
  /-- RMAX_F0 (R128), op 0x4A. -/
  | rmaxF0 (f : F0)
  /-- RMAX_F1 (R128), op 0x4A. -/
  | rmaxF1 (f : FX)
  /-- RMIN_F0 (R128), op 0x4B. -/
  | rminF0 (f : F0)
  /-- RMIN_F1 (R128), op 0x4B. -/
  | rminF1 (f : FX)
  /-- RXOR_F0 (R128), op 0x4C. -/
  | rxorF0 (f : F0)
  /-- RXOR_F1 (R128), op 0x4C. -/
  | rxorF1 (f : FX)
  /-- SCAN_F0 (R129), op 0x4D. -/
  | scanF0 (f : F0)
  /-- SCAN_F1 (R129), op 0x4D. -/
  | scanF1 (f : FX)
  /-- LIDX (R130), op 0x4E. -/
  | lidx (f : F0)
  /-- DOT4_F0 (R131), op 0x4F. -/
  | dot4F0 (f : F0)
  /-- DOT4_F1_F2 (R131), op 0x4F. -/
  | dot4F1F2 (f : FX)
  /-- FADD_F0 (R137), op 0x50. -/
  | faddF0 (f : F0)
  /-- FADD_F1_F2 (R137), op 0x50. -/
  | faddF1F2 (f : FX)
  /-- FSUB_F0 (R137), op 0x51. -/
  | fsubF0 (f : F0)
  /-- FSUB_F1_F2 (R137), op 0x51. -/
  | fsubF1F2 (f : FX)
  /-- FMUL_F0 (R137), op 0x52. -/
  | fmulF0 (f : F0)
  /-- FMUL_F1_F2 (R137), op 0x52. -/
  | fmulF1F2 (f : FX)
  /-- FMA_F0 (R137), op 0x53. -/
  | fmaF0 (f : F0)
  /-- FMA_F1_F2 (R137), op 0x53. -/
  | fmaF1F2 (f : FX)
  /-- FMS_F0 (R137), op 0x54. -/
  | fmsF0 (f : F0)
  /-- FMS_F1_F2 (R137), op 0x54. -/
  | fmsF1F2 (f : FX)
  /-- FNMA_F0 (R137), op 0x55. -/
  | fnmaF0 (f : F0)
  /-- FNMA_F1_F2 (R137), op 0x55. -/
  | fnmaF1F2 (f : FX)
  /-- FMIN_F0 (R138), op 0x56. -/
  | fminF0 (f : F0)
  /-- FMIN_F1_F2 (R138), op 0x56. -/
  | fminF1F2 (f : FX)
  /-- FMAX_F0 (R138), op 0x57. -/
  | fmaxF0 (f : F0)
  /-- FMAX_F1_F2 (R138), op 0x57. -/
  | fmaxF1F2 (f : FX)
  /-- FABS_F0 (R138), op 0x58. -/
  | fabsF0 (f : F0)
  /-- FABS_F1 (R138), op 0x58. -/
  | fabsF1 (f : FX)
  /-- FNEG_F0 (R138), op 0x59. -/
  | fnegF0 (f : F0)
  /-- FNEG_F1 (R138), op 0x59. -/
  | fnegF1 (f : FX)
  /-- FEQ_F0 (R139), op 0x5A. -/
  | feqF0 (f : F0)
  /-- FEQ_F1_F2 (R139), op 0x5A. -/
  | feqF1F2 (f : FX)
  /-- FLT_F0 (R139), op 0x5B. -/
  | fltF0 (f : F0)
  /-- FLT_F1_F2 (R139), op 0x5B. -/
  | fltF1F2 (f : FX)
  /-- FLE_F0 (R139), op 0x5C. -/
  | fleF0 (f : F0)
  /-- FLE_F1_F2 (R139), op 0x5C. -/
  | fleF1F2 (f : FX)
  /-- FUN_F0 (R139), op 0x5D. -/
  | funF0 (f : F0)
  /-- FUN_F1_F2 (R139), op 0x5D. -/
  | funF1F2 (f : FX)
  /-- FCLASS_F0 (R140), op 0x5E. -/
  | fclassF0 (f : F0)
  /-- FCLASS_F1 (R140), op 0x5E. -/
  | fclassF1 (f : FX)
  /-- FRCP_F0 (R141), op 0x5F. -/
  | frcpF0 (f : F0)
  /-- FRCP_F1 (R141), op 0x5F. -/
  | frcpF1 (f : FX)
  /-- FRSQ_F0 (R141), op 0x60. -/
  | frsqF0 (f : F0)
  /-- FRSQ_F1 (R141), op 0x60. -/
  | frsqF1 (f : FX)
  /-- FRCPR_F0 (R141), op 0x61. -/
  | frcprF0 (f : F0)
  /-- FRCPR_F1_F2 (R141), op 0x61. -/
  | frcprF1F2 (f : FX)
  /-- FRSQR_F0 (R141), op 0x62. -/
  | frsqrF0 (f : F0)
  /-- FRSQR_F1_F2 (R141), op 0x62. -/
  | frsqrF1F2 (f : FX)
  /-- FEXP2_F0 (R141), op 0x63. -/
  | fexp2F0 (f : F0)
  /-- FEXP2_F1 (R141), op 0x63. -/
  | fexp2F1 (f : FX)
  /-- FLOG2_F0 (R141), op 0x64. -/
  | flog2F0 (f : F0)
  /-- FLOG2_F1 (R141), op 0x64. -/
  | flog2F1 (f : FX)
  /-- FRND_F0 (R142), op 0x65. -/
  | frndF0 (f : F0)
  /-- FRND_F1 (R142), op 0x65. -/
  | frndF1 (f : FX)
  /-- FSCL_F0 (R143), op 0x66. -/
  | fsclF0 (f : F0)
  /-- FSCL_F1_F2 (R143), op 0x66. -/
  | fsclF1F2 (f : FX)
  /-- CVT (R147), op 0x67. -/
  | cvt (f : FX)
  /-- CVTS (R150), op 0x68. -/
  | cvts (f : FX)
  /-- FDOT_F0 (R146), op 0x69. -/
  | fdotF0 (f : F0)
  /-- FDOT_F1_F2 (R146), op 0x69. -/
  | fdotF1F2 (f : FX)
  /-- CBDEC (R152), op 0x6A. -/
  | cbdec (f : FX)
  /-- BSCL_F0 (R144), op 0x6B. -/
  | bsclF0 (f : F0)
  /-- BSCL_F1_F2 (R144), op 0x6B. -/
  | bsclF1F2 (f : FX)
  /-- FSUM2_F0 (R145), op 0x6C. -/
  | fsum2F0 (f : F0)
  /-- FSUM2_F1_F2 (R145), op 0x6C. -/
  | fsum2F1F2 (f : FX)
  /-- FCLAMP_F0 (R138), op 0x6D. -/
  | fclampF0 (f : F0)
  /-- FCLAMP_F1_F2 (R138), op 0x6D. -/
  | fclampF1F2 (f : FX)
  /-- FCSGN_F0 (R138), op 0x6E. -/
  | fcsgnF0 (f : F0)
  /-- FCSGN_F1_F2 (R138), op 0x6E. -/
  | fcsgnF1F2 (f : FX)
  /-- BR (R161), op 0x70. -/
  | br (f : FX)
  /-- BRI (R162), op 0x71. -/
  | bri (f : FX)
  /-- CALL (R164), op 0x72. -/
  | call (f : FX)
  /-- RET (R164), op 0x73. -/
  | ret (f : F0)
  /-- FEND (R165), op 0x74. -/
  | fend (f : F0)
  /-- LOOPN_FI (R163), op 0x75. -/
  | loopnFi (f : FI)
  /-- LOOPN_F2 (R163), op 0x75. -/
  | loopnF2 (f : FX)
  /-- TRAP (R166), op 0x76. -/
  | trap (f : FI)
  /-- NOP (R167), op 0x77. -/
  | nop (f : F0)
  /-- RDR (R168), op 0x78. -/
  | rdr (f : FX)
  /-- MFS (R169), op 0x79. -/
  | mfs (f : FI)
  /-- TICK (R170), op 0x7A. -/
  | tick (f : F0)
  /-- TWAIT_F0 (R171), op 0x7B. -/
  | twaitF0 (f : F0)
  /-- TWAIT_F1 (R171), op 0x7B. -/
  | twaitF1 (f : FX)
  /-- NULL_F0 (R172), op 0x7C. -/
  | nullF0 (f : F0)
  /-- BRK (R166), op 0x7D. -/
  | brk (f : FI)
  /-- PUT_F0 (R228), op 0x80. -/
  | putF0 (f : F0)
  /-- PUT_F1 (R229), op 0x80. -/
  | putF1 (f : FX)
  /-- PUTK (R230), op 0x81. -/
  | putk (f : FX)
  /-- KGET (R227), op 0x82. -/
  | kget (f : FX)
  /-- WGET (R227), op 0x83. -/
  | wget (f : FX)
  /-- TGET (R227), op 0x84. -/
  | tget (f : FX)
  /-- KIND (R227), op 0x85. -/
  | kind (f : FX)
  /-- GAP (R231), op 0x86. -/
  | gap (f : FX)
  /-- SKIP (R234), op 0x87. -/
  | skip (f : FX)
  /-- QSTAT (R235), op 0x88. -/
  | qstat (f : FX)
  /-- QSTAT_CLR (R235), op 0x88. -/
  | qstatClr (f : FX)
  /-- QPOL (R236), op 0x89. -/
  | qpol (f : FX)
  /-- WCLOSE_F0 (R232), op 0x8A. -/
  | wcloseF0 (f : F0)
  /-- WCLOSE_F1 (R232), op 0x8A. -/
  | wcloseF1 (f : FX)
  /-- EOF (R232), op 0x8B. -/
  | eof (f : FX)
  /-- EOF_END (R232), op 0x8B. -/
  | eofEnd (f : FX)
  /-- SWAP_F0 (R232), op 0x8C. -/
  | swapF0 (f : F0)
  /-- SWAP_F1 (R232), op 0x8C. -/
  | swapF1 (f : FX)
  /-- LD (R263), op 0x90. -/
  | ld (f : FX)
  /-- LDV (R263), op 0x91. -/
  | ldv (f : FX)
  /-- LDG (R263), op 0x92. -/
  | ldg (f : FX)
  /-- ST (R264), op 0x93. -/
  | st (f : FX)
  /-- STV (R264), op 0x94. -/
  | stv (f : FX)
  /-- STS (R264), op 0x95. -/
  | sts (f : FX)
  /-- LDSYS (R249), op 0x96. -/
  | ldsys (f : FX)
  /-- STSYS (R264), op 0x97. -/
  | stsys (f : FX)
  /-- PREF (R265), op 0x98. -/
  | pref (f : FX)
  /-- FENCE (R266), op 0x99. -/
  | fence (f : FI)
  /-- QFENCE (R267), op 0x9A. -/
  | qfence (f : FI)
  /-- SINV (R268), op 0x9B. -/
  | sinv (f : FX)
  /-- SWB (R268), op 0x9C. -/
  | swb (f : FX)
  /-- SMAP (R269), op 0x9D. -/
  | smap (f : FX)
  /-- AADD (R270), op 0x9E. -/
  | aadd (f : FX)
  /-- AMIN (R270), op 0x9F. -/
  | amin (f : FX)
  /-- AMAX (R270), op 0xA0. -/
  | amax (f : FX)
  /-- AAND (R270), op 0xA1. -/
  | aand (f : FX)
  /-- AOR (R270), op 0xA2. -/
  | aor (f : FX)
  /-- AXOR (R270), op 0xA3. -/
  | axor (f : FX)
  /-- AXCHG (R270), op 0xA4. -/
  | axchg (f : FX)
  /-- ACAS (R270), op 0xA5. -/
  | acas (f : FX)
  /-- AFADD (R270), op 0xA6. -/
  | afadd (f : FX)
  /-- AADDV (R272), op 0xA7. -/
  | aaddv (f : FX)
  /-- LKACQ (R273), op 0xA8. -/
  | lkacq (f : FX)
  /-- LKREL (R273), op 0xA9. -/
  | lkrel (f : FX)
  /-- LKWAIT (R274), op 0xAA. -/
  | lkwait (f : FX)
  /-- LDSH (R275), op 0xAB. -/
  | ldsh (f : FX)
  /-- AMINU (R270), op 0xAC. -/
  | aminu (f : FX)
  /-- AMAXU (R270), op 0xAD. -/
  | amaxu (f : FX)
  /-- CPY (R281), op 0xB0. -/
  | cpy (f : FX)
  /-- CPYX (R282), op 0xB1. -/
  | cpyx (f : FX)
  /-- CPYT (R284), op 0xB2. -/
  | cpyt (f : FX)
  /-- MLD_L (R287), op 0xB3. -/
  | mldL (f : FX)
  /-- MLD_A (R287), op 0xB3. -/
  | mldA (f : FX)
  /-- MMUL (R289), op 0xB4. -/
  | mmul (f : FX)
  /-- MRD (R293), op 0xB5. -/
  | mrd (f : FX)
  /-- MCLR_F0 (R294), op 0xB6. -/
  | mclrF0 (f : F0)
  /-- MCLR_F1 (R294), op 0xB6. -/
  | mclrF1 (f : FX)
  /-- MFMT (R288), op 0xB7. -/
  | mfmt (f : FX)
  /-- BAR (R296), op 0xB8. -/
  | bar (f : FX)
  /-- BARA (R296), op 0xB9. -/
  | bara (f : FX)
  /-- BARW (R296), op 0xBA. -/
  | barw (f : FX)
  /-- GENK (R299), op 0xBB. -/
  | genk (f : FX)
  /-- GENK_FLUSH (R299), op 0xBB. -/
  | genkFlush (f : FX)
  /-- UFINIT (R322), op 0xC0. -/
  | ufinit (f : FX)
  /-- UNITE (R324), op 0xC1. -/
  | unite (f : FX)
  /-- FIND (R323), op 0xC2. -/
  | find (f : FX)
  /-- RELABEL (R326), op 0xC3. -/
  | relabel (f : FX)
  /-- CCSIZE (R325), op 0xC4. -/
  | ccsize (f : FX)
  /-- UFSNAP (R328), op 0xC5. -/
  | ufsnap (f : FX)
  /-- UFSNAP_CLOSE (R328), op 0xC5. -/
  | ufsnapClose (f : FX)
  /-- UFUNDO (R329), op 0xC6. -/
  | ufundo (f : FX)
  /-- WALK (R333), op 0xC7. -/
  | walk (f : FX)
  /-- WRULE (R332), op 0xC8. -/
  | wrule (f : FX)
  /-- WSTAT_Q (R336), op 0xC9. -/
  | wstatQ (f : FX)
  /-- WSTAT_RESUME (R336), op 0xC9. -/
  | wstatResume (f : FX)
  /-- WSTAT_ABORT (R336), op 0xC9. -/
  | wstatAbort (f : FX)
  /-- HACC (R337), op 0xCA. -/
  | hacc (f : FX)
  /-- HFLUSH (R338), op 0xCB. -/
  | hflush (f : FX)
  /-- HSTAT (R339), op 0xCC. -/
  | hstat (f : FX)
  /-- SCALL (R406), op 0xD0. -/
  | scall (f : FX)
  /-- SNOTIFY (R408), op 0xD1. -/
  | snotify (f : FX)
  /-- SWAIT_F0 (R409), op 0xD2. -/
  | swaitF0 (f : F0)
  /-- SWAIT_F1 (R409), op 0xD2. -/
  | swaitF1 (f : FX)
  /-- MFCR (R412), op 0xD3. -/
  | mfcr (f : FX)
  /-- MTCR (R412), op 0xD4. -/
  | mtcr (f : FX)
  /-- ERET (R413), op 0xD5. -/
  | eret (f : F0)
  /-- TLBI (R415), op 0xD6. -/
  | tlbi (f : FX)
  /-- FRZ (R416), op 0xD7. -/
  | frz (f : FX)
  /-- DRN (R416), op 0xD8. -/
  | drn (f : FX)
  /-- IMGSV (R416), op 0xD9. -/
  | imgsv (f : FX)
  /-- IMGSV_DROP (R416), op 0xD9. -/
  | imgsvDrop (f : FX)
  /-- IMGLD (R416), op 0xDA. -/
  | imgld (f : FX)
  /-- RGRANT (R416), op 0xDB. -/
  | rgrant (f : FX)
  /-- RFREE_FREE (R416), op 0xDC. -/
  | rfreeFree (f : FX)
  /-- RFREE_KILL (R416), op 0xDC. -/
  | rfreeKill (f : FX)
  /-- WDPET_F0 (R418), op 0xDD. -/
  | wdpetF0 (f : F0)
  /-- WDPET_F1 (R418), op 0xDD. -/
  | wdpetF1 (f : FX)
  /-- ECNT_RD (R419), op 0xDE. -/
  | ecntRd (f : FX)
  /-- ECNT_SEL (R419), op 0xDE. -/
  | ecntSel (f : FX)
  /-- ECNT_CLR (R419), op 0xDE. -/
  | ecntClr (f : FX)
  /-- HALT (R414), op 0xDF. -/
  | halt (f : F0)
  /-- LQ_TAIL_WRITE (R351): A write of LQTAIL submits descriptors or is ignored as an overrun. -/
  | lqTailWrite (lq : Nat) (v : BitVec 64)
  /-- CQNOTIFY_WRITE (R364): A write to the notify register puts a DATA record into the call queue. -/
  | cqnotifyWrite (die t : Nat) (v : BitVec 64)
  /-- CTXKILL_WRITE (R381): Kills every region and image of a context and clears LIVE. -/
  | ctxkillWrite (ctx : Nat) (v : BitVec 64)
  /-- CTXPT_WRITE (R389): Shoots down the context's entries, then sets the page-table root. -/
  | ctxptWrite (ctx : Nat) (v : BitVec 64)
  /-- PCHG_WRITE (R387): Starts a partition change: quiesce check, flush, rewrite, shoot-down. -/
  | pchgWrite (v : BitVec 64)
  /-- MIGRATION_GO (R397): A GO write to MIGCTL migrates one page through marking, shoot-down, recall and copy. -/
  | migrationGo (p : Nat) (v : BitVec 64)
  /-- STAGE (R461): Copies a firmware image into the idle slot and verifies it. -/
  | stage (slot : Nat)
  /-- SWAP_FIRMWARE (R462): Hands firmware over from the active set to the standby set. -/
  | swapFirmware (slot : Nat)
  /-- BOOTSEL (R461): Sets the boot slot to a verified slot. -/
  | bootsel (slot : Nat)
  /-- SVNLOCK (R461): Raises the fused security-version floor. -/
  | svnlock (slot : Nat)
  /-- BVCPWD_WRITE (R459): A write restarts the command-processor core watchdog. -/
  | bvcpwdWrite (core : Nat)
  /-- CONTROL_REGISTER_WRITE (R410): A write to a control register with no row of its own, under its field and level rules. -/
  | controlRegisterWrite (who : Option Nat) (addr : Nat) (v : BitVec 64)
  /-- HOST_APERTURE_WRITE (R423): A host posted write through a VF aperture, translated and ordered at the IOP. -/
  | hostApertureWrite (vf off : Nat) (bytes : List (BitVec 8))
  /-- HOST_APERTURE_READ (R423): A host read through a VF aperture. -/
  | hostApertureRead (vf off size : Nat)
  /-- FUNCTION_LEVEL_RESET (R427): A VF reset stops its requests, kills its context's regions and writes VFRST. -/
  | functionLevelReset (vf : Nat)
  /-- TEXT_FRAME (R435): A Lumtor text frame arrives and is checked, rejected or tokenised. -/
  | textFrame (conn : Nat) (bytes : List (BitVec 8))
  /-- BLOCKER_RECORD (R441): A record on a to=text stream is detokenised into the session's output. -/
  | blockerRecord (ctx : Nat)
  /-- TEXT_REPLY_TIMEOUT (R441): Released bytes waiting 2,700 ticks are sent as a reply frame. -/
  | textReplyTimeout (session : Nat)
  /-- VOCLOAD (R438): Loads a vocabulary image into a slot on all I/O dies. -/
  | vocload (call : Nat)
  /-- VOCDROP (R438): Empties a vocabulary slot. -/
  | vocdrop (call : Nat)
  /-- POD_MEMORY_ACCESS (R431): A remote package's pod memory access is translated and enters mo. -/
  | podMemoryAccess (pkg ctx : Nat) (va : BitVec 64) (write : Option (List (BitVec 8))) (size : Nat)
  /-- TIME_SYNC_MESSAGE (R433): An IEEE 1588 message adjusts the tick by slewing. -/
  | timeSyncMessage (ofs : Int)
  /-- CLAIM (R465): A leadership claim arrives and is accepted or outranked. -/
  | claim (term serial : Nat)
  /-- CLAIM_ACK (R465): An acknowledgement of a candidate's claim arrives; full acknowledgement makes it leader. -/
  | claimAck (serial : Nat)
  /-- HEARTBEAT (R465): A leader heartbeat arrives. -/
  | heartbeat (term serial : Nat)
  /-- HEARTBEAT_SEND (R465): Every 1 ms the leader sends a heartbeat. -/
  | heartbeatSend
  /-- HEARTBEAT_MISS (R465): 10 ms without a heartbeat makes a follower a candidate. -/
  | heartbeatMiss
  /-- FOLLOWER_LOAD_STEP (R466): The leader applies one numbered load step to a follower. -/
  | followerLoadStep (serial n term : Nat)
  /-- PROGRESS_RECORD_QUERY (R466): A new leader asks a follower for its progress record. -/
  | progressRecordQuery (serial : Nat)
  /-- POWER_STEP_DOWN (R467): Power over budget steps a die's clock down one step. -/
  | powerStepDown (die pwr : Nat)
  /-- POWER_STEP_UP (R467): After 1 ms under budget a die steps its clock up. -/
  | powerStepUp (die pwr : Nat)
  /-- THERMAL_P3 (R467): A junction at 110 C sends the die to P3 at once. -/
  | thermalP3 (die tj : Nat)
  /-- THERMAL_RESET (R467): A junction at 120 C makes the module controller reset the package. -/
  | thermalReset (die tj : Nat)
  /-- POWER_ON_RESET (R463): Power-on brings the package up in service stage S1. -/
  | powerOnReset
  /-- SERVICE_STAGE_ADVANCE (R463): The package advances to the next service stage. -/
  | serviceStageAdvance
  /-- SCRUB (R445): Periodic scrub corrects stored lines without changing timestamps. -/
  | scrub (pa : Nat)
  /-- LINK_CRC_FAILURE (R450): A flit CRC failure makes the sender replay from its buffer. -/
  | linkCrcFailure (link : Nat)
  /-- LINK_RETRAIN_DONE (R450): A link retraining ends. -/
  | linkRetrainDone (link : Nat) (ok : Bool)
  /-- REGION_STATE_UE (R448): An uncorrectable error in region state kills the region. -/
  | regionStateUe (die vq cu : Nat)
  /-- LEASE_EXPIRY_WRITEBACK (R244): A dirty stash line is written back when its lease expires. -/
  | leaseExpiryWriteback (rid row col mu bank line : Nat)
  /-- PTS_ADVANCE (R248): Every 256 cycles each agent's program timestamp advances. -/
  | ptsAdvance
  /-- TIMESTAMP_REBASE (R250): The device subtracts a common value from a partition's timestamps. -/
  | timestampRebase (p delta : Nat)
  /-- WATCHDOG_L1 (R455): The LQ timer reaches B1 and a WATCHDOG record is sent. -/
  | watchdogL1 (lq : Nat)
  /-- WATCHDOG_L2 (R455): B2 ticks after L1 the LQ is disabled and its launches drained. -/
  | watchdogL2 (lq : Nat)
  /-- WATCHDOG_L4 (R455): L3 not complete after B3 ticks resets the partition. -/
  | watchdogL4 (lq : Nat)
  /-- WATCHDOG_L5 (R455): L4 not complete after B4 ticks resets the package. -/
  | watchdogL5 (lq : Nat)
  /-- CP_WATCHDOG_EXPIRY (R459): The standby core restarts firmware when an active core's watchdog expires. -/
  | cpWatchdogExpiry (core : Nat)
  /-- TAKEOVER (R462): READY not set within 2 ms makes the old firmware resume. -/
  | takeover
  /-- LAUNCH_ADMIT (R353): An LQ admits its head launch once enable, depth, dependences and service allow. -/
  | launchAdmit (lq : Nat)
  /-- ALLOCATOR_ROUND (R359): A die's allocator places waiting launches by floors, priority and round robin. -/
  | allocatorRound (die : Nat)
  /-- LAUNCH_START (R354): A configured launch starts at once or at its start tick. -/
  | launchStart (rid : Nat)
  /-- LAUNCH_COMPLETE (R355): A launch found quiescent completes and writes its completion word. -/
  | launchComplete (rid : Nat)
  /-- FLOOR_PREEMPT (R360): After FLOORWAIT a victim region is chosen and drained. -/
  | floorPreempt (die ctx : Nat)
  /-- HOST_ASSIST_ANSWER (R366): The host's answer in the host-assist ring is applied or refused. -/
  | hostAssistAnswer (p slot : Nat) (ok : Bool) (y x : Nat)
  /-- DRAIN_COMPLETE (R369): Every exit has removed its DRAIN and the region is captured. -/
  | drainComplete (rid : Nat)
  /-- DRAIN_TIMEOUT (R370): The requesting agent's drain timeout expires and the drain is abandoned. -/
  | drainTimeout (rid : Nat)
  /-- FREEZE_CAPTURE_CLOSE (R371): A freeze capture closes and the region's state is read into the image. -/
  | freezeCaptureClose (rid : Nat)
  /-- NODE_RECONFIGURE (R380): A node applies CFG records once CFG heads every inbound port. -/
  | nodeReconfigure (a : Aid)
  /-- FIRING_START (R177): A CU starts a data firing of a ready actor. -/
  | firingStart (a : Aid)
  /-- CONTROL_FIRING (R178): A control token at a port's head starts a control firing. -/
  | controlFiring (a : Aid)
  /-- PACE_POINT (R181): A paced actor's pace point arrives and a firing may start. -/
  | pacePoint (a : Aid)
  /-- BLOCK_ENTRY (R185): A block enters the window when room frees and is decode-checked. -/
  | blockEntry (a : Aid)
  /-- BLOCK_COMMIT (R156): A resolved block with one fired exit applies its effects and transfers control. -/
  | blockCommit (a : Aid)
  /-- RECORD_SEND (R197): A source-side queue sends a record over the lattice under flit credits. -/
  | recordSend (q : Qid)
  /-- RECORD_ARRIVAL (R202): The shear judges an arriving record and stores, sheds or spills it. -/
  | recordArrival (q : Qid)
  /-- SPILL_REFILL (R208): As storage frees the oldest ring record moves into storage. -/
  | spillRefill (q : Qid)
  /-- LINK_ARRIVAL (R191): A record reaches a neighbour link and its policy applies. -/
  | linkArrival (q : Qid)
  /-- JOIN_ARC_ARRIVAL (R193): A record arriving on a join control arc is counted. -/
  | joinArcArrival (n : Nid) (arc : Nat)
  /-- JOIN_FIRE (R193): With every count at least 1 the join puts NULL on each release arc. -/
  | joinFire (n : Nid)
  /-- GENERATOR_PUT (R67): A generator puts a RAND token while below its outstanding limit. -/
  | generatorPut (n : Nid)
  /-- WINDOW_INPUT (R214): A window node takes a record or token from an input. -/
  | windowInput (n : Nid) (input : Nat)
  /-- SINK_RECORD (R221): A sink passes a record and logs it when flagged. -/
  | sinkRecord (n : Nid)
  /-- ME_STREAM_RECORD (R291): The ME takes a row record or token of a stream-mode pass. -/
  | meStreamRecord (n : Nid)
  /-- ENGINE_COMMAND_START (R277): A queued engine command starts once its start rule holds. -/
  | engineCommandStart (a : Aid) (e : EngineKind)
  /-- ENGINE_COMPLETION (R278): An engine command completes or fails and writes its token register. -/
  | engineCompletion (a : Aid) (e : EngineKind)
  /-- LOAD_REPLY (R253): A memory reply returns to the MU and retires its tag. -/
  | loadReply (id : Nat)
  /-- MEMORY_REQUEST (R247): A home performs a read, write or atomic under leases. -/
  | memoryRequest (id : Nat)
  /-- BARRIER_ARRIVAL (R296): An arrival is counted once the agent's accesses are performed. -/
  | barrierArrival (id : Nat)
  /-- LKWAIT_ACQUIRE (R274): A queued waiter takes the lock when its word becomes zero. -/
  | lkwaitAcquire (id : Nat)
  /-- RUN_BEGIN (R20): A service thread begins a run when its call queue holds an entry. -/
  | runBegin (die t : Nat)
  /-- TRAP_DELIVERY (R400): A trap record is put into the fault thread's queue or host ring. -/
  | trapDelivery (i : Nat)
  /-- TRANSLATION_WALK (R394): A walker completes a page-table walk for a translation miss. -/
  | translationWalk (die quad ctx : Nat) (va : BitVec 64)
  /-- RATE_LIMIT_RELEASE (R434): A device request held at the IOP proceeds once its bucket is positive. -/
  | rateLimitRelease (vf : Nat)
  /-- IOP_WRITE_SEND (R424): The IOP sends a held line write once earlier routes acknowledge. -/
  | iopWriteSend (req : Nat)
  /-- IOP_ACK (R424): A home acknowledges a performed line write to the IOP. -/
  | iopAck (req : Nat)
  /-- IO_WRITE_ACK (R426): The zero-length read behind an IO write completes and acknowledges it. -/
  | ioWriteAck (id : Nat)
  /-- TWAIT_DEADLINE (R171): The tick reaches a waiting twait's deadline and it fires. -/
  | twaitDeadline (a : Aid)
  /-- SWAIT_WAKE (R409): A waiting swait fires on a second entry or its deadline. -/
  | swaitWake (a : Aid)
  /-- BVSWAP_WRITE (R462): The new firmware's write of READY to bvswap ends the swap window and exchanges the active and standby sets. -/
  | bvswapWrite (core : Nat) (v : BitVec 64)
  /-- ROD_PORT_FAILURE (R430): An Ethernet port fails, and each ROD connection on it moves to the next working port in ascending order. -/
  | rodPortFailure (port : Nat)
  /-- CFG_WAVE_INJECT (R379): The device injects a run of CFG records at a region's inbound queues and source actors. -/
  | cfgWaveInject (rid : Nat) (recs : List (BitVec 512))
  /-- POD_BARRIER_RELEASE (R432): A pod barrier release message arrives back on class 2 and completes the waiting bar and barw operations. -/
  | podBarrierRelease (bid gen : Nat)
  /-- CONNECTION_CLOSED (R441): A text session's connection closes, so later replies for it are discarded and counted by TEXT_BAD. -/
  | connectionClosed (conn : Nat)
  deriving DecidableEq, Repr

end Sys2Proof
end

