-- ==== Sys2Proof/WellFormed.lean ====
section
/-! DEFINITION. When a term of `Instr` is the reading of some words: the form its row allows (05 R97), the predicate mode
(05 R91: `pm` 11 is reserved), and the `rm` code that picks its row where one op has several rows. Everything else the
device checks in a block (05 R99) is in Machine/Check.lean. A device event has no words and is always well formed. -/
namespace Sys2Proof

/-- What the row of an FX constructor allows: the F1 form, the F2 form, and the `rm` value that names the row. -/
structure FXRow where
  f1 : Bool
  f2 : Bool
  rm : Option (BitVec 2)
  deriving DecidableEq, Repr

/-- The format, opcode and fields of a step; `event` for a device event. -/
inductive Enc where
  | f0 (op : Nat) (f : F0)
  | fi (op : Nat) (f : FI)
  | fx (op : Nat) (row : FXRow) (f : FX)
  | event
  deriving DecidableEq, Repr

/-- The opcode of every row, from the opcode map of 05 R97. -/
def Instr.enc : Instr → Enc
  | .addF0 f => .f0 0x01 f
  | .addF1F2 f => .fx 0x01 ⟨true, true, none⟩ f
  | .subF0 f => .f0 0x02 f
  | .subF1F2 f => .fx 0x02 ⟨true, true, none⟩ f
  | .addiFi f => .fi 0x03 f
  | .addiF2 f => .fx 0x03 ⟨false, true, none⟩ f
  | .mulF0 f => .f0 0x04 f
  | .mulF1F2 f => .fx 0x04 ⟨true, true, none⟩ f
  | .mulhF0 f => .f0 0x05 f
  | .mulhF1F2 f => .fx 0x05 ⟨true, true, none⟩ f
  | .mulhuF0 f => .f0 0x06 f
  | .mulhuF1F2 f => .fx 0x06 ⟨true, true, none⟩ f
  | .madF0 f => .f0 0x07 f
  | .madF1F2 f => .fx 0x07 ⟨true, true, none⟩ f
  | .divsF0 f => .f0 0x08 f
  | .divsF1F2 f => .fx 0x08 ⟨true, true, none⟩ f
  | .divuF0 f => .f0 0x09 f
  | .divuF1F2 f => .fx 0x09 ⟨true, true, none⟩ f
  | .remsF0 f => .f0 0x0A f
  | .remsF1F2 f => .fx 0x0A ⟨true, true, none⟩ f
  | .remuF0 f => .f0 0x0B f
  | .remuF1F2 f => .fx 0x0B ⟨true, true, none⟩ f
  | .negF0 f => .f0 0x0C f
  | .negF1 f => .fx 0x0C ⟨true, false, none⟩ f
  | .absF0 f => .f0 0x0D f
  | .absF1 f => .fx 0x0D ⟨true, false, none⟩ f
  | .minF0 f => .f0 0x0E f
  | .minF1F2 f => .fx 0x0E ⟨true, true, none⟩ f
  | .maxF0 f => .f0 0x0F f
  | .maxF1F2 f => .fx 0x0F ⟨true, true, none⟩ f
  | .minuF0 f => .f0 0x10 f
  | .minuF1F2 f => .fx 0x10 ⟨true, true, none⟩ f
  | .maxuF0 f => .f0 0x11 f
  | .maxuF1F2 f => .fx 0x11 ⟨true, true, none⟩ f
  | .addsF0 f => .f0 0x12 f
  | .addsF1F2 f => .fx 0x12 ⟨true, true, none⟩ f
  | .addsuF0 f => .f0 0x13 f
  | .addsuF1F2 f => .fx 0x13 ⟨true, true, none⟩ f
  | .subsF0 f => .f0 0x14 f
  | .subsF1F2 f => .fx 0x14 ⟨true, true, none⟩ f
  | .subsuF0 f => .f0 0x15 f
  | .subsuF1F2 f => .fx 0x15 ⟨true, true, none⟩ f
  | .avgF0 f => .f0 0x16 f
  | .avgF1F2 f => .fx 0x16 ⟨true, true, none⟩ f
  | .andF0 f => .f0 0x17 f
  | .andF1F2 f => .fx 0x17 ⟨true, true, none⟩ f
  | .orF0 f => .f0 0x18 f
  | .orF1F2 f => .fx 0x18 ⟨true, true, none⟩ f
  | .xorF0 f => .f0 0x19 f
  | .xorF1F2 f => .fx 0x19 ⟨true, true, none⟩ f
  | .andnF0 f => .f0 0x1A f
  | .andnF1F2 f => .fx 0x1A ⟨true, true, none⟩ f
  | .shlF0 f => .f0 0x1B f
  | .shlF1F2 f => .fx 0x1B ⟨true, true, none⟩ f
  | .shrF0 f => .f0 0x1C f
  | .shrF1F2 f => .fx 0x1C ⟨true, true, none⟩ f
  | .sarF0 f => .f0 0x1D f
  | .sarF1F2 f => .fx 0x1D ⟨true, true, none⟩ f
  | .rotlF0 f => .f0 0x1E f
  | .rotlF1F2 f => .fx 0x1E ⟨true, true, none⟩ f
  | .shliFi f => .fi 0x1F f
  | .shliF2 f => .fx 0x1F ⟨false, true, none⟩ f
  | .shriFi f => .fi 0x20 f
  | .shriF2 f => .fx 0x20 ⟨false, true, none⟩ f
  | .sariFi f => .fi 0x21 f
  | .sariF2 f => .fx 0x21 ⟨false, true, none⟩ f
  | .clzF0 f => .f0 0x22 f
  | .clzF1 f => .fx 0x22 ⟨true, false, none⟩ f
  | .ctzF0 f => .f0 0x23 f
  | .ctzF1 f => .fx 0x23 ⟨true, false, none⟩ f
  | .popcF0 f => .f0 0x24 f
  | .popcF1 f => .fx 0x24 ⟨true, false, none⟩ f
  | .brevF0 f => .f0 0x25 f
  | .brevF1 f => .fx 0x25 ⟨true, false, none⟩ f
  | .bswapF0 f => .f0 0x26 f
  | .bswapF1 f => .fx 0x26 ⟨true, false, none⟩ f
  | .bfxF0 f => .f0 0x27 f
  | .bfxF1F2 f => .fx 0x27 ⟨true, true, none⟩ f
  | .bfiF0 f => .f0 0x28 f
  | .bfiF1F2 f => .fx 0x28 ⟨true, true, none⟩ f
  | .addshF0 f => .f0 0x29 f
  | .addshF1F2 f => .fx 0x29 ⟨true, true, none⟩ f
  | .movi f => .fi 0x2A f
  | .movl f => .fx 0x2B ⟨false, true, none⟩ f
  | .sext f => .fx 0x2C ⟨true, false, none⟩ f
  | .zext f => .fx 0x2D ⟨true, false, none⟩ f
  | .movF0 f => .f0 0x2E f
  | .movF1 f => .fx 0x2E ⟨true, false, none⟩ f
  | .ceqF0 f => .f0 0x30 f
  | .ceqF1F2 f => .fx 0x30 ⟨true, true, none⟩ f
  | .cneF0 f => .f0 0x31 f
  | .cneF1F2 f => .fx 0x31 ⟨true, true, none⟩ f
  | .cltF0 f => .f0 0x32 f
  | .cltF1F2 f => .fx 0x32 ⟨true, true, none⟩ f
  | .cleF0 f => .f0 0x33 f
  | .cleF1F2 f => .fx 0x33 ⟨true, true, none⟩ f
  | .cltuF0 f => .f0 0x34 f
  | .cltuF1F2 f => .fx 0x34 ⟨true, true, none⟩ f
  | .cleuF0 f => .f0 0x35 f
  | .cleuF1F2 f => .fx 0x35 ⟨true, true, none⟩ f
  | .ceqiFi f => .fi 0x36 f
  | .ceqiF2 f => .fx 0x36 ⟨false, true, none⟩ f
  | .cltiFi f => .fi 0x37 f
  | .cltiF2 f => .fx 0x37 ⟨false, true, none⟩ f
  | .selF0 f => .f0 0x38 f
  | .selF1F2 f => .fx 0x38 ⟨true, true, none⟩ f
  | .pandF0 f => .f0 0x39 f
  | .pandF1F2 f => .fx 0x39 ⟨true, true, none⟩ f
  | .porF0 f => .f0 0x3A f
  | .porF1F2 f => .fx 0x3A ⟨true, true, none⟩ f
  | .pxorF0 f => .f0 0x3B f
  | .pxorF1F2 f => .fx 0x3B ⟨true, true, none⟩ f
  | .pnotF0 f => .f0 0x3C f
  | .pnotF1 f => .fx 0x3C ⟨true, false, none⟩ f
  | .panyF0 f => .f0 0x3D f
  | .panyF1 f => .fx 0x3D ⟨true, false, none⟩ f
  | .pallF0 f => .f0 0x3E f
  | .pallF1 f => .fx 0x3E ⟨true, false, none⟩ f
  | .pcntF0 f => .f0 0x3F f
  | .pcntF1 f => .fx 0x3F ⟨true, false, none⟩ f
  | .bcastF0 f => .f0 0x40 f
  | .bcastF1F2 f => .fx 0x40 ⟨true, true, none⟩ f
  | .lgetF0 f => .f0 0x41 f
  | .lgetF1F2 f => .fx 0x41 ⟨true, true, none⟩ f
  | .lsetF0 f => .f0 0x42 f
  | .lsetF1F2 f => .fx 0x42 ⟨true, true, none⟩ f
  | .permF0 f => .f0 0x43 f
  | .permF1F2 f => .fx 0x43 ⟨true, true, none⟩ f
  | .lrotF0 f => .f0 0x44 f
  | .lrotF1F2 f => .fx 0x44 ⟨true, true, none⟩ f
  | .zipF0 f => .f0 0x45 f
  | .zipF1F2 f => .fx 0x45 ⟨true, true, none⟩ f
  | .unzipF0 f => .f0 0x46 f
  | .unzipF1F2 f => .fx 0x46 ⟨true, true, none⟩ f
  | .compressF0 f => .f0 0x47 f
  | .compressF1F2 f => .fx 0x47 ⟨true, true, none⟩ f
  | .expandF0 f => .f0 0x48 f
  | .expandF1F2 f => .fx 0x48 ⟨true, true, none⟩ f
  | .raddF0 f => .f0 0x49 f
  | .raddF1 f => .fx 0x49 ⟨true, false, none⟩ f
  | .rmaxF0 f => .f0 0x4A f
  | .rmaxF1 f => .fx 0x4A ⟨true, false, none⟩ f
  | .rminF0 f => .f0 0x4B f
  | .rminF1 f => .fx 0x4B ⟨true, false, none⟩ f
  | .rxorF0 f => .f0 0x4C f
  | .rxorF1 f => .fx 0x4C ⟨true, false, none⟩ f
  | .scanF0 f => .f0 0x4D f
  | .scanF1 f => .fx 0x4D ⟨true, false, none⟩ f
  | .lidx f => .f0 0x4E f
  | .dot4F0 f => .f0 0x4F f
  | .dot4F1F2 f => .fx 0x4F ⟨true, true, none⟩ f
  | .faddF0 f => .f0 0x50 f
  | .faddF1F2 f => .fx 0x50 ⟨true, true, none⟩ f
  | .fsubF0 f => .f0 0x51 f
  | .fsubF1F2 f => .fx 0x51 ⟨true, true, none⟩ f
  | .fmulF0 f => .f0 0x52 f
  | .fmulF1F2 f => .fx 0x52 ⟨true, true, none⟩ f
  | .fmaF0 f => .f0 0x53 f
  | .fmaF1F2 f => .fx 0x53 ⟨true, true, none⟩ f
  | .fmsF0 f => .f0 0x54 f
  | .fmsF1F2 f => .fx 0x54 ⟨true, true, none⟩ f
  | .fnmaF0 f => .f0 0x55 f
  | .fnmaF1F2 f => .fx 0x55 ⟨true, true, none⟩ f
  | .fminF0 f => .f0 0x56 f
  | .fminF1F2 f => .fx 0x56 ⟨true, true, none⟩ f
  | .fmaxF0 f => .f0 0x57 f
  | .fmaxF1F2 f => .fx 0x57 ⟨true, true, none⟩ f
  | .fabsF0 f => .f0 0x58 f
  | .fabsF1 f => .fx 0x58 ⟨true, false, none⟩ f
  | .fnegF0 f => .f0 0x59 f
  | .fnegF1 f => .fx 0x59 ⟨true, false, none⟩ f
  | .feqF0 f => .f0 0x5A f
  | .feqF1F2 f => .fx 0x5A ⟨true, true, none⟩ f
  | .fltF0 f => .f0 0x5B f
  | .fltF1F2 f => .fx 0x5B ⟨true, true, none⟩ f
  | .fleF0 f => .f0 0x5C f
  | .fleF1F2 f => .fx 0x5C ⟨true, true, none⟩ f
  | .funF0 f => .f0 0x5D f
  | .funF1F2 f => .fx 0x5D ⟨true, true, none⟩ f
  | .fclassF0 f => .f0 0x5E f
  | .fclassF1 f => .fx 0x5E ⟨true, false, none⟩ f
  | .frcpF0 f => .f0 0x5F f
  | .frcpF1 f => .fx 0x5F ⟨true, false, none⟩ f
  | .frsqF0 f => .f0 0x60 f
  | .frsqF1 f => .fx 0x60 ⟨true, false, none⟩ f
  | .frcprF0 f => .f0 0x61 f
  | .frcprF1F2 f => .fx 0x61 ⟨true, true, none⟩ f
  | .frsqrF0 f => .f0 0x62 f
  | .frsqrF1F2 f => .fx 0x62 ⟨true, true, none⟩ f
  | .fexp2F0 f => .f0 0x63 f
  | .fexp2F1 f => .fx 0x63 ⟨true, false, none⟩ f
  | .flog2F0 f => .f0 0x64 f
  | .flog2F1 f => .fx 0x64 ⟨true, false, none⟩ f
  | .frndF0 f => .f0 0x65 f
  | .frndF1 f => .fx 0x65 ⟨true, false, none⟩ f
  | .fsclF0 f => .f0 0x66 f
  | .fsclF1F2 f => .fx 0x66 ⟨true, true, none⟩ f
  | .cvt f => .fx 0x67 ⟨true, false, none⟩ f
  | .cvts f => .fx 0x68 ⟨true, false, none⟩ f
  | .fdotF0 f => .f0 0x69 f
  | .fdotF1F2 f => .fx 0x69 ⟨true, true, none⟩ f
  | .cbdec f => .fx 0x6A ⟨true, false, none⟩ f
  | .bsclF0 f => .f0 0x6B f
  | .bsclF1F2 f => .fx 0x6B ⟨true, true, none⟩ f
  | .fsum2F0 f => .f0 0x6C f
  | .fsum2F1F2 f => .fx 0x6C ⟨true, true, none⟩ f
  | .fclampF0 f => .f0 0x6D f
  | .fclampF1F2 f => .fx 0x6D ⟨true, true, none⟩ f
  | .fcsgnF0 f => .f0 0x6E f
  | .fcsgnF1F2 f => .fx 0x6E ⟨true, true, none⟩ f
  | .br f => .fx 0x70 ⟨false, true, none⟩ f
  | .bri f => .fx 0x71 ⟨true, false, none⟩ f
  | .call f => .fx 0x72 ⟨false, true, none⟩ f
  | .ret f => .f0 0x73 f
  | .fend f => .f0 0x74 f
  | .loopnFi f => .fi 0x75 f
  | .loopnF2 f => .fx 0x75 ⟨false, true, none⟩ f
  | .trap f => .fi 0x76 f
  | .nop f => .f0 0x77 f
  | .rdr f => .fx 0x78 ⟨true, false, none⟩ f
  | .mfs f => .fi 0x79 f
  | .tick f => .f0 0x7A f
  | .twaitF0 f => .f0 0x7B f
  | .twaitF1 f => .fx 0x7B ⟨true, false, none⟩ f
  | .nullF0 f => .f0 0x7C f
  | .brk f => .fi 0x7D f
  | .putF0 f => .f0 0x80 f
  | .putF1 f => .fx 0x80 ⟨true, false, none⟩ f
  | .putk f => .fx 0x81 ⟨true, false, none⟩ f
  | .kget f => .fx 0x82 ⟨true, false, none⟩ f
  | .wget f => .fx 0x83 ⟨true, false, none⟩ f
  | .tget f => .fx 0x84 ⟨true, false, none⟩ f
  | .kind f => .fx 0x85 ⟨true, false, none⟩ f
  | .gap f => .fx 0x86 ⟨true, false, none⟩ f
  | .skip f => .fx 0x87 ⟨true, true, none⟩ f
  | .qstat f => .fx 0x88 ⟨true, true, (some 0)⟩ f
  | .qstatClr f => .fx 0x88 ⟨true, true, (some 1)⟩ f
  | .qpol f => .fx 0x89 ⟨true, true, none⟩ f
  | .wcloseF0 f => .f0 0x8A f
  | .wcloseF1 f => .fx 0x8A ⟨true, false, none⟩ f
  | .eof f => .fx 0x8B ⟨true, true, (some 0)⟩ f
  | .eofEnd f => .fx 0x8B ⟨true, true, (some 1)⟩ f
  | .swapF0 f => .f0 0x8C f
  | .swapF1 f => .fx 0x8C ⟨true, false, none⟩ f
  | .ld f => .fx 0x90 ⟨true, true, none⟩ f
  | .ldv f => .fx 0x91 ⟨true, true, none⟩ f
  | .ldg f => .fx 0x92 ⟨true, true, none⟩ f
  | .st f => .fx 0x93 ⟨true, true, none⟩ f
  | .stv f => .fx 0x94 ⟨true, true, none⟩ f
  | .sts f => .fx 0x95 ⟨true, true, none⟩ f
  | .ldsys f => .fx 0x96 ⟨true, true, none⟩ f
  | .stsys f => .fx 0x97 ⟨true, true, none⟩ f
  | .pref f => .fx 0x98 ⟨true, true, none⟩ f
  | .fence f => .fi 0x99 f
  | .qfence f => .fi 0x9A f
  | .sinv f => .fx 0x9B ⟨true, true, none⟩ f
  | .swb f => .fx 0x9C ⟨true, true, none⟩ f
  | .smap f => .fx 0x9D ⟨true, true, none⟩ f
  | .aadd f => .fx 0x9E ⟨true, true, none⟩ f
  | .amin f => .fx 0x9F ⟨true, true, none⟩ f
  | .amax f => .fx 0xA0 ⟨true, true, none⟩ f
  | .aand f => .fx 0xA1 ⟨true, true, none⟩ f
  | .aor f => .fx 0xA2 ⟨true, true, none⟩ f
  | .axor f => .fx 0xA3 ⟨true, true, none⟩ f
  | .axchg f => .fx 0xA4 ⟨true, true, none⟩ f
  | .acas f => .fx 0xA5 ⟨true, true, none⟩ f
  | .afadd f => .fx 0xA6 ⟨true, true, none⟩ f
  | .aaddv f => .fx 0xA7 ⟨true, true, none⟩ f
  | .lkacq f => .fx 0xA8 ⟨true, true, none⟩ f
  | .lkrel f => .fx 0xA9 ⟨true, true, none⟩ f
  | .lkwait f => .fx 0xAA ⟨true, true, none⟩ f
  | .ldsh f => .fx 0xAB ⟨true, true, none⟩ f
  | .aminu f => .fx 0xAC ⟨true, true, none⟩ f
  | .amaxu f => .fx 0xAD ⟨true, true, none⟩ f
  | .cpy f => .fx 0xB0 ⟨true, true, none⟩ f
  | .cpyx f => .fx 0xB1 ⟨true, true, none⟩ f
  | .cpyt f => .fx 0xB2 ⟨true, true, none⟩ f
  | .mldL f => .fx 0xB3 ⟨true, true, (some 0)⟩ f
  | .mldA f => .fx 0xB3 ⟨true, true, (some 1)⟩ f
  | .mmul f => .fx 0xB4 ⟨true, true, none⟩ f
  | .mrd f => .fx 0xB5 ⟨true, true, none⟩ f
  | .mclrF0 f => .f0 0xB6 f
  | .mclrF1 f => .fx 0xB6 ⟨true, false, none⟩ f
  | .mfmt f => .fx 0xB7 ⟨true, true, none⟩ f
  | .bar f => .fx 0xB8 ⟨false, true, none⟩ f
  | .bara f => .fx 0xB9 ⟨false, true, none⟩ f
  | .barw f => .fx 0xBA ⟨false, true, none⟩ f
  | .genk f => .fx 0xBB ⟨true, true, (some 0)⟩ f
  | .genkFlush f => .fx 0xBB ⟨true, true, (some 1)⟩ f
  | .ufinit f => .fx 0xC0 ⟨true, true, none⟩ f
  | .unite f => .fx 0xC1 ⟨true, true, none⟩ f
  | .find f => .fx 0xC2 ⟨true, true, none⟩ f
  | .relabel f => .fx 0xC3 ⟨true, true, none⟩ f
  | .ccsize f => .fx 0xC4 ⟨true, true, none⟩ f
  | .ufsnap f => .fx 0xC5 ⟨true, true, (some 0)⟩ f
  | .ufsnapClose f => .fx 0xC5 ⟨true, true, (some 1)⟩ f
  | .ufundo f => .fx 0xC6 ⟨true, true, none⟩ f
  | .walk f => .fx 0xC7 ⟨true, true, none⟩ f
  | .wrule f => .fx 0xC8 ⟨true, true, none⟩ f
  | .wstatQ f => .fx 0xC9 ⟨true, true, (some 0)⟩ f
  | .wstatResume f => .fx 0xC9 ⟨true, true, (some 1)⟩ f
  | .wstatAbort f => .fx 0xC9 ⟨true, true, (some 2)⟩ f
  | .hacc f => .fx 0xCA ⟨true, true, none⟩ f
  | .hflush f => .fx 0xCB ⟨true, true, none⟩ f
  | .hstat f => .fx 0xCC ⟨true, true, none⟩ f
  | .scall f => .fx 0xD0 ⟨true, true, none⟩ f
  | .snotify f => .fx 0xD1 ⟨true, true, none⟩ f
  | .swaitF0 f => .f0 0xD2 f
  | .swaitF1 f => .fx 0xD2 ⟨true, false, none⟩ f
  | .mfcr f => .fx 0xD3 ⟨true, true, none⟩ f
  | .mtcr f => .fx 0xD4 ⟨true, true, none⟩ f
  | .eret f => .f0 0xD5 f
  | .tlbi f => .fx 0xD6 ⟨true, true, none⟩ f
  | .frz f => .fx 0xD7 ⟨true, true, none⟩ f
  | .drn f => .fx 0xD8 ⟨true, true, none⟩ f
  | .imgsv f => .fx 0xD9 ⟨true, true, (some 0)⟩ f
  | .imgsvDrop f => .fx 0xD9 ⟨true, true, (some 1)⟩ f
  | .imgld f => .fx 0xDA ⟨true, true, none⟩ f
  | .rgrant f => .fx 0xDB ⟨true, true, none⟩ f
  | .rfreeFree f => .fx 0xDC ⟨true, true, (some 0)⟩ f
  | .rfreeKill f => .fx 0xDC ⟨true, true, (some 1)⟩ f
  | .wdpetF0 f => .f0 0xDD f
  | .wdpetF1 f => .fx 0xDD ⟨true, false, none⟩ f
  | .ecntRd f => .fx 0xDE ⟨true, true, (some 0)⟩ f
  | .ecntSel f => .fx 0xDE ⟨true, true, (some 1)⟩ f
  | .ecntClr f => .fx 0xDE ⟨true, true, (some 2)⟩ f
  | .halt f => .f0 0xDF f
  | .lqTailWrite _ _ => .event
  | .cqnotifyWrite _ _ _ => .event
  | .ctxkillWrite _ _ => .event
  | .ctxptWrite _ _ => .event
  | .pchgWrite _ => .event
  | .migrationGo _ _ => .event
  | .stage _ => .event
  | .swapFirmware _ => .event
  | .bootsel _ => .event
  | .svnlock _ => .event
  | .bvcpwdWrite _ => .event
  | .controlRegisterWrite _ _ _ => .event
  | .hostApertureWrite _ _ _ => .event
  | .hostApertureRead _ _ _ => .event
  | .functionLevelReset _ => .event
  | .textFrame _ _ => .event
  | .blockerRecord _ => .event
  | .textReplyTimeout _ => .event
  | .vocload _ => .event
  | .vocdrop _ => .event
  | .podMemoryAccess _ _ _ _ _ => .event
  | .timeSyncMessage _ => .event
  | .claim _ _ => .event
  | .claimAck _ => .event
  | .heartbeat _ _ => .event
  | .heartbeatSend => .event
  | .heartbeatMiss => .event
  | .followerLoadStep _ _ _ => .event
  | .progressRecordQuery _ => .event
  | .powerStepDown _ _ => .event
  | .powerStepUp _ _ => .event
  | .thermalP3 _ _ => .event
  | .thermalReset _ _ => .event
  | .powerOnReset => .event
  | .serviceStageAdvance => .event
  | .scrub _ => .event
  | .linkCrcFailure _ => .event
  | .linkRetrainDone _ _ => .event
  | .regionStateUe _ _ _ => .event
  | .leaseExpiryWriteback _ _ _ _ _ _ => .event
  | .ptsAdvance => .event
  | .timestampRebase _ _ => .event
  | .watchdogL1 _ => .event
  | .watchdogL2 _ => .event
  | .watchdogL4 _ => .event
  | .watchdogL5 _ => .event
  | .cpWatchdogExpiry _ => .event
  | .takeover => .event
  | .launchAdmit _ => .event
  | .allocatorRound _ => .event
  | .launchStart _ => .event
  | .launchComplete _ => .event
  | .floorPreempt _ _ => .event
  | .hostAssistAnswer _ _ _ _ _ => .event
  | .drainComplete _ => .event
  | .drainTimeout _ => .event
  | .freezeCaptureClose _ => .event
  | .nodeReconfigure _ => .event
  | .firingStart _ => .event
  | .controlFiring _ => .event
  | .pacePoint _ => .event
  | .blockEntry _ => .event
  | .blockCommit _ => .event
  | .recordSend _ => .event
  | .recordArrival _ => .event
  | .spillRefill _ => .event
  | .linkArrival _ => .event
  | .joinArcArrival _ _ => .event
  | .joinFire _ => .event
  | .generatorPut _ => .event
  | .windowInput _ _ => .event
  | .sinkRecord _ => .event
  | .meStreamRecord _ => .event
  | .engineCommandStart _ _ => .event
  | .engineCompletion _ _ => .event
  | .loadReply _ => .event
  | .memoryRequest _ => .event
  | .barrierArrival _ => .event
  | .lkwaitAcquire _ => .event
  | .runBegin _ _ => .event
  | .trapDelivery _ => .event
  | .translationWalk _ _ _ _ => .event
  | .rateLimitRelease _ => .event
  | .iopWriteSend _ => .event
  | .iopAck _ => .event
  | .ioWriteAck _ => .event
  | .twaitDeadline _ => .event
  | .swaitWake _ => .event
  | .bvswapWrite _ _ => .event
  | .rodPortFailure _ => .event
  | .cfgWaveInject _ _ => .event
  | .podBarrierRelease _ _ => .event
  | .connectionClosed _ => .event

/-- The FX fields fit the row: F1 or F2 as the class allows (05 R97, R98), and the row's own `rm`. -/
def FXRow.fits (r : FXRow) (f : FX) : Bool :=
  (if f.lit.isSome then r.f2 else r.f1) && (match r.rm with | none => true | some m => f.rm == m)

/-- Some words decode to the instruction, or it is a device event. -/
def Instr.wf (i : Instr) : Bool :=
  match i.enc with
  | .f0 _ f => f.pm != 3
  | .fi _ f => f.pm != 3
  | .fx _ r f => f.pm != 3 && r.fits f
  | .event => true

end Sys2Proof
end

