-- ==== Sys2Proof/Decode.lean ====
section
/-! DEFINITION. The decoder and the encoder of spec/05_encodings_and_opcode_map.md: lengths (R77), the four formats
(R79 to R82), the opcode map (R97) and its reserved ops (R98). Decoding is total on any bytes and names what it rejects. -/
namespace Sys2Proof

/-- Why bytes are no instruction: the words end too soon, a block header stands where an instruction should (05 R77),
the op is reserved or its class has no such form (05 R98), or `rm` or `pm` holds a value its row does not have (05 R84, R91). -/
inductive DecodeError where
  | truncated | misplacedHeader | illegalOpcode
  deriving DecidableEq, Repr

/-- Bits [hi:lo] of a word, `n` of them from `lo` (00 R4). -/
def field (w : Word) (lo n : Nat) : BitVec n := w.extractLsb' lo n

/-- The F0 fields of a word (05 R79). -/
def F0.ofWord (w : Word) : F0 := ⟨field w 30 2, field w 21 9, field w 12 9, field w 10 2⟩

/-- The FI fields of a word (05 R80). -/
def FI.ofWord (w : Word) : FI := ⟨field w 21 11, field w 12 9, field w 10 2⟩

/-- The F1 and F2 fields of an instruction's words (05 R81, R82). -/
def FX.ofWords (w0 w1 : Word) (lit : Option Word) : FX :=
  ⟨field w0 30 2, field w0 21 9, field w0 12 9, field w0 10 2,
   field w1 27 5, field w1 24 3, field w1 20 4, field w1 16 4, field w1 8 8, field w1 0 8, lit⟩

/-- Word 0 of an F0 instruction. -/
def F0.toWord (op : Nat) (f : F0) : Word := f.w ++ f.t1 ++ f.t0 ++ f.pm ++ BitVec.ofNat 8 op ++ (0#2)

/-- Word 0 of an FI instruction. -/
def FI.toWord (op : Nat) (f : FI) : Word := f.imm ++ f.t0 ++ f.pm ++ BitVec.ofNat 8 op ++ (0#2)

/-- The words of an F1 or F2 instruction. -/
def FX.toWords (op : Nat) (f : FX) : List Word :=
  let w1 : Word := f.ety ++ f.pmask ++ f.stkB ++ f.stkA ++ f.srcB ++ f.srcA
  match f.lit with
  | none => [f.rm ++ f.t1 ++ f.t0 ++ f.pm ++ BitVec.ofNat 8 op ++ (1#2), w1]
  | some l => [f.rm ++ f.t1 ++ f.t0 ++ f.pm ++ BitVec.ofNat 8 op ++ (2#2), w1, l]

/-- The instruction, if its fields fit the row (05 R97, R98). -/
def row (r : FXRow) (f : FX) (i : Instr) : Option Instr := if r.fits f then some i else none

/-- The ops with an F0 form. -/
noncomputable def mkF0 (op : Nat) (f : F0) : Option Instr :=
  match op with
  | 0x01 => some (.addF0 f)
  | 0x02 => some (.subF0 f)
  | 0x04 => some (.mulF0 f)
  | 0x05 => some (.mulhF0 f)
  | 0x06 => some (.mulhuF0 f)
  | 0x07 => some (.madF0 f)
  | 0x08 => some (.divsF0 f)
  | 0x09 => some (.divuF0 f)
  | 0x0A => some (.remsF0 f)
  | 0x0B => some (.remuF0 f)
  | 0x0C => some (.negF0 f)
  | 0x0D => some (.absF0 f)
  | 0x0E => some (.minF0 f)
  | 0x0F => some (.maxF0 f)
  | 0x10 => some (.minuF0 f)
  | 0x11 => some (.maxuF0 f)
  | 0x12 => some (.addsF0 f)
  | 0x13 => some (.addsuF0 f)
  | 0x14 => some (.subsF0 f)
  | 0x15 => some (.subsuF0 f)
  | 0x16 => some (.avgF0 f)
  | 0x17 => some (.andF0 f)
  | 0x18 => some (.orF0 f)
  | 0x19 => some (.xorF0 f)
  | 0x1A => some (.andnF0 f)
  | 0x1B => some (.shlF0 f)
  | 0x1C => some (.shrF0 f)
  | 0x1D => some (.sarF0 f)
  | 0x1E => some (.rotlF0 f)
  | 0x22 => some (.clzF0 f)
  | 0x23 => some (.ctzF0 f)
  | 0x24 => some (.popcF0 f)
  | 0x25 => some (.brevF0 f)
  | 0x26 => some (.bswapF0 f)
  | 0x27 => some (.bfxF0 f)
  | 0x28 => some (.bfiF0 f)
  | 0x29 => some (.addshF0 f)
  | 0x2E => some (.movF0 f)
  | 0x30 => some (.ceqF0 f)
  | 0x31 => some (.cneF0 f)
  | 0x32 => some (.cltF0 f)
  | 0x33 => some (.cleF0 f)
  | 0x34 => some (.cltuF0 f)
  | 0x35 => some (.cleuF0 f)
  | 0x38 => some (.selF0 f)
  | 0x39 => some (.pandF0 f)
  | 0x3A => some (.porF0 f)
  | 0x3B => some (.pxorF0 f)
  | 0x3C => some (.pnotF0 f)
  | 0x3D => some (.panyF0 f)
  | 0x3E => some (.pallF0 f)
  | 0x3F => some (.pcntF0 f)
  | 0x40 => some (.bcastF0 f)
  | 0x41 => some (.lgetF0 f)
  | 0x42 => some (.lsetF0 f)
  | 0x43 => some (.permF0 f)
  | 0x44 => some (.lrotF0 f)
  | 0x45 => some (.zipF0 f)
  | 0x46 => some (.unzipF0 f)
  | 0x47 => some (.compressF0 f)
  | 0x48 => some (.expandF0 f)
  | 0x49 => some (.raddF0 f)
  | 0x4A => some (.rmaxF0 f)
  | 0x4B => some (.rminF0 f)
  | 0x4C => some (.rxorF0 f)
  | 0x4D => some (.scanF0 f)
  | 0x4E => some (.lidx f)
  | 0x4F => some (.dot4F0 f)
  | 0x50 => some (.faddF0 f)
  | 0x51 => some (.fsubF0 f)
  | 0x52 => some (.fmulF0 f)
  | 0x53 => some (.fmaF0 f)
  | 0x54 => some (.fmsF0 f)
  | 0x55 => some (.fnmaF0 f)
  | 0x56 => some (.fminF0 f)
  | 0x57 => some (.fmaxF0 f)
  | 0x58 => some (.fabsF0 f)
  | 0x59 => some (.fnegF0 f)
  | 0x5A => some (.feqF0 f)
  | 0x5B => some (.fltF0 f)
  | 0x5C => some (.fleF0 f)
  | 0x5D => some (.funF0 f)
  | 0x5E => some (.fclassF0 f)
  | 0x5F => some (.frcpF0 f)
  | 0x60 => some (.frsqF0 f)
  | 0x61 => some (.frcprF0 f)
  | 0x62 => some (.frsqrF0 f)
  | 0x63 => some (.fexp2F0 f)
  | 0x64 => some (.flog2F0 f)
  | 0x65 => some (.frndF0 f)
  | 0x66 => some (.fsclF0 f)
  | 0x69 => some (.fdotF0 f)
  | 0x6B => some (.bsclF0 f)
  | 0x6C => some (.fsum2F0 f)
  | 0x6D => some (.fclampF0 f)
  | 0x6E => some (.fcsgnF0 f)
  | 0x73 => some (.ret f)
  | 0x74 => some (.fend f)
  | 0x77 => some (.nop f)
  | 0x7A => some (.tick f)
  | 0x7B => some (.twaitF0 f)
  | 0x7C => some (.nullF0 f)
  | 0x80 => some (.putF0 f)
  | 0x8A => some (.wcloseF0 f)
  | 0x8C => some (.swapF0 f)
  | 0xB6 => some (.mclrF0 f)
  | 0xD2 => some (.swaitF0 f)
  | 0xD5 => some (.eret f)
  | 0xDD => some (.wdpetF0 f)
  | 0xDF => some (.halt f)
  | _ => none

/-- The ops with an FI form. -/
noncomputable def mkFI (op : Nat) (f : FI) : Option Instr :=
  match op with
  | 0x03 => some (.addiFi f)
  | 0x1F => some (.shliFi f)
  | 0x20 => some (.shriFi f)
  | 0x21 => some (.sariFi f)
  | 0x2A => some (.movi f)
  | 0x36 => some (.ceqiFi f)
  | 0x37 => some (.cltiFi f)
  | 0x75 => some (.loopnFi f)
  | 0x76 => some (.trap f)
  | 0x79 => some (.mfs f)
  | 0x7D => some (.brk f)
  | 0x99 => some (.fence f)
  | 0x9A => some (.qfence f)
  | _ => none

/-- The ops with an F1 or F2 form; `rm` picks the row where an op has several. -/
noncomputable def mkFX (op : Nat) (f : FX) : Option Instr :=
  match op with
  | 0x01 => row ⟨true, true, none⟩ f (.addF1F2 f)
  | 0x02 => row ⟨true, true, none⟩ f (.subF1F2 f)
  | 0x03 => row ⟨false, true, none⟩ f (.addiF2 f)
  | 0x04 => row ⟨true, true, none⟩ f (.mulF1F2 f)
  | 0x05 => row ⟨true, true, none⟩ f (.mulhF1F2 f)
  | 0x06 => row ⟨true, true, none⟩ f (.mulhuF1F2 f)
  | 0x07 => row ⟨true, true, none⟩ f (.madF1F2 f)
  | 0x08 => row ⟨true, true, none⟩ f (.divsF1F2 f)
  | 0x09 => row ⟨true, true, none⟩ f (.divuF1F2 f)
  | 0x0A => row ⟨true, true, none⟩ f (.remsF1F2 f)
  | 0x0B => row ⟨true, true, none⟩ f (.remuF1F2 f)
  | 0x0C => row ⟨true, false, none⟩ f (.negF1 f)
  | 0x0D => row ⟨true, false, none⟩ f (.absF1 f)
  | 0x0E => row ⟨true, true, none⟩ f (.minF1F2 f)
  | 0x0F => row ⟨true, true, none⟩ f (.maxF1F2 f)
  | 0x10 => row ⟨true, true, none⟩ f (.minuF1F2 f)
  | 0x11 => row ⟨true, true, none⟩ f (.maxuF1F2 f)
  | 0x12 => row ⟨true, true, none⟩ f (.addsF1F2 f)
  | 0x13 => row ⟨true, true, none⟩ f (.addsuF1F2 f)
  | 0x14 => row ⟨true, true, none⟩ f (.subsF1F2 f)
  | 0x15 => row ⟨true, true, none⟩ f (.subsuF1F2 f)
  | 0x16 => row ⟨true, true, none⟩ f (.avgF1F2 f)
  | 0x17 => row ⟨true, true, none⟩ f (.andF1F2 f)
  | 0x18 => row ⟨true, true, none⟩ f (.orF1F2 f)
  | 0x19 => row ⟨true, true, none⟩ f (.xorF1F2 f)
  | 0x1A => row ⟨true, true, none⟩ f (.andnF1F2 f)
  | 0x1B => row ⟨true, true, none⟩ f (.shlF1F2 f)
  | 0x1C => row ⟨true, true, none⟩ f (.shrF1F2 f)
  | 0x1D => row ⟨true, true, none⟩ f (.sarF1F2 f)
  | 0x1E => row ⟨true, true, none⟩ f (.rotlF1F2 f)
  | 0x1F => row ⟨false, true, none⟩ f (.shliF2 f)
  | 0x20 => row ⟨false, true, none⟩ f (.shriF2 f)
  | 0x21 => row ⟨false, true, none⟩ f (.sariF2 f)
  | 0x22 => row ⟨true, false, none⟩ f (.clzF1 f)
  | 0x23 => row ⟨true, false, none⟩ f (.ctzF1 f)
  | 0x24 => row ⟨true, false, none⟩ f (.popcF1 f)
  | 0x25 => row ⟨true, false, none⟩ f (.brevF1 f)
  | 0x26 => row ⟨true, false, none⟩ f (.bswapF1 f)
  | 0x27 => row ⟨true, true, none⟩ f (.bfxF1F2 f)
  | 0x28 => row ⟨true, true, none⟩ f (.bfiF1F2 f)
  | 0x29 => row ⟨true, true, none⟩ f (.addshF1F2 f)
  | 0x2B => row ⟨false, true, none⟩ f (.movl f)
  | 0x2C => row ⟨true, false, none⟩ f (.sext f)
  | 0x2D => row ⟨true, false, none⟩ f (.zext f)
  | 0x2E => row ⟨true, false, none⟩ f (.movF1 f)
  | 0x30 => row ⟨true, true, none⟩ f (.ceqF1F2 f)
  | 0x31 => row ⟨true, true, none⟩ f (.cneF1F2 f)
  | 0x32 => row ⟨true, true, none⟩ f (.cltF1F2 f)
  | 0x33 => row ⟨true, true, none⟩ f (.cleF1F2 f)
  | 0x34 => row ⟨true, true, none⟩ f (.cltuF1F2 f)
  | 0x35 => row ⟨true, true, none⟩ f (.cleuF1F2 f)
  | 0x36 => row ⟨false, true, none⟩ f (.ceqiF2 f)
  | 0x37 => row ⟨false, true, none⟩ f (.cltiF2 f)
  | 0x38 => row ⟨true, true, none⟩ f (.selF1F2 f)
  | 0x39 => row ⟨true, true, none⟩ f (.pandF1F2 f)
  | 0x3A => row ⟨true, true, none⟩ f (.porF1F2 f)
  | 0x3B => row ⟨true, true, none⟩ f (.pxorF1F2 f)
  | 0x3C => row ⟨true, false, none⟩ f (.pnotF1 f)
  | 0x3D => row ⟨true, false, none⟩ f (.panyF1 f)
  | 0x3E => row ⟨true, false, none⟩ f (.pallF1 f)
  | 0x3F => row ⟨true, false, none⟩ f (.pcntF1 f)
  | 0x40 => row ⟨true, true, none⟩ f (.bcastF1F2 f)
  | 0x41 => row ⟨true, true, none⟩ f (.lgetF1F2 f)
  | 0x42 => row ⟨true, true, none⟩ f (.lsetF1F2 f)
  | 0x43 => row ⟨true, true, none⟩ f (.permF1F2 f)
  | 0x44 => row ⟨true, true, none⟩ f (.lrotF1F2 f)
  | 0x45 => row ⟨true, true, none⟩ f (.zipF1F2 f)
  | 0x46 => row ⟨true, true, none⟩ f (.unzipF1F2 f)
  | 0x47 => row ⟨true, true, none⟩ f (.compressF1F2 f)
  | 0x48 => row ⟨true, true, none⟩ f (.expandF1F2 f)
  | 0x49 => row ⟨true, false, none⟩ f (.raddF1 f)
  | 0x4A => row ⟨true, false, none⟩ f (.rmaxF1 f)
  | 0x4B => row ⟨true, false, none⟩ f (.rminF1 f)
  | 0x4C => row ⟨true, false, none⟩ f (.rxorF1 f)
  | 0x4D => row ⟨true, false, none⟩ f (.scanF1 f)
  | 0x4F => row ⟨true, true, none⟩ f (.dot4F1F2 f)
  | 0x50 => row ⟨true, true, none⟩ f (.faddF1F2 f)
  | 0x51 => row ⟨true, true, none⟩ f (.fsubF1F2 f)
  | 0x52 => row ⟨true, true, none⟩ f (.fmulF1F2 f)
  | 0x53 => row ⟨true, true, none⟩ f (.fmaF1F2 f)
  | 0x54 => row ⟨true, true, none⟩ f (.fmsF1F2 f)
  | 0x55 => row ⟨true, true, none⟩ f (.fnmaF1F2 f)
  | 0x56 => row ⟨true, true, none⟩ f (.fminF1F2 f)
  | 0x57 => row ⟨true, true, none⟩ f (.fmaxF1F2 f)
  | 0x58 => row ⟨true, false, none⟩ f (.fabsF1 f)
  | 0x59 => row ⟨true, false, none⟩ f (.fnegF1 f)
  | 0x5A => row ⟨true, true, none⟩ f (.feqF1F2 f)
  | 0x5B => row ⟨true, true, none⟩ f (.fltF1F2 f)
  | 0x5C => row ⟨true, true, none⟩ f (.fleF1F2 f)
  | 0x5D => row ⟨true, true, none⟩ f (.funF1F2 f)
  | 0x5E => row ⟨true, false, none⟩ f (.fclassF1 f)
  | 0x5F => row ⟨true, false, none⟩ f (.frcpF1 f)
  | 0x60 => row ⟨true, false, none⟩ f (.frsqF1 f)
  | 0x61 => row ⟨true, true, none⟩ f (.frcprF1F2 f)
  | 0x62 => row ⟨true, true, none⟩ f (.frsqrF1F2 f)
  | 0x63 => row ⟨true, false, none⟩ f (.fexp2F1 f)
  | 0x64 => row ⟨true, false, none⟩ f (.flog2F1 f)
  | 0x65 => row ⟨true, false, none⟩ f (.frndF1 f)
  | 0x66 => row ⟨true, true, none⟩ f (.fsclF1F2 f)
  | 0x67 => row ⟨true, false, none⟩ f (.cvt f)
  | 0x68 => row ⟨true, false, none⟩ f (.cvts f)
  | 0x69 => row ⟨true, true, none⟩ f (.fdotF1F2 f)
  | 0x6A => row ⟨true, false, none⟩ f (.cbdec f)
  | 0x6B => row ⟨true, true, none⟩ f (.bsclF1F2 f)
  | 0x6C => row ⟨true, true, none⟩ f (.fsum2F1F2 f)
  | 0x6D => row ⟨true, true, none⟩ f (.fclampF1F2 f)
  | 0x6E => row ⟨true, true, none⟩ f (.fcsgnF1F2 f)
  | 0x70 => row ⟨false, true, none⟩ f (.br f)
  | 0x71 => row ⟨true, false, none⟩ f (.bri f)
  | 0x72 => row ⟨false, true, none⟩ f (.call f)
  | 0x75 => row ⟨false, true, none⟩ f (.loopnF2 f)
  | 0x78 => row ⟨true, false, none⟩ f (.rdr f)
  | 0x7B => row ⟨true, false, none⟩ f (.twaitF1 f)
  | 0x80 => row ⟨true, false, none⟩ f (.putF1 f)
  | 0x81 => row ⟨true, false, none⟩ f (.putk f)
  | 0x82 => row ⟨true, false, none⟩ f (.kget f)
  | 0x83 => row ⟨true, false, none⟩ f (.wget f)
  | 0x84 => row ⟨true, false, none⟩ f (.tget f)
  | 0x85 => row ⟨true, false, none⟩ f (.kind f)
  | 0x86 => row ⟨true, false, none⟩ f (.gap f)
  | 0x87 => row ⟨true, true, none⟩ f (.skip f)
  | 0x88 => (row ⟨true, true, some 0⟩ f (.qstat f) <|> row ⟨true, true, some 1⟩ f (.qstatClr f))
  | 0x89 => row ⟨true, true, none⟩ f (.qpol f)
  | 0x8A => row ⟨true, false, none⟩ f (.wcloseF1 f)
  | 0x8B => (row ⟨true, true, some 0⟩ f (.eof f) <|> row ⟨true, true, some 1⟩ f (.eofEnd f))
  | 0x8C => row ⟨true, false, none⟩ f (.swapF1 f)
  | 0x90 => row ⟨true, true, none⟩ f (.ld f)
  | 0x91 => row ⟨true, true, none⟩ f (.ldv f)
  | 0x92 => row ⟨true, true, none⟩ f (.ldg f)
  | 0x93 => row ⟨true, true, none⟩ f (.st f)
  | 0x94 => row ⟨true, true, none⟩ f (.stv f)
  | 0x95 => row ⟨true, true, none⟩ f (.sts f)
  | 0x96 => row ⟨true, true, none⟩ f (.ldsys f)
  | 0x97 => row ⟨true, true, none⟩ f (.stsys f)
  | 0x98 => row ⟨true, true, none⟩ f (.pref f)
  | 0x9B => row ⟨true, true, none⟩ f (.sinv f)
  | 0x9C => row ⟨true, true, none⟩ f (.swb f)
  | 0x9D => row ⟨true, true, none⟩ f (.smap f)
  | 0x9E => row ⟨true, true, none⟩ f (.aadd f)
  | 0x9F => row ⟨true, true, none⟩ f (.amin f)
  | 0xA0 => row ⟨true, true, none⟩ f (.amax f)
  | 0xA1 => row ⟨true, true, none⟩ f (.aand f)
  | 0xA2 => row ⟨true, true, none⟩ f (.aor f)
  | 0xA3 => row ⟨true, true, none⟩ f (.axor f)
  | 0xA4 => row ⟨true, true, none⟩ f (.axchg f)
  | 0xA5 => row ⟨true, true, none⟩ f (.acas f)
  | 0xA6 => row ⟨true, true, none⟩ f (.afadd f)
  | 0xA7 => row ⟨true, true, none⟩ f (.aaddv f)
  | 0xA8 => row ⟨true, true, none⟩ f (.lkacq f)
  | 0xA9 => row ⟨true, true, none⟩ f (.lkrel f)
  | 0xAA => row ⟨true, true, none⟩ f (.lkwait f)
  | 0xAB => row ⟨true, true, none⟩ f (.ldsh f)
  | 0xAC => row ⟨true, true, none⟩ f (.aminu f)
  | 0xAD => row ⟨true, true, none⟩ f (.amaxu f)
  | 0xB0 => row ⟨true, true, none⟩ f (.cpy f)
  | 0xB1 => row ⟨true, true, none⟩ f (.cpyx f)
  | 0xB2 => row ⟨true, true, none⟩ f (.cpyt f)
  | 0xB3 => (row ⟨true, true, some 0⟩ f (.mldL f) <|> row ⟨true, true, some 1⟩ f (.mldA f))
  | 0xB4 => row ⟨true, true, none⟩ f (.mmul f)
  | 0xB5 => row ⟨true, true, none⟩ f (.mrd f)
  | 0xB6 => row ⟨true, false, none⟩ f (.mclrF1 f)
  | 0xB7 => row ⟨true, true, none⟩ f (.mfmt f)
  | 0xB8 => row ⟨false, true, none⟩ f (.bar f)
  | 0xB9 => row ⟨false, true, none⟩ f (.bara f)
  | 0xBA => row ⟨false, true, none⟩ f (.barw f)
  | 0xBB => (row ⟨true, true, some 0⟩ f (.genk f) <|> row ⟨true, true, some 1⟩ f (.genkFlush f))
  | 0xC0 => row ⟨true, true, none⟩ f (.ufinit f)
  | 0xC1 => row ⟨true, true, none⟩ f (.unite f)
  | 0xC2 => row ⟨true, true, none⟩ f (.find f)
  | 0xC3 => row ⟨true, true, none⟩ f (.relabel f)
  | 0xC4 => row ⟨true, true, none⟩ f (.ccsize f)
  | 0xC5 => (row ⟨true, true, some 0⟩ f (.ufsnap f) <|> row ⟨true, true, some 1⟩ f (.ufsnapClose f))
  | 0xC6 => row ⟨true, true, none⟩ f (.ufundo f)
  | 0xC7 => row ⟨true, true, none⟩ f (.walk f)
  | 0xC8 => row ⟨true, true, none⟩ f (.wrule f)
  | 0xC9 => (row ⟨true, true, some 0⟩ f (.wstatQ f) <|> row ⟨true, true, some 1⟩ f (.wstatResume f) <|> row ⟨true, true, some 2⟩ f (.wstatAbort f))
  | 0xCA => row ⟨true, true, none⟩ f (.hacc f)
  | 0xCB => row ⟨true, true, none⟩ f (.hflush f)
  | 0xCC => row ⟨true, true, none⟩ f (.hstat f)
  | 0xD0 => row ⟨true, true, none⟩ f (.scall f)
  | 0xD1 => row ⟨true, true, none⟩ f (.snotify f)
  | 0xD2 => row ⟨true, false, none⟩ f (.swaitF1 f)
  | 0xD3 => row ⟨true, true, none⟩ f (.mfcr f)
  | 0xD4 => row ⟨true, true, none⟩ f (.mtcr f)
  | 0xD6 => row ⟨true, true, none⟩ f (.tlbi f)
  | 0xD7 => row ⟨true, true, none⟩ f (.frz f)
  | 0xD8 => row ⟨true, true, none⟩ f (.drn f)
  | 0xD9 => (row ⟨true, true, some 0⟩ f (.imgsv f) <|> row ⟨true, true, some 1⟩ f (.imgsvDrop f))
  | 0xDA => row ⟨true, true, none⟩ f (.imgld f)
  | 0xDB => row ⟨true, true, none⟩ f (.rgrant f)
  | 0xDC => (row ⟨true, true, some 0⟩ f (.rfreeFree f) <|> row ⟨true, true, some 1⟩ f (.rfreeKill f))
  | 0xDD => row ⟨true, false, none⟩ f (.wdpetF1 f)
  | 0xDE => (row ⟨true, true, some 0⟩ f (.ecntRd f) <|> row ⟨true, true, some 1⟩ f (.ecntSel f) <|> row ⟨true, true, some 2⟩ f (.ecntClr f))
  | _ => none

/-- Whether a 32-bit instruction of this op is FI: the class of its op decides (05 R77, R97). -/
def isFI (op : Nat) : Bool := [0x03, 0x1F, 0x20, 0x21, 0x2A, 0x36, 0x37, 0x75, 0x76, 0x79, 0x7D, 0x99, 0x9A].contains op

/-- Reads one instruction from a list of words and returns the words after it (05 R77 to R82, R97, R98). -/
noncomputable def decode : List Word → Except DecodeError (Instr × List Word)
  | [] => .error .truncated
  | w0 :: rest =>
    let op := (field w0 2 8).toNat
    match (field w0 0 2).toNat with
    | 0 =>
      if field w0 10 2 = 3 then .error .illegalOpcode
      else if isFI op then
        match mkFI op (FI.ofWord w0) with
        | some i => .ok (i, rest)
        | none => .error .illegalOpcode
      else
        match mkF0 op (F0.ofWord w0) with
        | some i => .ok (i, rest)
        | none => .error .illegalOpcode
    | 1 =>
      match rest with
      | w1 :: rest' =>
        if field w0 10 2 = 3 then .error .illegalOpcode
        else match mkFX op (FX.ofWords w0 w1 none) with
          | some i => .ok (i, rest')
          | none => .error .illegalOpcode
      | [] => .error .truncated
    | 2 =>
      match rest with
      | w1 :: l :: rest' =>
        if field w0 10 2 = 3 then .error .illegalOpcode
        else match mkFX op (FX.ofWords w0 w1 (some l)) with
          | some i => .ok (i, rest')
          | none => .error .illegalOpcode
      | _ => .error .truncated
    | _ => .error .misplacedHeader

/-- Four bytes, the lowest-addressed first, as a word (00 R5). -/
def wordOfBytes (b0 b1 b2 b3 : Byte) : Word := b3 ++ b2 ++ b1 ++ b0

/-- The bytes of a word, the lowest-addressed first (00 R5). -/
def bytesOfWord (w : Word) : List Byte := [field w 0 8, field w 8 8, field w 16 8, field w 24 8]

/-- The words that a list of bytes holds; fewer than four bytes at its end are dropped. -/
def wordsOfBytes : List Byte → List Word
  | b0 :: b1 :: b2 :: b3 :: rest => wordOfBytes b0 b1 b2 b3 :: wordsOfBytes rest
  | _ => []

/-- Reads the first instruction of a list of bytes. -/
noncomputable def decodeBytes (bs : List Byte) : Except DecodeError Instr := (decode (wordsOfBytes bs)).map Prod.fst

/-- The words of an instruction; none for a device event, which has no encoding. -/
def encode (i : Instr) : List Word :=
  match i.enc with
  | .f0 op f => [f.toWord op]
  | .fi op f => [f.toWord op]
  | .fx op _ f => f.toWords op
  | .event => []

/-- The three words of the longest instruction whose low `nbits` bits are those of `w`, all higher bits zero. -/
def tableWords (nbits w : Nat) : List Word :=
  let v := w % 2 ^ nbits
  [BitVec.ofNat 32 v, BitVec.ofNat 32 (v / 2 ^ 32), BitVec.ofNat 32 (v / 2 ^ 64)]

/-- The instruction the decoder reads from a word of spec/opcode_table.json: the words are laid out as little-endian
bytes, the first word at the lowest address, and decoded from those bytes. -/
noncomputable def decodeTableWord (nbits w : Nat) : Option Instr :=
  match decodeBytes ((tableWords nbits w).flatMap bytesOfWord) with
  | .ok i => some i
  | .error _ => none

end Sys2Proof
end

