-- ==== Sys2Proof/Config.lean ====
section
/-! DEFINITION. What the spec leaves to the implementation or leaves open: constants with no body, so that nothing can be
proved of their values. -/
namespace Sys2Proof.Config

/-- A value the spec leaves open, by the number of the choice (log 3): bytes read from host memory or a device, and the
order bits of an overlapping copy (14 R281). -/
opaque freeValue : Nat → Vec

/-- The fused key hash, 48 bytes (26 R460). -/
opaque keyHash : List Byte

/-- The Ethernet port that the hash of a connection picks (24 R430). -/
opaque connectionHash : Nat → Nat

/-- The physical base of the control-register space in the map of a command-processor core (26 R459). -/
opaque crBase : BitVec 64

end Sys2Proof.Config
end

