-- ==== Sys2Proof/Machine/Bits.lean ====
section
/-! DEFINITION. Elements of vectors, lane modes, element types and masks (spec 02_lane_to_pod.md R21;
03_number_and_token_formats.md R33 to R36, R54). An element is a natural number below 2 to its width; `sint` reads it as
a signed integer and `wrap` narrows an exact integer back to a width. -/
namespace Sys2Proof.Machine

/-- The lane modes (02 R21). -/
inductive Lanes where
  | l8 | l16 | l32
  deriving DecidableEq, Repr

/-- The element width of a lane mode in bits (02 R21). -/
def Lanes.width : Lanes → Nat
  | .l8 => 8
  | .l16 => 16
  | .l32 => 32

/-- The two header bits of a lane mode; code 3 is reserved (05 R93). -/
def Lanes.ofCode (c : Nat) : Option Lanes :=
  match c with
  | 0 => some .l8
  | 1 => some .l16
  | 2 => some .l32
  | _ => none

/-- Elements per vector at width `W`; a 64-bit type is one scalar (02 R21, 06 R104). -/
def count (W : Nat) : Nat := if W = 64 then 1 else 512 / W

/-- The widths of the elements that registers hold: 8, 16, 32 and 64 bits (03 R34). -/
def stdWidth (W : Nat) : Prop := W = 8 ∨ W = 16 ∨ W = 32 ∨ W = 64

/-- Element `j` at width `W` (03 R34). -/
def getE (W : Nat) (v : Vec) (j : Nat) : Nat := (v.toNat >>> (W * j)) % 2 ^ W

/-- The vector whose elements at width `W` are those of the list, element 0 lowest (03 R34). -/
def packNat (W : Nat) : List Nat → Nat
  | [] => 0
  | x :: xs => x % 2 ^ W + packNat W xs <<< W

/-- `packNat` as a vector: elements past bit 511 fall away. -/
def packE (W : Nat) (xs : List Nat) : Vec := BitVec.ofNat 512 (packNat W xs)

/-- The elements of a vector, in order. -/
def elemsOf (W : Nat) (v : Vec) : List Nat := (List.range (count W)).map (getE W v)

/-- An element read as two's complement (03 R33). -/
def sint (W x : Nat) : Int := if x < 2 ^ (W - 1) then (x : Int) else (x : Int) - (2 ^ W : Nat)

/-- An exact integer modulo 2 to the width (04 R59 Wrap). -/
def wrap (W : Nat) (i : Int) : Nat := (i % ((2 ^ W : Nat) : Int)).toNat

/-- Clamped to the signed range, as an element (04 R59 SatS). -/
def satS (W : Nat) (i : Int) : Nat :=
  if i < -((2 ^ (W - 1) : Nat) : Int) then 2 ^ (W - 1)
  else if i ≥ ((2 ^ (W - 1) : Nat) : Int) then 2 ^ (W - 1) - 1
  else wrap W i

/-- Clamped to the unsigned range (04 R59 SatU). -/
def satU (W : Nat) (i : Int) : Nat :=
  if i < 0 then 0 else if i ≥ ((2 ^ W : Nat) : Int) then 2 ^ W - 1 else i.toNat

/-- A scalar placed under 03 R35. -/
def scal (x : Nat) : Vec := BitVec.ofNat 512 (x % 2 ^ 64)

/-- The scalar read out of a vector (03 R35). -/
def lowScal (v : Vec) : Dword := v.extractLsb' 0 64

/-- The 64-bit scalar as a number. -/
def scalNat (v : Vec) : Nat := v.toNat % 2 ^ 64

/-- Whether element `j` of width `W` is active in a mask: the bit of its lowest slice (03 R36). A scalar is governed by
bit 0, a 4-bit pair by the bit of its byte (07 R148). -/
def active (mask : Dword) (W j : Nat) : Bool := mask.getLsbD (W * j / 8)

/-- The mask bits of element `j`: one per slice; a scalar has all 64 (03 R36, 06 R121). -/
def elemMask (W j : Nat) : Nat :=
  if W = 64 then 2 ^ 64 - 1 else (2 ^ (W / 8) - 1) <<< (W / 8 * j)

/-- The bits of element `j` in a vector. -/
def elemBits (W j : Nat) : Nat := (2 ^ W - 1) <<< (W * j)

/-- The element widths of 03 R54; `none` for the reserved codes 18 to 31. `lc2` counts one index of 16 bits. -/
def etyWidth (c : Nat) : Option Nat :=
  match c with
  | 0 | 1 => some 8
  | 2 | 3 => some 16
  | 4 | 5 => some 32
  | 6 | 7 => some 64
  | 8 => some 32
  | 9 | 10 => some 16
  | 11 | 12 => some 8
  | 13 => some 4
  | 14 => some 8
  | 15 | 16 => some 16
  | 17 => some 64
  | _ => none

/-- The integer codes 0 to 7 (06 R104). -/
def etyInt (c : Nat) : Bool := c < 8

/-- The signed (`i`) integer codes (03 R54). -/
def etySigned (c : Nat) : Bool := c < 8 && c % 2 == 0

/-- An element extended to an exact integer by the sign of its type. -/
def etyInteger (c W x : Nat) : Int := if etySigned c then sint W x else (x : Int)

/-- The most and least values of an integer type (06 R128). -/
def etyLeast (c W : Nat) : Int := if etySigned c then -((2 ^ (W - 1) : Nat) : Int) else 0
def etyGreatest (c W : Nat) : Int := if etySigned c then ((2 ^ (W - 1) : Nat) : Int) - 1 else ((2 ^ W : Nat) : Int) - 1

/-- The sum of a list of natural numbers. -/
def sumNat (xs : List Nat) : Nat := xs.foldl (· + ·) 0

/-- The bytes of a number, lowest first: `n` of them (00 R5). -/
def natBytes : Nat → Nat → List Byte
  | 0, _ => []
  | n + 1, x => BitVec.ofNat 8 x :: natBytes n (x / 256)

/-- The number that little-endian bytes hold (00 R5). -/
def bytesNat : List Byte → Nat
  | [] => 0
  | b :: bs => b.toNat + 256 * bytesNat bs

/-- Bits [lo+n-1:lo] of a number. -/
def bitsAt (x lo n : Nat) : Nat := (x >>> lo) % 2 ^ n

end Sys2Proof.Machine
end

