-- ==== Sys2Proof/Machine/Flags.lean ====
section
/-! DEFINITION. The five sticky flags (spec 04_arithmetic_rules.md R75) and when they set `exc` (R76). -/
namespace Sys2Proof.Machine

/-- The flag set: bit 0 nv, 1 dz, 2 of, 3 uf, 4 nx (04 R75). -/
abbrev FlagSet := BitVec 5

/-- No flag. -/
def fNone : FlagSet := 0#5
/-- Invalid. -/
def fNV : FlagSet := 1#5
/-- Divide-by-zero. -/
def fDZ : FlagSet := 2#5
/-- Overflow. -/
def fOF : FlagSet := 4#5
/-- Underflow. -/
def fUF : FlagSet := 8#5
/-- Inexact. -/
def fNX : FlagSet := 16#5

/-- The flags that set `exc` on the firing's puts: invalid, divide-by-zero and overflow (04 R76). -/
def flagsExc (f : FlagSet) : Bool := (f &&& 7#5) != 0#5

/-- A flag raised on a condition. -/
def flagIf (b : Bool) (f : FlagSet) : FlagSet := if b then f else fNone

/-- The register view of the flags: bits [63:5] are zero (04 R75). -/
def flagsScalar (f : FlagSet) : Nat := f.toNat

end Sys2Proof.Machine
end

