-- ==== Sys2Proof/Machine/Num.lean ====
section
/-! DEFINITION. Floating-point formats, the rounding helper, WT16, E8M0, LC2, the seeds, stochastic rounding and the
generator's mixing function (spec 03_number_and_token_formats.md R37 to R44; 04_arithmetic_rules.md R55 to R74). Every
value is exact (a signed natural times a power of two, or a quotient of naturals) until the one rounding. -/
namespace Sys2Proof.Machine

/-- The parameters of a floating-point format (03 R37, 04 R57). -/
structure FFmt where
  w : Nat
  m : Nat
  emin : Int
  emax : Int
  nmax : Nat
  hasInf : Bool
  /-- The quiet bit exists: a NaN with it clear is signalling (03 R38). -/
  quiet : Bool
  deriving DecidableEq, Repr

def fmtF32 : FFmt := ⟨32, 23, -126, 127, 2 ^ 24 - 1, true, true⟩
def fmtF16 : FFmt := ⟨16, 10, -14, 15, 2 ^ 11 - 1, true, true⟩
def fmtBF16 : FFmt := ⟨16, 7, -126, 127, 2 ^ 8 - 1, true, true⟩
def fmtE5M2 : FFmt := ⟨8, 2, -14, 15, 7, true, false⟩
def fmtE4M3 : FFmt := ⟨8, 3, -6, 8, 14, false, false⟩
def fmtE2M1 : FFmt := ⟨4, 1, 0, 2, 3, false, false⟩

/-- The floating-point format of an element type code (03 R54). -/
def floatFmt (ety : Nat) : Option FFmt :=
  match ety with
  | 8 => some fmtF32
  | 9 => some fmtBF16
  | 10 => some fmtF16
  | 11 => some fmtE4M3
  | 12 => some fmtE5M2
  | 13 => some fmtE2M1
  | _ => none

/-- A decoded value: NaN, an infinity, or a signed `n * 2^e` (04 R59 FValue). -/
inductive FVal where
  | nan (signalling : Bool)
  | inf (neg : Bool)
  | fin (neg : Bool) (n : Nat) (e : Int)
  deriving DecidableEq, Repr

/-- The value of an encoding (03 R37, R38). -/
def FFmt.value (F : FFmt) (x : Nat) : FVal :=
  let neg := bitsAt x (F.w - 1) 1 == 1
  let ew := F.w - 1 - F.m
  let ex := bitsAt x F.m ew
  let f := bitsAt x 0 F.m
  if ex = 2 ^ ew - 1 && F.hasInf then
    if f = 0 then .inf neg else .nan (F.quiet && f < 2 ^ (F.m - 1))
  else if F.m = 3 && ex = 15 && f = 7 then .nan false
  else if ex = 0 then .fin neg f (F.emin - F.m)
  else .fin neg (2 ^ F.m + f) (F.emin + ex - 1 - F.m)

/-- An encoding from a significand `n` at exponent `e`; below 2^m it is subnormal (04 R57 Encode). -/
def FFmt.encode (F : FFmt) (neg : Bool) (e : Int) (n : Nat) : Nat :=
  let s := if neg then 2 ^ (F.w - 1) else 0
  if n < 2 ^ F.m then s + n else s + ((e - F.emin + 1).toNat <<< F.m) + (n - 2 ^ F.m)

/-- The canonical NaN; `e2m1` has none and takes +0 (03 R38, 04 R58). -/
def FFmt.canonNaN (F : FFmt) : Nat :=
  if F.hasInf then ((2 ^ (F.w - 1 - F.m) - 1) <<< F.m) + 2 ^ (F.m - 1)
  else if F.m = 3 then 0x7F else 0

/-- The encoding of an infinity, where the format has one. -/
def FFmt.infinity (F : FFmt) (neg : Bool) : Nat :=
  (if neg then 2 ^ (F.w - 1) else 0) + ((2 ^ (F.w - 1 - F.m) - 1) <<< F.m)

/-- The largest finite encoding of a sign. -/
def FFmt.maxFinite (F : FFmt) (neg : Bool) : Nat := F.encode neg F.emax F.nmax

/-- The integer chosen for `num / den` under a rounding mode (04 R55). -/
def roundInt (num den mode : Nat) (neg : Bool) : Nat :=
  let q := num / den
  let r := num % den
  let up :=
    match mode with
    | 0 => 2 * r > den || (2 * r == den && q % 2 == 1)
    | 1 => false
    | 2 => r != 0 && !neg
    | _ => r != 0 && neg
  if up then q + 1 else q

/-- The floor of the base-two logarithm of a positive quotient. -/
def floorLog2 (num den : Nat) : Int :=
  let k : Int := (Nat.log2 num : Int) - (Nat.log2 den : Int)
  if num <<< (-k).toNat < den <<< k.toNat then k - 1 else k

/-- A quotient scaled by a power of two, as a numerator and a denominator. -/
def scaleQ (num den : Nat) (e : Int) : Nat × Nat := (num <<< e.toNat, den <<< (-e).toNat)

/-- The result of an overflow (04 R57). -/
def FFmt.overflow (F : FFmt) (neg : Bool) (mode : Nat) : Nat × FlagSet :=
  let toInf := mode == 0 || (mode == 2 && !neg) || (mode == 3 && neg)
  (if F.hasInf && toInf then F.infinity neg else F.maxFinite neg, fOF ||| fNX)

/-- What follows the choice of a significand: the carry into a new binade, overflow, underflow (04 R57). -/
def FFmt.finish (F : FFmt) (mode : Nat) (neg tiny inexact : Bool) (e : Int) (n : Nat) : Nat × FlagSet :=
  let (n, e) := if n = 2 ^ (F.m + 1) then (2 ^ F.m, e + 1) else (n, e)
  if e > F.emax ∨ (e = F.emax ∧ n > F.nmax) then F.overflow neg mode
  else (F.encode neg e n, flagIf inexact fNX ||| flagIf (tiny && inexact) fUF)

/-- The rounding helper on the magnitude `num / den` (04 R57). -/
def FFmt.round (F : FFmt) (mode : Nat) (neg : Bool) (num den : Nat) : Nat × FlagSet :=
  if num = 0 then (F.encode neg F.emin 0, fNone)
  else
    let l := floorLog2 num den
    let e := max l F.emin
    let (qn, qd) := scaleQ num den (F.m - e)
    F.finish mode neg (decide (l < F.emin)) (qn % qd != 0) e (roundInt qn qd mode neg)

/-- A decoded value rounded to a format, with the special inputs of 04 R58. -/
def FFmt.ofVal (F : FFmt) (mode : Nat) : FVal → Nat × FlagSet
  | .nan s => (F.canonNaN, flagIf (s || (!F.hasInf && F.m != 3)) fNV)
  | .inf neg =>
    if F.hasInf then (F.infinity neg, fNone)
    else if F.m = 3 then (0x7F, fNV) else (F.maxFinite neg, fNV)
  | .fin neg n e => let (p, q) := scaleQ n 1 e; F.round mode neg p q

/-- Whether a value is a signalling NaN, which raises invalid wherever it is an operand (03 R38). -/
def FVal.signalling : FVal → Bool
  | .nan s => s
  | _ => false

def FVal.isNaN : FVal → Bool
  | .nan _ => true
  | _ => false

def FVal.isZero : FVal → Bool
  | .fin _ 0 _ => true
  | _ => false

def FVal.neg : FVal → FVal
  | .nan s => .nan s
  | .inf b => .inf (!b)
  | .fin b n e => .fin (!b) n e

/-- Invalid if any operand is a signalling NaN. -/
def snan (vs : List FVal) : FlagSet := flagIf (vs.any FVal.signalling) fNV

/-- The exact product; zero times an infinity is invalid (04 R56). -/
def FVal.mul (a b : FVal) : FVal × FlagSet :=
  match a, b with
  | .nan _, _ => (.nan false, fNone)
  | _, .nan _ => (.nan false, fNone)
  | .inf s, .inf t => (.inf (s != t), fNone)
  | .inf s, .fin t n _ => if n = 0 then (.nan false, fNV) else (.inf (s != t), fNone)
  | .fin s n _, .inf t => if n = 0 then (.nan false, fNV) else (.inf (s != t), fNone)
  | .fin s n e, .fin t m f => (.fin (s != t) (n * m) (e + f), fNone)

/-- A finite term as a signed integer at exponent `e`, where `e` is at most the term's own exponent. -/
def FVal.at (e : Int) : FVal → Int
  | .fin s n f => let x : Int := (n <<< (f - e).toNat : Nat); if s then -x else x
  | _ => 0

/-- The least exponent among finite terms. -/
def leastExp (vs : List FVal) : Int :=
  vs.foldl (fun (a : Int) v => match v with | .fin _ _ e => min a e | _ => a) 0

/-- The exact sum of terms, with the sign of an exact zero as 04 R56 gives it: terms of one sign keep it, any other
zero sum is +0, and -0 under RDN. Opposite infinities are invalid (04 R56, R64). -/
def sumVals (mode : Nat) (vs : List FVal) : FVal × FlagSet :=
  let pos := vs.any (· == .inf false)
  let neg := vs.any (· == .inf true)
  let fl := flagIf (pos && neg) fNV
  if (pos && neg) || vs.any FVal.isNaN then (.nan false, fl)
  else if pos then (.inf false, fl)
  else if neg then (.inf true, fl)
  else
    let e := leastExp vs
    let t := (vs.map (FVal.at e)).foldl (· + ·) 0
    if t = 0 then
      let signs := vs.map fun v => match v with | .fin s _ _ => s | _ => false
      let allZero := vs.all FVal.isZero
      if allZero && signs.all id && !vs.isEmpty then (.fin true 0 0, fl)
      else if allZero && signs.all (!·) then (.fin false 0 0, fl)
      else (.fin (mode == 3) 0 0, fl)
    else (.fin (decide (t < 0)) t.natAbs e, fl)

/-- The order of two values that are not NaN; -0 equals +0. -/
def FVal.lt (a b : FVal) : Bool :=
  match a, b with
  | .nan _, _ => false
  | _, .nan _ => false
  | .inf s, .inf t => s && !t
  | .inf s, .fin _ _ _ => s
  | .fin _ _ _, .inf t => !t
  | .fin _ _ _, .fin _ _ _ => let e := leastExp [a, b]; decide (a.at e < b.at e)

def FVal.eq (a b : FVal) : Bool := !a.isNaN && !b.isNaN && !a.lt b && !b.lt a

/-- Two values summed exactly and rounded once (07 R137). -/
def FFmt.addF (F : FFmt) (mode : Nat) (a b : FVal) : Nat × FlagSet :=
  let (v, fl) := sumVals mode [a, b]
  let (r, fl') := F.ofVal mode v
  (r, fl ||| fl' ||| snan [a, b])

/-- Two values multiplied exactly and rounded once (07 R137). -/
def FFmt.mulF (F : FFmt) (mode : Nat) (a b : FVal) : Nat × FlagSet :=
  let (v, fl) := a.mul b
  let (r, fl') := F.ofVal mode v
  (r, fl ||| fl' ||| snan [a, b])

/-- `a * b + c`, rounded once (07 R137). -/
def FFmt.fmaF (F : FFmt) (mode : Nat) (a b c : FVal) : Nat × FlagSet :=
  let (p, fl) := a.mul b
  let (v, fl') := sumVals mode [p, c]
  let (r, fl'') := F.ofVal mode v
  (r, fl ||| fl' ||| fl'' ||| snan [a, b, c])

/-! ### Choices without rounding (07 R138) -/

/-- Order with -0 below +0, for `fmin` and `fmax`. -/
def FVal.ltZ (a b : FVal) : Bool :=
  if a.isZero && b.isZero then
    match a, b with
    | .fin s _ _, .fin t _ _ => s && !t
    | _, _ => false
  else a.lt b

/-- `fmax` (`big`) or `fmin` of two encodings (07 R138). -/
def FFmt.pick (F : FFmt) (big : Bool) (x y : Nat) : Nat × FlagSet :=
  let a := F.value x
  let b := F.value y
  let fl := snan [a, b]
  if a.isNaN then (if b.isNaN then F.canonNaN else y, fl)
  else if b.isNaN then (x, fl)
  else if big then (if a.ltZ b then y else x, fl)
  else (if b.ltZ a then y else x, fl)

/-- An encoding with its sign bit replaced; a NaN gives the canonical NaN (07 R138). -/
def FFmt.withSign (F : FFmt) (neg : Bool) (x : Nat) : Nat :=
  if (F.value x).isNaN then F.canonNaN
  else x % 2 ^ (F.w - 1) + (if neg then 2 ^ (F.w - 1) else 0)

/-- The sign bit of an encoding. -/
def FFmt.sign (F : FFmt) (x : Nat) : Bool := bitsAt x (F.w - 1) 1 == 1

/-- The class bit of an encoding (07 R140). -/
def FFmt.classBit (F : FFmt) (x : Nat) : Nat :=
  match F.value x with
  | .nan s => if s then 8 else 9
  | .inf neg => if neg then 0 else 7
  | .fin neg n _ =>
    if n = 0 then (if neg then 3 else 4)
    else if n < 2 ^ F.m then (if neg then 2 else 5)
    else (if neg then 1 else 6)

/-! ### E8M0 and WT16 -/

/-- The value of an `e8m0` code (03 R40). -/
def e8m0Value (c : Nat) : FVal := if c = 0xFF then .nan false else .fin false 1 (c - 127)

/-- A value converted to `e8m0` (04 R58). -/
def e8m0OfVal (mode : Nat) : FVal → Nat × FlagSet
  | .nan _ => (0xFF, fNV)
  | .inf _ => (0xFF, fNV)
  | .fin neg n e =>
    if neg || n = 0 then (0xFF, fNV)
    else
      let (p, q) := scaleQ n 1 e
      let k := floorLog2 p q
      let (sn, sd) := scaleQ p q (-k)
      let exact := sn == sd
      let up :=
        match mode with
        | 0 => 2 * sn > 3 * sd || (2 * sn == 3 * sd && (k + 127) % 2 == 1)
        | 2 => !exact
        | _ => false
      let code : Int := (if up then k + 1 else k) + 127
      if code < 0 then (0, fUF ||| fNX)
      else if code > 254 then (0xFF, fOF ||| fNX)
      else (code.toNat, flagIf (!exact) fNX)

/-- The value of a WT16 weight; every encoding with exponent 0 is zero (03 R41). -/
def wt16Value (x : Nat) : FVal :=
  let e := bitsAt x 10 6
  if e = 0 then .fin false 0 0 else .fin false (1024 + x % 1024) ((e : Int) - 41)

/-- A positive quotient rounded to WT16: the encoding, whether a bound replaced it, and the flags of 07 R149
(03 R42). DESIGN CHOICE (log 54): the bounds are tested after the rounding, so an exact value just outside that rounds to a bound does not
set `wsat`. -/
def wt16Round (mode num den : Nat) : Nat × Bool × FlagSet :=
  if num = 0 then (0, false, fNone)
  else
    let l := floorLog2 num den
    let (qn, qd) := scaleQ num den (10 - l)
    let n := roundInt qn qd mode false
    let (n, e) := if n = 2048 then (1024, l + 1) else (n, l)
    if e > 32 then (0xFFFF, true, fOF ||| fNX)
    else if e < -30 then (0x0400, true, fUF ||| fNX)
    else ((e + 31).toNat * 1024 + (n - 1024), false, flagIf (qn % qd != 0) fNX)

/-- WT16 of an exact non-negative value, with the saturation bit. -/
def wt16OfFin (v : FVal) : Nat × Bool :=
  match v with
  | .fin _ n e => let (p, q) := scaleQ n 1 e; let r := wt16Round 0 p q; (r.1, r.2.1)
  | _ => (0, false)

/-- The WT16 product and sum (03 R42, 04 R59). -/
def wt16Mul (a b : Nat) : Nat × Bool := wt16OfFin ((wt16Value a).mul (wt16Value b)).1
def wt16Add (a b : Nat) : Nat × Bool := wt16OfFin (sumVals 0 [wt16Value a, wt16Value b]).1

/-- A float value converted to WT16 (07 R149). -/
def wt16OfVal (mode : Nat) : FVal → Nat × FlagSet
  | .nan _ => (0, fNV)
  | .inf neg => if neg then (0, fNV) else (0xFFFF, fOF)
  | .fin neg n e =>
    if n = 0 then (0, fNone)
    else if neg then (0, fNV)
    else let (p, q) := scaleQ n 1 e; let r := wt16Round mode p q; (r.1, r.2.2)

/-- The `f32` sum of two `f32` encodings, for the weights and losses that add as reals. -/
def f32Add (a b : Nat) : Nat := (fmtF32.addF 0 (fmtF32.value a) (fmtF32.value b)).1

/-- A WT16 weight as an `f32` encoding: exact (03 R41). -/
def wt16ToF32 (w : Nat) : Nat := (fmtF32.ofVal 0 (wt16Value w)).1

/-! ### LC2 (03 R43) -/

/-- The coordinates of one index against its base-table row, in quarters; `negs` counts the negative coordinates so
far, and coordinate 7 takes the sign that makes their number even. -/
def lc2Coords (idx row : Nat) : Nat → Nat → Nat → List Int
  | 0, _, _ => []
  | k + 1, j, negs =>
    let m : Int := (2 * bitsAt row (4 * j) 4 + idx % 2 : Nat)
    let s := if j < 7 then bitsAt idx (j + 1) 1 else negs % 2
    (if s = 1 then -m else m) :: lc2Coords idx row k (j + 1) (negs + s)

/-- The eight weights of an index, in quarters (03 R43). -/
def decodeLC2 (idx row : Nat) : List Int := lc2Coords idx row 8 0 0

/-- A count of quarters as an exact value. -/
def quarters (i : Int) : FVal := .fin (decide (i < 0)) i.natAbs (-2)

/-! ### Seeds (04 R68 to R74) -/

/-- The largest `y` below 2^k, counted from bit `k - 1` down, for which a monotone test holds. -/
def searchBits (p : Nat → Bool) : Nat → Nat → Nat
  | 0, acc => acc
  | k + 1, acc => if p (acc + 2 ^ k) then searchBits p k (acc + 2 ^ k) else searchBits p k acc

/-- RoundHalfUp(2^24 * 256 / (256 + i)) (04 R68). -/
def rcpTable (i : Nat) : Nat := (2 * 2 ^ 32 + (256 + i)) / (2 * (256 + i))

/-- RoundHalfUp(2^24 / sqrt(p / q)): the largest `y` with `(2 y - 1)^2 p` at most `2^50 q` (04 R69). -/
def rsqTable (p q : Nat) : Nat := searchBits (fun y => (2 * y - 1) ^ 2 * p ≤ 2 ^ 50 * q) 26 0

/-- RoundHalfUp(2^23 * 2^(i/256)): the largest `y` with `(2 y - 1)^256` at most `2^(24 * 256 + i)` (04 R70). -/
def exp2Table (i : Nat) : Nat := searchBits (fun y => (2 * y - 1) ^ 256 ≤ 2 ^ (24 * 256 + i)) 25 0

/-- RoundHalfUp(2^24 * log2(1 + i/256)) for i = 0 to 256 (04 R71). -/
def log2Table : List Nat :=
  [0, 94364, 188362, 281996, 375270, 468185, 560745, 652952, 744810, 836320, 927485, 1018309,
   1108793, 1198939, 1288752, 1378232, 1467383, 1556207, 1644705, 1732882, 1820738, 1908277, 1995500, 2082410,
   2169009, 2255299, 2341283, 2426963, 2512340, 2597417, 2682196, 2766679, 2850868, 2934766, 3018374, 3101694,
   3184728, 3267478, 3349946, 3432134, 3514044, 3595678, 3677038, 3758124, 3838941, 3919488, 3999768, 4079782,
   4159533, 4239023, 4318251, 4397222, 4475935, 4554394, 4632599, 4710552, 4788255, 4865709, 4942916, 5019878,
   5096595, 5173071, 5249305, 5325300] ++
  [5401057, 5476578, 5551864, 5626916, 5701737, 5776327, 5850688, 5924821, 5998727, 6072409, 6145867, 6219103,
   6292118, 6364913, 6437490, 6509850, 6581994, 6653924, 6725641, 6797146, 6868440, 6939525, 7010402, 7081072,
   7151536, 7221795, 7291852, 7361706, 7431359, 7500812, 7570066, 7639123, 7707984, 7776649, 7845119, 7913397,
   7981483, 8049377, 8117082, 8184598, 8251926, 8319067, 8386022, 8452793, 8519380, 8585785, 8652008, 8718050,
   8783912, 8849596, 8915102, 8980431, 9045584, 9110562, 9175366, 9239998, 9304457, 9368745, 9432863, 9496811,
   9560591, 9624203, 9687648, 9750928] ++
  [9814042, 9876993, 9939780, 10002404, 10064867, 10127170, 10189312, 10251295, 10313120, 10374787, 10436298, 10497652,
   10558852, 10619897, 10680789, 10741528, 10802114, 10862550, 10922835, 10982970, 11042956, 11102794, 11162484, 11222028,
   11281425, 11340677, 11399784, 11458748, 11517568, 11576245, 11634780, 11693175, 11751428, 11809542, 11867517, 11925353,
   11983051, 12040612, 12098037, 12155325, 12212479, 12269497, 12326382, 12383133, 12439752, 12496238, 12552593, 12608817,
   12664911, 12720875, 12776710, 12832416, 12887994, 12943445, 12998770, 13053968, 13109041, 13163988, 13218811, 13273511,
   13328087, 13382540, 13436871, 13491080] ++
  [13545168, 13599135, 13652983, 13706711, 13760320, 13813810, 13867183, 13920438, 13973576, 14026597, 14079503, 14132294,
   14184969, 14237530, 14289978, 14342312, 14394532, 14446641, 14498638, 14550523, 14602297, 14653961, 14705514, 14756958,
   14808293, 14859519, 14910637, 14961648, 15012551, 15063347, 15114037, 15164621, 15215099, 15265473, 15315742, 15365906,
   15415967, 15465925, 15515779, 15565531, 15615181, 15664730, 15714177, 15763523, 15812769, 15861915, 15910962, 15959909,
   16008758, 16057508, 16106160, 16154714, 16203172, 16251532, 16299796, 16347964, 16396036, 16444013, 16491896, 16539683,
   16587377, 16634976, 16682482, 16729896] ++
  [16777216]

/-- A finite non-zero magnitude normalised to 2^E * (1 + f / 2^23); it has at most 24 significant bits. -/
def norm23 (n : Nat) (e : Int) : Int × Nat :=
  let l := Nat.log2 n
  (e + l, (n <<< 23 >>> l) % 2 ^ 23)

/-- The `frcp` seed of a finite non-zero value (04 R68, R72: overflow alone where it overflows). -/
def frcpSeed (neg : Bool) (n : Nat) (e : Int) : Nat × FlagSet :=
  let (E, f) := norm23 n e
  let i := f >>> 15
  let s := rcpTable i - (((rcpTable i - rcpTable (i + 1)) * (f % 2 ^ 15)) >>> 15)
  let (p, q) := scaleQ s 1 (-24 - E)
  let r := fmtF32.round 0 neg p q
  (r.1, if r.2 &&& fOF != fNone then fOF else r.2)

/-- The `frsq` seed of a finite positive value (04 R69). -/
def frsqSeed (n : Nat) (e : Int) : Nat × FlagSet :=
  let (E, f) := norm23 n e
  let i := f >>> 16
  let y := fun k => if E % 2 = 0 then rsqTable (128 + k) 128 else rsqTable (128 + k) 64
  let s := y i - (((y i - y (i + 1)) * (f % 2 ^ 16)) >>> 16)
  let (p, q) := scaleQ s 1 (-24 - E / 2)
  fmtF32.round 0 false p q

/-- The `fexp2` seed of a finite value (04 R70, R72). -/
def fexp2Seed (neg : Bool) (n : Nat) (e : Int) : Nat × FlagSet :=
  if n = 0 then (0x3F800000, fNone)
  else if e + Nat.log2 n > 20 then (if neg then (0, fUF ||| fNX) else (fmtF32.infinity false, fOF))
  else
    let k := (-e).toNat
    let x : Int := (n <<< e.toNat : Nat)
    let x := if neg then -x else x
    let d : Int := (2 ^ k : Nat)
    let fl := x / d
    let g := (x % d).toNat
    let i := g * 256 / 2 ^ k
    let t := (g * 256 % 2 ^ k) * 2 ^ 15 / 2 ^ k
    let s := exp2Table i + (((exp2Table (i + 1) - exp2Table i) * t) >>> 15)
    if fl > 200 then (fmtF32.infinity false, fOF)
    else if fl < -200 then (0, fUF ||| fNX)
    else
      let (p, q) := scaleQ s 1 (fl - 23)
      let r := fmtF32.round 0 false p q
      (r.1, if r.2 &&& fOF != fNone then fOF else r.2)

/-- The `flog2` seed of a finite positive value: the polynomial of 04 R71 within 2^-4 of 1, else the table. -/
def flog2Seed (n : Nat) (e : Int) : Nat × FlagSet :=
  let (p, q) := scaleQ n 1 e
  if 15 * q ≤ 16 * p ∧ 16 * p ≤ 17 * q then
    let y : Int := (p : Int) - q
    let d : Int := q
    let num := y * (12 * d ^ 3 - 6 * y * d ^ 2 + 4 * y ^ 2 * d - 3 * y ^ 3)
    match fmtF32.value 0x3FB8AA3B with
    | .fin _ c ce =>
      let (rn, rd) := scaleQ (num.natAbs * c) (12 * q ^ 4) ce
      fmtF32.round 0 (decide (num < 0)) rn rd
    | _ => (0, fNone)
  else
    let (E, f) := norm23 n e
    let i := f >>> 15
    let a := log2Table.getD i 0
    let b := log2Table.getD (i + 1) 0
    let t : Int := E * (2 ^ 24 : Nat) + ((a + (((b - a) * (f % 2 ^ 15)) >>> 15) : Nat) : Int)
    fmtF32.round 0 (decide (t < 0)) t.natAbs (2 ^ 24)

/-- The four seed instructions. -/
inductive Seed where
  | rcp | rsq | exp2 | log2
  deriving DecidableEq, Repr

/-- A seed of a decoded value, as an `f32` (04 R68 to R73). -/
def seedF32 (k : Seed) (v : FVal) : Nat × FlagSet :=
  let inf := fmtF32.infinity
  let nan := fmtF32.canonNaN
  match k, v with
  | _, .nan s => (nan, flagIf s fNV)
  | .rcp, .inf neg => (if neg then 0x80000000 else 0, fNone)
  | .exp2, .inf neg => (if neg then 0 else inf false, fNone)
  | .rsq, .inf neg => if neg then (nan, fNV) else (0, fNone)
  | .log2, .inf neg => if neg then (nan, fNV) else (inf false, fNone)
  | .exp2, .fin neg n e => fexp2Seed neg n e
  | .rcp, .fin neg n e => if n = 0 then (inf neg, fDZ) else frcpSeed neg n e
  | .rsq, .fin neg n e =>
    if n = 0 then (inf neg, fDZ) else if neg then (nan, fNV) else frsqSeed n e
  | .log2, .fin neg n e =>
    if n = 0 then (inf true, fDZ) else if neg then (nan, fNV) else flog2Seed n e

/-- A seed in the operand's format: `bf16` and `f16` round the `f32` seed (04 R72). -/
def FFmt.seed (F : FFmt) (k : Seed) (x : Nat) : Nat × FlagSet :=
  let r := seedF32 k (F.value x)
  if F.w = 32 then r
  else let r' := F.ofVal 0 (fmtF32.value r.1); (r'.1, r.2 ||| r'.2)

/-- A refinement step: `y (2 - x y)` for the reciprocal, `y (3 - x y^2) / 2` for the root (04 R74). -/
def FFmt.refine (F : FFmt) (root : Bool) (mode x y : Nat) : Nat × FlagSet :=
  let a := F.value x
  let b := F.value y
  let fl := snan [a, b]
  match a, b with
  | _, .nan _ => (F.canonNaN, fl)
  | .fin sx nx ex, .fin sy ny ey =>
    if nx = 0 ∨ ny = 0 then (y, fl)
    else
      let vx := FVal.fin sx nx ex
      let vy := FVal.fin sy ny ey
      let t := if root then (vx.mul (vy.mul vy).1).1 else (vx.mul vy).1
      let c := if root then FVal.fin false 3 0 else FVal.fin false 2 0
      let d := (sumVals mode [c, t.neg]).1
      match (vy.mul d).1 with
      | .fin s n e => F.ofVal mode (.fin s n (if root then e - 1 else e))
      | v => F.ofVal mode v
  | _, _ => (y, fl)

/-! ### Stochastic rounding (04 R65) -/

/-- `F.m` bits of destination precision, random field `rho` of the source width `W`. -/
def FFmt.stochastic (F src : FFmt) (x rho : Nat) : Nat × FlagSet :=
  match src.value x with
  | .fin neg n e =>
    if n = 0 then F.ofVal 0 (.fin neg 0 0)
    else
      let up := src.m - Nat.log2 n
      let n := n <<< up
      let e := e - up
      let l := e + src.m
      let ed := max l F.emin
      let d := ed - F.m - e
      if d ≤ 0 then F.finish 0 neg (decide (l < F.emin)) false ed (n <<< (-d).toNat)
      else
        let k := d.toNat
        let D := n % 2 ^ k
        let r := if k ≤ src.w then rho % 2 ^ k else (rho % 2 ^ src.w) <<< (k - src.w)
        let kept := n >>> k
        F.finish 0 neg (decide (l < F.emin)) (D != 0) ed (if D + r ≥ 2 ^ k then kept + 1 else kept)
  | v => F.ofVal 0 v

/-! ### The generator (04 R66) -/

/-- The mixing function; all products modulo 2^64. -/
def mix64 (x : Dword) : Dword :=
  let x := x ^^^ (x >>> 31)
  let x := x * 0xB47C9A2E51D36F8B#64
  let x := x ^^^ (x >>> 29)
  let x := x * 0x6E2FD41A93C50B77#64
  x ^^^ (x >>> 32)

/-- The payload of the RAND token of a counter value: lane `i` is the low word of the mixed `key XOR (16 c + i)`. -/
def randPayload (key ctr : Dword) : Vec :=
  packE 32 ((List.range 16).map fun i => (mix64 (key ^^^ (16#64 * ctr + BitVec.ofNat 64 i))).toNat % 2 ^ 32)

end Sys2Proof.Machine
end

