-- ==== Sys2Proof/Machine/Values.lean ====
section
/-! DEFINITION. What a value instruction computes from its gathered operands: the operand record, the result record with
the bits an inactive element keeps, and the two builders every element-by-element op is written with (spec
05_encodings_and_opcode_map.md R82, R83, R92; 06 R103, R104, R121). -/
namespace Sys2Proof.Machine

/-- The operands of a value instruction as it issues. -/
structure Opnds where
  /-- Element type code (03 R54). -/
  ty : Nat
  /-- Element width. -/
  W : Nat
  lanes : Lanes
  /-- The rounding mode or modifier code: `rm`, or 0 in F0 and FI (05 R79, R84). -/
  rm : Nat
  a : Vec
  b : Vec
  c : Vec
  /-- The lane mask: the value of `pmask`, or all ones in F0 and FI (05 R92). -/
  mask : Dword
  /-- The immediate of the class B ops, sign-extended (05 R80, R82). -/
  imm : Int
  /-- The raw `srcB`, `stkB` fields, which `sext`, `zext` and `cvt` read as codes (05 R85, 07 R147). -/
  srcB : Nat
  stkB : Nat
  deriving DecidableEq, Repr

/-- A result: the value for `T0` and for `T1`, the bits that a register target keeps from its committed value
(inactive elements, 05 R92), and the flags raised. -/
structure Res where
  out : Vec
  out1 : Vec
  keep : Vec
  flags : FlagSet
  deriving DecidableEq, Repr

/-- A result with the same value for both targets. -/
def Res.mk1 (out keep : Vec) (flags : FlagSet) : Res := ⟨out, out, keep, flags⟩

/-- A result that `pmask` does not govern. -/
def Res.plain (out : Vec) : Res := ⟨out, out, 0, fNone⟩

/-- An ungoverned scalar. -/
def Res.scalar (x : Nat) : Res := .plain (scal x)

/-- All 512 bits. -/
def allOnes : Vec := BitVec.allOnes 512

/-- Element `j` of an operand at the instruction's width. -/
def Opnds.ea (o : Opnds) (j : Nat) : Nat := getE o.W o.a j
def Opnds.eb (o : Opnds) (j : Nat) : Nat := getE o.W o.b j
def Opnds.ec (o : Opnds) (j : Nat) : Nat := getE o.W o.c j

/-- Whether element `j` is active (05 R92). -/
def Opnds.act (o : Opnds) (j : Nat) : Bool := active o.mask o.W j

/-- The flags of a list of element results. -/
def orFlags (rs : List (Nat × FlagSet)) : FlagSet := rs.foldl (fun f r => f ||| r.2) fNone

/-- The bits of inactive elements at width `W`, `n` elements; an inactive scalar keeps the whole register. -/
def keepBits (W n : Nat) (mask : Dword) : Vec :=
  if W = 64 then (if active mask 64 0 then 0 else allOnes)
  else packE W ((List.range n).map fun j => if active mask W j then 0 else 2 ^ W - 1)

/-- Element `j` of the result is `f j` where active; an inactive element is zero, raises nothing and is kept at a
register target (05 R92). `W` is the width of the result's elements. -/
def byElement (W n : Nat) (mask : Dword) (f : Nat → Nat × FlagSet) : Res :=
  let rs := (List.range n).map fun j => if active mask W j then f j else (0, fNone)
  .mk1 (packE W (rs.map Prod.fst)) (keepBits W n mask) (orFlags rs)

/-- `byElement` at the instruction's own width. -/
def Opnds.elements (o : Opnds) (f : Nat → Nat × FlagSet) : Res := byElement o.W (count o.W) o.mask f

/-- `elements` with no flags. -/
def Opnds.pure (o : Opnds) (f : Nat → Nat) : Res := o.elements fun j => (f j, fNone)

/-- A predicate mask: every bit of an active element is set when the relation holds (06 R121); the bits of an inactive
element are zero, or kept at a register target. DESIGN CHOICE (log 54): at a `v` register, a scalar comparison that is inactive keeps
bits [63:0], which a mask fills, and bits [511:64] become zero. -/
def Opnds.relation (o : Opnds) (f : Nat → Bool × FlagSet) : Res :=
  let n := count o.W
  let rs := (List.range n).map fun j =>
    if o.act j then (let r := f j; (if r.1 then elemMask o.W j else 0, r.2)) else (0, fNone)
  let kept := (List.range n).map fun j => if o.act j then 0 else elemMask o.W j
  .mk1 (scal (sumNat (rs.map Prod.fst))) (scal (sumNat kept)) (orFlags rs)

/-- `relation` with no flags. -/
def Opnds.compare (o : Opnds) (f : Nat → Bool) : Res := o.relation fun j => (f j, fNone)

/-- A literal placed as operand B: its low bits in every element of a vector type, or extended to 64 bits by the sign of
a 64-bit type (05 R82). DESIGN CHOICE (log 54): the literal of a predicate op, whose type 17 is neither `i` nor `n`, is extended with
zeros. -/
def placeLiteral (ty W : Nat) (l : Word) : Vec :=
  if W = 64 then scal (if etySigned ty then wrap 64 (sint 32 l.toNat) else l.toNat)
  else packE W (List.replicate (512 / W) (l.toNat % 2 ^ W))

end Sys2Proof.Machine
end

