-- ==== Sys2Proof/Machine/IntOps.lean ====
section
/-! DEFINITION. The results of the integer, compare, predicate and lane instructions (spec
06_integer_lane_predicate_instructions.md R109 to R131), as functions of their operands. -/
namespace Sys2Proof.Machine

/-! ### Arithmetic (R109 to R113) -/

/-- Operand B of a class B op: element `j` uses the low bits of the immediate (R110). -/
def Opnds.immE (o : Opnds) : Nat := wrap o.W o.imm

def intAdd (o : Opnds) : Res := o.pure fun j => (o.ea j + o.eb j) % 2 ^ o.W
def intSub (o : Opnds) : Res := o.pure fun j => wrap o.W ((o.ea j : Int) - o.eb j)
def intAddi (o : Opnds) : Res := o.pure fun j => (o.ea j + o.immE) % 2 ^ o.W
def intMul (o : Opnds) : Res := o.pure fun j => o.ea j * o.eb j % 2 ^ o.W
def intMulh (o : Opnds) : Res :=
  o.pure fun j => wrap o.W (sint o.W (o.ea j) * sint o.W (o.eb j) / (2 ^ o.W : Nat))
def intMulhu (o : Opnds) : Res := o.pure fun j => o.ea j * o.eb j / 2 ^ o.W
def intMad (o : Opnds) : Res := o.pure fun j => (o.ea j * o.eb j + o.ec j) % 2 ^ o.W
def intNeg (o : Opnds) : Res := o.pure fun j => wrap o.W (-(o.ea j : Int))
def intAbs (o : Opnds) : Res := o.pure fun j => (sint o.W (o.ea j)).natAbs % 2 ^ o.W
def intMin (o : Opnds) : Res :=
  o.pure fun j => if sint o.W (o.eb j) < sint o.W (o.ea j) then o.eb j else o.ea j
def intMax (o : Opnds) : Res :=
  o.pure fun j => if sint o.W (o.ea j) < sint o.W (o.eb j) then o.eb j else o.ea j
def intMinu (o : Opnds) : Res := o.pure fun j => min (o.ea j) (o.eb j)
def intMaxu (o : Opnds) : Res := o.pure fun j => max (o.ea j) (o.eb j)
def intAdds (o : Opnds) : Res := o.pure fun j => satS o.W (sint o.W (o.ea j) + sint o.W (o.eb j))
def intAddsu (o : Opnds) : Res := o.pure fun j => satU o.W ((o.ea j : Int) + o.eb j)
def intSubs (o : Opnds) : Res := o.pure fun j => satS o.W (sint o.W (o.ea j) - sint o.W (o.eb j))
def intSubsu (o : Opnds) : Res := o.pure fun j => satU o.W ((o.ea j : Int) - o.eb j)
/-- The sum and the halving are exact; the sign is that of `ety` (R109). -/
def intAvg (o : Opnds) : Res :=
  o.pure fun j => wrap o.W ((etyInteger o.ty o.W (o.ea j) + etyInteger o.ty o.W (o.eb j) + 1) / 2)

/-- The scale of `addsh` (R112). -/
def addshScale (rm : Nat) : Nat :=
  match rm with
  | 0 => 3
  | 1 => 1
  | 2 => 2
  | _ => 6

def intAddsh (o : Opnds) : Res :=
  o.pure fun j => (o.ea j + o.eb j * 2 ^ addshScale o.rm) % 2 ^ o.W

/-- Quotient and remainder of an element; division by zero and overflow have the results of R113. -/
def divElem (W : Nat) (signed : Bool) (a b : Nat) : Nat × Nat :=
  if b = 0 then (2 ^ W - 1, a)
  else if signed then
    if a = 2 ^ (W - 1) ∧ b = 2 ^ W - 1 then (a, 0)
    else
      let q := (sint W a).tdiv (sint W b)
      (wrap W q, wrap W (sint W a - q * sint W b))
  else (a / b, a % b)

def intDivs (o : Opnds) : Res := o.pure fun j => (divElem o.W true (o.ea j) (o.eb j)).1
def intDivu (o : Opnds) : Res := o.pure fun j => (divElem o.W false (o.ea j) (o.eb j)).1
def intRems (o : Opnds) : Res := o.pure fun j => (divElem o.W true (o.ea j) (o.eb j)).2
def intRemu (o : Opnds) : Res := o.pure fun j => (divElem o.W false (o.ea j) (o.eb j)).2

/-! ### Logic and shifts (R114, R115) -/

def intAnd (o : Opnds) : Res := o.pure fun j => o.ea j &&& o.eb j
def intOr (o : Opnds) : Res := o.pure fun j => o.ea j ||| o.eb j
def intXor (o : Opnds) : Res := o.pure fun j => o.ea j ^^^ o.eb j
def intAndn (o : Opnds) : Res := o.pure fun j => o.ea j &&& (2 ^ o.W - 1 - o.eb j)

/-- The three shifts and the rotation of an element by an amount of any size (R115). -/
def shlElem (W a t : Nat) : Nat := if t < W then (a <<< t) % 2 ^ W else 0
def shrElem (W a t : Nat) : Nat := if t < W then a >>> t else 0
def sarElem (W a t : Nat) : Nat := wrap W (sint W a / (2 ^ min t W : Nat))
def rotlElem (W a t : Nat) : Nat := let k := t % W; ((a <<< k) ||| (a >>> (W - k))) % 2 ^ W

/-- The immediate amount: sign-extended to 64 bits and read unsigned (R115). -/
def Opnds.immAmount (o : Opnds) : Nat := wrap 64 o.imm

def intShl (o : Opnds) : Res := o.pure fun j => shlElem o.W (o.ea j) (o.eb j)
def intShr (o : Opnds) : Res := o.pure fun j => shrElem o.W (o.ea j) (o.eb j)
def intSar (o : Opnds) : Res := o.pure fun j => sarElem o.W (o.ea j) (o.eb j)
def intRotl (o : Opnds) : Res := o.pure fun j => rotlElem o.W (o.ea j) (o.eb j)
def intShli (o : Opnds) : Res := o.pure fun j => shlElem o.W (o.ea j) o.immAmount
def intShri (o : Opnds) : Res := o.pure fun j => shrElem o.W (o.ea j) o.immAmount
def intSari (o : Opnds) : Res := o.pure fun j => sarElem o.W (o.ea j) o.immAmount

/-! ### Bit counting and bit fields (R116, R117) -/

/-- The bits of an element, lowest first. -/
def bitsOf (W a : Nat) : List Bool := (List.range W).map a.testBit

/-- The number whose bits, lowest first, are those of the list. -/
def ofBits : List Bool → Nat
  | [] => 0
  | b :: bs => (if b then 1 else 0) + 2 * ofBits bs

/-- How many leading entries of the list are false. -/
def leadingFalse : List Bool → Nat
  | false :: bs => leadingFalse bs + 1
  | _ => 0

def clzElem (W a : Nat) : Nat := leadingFalse (bitsOf W a).reverse
def ctzElem (W a : Nat) : Nat := leadingFalse (bitsOf W a)
def popcElem (W a : Nat) : Nat := (bitsOf W a).countP id
def brevElem (W a : Nat) : Nat := ofBits (bitsOf W a).reverse
def bswapElem (W a : Nat) : Nat := bytesNat (natBytes (W / 8) a).reverse

def intClz (o : Opnds) : Res := o.pure fun j => clzElem o.W (o.ea j)
def intCtz (o : Opnds) : Res := o.pure fun j => ctzElem o.W (o.ea j)
def intPopc (o : Opnds) : Res := o.pure fun j => popcElem o.W (o.ea j)
def intBrev (o : Opnds) : Res := o.pure fun j => brevElem o.W (o.ea j)
def intBswap (o : Opnds) : Res := o.pure fun j => bswapElem o.W (o.ea j)

/-- Position and clipped length of a bit-field control word (R117). -/
def fieldControl (W b : Nat) : Nat × Nat :=
  let k := Nat.log2 W
  let pos := bitsAt b 0 k
  let len := bitsAt b k k + 1
  (pos, if pos + len > W then W - pos else len)

def intBfx (o : Opnds) : Res :=
  o.pure fun j =>
    let (pos, len) := fieldControl o.W (o.eb j)
    let x := bitsAt (o.ea j) pos len
    if etySigned o.ty then wrap o.W (sint len x) else x

def intBfi (o : Opnds) : Res :=
  o.pure fun j =>
    let (pos, len) := fieldControl o.W (o.eb j)
    let a := o.ea j
    bitsAt a 0 pos + (bitsAt (o.ec j) 0 len <<< pos) + ((a >>> (pos + len)) <<< (pos + len))

/-! ### Moves and extension (R118 to R120) -/

/-- `movi`: the immediate as a 64-bit scalar. -/
def intMovi (o : Opnds) : Res := o.pure fun _ => o.immE

/-- `movl`: the literal, already placed as operand B. -/
def intMovl (o : Opnds) : Res := o.pure o.eb

/-- `sext` and `zext`: element `j` of the destination comes from element `j + g n` of the source type (R119). -/
def intExtend (signed : Bool) (o : Opnds) : Res :=
  let Ws := (etyWidth (o.srcB % 32)).getD 8
  o.pure fun j =>
    let x := getE Ws o.a (j + o.rm * count o.W)
    if signed then wrap o.W (sint Ws x) else x

/-- `mov` copies elements of the type's width; a `pred` mask moves as one 64-bit scalar (R120). -/
def intMov (o : Opnds) : Res := o.pure o.ea

/-! ### Compares, select and predicates (R121 to R123) -/

def intCeq (o : Opnds) : Res := o.compare fun j => o.ea j == o.eb j
def intCne (o : Opnds) : Res := o.compare fun j => o.ea j != o.eb j
def intClt (o : Opnds) : Res := o.compare fun j => sint o.W (o.ea j) < sint o.W (o.eb j)
def intCle (o : Opnds) : Res := o.compare fun j => sint o.W (o.ea j) ≤ sint o.W (o.eb j)
def intCltu (o : Opnds) : Res := o.compare fun j => o.ea j < o.eb j
def intCleu (o : Opnds) : Res := o.compare fun j => o.ea j ≤ o.eb j
def intCeqi (o : Opnds) : Res := o.compare fun j => o.ea j == o.immE
def intClti (o : Opnds) : Res := o.compare fun j => sint o.W (o.ea j) < sint o.W o.immE

/-- Element `j` of A where the mask in slot C has it active, else of B (R122). -/
def intSel (o : Opnds) : Res :=
  o.pure fun j => if active (lowScal o.c) o.W j then o.ea j else o.eb j

def predAnd (o : Opnds) : Res := .scalar (scalNat o.a &&& scalNat o.b)
def predOr (o : Opnds) : Res := .scalar (scalNat o.a ||| scalNat o.b)
def predXor (o : Opnds) : Res := .scalar (scalNat o.a ^^^ scalNat o.b)
def predNot (o : Opnds) : Res := .scalar (2 ^ 64 - 1 - scalNat o.a)

/-- The elements of the block's lane mode that `pmask` counts, each with whether it is active in A (R123). -/
def Opnds.counted (o : Opnds) : List Bool :=
  let W := o.lanes.width
  ((List.range (count W)).filter (active o.mask W)).map (active (lowScal o.a) W)

def predAny (o : Opnds) : Res := .scalar (if o.counted.any id then 2 ^ 64 - 1 else 0)
def predAll (o : Opnds) : Res := .scalar (if o.counted.all id then 2 ^ 64 - 1 else 0)
def predCnt (o : Opnds) : Res := .scalar (o.counted.countP id)

/-! ### Lane instructions (R124 to R131) -/

/-- Element 0 of B, read unsigned (R124). -/
def Opnds.index (o : Opnds) : Nat := o.eb 0

def laneBcast (o : Opnds) : Res :=
  o.pure fun _ => if o.index < count o.W then o.ea o.index else 0

/-- A scalar, extended by the sign of `ety`; it is not an element of the lane mode (R125). `pmask` governs it as a
scalar. DESIGN CHOICE (log 54): a type that has no sign of its own (a float type, `e8m0`, `wt16`) is extended with zeros. -/
def laneLget (o : Opnds) : Res :=
  byElement 64 1 o.mask fun _ =>
    (if o.index < count o.W then wrap 64 (etyInteger o.ty o.W (o.ea o.index)) else 0, fNone)

def laneLset (o : Opnds) : Res :=
  o.pure fun j => if j = o.index then o.c.toNat % 2 ^ o.W else o.ea j

def lanePerm (o : Opnds) : Res :=
  o.pure fun j => if o.eb j < count o.W then o.ea (o.eb j) else 0

/-- Element `(i + t) mod n` is `A[i]`, `t` signed (R125). -/
def laneLrot (o : Opnds) : Res :=
  let n : Int := count o.W
  let t := sint o.W (o.eb 0)
  o.pure fun j => o.ea (((j : Int) - t) % n).toNat

/-- `rm` 0 takes the low halves, 1 the high halves (R126). -/
def laneZip (o : Opnds) : Res :=
  let h := count o.W / 2
  let base := if o.rm = 1 then h else 0
  o.pure fun j => if j % 2 = 0 then o.ea (base + j / 2) else o.eb (base + j / 2)

/-- `rm` 0 takes even elements, 1 odd ones (R126). -/
def laneUnzip (o : Opnds) : Res :=
  let h := count o.W / 2
  let p := if o.rm = 1 then 1 else 0
  o.pure fun j => if j < h then o.ea (2 * j + p) else o.eb (2 * (j - h) + p)

/-- The elements of A selected by B, in order (R127). -/
def laneCompress (o : Opnds) : Res :=
  let xs := ((List.range (count o.W)).filter (active (lowScal o.b) o.W)).map o.ea
  o.pure fun j => xs.getD j 0

/-- How many elements below `j` B selects. -/
def selectedBelow (o : Opnds) (j : Nat) : Nat := (List.range j).countP (active (lowScal o.b) o.W)

def laneExpand (o : Opnds) : Res :=
  o.pure fun j => if active (lowScal o.b) o.W j then o.ea (selectedBelow o j) else 0

/-- One level of the pairwise tree of 04 R62; an absent element is `none`. -/
def treeLevel (f : Nat → Nat → Nat × FlagSet) : List (Option Nat) → List (Option Nat) × FlagSet
  | [] => ([], fNone)
  | [x] => ([x], fNone)
  | x :: y :: rest =>
    let (zs, fl) := treeLevel f rest
    match x, y with
    | some a, some b => let (r, g) := f a b; (some r :: zs, g ||| fl)
    | some a, none => (some a :: zs, fl)
    | none, r => (r :: zs, fl)

/-- The whole tree: `k` levels of halving. -/
def treeReduce (f : Nat → Nat → Nat × FlagSet) : Nat → List (Option Nat) → FlagSet → Option Nat × FlagSet
  | 0, xs, fl => (xs.headD none, fl)
  | k + 1, xs, fl => let (ys, g) := treeLevel f xs; treeReduce f k ys (fl ||| g)

/-- The elements of A, absent where inactive (04 R62). -/
def Opnds.present (o : Opnds) : List (Option Nat) :=
  (List.range (count o.W)).map fun j => if o.act j then some (o.ea j) else none

/-- A NaN result is the canonical one, whichever way it came about (03 R38). -/
def FFmt.canonical (F : FFmt) (x : Nat) : Nat := match F.value x with
  | .nan _ => F.canonNaN
  | _ => x

/-- A signalling NaN among the active elements raises invalid (03 R38). -/
def Opnds.signals (o : Opnds) (F : FFmt) : FlagSet := snan (((List.range (count o.W)).filter o.act).map fun j => F.value (o.ea j))

/-- A float reduction; `f` combines two encodings and `z` is the result of no active element (06 R128). DEDUCED (log 54): a lone
element passes the tree unchanged (04 R62), but a NaN result is canonical and a signalling one raises invalid (03 R38). -/
def floatReduce (o : Opnds) (F : FFmt) (f : Nat → Nat → Nat × FlagSet) (z : Nat) : Res :=
  let (r, fl) := treeReduce f 6 o.present fNone
  let x := F.canonical (r.getD z)
  ⟨scal x, scal x, 0, fl ||| o.signals F⟩

/-- The active elements as exact integers. -/
def Opnds.activeInts (o : Opnds) : List Int :=
  ((List.range (count o.W)).filter o.act).map fun j => etyInteger o.ty o.W (o.ea j)

def laneRadd (o : Opnds) : Res :=
  match floatFmt o.ty with
  | some F => floatReduce o F (fun x y => F.addF o.rm (F.value x) (F.value y)) 0
  | none => .scalar (wrap 64 (o.activeInts.foldl (· + ·) 0))

def laneRmax (o : Opnds) : Res :=
  match floatFmt o.ty with
  | some F => floatReduce o F (F.pick true) (F.infinity true)
  | none => .scalar (wrap 64 (o.activeInts.foldl max (etyLeast o.ty o.W)))

def laneRmin (o : Opnds) : Res :=
  match floatFmt o.ty with
  | some F => floatReduce o F (F.pick false) (F.infinity false)
  | none => .scalar (wrap 64 (o.activeInts.foldl min (etyGreatest o.ty o.W)))

def laneRxor (o : Opnds) : Res :=
  .scalar (((List.range (count o.W)).filter o.act).foldl (fun x j => x ^^^ o.ea j) 0)

/-- One step of the prefix network: element `i` becomes `y(i - d) + y(i)` for `i ≥ d`; an absent input passes the
other unchanged (04 R62, R63). DESIGN CHOICE (log 54): an addition formed at the position of an inactive element raises its flags too,
since later positions take its sum. -/
def scanStep (f : Nat → Nat → Nat × FlagSet) (d : Nat) (ys : List (Option Nat)) : List (Option Nat) × FlagSet :=
  let rs := (List.range ys.length).map fun i =>
    let y := ys.getD i none
    if i < d then (y, fNone)
    else
      match ys.getD (i - d) none, y with
      | some a, some b => let (r, g) := f a b; (some r, g)
      | some a, none => (some a, fNone)
      | none, r => (r, fNone)
  (rs.map Prod.fst, rs.foldl (fun g r => g ||| r.2) fNone)

/-- Steps of distance 1, 2, 4 and so on, `k` of them (04 R63). -/
def scanSteps (f : Nat → Nat → Nat × FlagSet) : Nat → Nat → List (Option Nat) → FlagSet → List (Option Nat) × FlagSet
  | 0, _, ys, fl => (ys, fl)
  | k + 1, d, ys, fl => let (zs, g) := scanStep f d ys; scanSteps f k (2 * d) zs (fl ||| g)

/-- Inclusive prefix sums; positions of inactive elements follow 05 R92 (06 R129). NaN results are canonical, as in a reduction. -/
def laneScan (o : Opnds) : Res :=
  let f : Nat → Nat → Nat × FlagSet :=
    match floatFmt o.ty with
    | some F => fun x y => F.addF o.rm (F.value x) (F.value y)
    | none => fun x y => ((x + y) % 2 ^ o.W, fNone)
  let (ys, fl) := scanSteps f (Nat.log2 (count o.W)) 1 o.present fNone
  match floatFmt o.ty with
  | some F => { o.pure fun j => F.canonical ((ys.getD j none).getD 0) with flags := fl ||| o.signals F }
  | none => { o.pure fun j => (ys.getD j none).getD 0 with flags := fl }

def laneLidx (o : Opnds) : Res := o.pure id

/-- Four byte products per 32-bit lane, signed or unsigned by `ety` (R131). -/
def laneDot4 (o : Opnds) : Res :=
  byElement 32 16 o.mask fun i =>
    let t := (List.range 4).map fun j =>
      etyInteger o.ty 8 (getE 8 o.a (4 * i + j)) * etyInteger o.ty 8 (getE 8 o.b (4 * i + j))
    (wrap 32 (t.foldl (· + ·) 0), fNone)

end Sys2Proof.Machine
end

