-- ==== Sys2Proof/Machine/FloatOps.lean ====
section
/-! DEFINITION. The results of the floating-point, conversion and codebook instructions (spec
07_float_and_conversion_instructions.md R137 to R152), as functions of their operands. -/
namespace Sys2Proof.Machine

/-- The format of the instruction's type; a type the op does not accept is refused at decode (05 R99). -/
def Opnds.fmt (o : Opnds) : FFmt := (floatFmt o.ty).getD fmtF32

/-- Decoded elements of the operands. -/
def Opnds.va (o : Opnds) (j : Nat) : FVal := o.fmt.value (o.ea j)
def Opnds.vb (o : Opnds) (j : Nat) : FVal := o.fmt.value (o.eb j)
def Opnds.vc (o : Opnds) (j : Nat) : FVal := o.fmt.value (o.ec j)

/-! ### Arithmetic (R137) -/

def fpAdd (o : Opnds) : Res := o.elements fun j => o.fmt.addF o.rm (o.va j) (o.vb j)
def fpSub (o : Opnds) : Res := o.elements fun j => o.fmt.addF o.rm (o.va j) (o.vb j).neg
def fpMul (o : Opnds) : Res := o.elements fun j => o.fmt.mulF o.rm (o.va j) (o.vb j)
def fpFma (o : Opnds) : Res := o.elements fun j => o.fmt.fmaF o.rm (o.va j) (o.vb j) (o.vc j)
def fpFms (o : Opnds) : Res := o.elements fun j => o.fmt.fmaF o.rm (o.va j) (o.vb j) (o.vc j).neg
def fpFnma (o : Opnds) : Res := o.elements fun j => o.fmt.fmaF o.rm (o.va j).neg (o.vb j) (o.vc j)

/-! ### Minimum, maximum, sign and clamp (R138) -/

def fpMin (o : Opnds) : Res := o.elements fun j => o.fmt.pick false (o.ea j) (o.eb j)
def fpMax (o : Opnds) : Res := o.elements fun j => o.fmt.pick true (o.ea j) (o.eb j)
def fpAbs (o : Opnds) : Res := o.elements fun j => (o.fmt.withSign false (o.ea j), snan [o.va j])
def fpNeg (o : Opnds) : Res :=
  o.elements fun j => (o.fmt.withSign (!o.fmt.sign (o.ea j)) (o.ea j), snan [o.va j])
def fpCsgn (o : Opnds) : Res :=
  o.elements fun j => (o.fmt.withSign (o.fmt.sign (o.eb j)) (o.ea j), snan [o.va j, o.vb j])

/-- A bound that is NaN is ignored; a NaN a gives the canonical NaN (R138). -/
def fpClamp (o : Opnds) : Res :=
  o.elements fun j =>
    let F := o.fmt
    let r :=
      if (o.va j).isNaN then F.canonNaN
      else
        let lo := if (o.vb j).isNaN then o.ea j else (F.pick true (o.ea j) (o.eb j)).1
        if (o.vc j).isNaN then lo else (F.pick false lo (o.ec j)).1
    (r, snan [o.va j, o.vb j, o.vc j])

/-! ### Compares and classification (R139, R140) -/

/-- Invalid for any NaN, or for a signalling NaN only. -/
def cmpFlags (any : Bool) (a b : FVal) : FlagSet :=
  if any then flagIf (a.isNaN || b.isNaN) fNV else snan [a, b]

def fpEq (o : Opnds) : Res := o.relation fun j => ((o.va j).eq (o.vb j), cmpFlags false (o.va j) (o.vb j))
def fpLt (o : Opnds) : Res := o.relation fun j => ((o.va j).lt (o.vb j), cmpFlags true (o.va j) (o.vb j))
def fpLe (o : Opnds) : Res :=
  o.relation fun j => ((o.va j).lt (o.vb j) || (o.va j).eq (o.vb j), cmpFlags true (o.va j) (o.vb j))
def fpUn (o : Opnds) : Res :=
  o.relation fun j => ((o.va j).isNaN || (o.vb j).isNaN, cmpFlags false (o.va j) (o.vb j))
def fpClass (o : Opnds) : Res := o.pure fun j => 2 ^ o.fmt.classBit (o.ea j)

/-! ### Seeds, refinement, integral and scaling (R141 to R144) -/

def fpSeed (k : Seed) (o : Opnds) : Res := o.elements fun j => o.fmt.seed k (o.ea j)
def fpRefine (root : Bool) (o : Opnds) : Res := o.elements fun j => o.fmt.refine root o.rm (o.ea j) (o.eb j)

/-- The integral value `RoundInt` chooses, with the sign of a; no flag but invalid (R142). -/
def fpRnd (o : Opnds) : Res :=
  o.elements fun j =>
    let v := o.va j
    match v with
    | .fin neg n e =>
      let (p, q) := scaleQ n 1 e
      ((o.fmt.round 1 neg (roundInt p q o.rm neg) 1).1, fNone)
    | _ => ((o.fmt.ofVal 0 v).1, snan [v])

/-- `a * 2^k`, `k` signed; an exponent past every format's range acts as its bound (R143). -/
def fpScl (o : Opnds) : Res :=
  o.elements fun j =>
    let k := sint o.W (o.eb j)
    let k := max (-1000) (min 1000 k)
    match o.va j with
    | .fin neg n e => o.fmt.ofVal o.rm (.fin neg n (e + k))
    | v => o.fmt.ofVal o.rm v

/-- Element `j` times the block scale in byte `j / 32` of B; a NaN scale gives the canonical NaN and invalid (R144). -/
def fpBscl (o : Opnds) : Res :=
  o.elements fun j =>
    let s := getE 8 o.b (j / 32)
    if s = 0xFF then (o.fmt.canonNaN, fNV)
    else o.fmt.mulF o.rm (o.va j) (e8m0Value s)

/-! ### Two-sum and dot product (R145, R146) -/

/-- The rounded sum and the exact error; an infinite or NaN sum has the error +0 (R145). -/
def sum2 (F : FFmt) (a b : FVal) : Nat × Nat × FlagSet :=
  let (s, fl) := F.addF 0 a b
  let v := F.value s
  let e :=
    match v with
    | .fin _ _ _ => (F.ofVal 0 (sumVals 0 [(sumVals 0 [a, b]).1, v.neg]).1).1
    | _ => 0
  (s, e, fl)

def fpSum2 (o : Opnds) : Res :=
  let s := o.elements fun j => let r := sum2 o.fmt (o.va j) (o.vb j); (r.1, r.2.2)
  let e := o.elements fun j => let r := sum2 o.fmt (o.va j) (o.vb j); (r.2.1, fNone)
  { s with out1 := e.out }

/-- The exact sum of the active products and the `f32` accumulator, rounded once; `pmask` chooses the pairs and does
not govern the scalar (R64, R146). -/
def fpDot (o : Opnds) : Res :=
  let ps := ((List.range (512 / o.W)).filter o.act).map fun j =>
    let p := (o.va j).mul (o.vb j)
    (p.1, p.2 ||| snan [o.va j, o.vb j])
  let c := fmtF32.value (o.c.toNat % 2 ^ 32)
  let (v, fl) := sumVals o.rm (ps.map Prod.fst ++ [c])
  let (r, fl') := fmtF32.ofVal o.rm v
  ⟨scal r, scal r, 0, fl ||| fl' ||| snan [c] ||| ps.foldl (fun f p => f ||| p.2) fNone⟩

/-! ### Conversion (R147 to R151) -/

/-- The exact value of a source element of type `ty`; `none` for types that convert to nothing here. -/
def sourceVal (ty W x : Nat) : FVal :=
  if etyInt ty then
    let i := etyInteger ty W x
    .fin (decide (i < 0)) i.natAbs 0
  else
    match floatFmt ty with
    | some F => F.value x
    | none => if ty = 14 then e8m0Value x else wt16Value x

/-- A value narrowed to an integer type: out of range gives the nearer bound with invalid (R149). -/
def intOfVal (ty W mode : Nat) (fromInt : Bool) : FVal → Nat × FlagSet
  | .nan _ => (0, fNV)
  | .inf neg => (wrap W (if neg then etyLeast ty W else etyGreatest ty W), fNV)
  | .fin neg n e =>
    let (p, q) := scaleQ n 1 e
    let r : Int := roundInt p q mode neg
    let i := if neg then -r else r
    let out := i < etyLeast ty W ∨ i > etyGreatest ty W
    let v := wrap W (max (etyLeast ty W) (min (etyGreatest ty W) i))
    if fromInt then (v, fNone)
    else if out then (v, fNV)
    else (v, flagIf (p % q != 0) fNX)

/-- One element converted from type `src` to type `dst` (R149). -/
def convElem (src Ws dst Wd mode x : Nat) : Nat × FlagSet :=
  let v := sourceVal src Ws x
  if etyInt dst then intOfVal dst Wd mode (etyInt src) v
  else
    match floatFmt dst with
    | some F => F.ofVal mode v
    | none => if dst = 14 then e8m0OfVal mode v else wt16OfVal mode v

/-- The pairs that R149 gives a value. -/
def convPair (src dst : Nat) : Bool :=
  let fl := fun t => (floatFmt t).isSome
  (fl src && (fl dst || etyInt dst || dst == 14 || dst == 16)) ||
  (etyInt src && ((fl dst && dst != 13) || etyInt dst || dst == 14)) ||
  (src == 14 && fl dst) || (src == 16 && fl dst)

/-- A conversion of `m` elements: destination `j` takes source `from j` where there is one and it is active, else zero
(R148). A 4-bit pair shares its byte's slice, so the kept bits are those of whole slices. -/
def convert (W : Nat) (mask : Dword) (source : Nat → Option Nat) (f : Nat → Nat × FlagSet) : Res :=
  byElement W (count W) mask fun j =>
    match source j with
    | some k => f k
    | none => (0, fNone)

/-- `cvt`: elements chosen by the widths and the group index (R148). -/
def fpCvt (o : Opnds) : Res :=
  let src := o.srcB % 32
  let Ws := (etyWidth src).getD 8
  let Wd := (etyWidth o.ty).getD 8
  let g := o.stkB
  let f := fun k => convElem src Ws o.ty Wd o.rm (getE Ws o.a k)
  if Ws = 64 ∨ Wd = 64 then
    convert Wd o.mask (fun j => if j = 0 then some 0 else none) f
  else if Ws < Wd then
    convert Wd o.mask (fun j => some (g * (512 / Wd) + j)) f
  else
    let m := 512 / Ws
    convert Wd o.mask (fun j => if g * m ≤ j ∧ j < g * m + m then some (j - g * m) else none) f

/-- The source format of `cvts`, coded as the float `w` (R150). -/
def cvtsSource (rm : Nat) : FFmt :=
  match rm with
  | 1 => fmtBF16
  | 2 => fmtF16
  | _ => fmtF32

/-- `cvts`: the random bits are the payload in B; `rand` says the head is a RAND token, and invalid is raised where it
is not (R151). -/
def fpCvts (rand : Bool) (o : Opnds) : Res :=
  let S := cvtsSource o.rm
  let Wd := (etyWidth o.ty).getD 8
  let m := 512 / S.w
  let r := convert Wd o.mask (fun j => if j < m then some j else none)
    fun k => o.fmt.stochastic S (getE S.w o.a k) (getE S.w o.b k)
  { r with flags := r.flags ||| flagIf (!rand) fNV }

/-! ### Codebook decoding (R152) -/

/-- The value of a weight of `i` quarters in a destination: four times it in `i8`, else rounded to the format. -/
def cbValue (ty mode : Nat) (i : Int) : Nat × FlagSet :=
  match floatFmt ty with
  | some F => F.ofVal mode (quarters i)
  | none => (wrap 8 i, fNone)

def fpCbdec (o : Opnds) : Res :=
  let c := if o.W = 8 then 8 else 4
  o.elements fun i =>
    let k := i / 8
    if k < c then cbValue o.ty o.rm ((decodeLC2 (getE 16 o.a k) (getE 32 o.b k)).getD (i % 8) 0) else (0, fNone)

end Sys2Proof.Machine
end

