-- ==== Sys2Proof/Machine/Operands.lean ====
section
/-! DEFINITION. The operand forms: one record for the fields of any instruction form, the operand slots an op uses, the
role of its literal, its type, its targets and sources, and its commit-side, exit, level and stage facts (spec
05_encodings_and_opcode_map.md R79 to R99, and the tables 06 R109 to R131, 07 R136 to R152, 08 R159, 11 R225, 13 R258,
14 R279, 16 R317, 23 R403). -/
namespace Sys2Proof.Machine

/-- The instruction forms (05 R77 to R82). -/
inductive Form where
  | f0 | fi | f1 | f2
  deriving DecidableEq, Repr

/-- The fields of an instruction, whatever its form; a field the form lacks is zero. -/
structure Ins where
  op : Nat
  form : Form
  /-- `w` in F0 (05 R83). -/
  w : Nat
  rm : Nat
  t0 : Nat
  t1 : Nat
  pm : Nat
  ety : Nat
  pmask : Nat
  stkA : Nat
  stkB : Nat
  srcA : Nat
  srcB : Nat
  lit : Option Word
  /-- The FI immediate (05 R80). -/
  imm : BitVec 11
  deriving DecidableEq, Repr

/-- The null target (05 R86). -/
def nullTarget : Nat := 0x1FF

end Sys2Proof.Machine

namespace Sys2Proof

/-- An F0 instruction of an op as a field record. -/
def F0.ins (op : Nat) (f : F0) : Machine.Ins :=
  ⟨op, .f0, f.w.toNat, 0, f.t0.toNat, f.t1.toNat, f.pm.toNat, 0, 0, 0, 0, 0, 0, none, 0⟩

/-- An FI instruction: one target, no sources (05 R80). -/
def FI.ins (op : Nat) (f : FI) : Machine.Ins :=
  ⟨op, .fi, 0, 0, f.t0.toNat, Machine.nullTarget, f.pm.toNat, 0, 0, 0, 0, 0, 0, none, f.imm⟩

/-- An F1 or F2 instruction. -/
def FX.ins (op : Nat) (f : FX) : Machine.Ins :=
  ⟨op, if f.lit.isSome then .f2 else .f1, 0, f.rm.toNat, f.t0.toNat, f.t1.toNat, f.pm.toNat, f.ety.toNat,
   f.pmask.toNat, f.stkA.toNat, f.stkB.toNat, f.srcA.toNat, f.srcB.toNat, f.lit, 0⟩

end Sys2Proof

namespace Sys2Proof.Machine

/-- The op field of a word (05 R79). -/
def opOf (w : Word) : Nat := (field w 2 8).toNat

/-- The words of one instruction as a field record; `none` for a misplaced header word or too few words (05 R77). -/
def Ins.ofWords (ws : List Word) : Option Ins :=
  match ws with
  | [] => none
  | w0 :: rest =>
    match (field w0 0 2).toNat, rest with
    | 0, _ => some (if isFI (opOf w0) then (FI.ofWord w0).ins (opOf w0) else (F0.ofWord w0).ins (opOf w0))
    | 1, w1 :: _ => some ((FX.ofWords w0 w1 none).ins (opOf w0))
    | 2, w1 :: l :: _ => some ((FX.ofWords w0 w1 (some l)).ins (opOf w0))
    | _, _ => none

/-- The number of words a first word announces; a misplaced header word counts as one (05 R77). -/
def wordLen (w : Word) : Nat :=
  match (field w 0 2).toNat with
  | 1 => 2
  | 2 => 3
  | _ => 1

/-! ### Format classes (05 R97) -/

/-- The format classes of the opcode map. -/
inductive OpClass where
  | A | B | C | D | E | G | H | J
  deriving DecidableEq, Repr

/-- Rows of the opcode map, op by op; `none` marks a reserved op (05 R97, R98). -/
def opClass (op : Nat) : Option OpClass :=
  if op = 0 ∨ op ≥ 0xE0 then none
  else if [0x2F, 0x6F, 0x7E, 0x7F, 0x8D, 0x8E, 0x8F, 0xAE, 0xAF, 0xBC, 0xBD, 0xBE, 0xBF, 0xCD, 0xCE, 0xCF].contains op
    then none
  else if [0x03, 0x1F, 0x20, 0x21, 0x36, 0x37, 0x75].contains op then some .B
  else if [0x0C, 0x0D, 0x22, 0x23, 0x24, 0x25, 0x26, 0x2E, 0x3C, 0x3D, 0x3E, 0x3F, 0x49, 0x4A, 0x4B, 0x4C, 0x4D,
      0x58, 0x59, 0x5E, 0x5F, 0x60, 0x63, 0x64, 0x65, 0x7B, 0x80, 0x8A, 0x8C, 0xB6, 0xD2, 0xDD].contains op then some .J
  else if [0x2A, 0x76, 0x79, 0x7D, 0x99, 0x9A].contains op then some .G
  else if [0x2B, 0x70, 0x72, 0xB8, 0xB9, 0xBA].contains op then some .H
  else if [0x2C, 0x2D, 0x67, 0x68, 0x6A, 0x71, 0x78, 0x81, 0x82, 0x83, 0x84, 0x85, 0x86].contains op then some .D
  else if [0x4E, 0x73, 0x74, 0x77, 0x7A, 0x7C, 0xD5, 0xDF].contains op then some .E
  else if op < 0x70 then some .A
  else some .C

/-- Whether a class accepts a form (05 R97). -/
def OpClass.accepts : OpClass → Form → Bool
  | .A, .f0 => true
  | .A, .f1 => true
  | .A, .f2 => true
  | .B, .fi => true
  | .B, .f2 => true
  | .C, .f1 => true
  | .C, .f2 => true
  | .D, .f1 => true
  | .E, .f0 => true
  | .G, .fi => true
  | .H, .f2 => true
  | .J, .f0 => true
  | .J, .f1 => true
  | _, _ => false

/-! ### Operand slots and the literal -/

/-- What slot C holds (05 R91, 13 R260). -/
inductive CUse where
  | pred | order | data
  deriving DecidableEq, Repr

/-- What an F2 literal is (05 R82). -/
inductive LitRole where
  | operandB | operandA | imm | offset | own
  deriving DecidableEq, Repr

/-- The role of the literal of an op (05 R82; 11 R234, R235, R232; 14 R279; 16 R317; 23 R403). -/
def litRole (op : Nat) : LitRole :=
  if [0x03, 0x1F, 0x20, 0x21, 0x36, 0x37, 0x75].contains op then .imm
  else if op < 0x70 ∨ op = 0x87 ∨ op = 0x88 ∨ op = 0x8B then .operandB
  else if [0xB5, 0xCA, 0xCB, 0xCC, 0xD0, 0xD3, 0xD4].contains op then .operandA
  else if (0x90 ≤ op ∧ op ≤ 0xAD) ∨ op = 0xB3 ∨ op = 0xB4 ∨ (0xC0 ≤ op ∧ op ≤ 0xC6) ∨ op = 0xC8 then .offset
  else .own

/-- Ops with no operand A at all. -/
def noOperandA : List Nat :=
  [0x2A, 0x2B, 0x4E, 0x70, 0x72, 0x74, 0x76, 0x77, 0x79, 0x7A, 0x7C, 0x7D, 0x8B, 0x8C, 0x99, 0x9A, 0xB6, 0xB7, 0xB8,
   0xB9, 0xDF]

/-- Ops with no operand B. -/
def noOperandB : List Nat :=
  [0x03, 0x0C, 0x0D, 0x1F, 0x20, 0x21, 0x22, 0x23, 0x24, 0x25, 0x26, 0x2A, 0x2C, 0x2D, 0x2E, 0x36, 0x37, 0x3C, 0x3D, 0x3E,
   0x3F, 0x49, 0x4A, 0x4B, 0x4C, 0x4D, 0x4E, 0x58, 0x59, 0x5E, 0x5F, 0x60, 0x63, 0x64, 0x65, 0x67, 0x70, 0x71, 0x72, 0x73,
   0x74, 0x75, 0x76, 0x77, 0x78, 0x79, 0x7A, 0x7B, 0x7C, 0x7D, 0x82, 0x83, 0x84, 0x85, 0x86, 0x8A, 0x8C, 0x90, 0x91, 0x96,
   0x98, 0x99, 0x9A, 0xA8, 0xA9, 0xAA, 0xB3, 0xB5, 0xB6, 0xB7, 0xB8, 0xB9, 0xBA, 0xC5, 0xC9, 0xCB, 0xD2, 0xD3, 0xD5, 0xD7,
   0xDC, 0xDD, 0xDF]

/-- Slot C as a data operand (05 R91; `cpy` and `cpyx` in F1 only, 14 R279). -/
def dataOperandC : List Nat :=
  [0x07, 0x28, 0x38, 0x42, 0x53, 0x54, 0x55, 0x69, 0x6D, 0x81, 0x95, 0xA5, 0xA7, 0xC1, 0xCA]

namespace Ins

/-- The literal stands for operand B. -/
def litIsB (i : Ins) : Bool := i.lit.isSome && litRole i.op == .operandB

/-- The literal stands for operand A. -/
def litIsA (i : Ins) : Bool := i.lit.isSome && litRole i.op == .operandA

/-- The op takes an operand A through a source or a target. -/
def usesA (i : Ins) : Bool := !noOperandA.contains i.op && !i.litIsA

/-- The op takes an operand B through a source or a target; `put` only with `.t` (11 R228). -/
def usesB (i : Ins) : Bool :=
  !noOperandB.contains i.op && !i.litIsB && (i.op != 0x80 || (i.rm == 1 && i.form == .f1))

/-- The use of slot C. -/
def cUse (i : Ins) : CUse :=
  if dataOperandC.contains i.op then .data
  else if i.op = 0xB0 ∨ i.op = 0xB1 then (if i.form = .f1 then .data else .order)
  else if i.op = 0x98 ∨ i.op = 0x99 ∨ i.op = 0x9A ∨ i.op = 0xB6 then .pred
  else if i.op ≥ 0x90 then .order
  else .pred

/-- The instruction waits for a predicate in slot C (05 R91). -/
def predicated (i : Ins) : Bool := i.pm != 0

/-- A source field is valid (05 R88). -/
def validSrc (s : Nat) : Bool := s ≥ 128
/-- Its register code. -/
def srcCode (s : Nat) : Nat := s % 128

/-- Ops whose `stkB` is an entry index (11 R224), and the op whose `stkB` is a group index (07 R147). -/
def stkBIsIndex (i : Ins) : Bool :=
  (i.op == 0x80 && i.rm != 1) || (0x82 ≤ i.op && i.op ≤ 0x85) || i.op == 0x67

/-- The sticky count of slot A or B (05 R90); F0, FI and slot C have none. -/
def stkOf (i : Ins) (slot : Nat) : Nat :=
  match slot with
  | 0 => i.stkA
  | 1 => if i.stkBIsIndex then 0 else i.stkB
  | _ => 0

/-- The slots, 0 A, 1 B, 2 C, that must arrive through a target before the instruction can fire: an operand with no
valid source and no literal, a data operand C, and the predicate. An order token is awaited only where some target
names the slot, which the block says. -/
def awaits (i : Ins) (orderNamed : Bool) : List Nat :=
  (if i.usesA && !validSrc i.srcA then [0] else []) ++
  (if i.usesB && !validSrc i.srcB then [1] else []) ++
  (match i.cUse with
   | .data => [2]
   | .order => if i.predicated || orderNamed then [2] else []
   | .pred => if i.predicated then [2] else [])

/-! ### Types -/

/-- The element type code of an instruction: `ety` in F1 and F2, from `w` in F0 (05 R83), `i64` in FI (05 R80). -/
def ty (i : Ins) : Nat :=
  match i.form with
  | .f0 => if i.op < 0x50 then 2 * i.w else if i.op < 0x70 then 8 + i.w else 0
  | .fi => 6
  | _ => i.ety

/-- Its element width. -/
def width (i : Ins) : Nat := (etyWidth i.ty).getD 64

/-- The signed immediate: 11 bits in FI, the 32-bit literal in F2 (05 R80, R82). -/
def immediate (i : Ins) : Int :=
  match i.lit with
  | some l => sint 32 l.toNat
  | none => i.imm.toInt

/-- The byte offset added to a base address: the literal in F2, zero in F1 (13 R259). -/
def offset (i : Ins) : Int :=
  match i.lit with
  | some l => sint 32 l.toNat
  | none => 0

end Ins

/-- The types an op accepts in F1 and F2, before any width rule (06 R104, R118 to R131; 07 R132, R144 to R152; 08 R160;
11 R225; 13 R258; 14 R279; 16 R317; 23 R404). -/
def typesOf (op : Nat) : List Nat :=
  let ints := [0, 1, 2, 3, 4, 5, 6, 7]
  let plain := [0, 1, 2, 3, 4, 5, 6, 7, 8, 9, 10, 11, 12, 14, 16]
  let fl := [8, 9, 10]
  if op = 0x2B ∨ op = 0x38 ∨ op = 0x90 ∨ op = 0x91 ∨ op = 0x93 ∨ op = 0x94 ∨ op = 0x96 ∨ op = 0x97 then plain
  else if op = 0x2E ∨ op = 0x80 ∨ op = 0x81 then plain ++ [17]
  else if 0x39 ≤ op ∧ op ≤ 0x3F then [6, 7, 17]
  else if 0x40 ≤ op ∧ op ≤ 0x48 then plain
  else if op = 0x49 ∨ op = 0x4A ∨ op = 0x4B ∨ op = 0x4D then ints ++ fl
  else if op = 0x4F then [0, 1]
  else if op < 0x50 then ints
  else if op = 0x67 then plain ++ [13]
  else if op = 0x68 then [9, 10, 11, 12, 13]
  else if op = 0x69 ∨ op = 0x6B then [8, 9, 10, 11, 12]
  else if op = 0x6A then [0, 9, 10, 11]
  else if op < 0x70 then fl
  else if op = 0x78 then [7]
  else if op < 0x80 then [0]
  else if op < 0x90 then [7]
  else if op = 0x92 ∨ op = 0x95 ∨ op = 0xA7 ∨ op = 0xC3 then [4, 5, 8]
  else if op = 0xA6 ∨ op = 0xB5 then [8]
  else if (0x9E ≤ op ∧ op ≤ 0xA5) ∨ op = 0xAC ∨ op = 0xAD then [4, 5, 6, 7]
  else if op = 0xB3 then [0, 11, 12, 15]
  else if op = 0xB7 then [0, 1, 9, 10, 11, 12]
  else if 0xB0 ≤ op ∧ op ≤ 0xBA then [0]
  else [7]

/-- Ops whose type must have the lane mode's width, with no 64-bit scalar (06 R124; 13 R258 `ldv`, `stv`; 07 R144). -/
def laneWidthOnly (op : Nat) : Bool :=
  (0x40 ≤ op && op ≤ 0x4E) || (0x50 ≤ op && op ≤ 0x66) || (0x6B ≤ op && op ≤ 0x6E) || op == 0x91 || op == 0x94 ||
  op == 0x92 || op == 0x95 || op == 0xA7

/-- The `w` of an F0 form is one its op gives a meaning (05 R83, 06 R123, R130). -/
def Ins.wOk (i : Ins) (lanes : Lanes) : Bool :=
  if 0x39 ≤ i.op ∧ i.op ≤ 0x3F then i.w == 3
  else if i.op = 0x4F then lanes == .l32 && i.w == 0
  else if i.op < 0x50 then
    let W := (etyWidth (2 * i.w)).getD 64
    W == lanes.width || (W == 64 && !laneWidthOnly i.op)
  else if i.op = 0x69 then i.w != 3
  else if i.op < 0x70 then i.w != 3 && (etyWidth (8 + i.w)).getD 64 == lanes.width
  else i.w == 0

/-- The group index of `sext` and `zext` lies in its range (06 R119). -/
def Ins.extendTypes (i : Ins) (lanes : Lanes) : Bool :=
  let Ws := (etyWidth (i.srcB % 32)).getD 64
  etyInt i.ety && etyInt (i.srcB % 32) && (i.width == lanes.width || i.width == 64) && Ws < i.width

/-- The pair and the widths of `cvt` are those of 07 R148 and R149. -/
def Ins.cvtTypes (i : Ins) (lanes : Lanes) : Bool :=
  let src := i.srcB % 32
  let Ws := (etyWidth src).getD 64
  let Wd := i.width
  let L := lanes.width
  convPair src i.ety &&
  (if Ws = 64 ∨ Wd = 64 then Wd == 64 || Wd == L else Wd == L || (Wd == 4 && L == 8))

/-- The destinations of `cvts` have fewer fraction bits than the source, at the lane mode's width (07 R150). -/
def Ins.cvtsTypes (i : Ins) (lanes : Lanes) : Bool :=
  let dests :=
    match i.rm with
    | 0 => [9, 10, 11, 12, 13]
    | 1 => [11, 12, 13]
    | 2 => [9, 11, 12, 13]
    | _ => []
  dests.contains i.ety && (i.width == lanes.width || (i.width == 4 && lanes.width == 8))

/-- The type check of 05 R99. -/
def Ins.typeOk (i : Ins) (lanes : Lanes) : Bool :=
  match i.form with
  | .fi => true
  | .f0 => i.wOk lanes
  | _ =>
    (typesOf i.op).contains i.ety &&
    (if i.op = 0x2C ∨ i.op = 0x2D then i.extendTypes lanes
     else if i.op = 0x67 then i.cvtTypes lanes
     else if i.op = 0x68 then i.cvtsTypes lanes
     else if i.op = 0x4F then lanes == .l32
     else if i.op = 0x69 then true
     else if i.op = 0x6A then
       (if i.ety = 0 ∨ i.ety = 11 then lanes == .l8 else lanes == .l16)
     else if 0x39 ≤ i.op ∧ i.op ≤ 0x3F then true
     else if laneWidthOnly i.op then i.width == lanes.width
     else if i.op < 0x70 ∨ i.op = 0x80 ∨ i.op = 0x81 then i.width == lanes.width || i.width == 64
     else true)

/-! ### Rounding and modifier codes -/

/-- The `rm` codes an op accepts in F1 and F2 (05 R84; 06 R112, R119, R126, R128; 07 R133, R150; 08 R160, R171; 11 R225;
13 R258; 14 R279; 16 R317; 23 R403). -/
def Ins.rmOk (i : Ins) : Bool :=
  let anyRm := [0x29, 0x2C, 0x2D, 0x50, 0x51, 0x52, 0x53, 0x54, 0x55, 0x5F, 0x60, 0x61, 0x62, 0x63, 0x64, 0x65, 0x66, 0x67,
    0x68, 0x69, 0x6A, 0x6B]
  let upTo1 := [0x45, 0x46, 0x7B, 0x80, 0x88, 0x89, 0x8B, 0x92, 0x95, 0x98, 0xA7, 0xB3, 0xBB, 0xC0, 0xC5, 0xD0, 0xD1, 0xD9,
    0xDC]
  let upTo2 := [0x85, 0xC3, 0xC7, 0xC9, 0xD6, 0xDE]
  if anyRm.contains i.op then true
  else if i.op = 0x49 ∨ i.op = 0x4D then i.rm == 0 || !etyInt i.ety
  else if upTo1.contains i.op then i.rm < 2
  else if upTo2.contains i.op then i.rm < 3
  else i.rm == 0

/-- The group index of the widening and narrowing ops, where both type codes are defined (06 R119, 07 R148). -/
def Ins.groupOk (i : Ins) : Bool :=
  match etyWidth (i.srcB % 32), etyWidth i.ety with
  | some Ws, some Wd =>
    if i.op = 0x2C ∨ i.op = 0x2D then Ws ≥ Wd || i.rm < Wd / Ws
    else if i.op = 0x67 then
      if Ws = 64 ∨ Wd = 64 then i.stkB == 0
      else i.stkB < (if Ws < Wd then Wd / Ws else Ws / Wd)
    else true
  | _, _ => true

/-- `pmask` may be other than 0: the value ops, `put`, `putk` and the vector memory ops (11 R225, 13 R258, 14 R279, 16
R317, 23 R404, 08 R160). -/
def pmaskAllowed (op : Nat) : Bool :=
  op < 0x70 || [0x80, 0x81, 0x91, 0x92, 0x94, 0x95, 0xA7].contains op

/-! ### Commit side, exits, levels, stages -/

/-- The exits (08 R153). -/
def isExit (op : Nat) : Bool := [0x70, 0x71, 0x72, 0x73, 0x74, 0x75, 0xD5, 0xDF].contains op

/-- A target as 05 R87 decodes it: an operand slot of an instruction, or a register code. -/
inductive Target where
  | slot (slot idx : Nat)
  | reg (code : Nat)
  deriving DecidableEq, Repr

def Target.of (t : Nat) : Target :=
  if t < 384 then .slot (t / 128) (t % 128) else .reg (t % 128)

/-- The null target. -/
def Target.null : Target := .reg 127

/-- The targets of an instruction that are not null. -/
def Ins.targets (i : Ins) : List Target := ([Target.of i.t0, Target.of i.t1]).filter (· != Target.null)

/-- An outbound port code (05 R86). -/
def isOutPort (code : Nat) : Bool := 56 ≤ code && code ≤ 63

/-- The instruction puts through a target. -/
def Ins.putsByTarget (i : Ins) : Bool :=
  i.targets.any fun t => match t with | .reg c => isOutPort c | .slot _ _ => false

/-- Stores, atomics, engine, fuller and system commands and the ops that put: commit-side whatever their targets (05 R93;
08 R172; 11 R225; 13 R258; 14 R279; 16 R317; 23 R403). A reserved op is none of them. -/
def Ins.commitSide (i : Ins) : Bool :=
  (opClass i.op).isSome && (i.putsByTarget ||
  [0x7C, 0x80, 0x81, 0x86, 0x8A, 0x8B, 0x8C, 0x93, 0x94, 0x95, 0x97].contains i.op ||
  (0x9B ≤ i.op && i.op ≤ 0xAD) || (0xB0 ≤ i.op && i.op ≤ 0xCC) ||
  [0xD0, 0xD1, 0xD4, 0xD6, 0xD7, 0xD8, 0xD9, 0xDA, 0xDB, 0xDC, 0xDD].contains i.op ||
  (i.op == 0xDE && i.rm != 0))

/-- Privilege levels (20 R364). -/
inductive Level where
  | U | S | M
  deriving DecidableEq, Repr

def Level.rank : Level → Nat
  | .U => 0
  | .S => 1
  | .M => 2

/-- The lowest level that may execute an op (23 R403). -/
def opLevel (op : Nat) : Level :=
  if op = 0xDB ∨ op = 0xDF then .M
  else if 0xD2 ≤ op ∧ op ≤ 0xDE then .S
  else .U

/-- Stage classes of pipe blocks (06 R106). -/
inductive Stage where
  | X | I | M | L | V
  deriving DecidableEq, Repr

/-- The stage class of an op (06 R109 to R131, 07 R136, 08 R159, 11 R225; every op from 0x90 is class V). -/
def opStage (op : Nat) : Stage :=
  if op ≥ 0x90 ∨ op = 0x78 ∨ op = 0x7B ∨ op = 0x88 ∨ op = 0x89 ∨ (0x08 ≤ op ∧ op ≤ 0x0B) then .V
  else if op = 0x2A ∨ op = 0x2B ∨ op = 0x79 ∨ op = 0x7A ∨ op = 0x7C then .I
  else if [0x04, 0x05, 0x06, 0x07, 0x4F, 0x50, 0x51, 0x52, 0x53, 0x54, 0x55, 0x5F, 0x60, 0x61, 0x62, 0x63, 0x64,
      0x6C].contains op then .M
  else if (0x40 ≤ op ∧ op ≤ 0x4D) ∨ op = 0x69 ∨ op = 0x6A then .L
  else .X

/-- A stage class accepts stage S`s`, counted from 1 (06 R106). -/
def Stage.allows (c : Stage) (s : Nat) : Bool :=
  match c with
  | .X => true
  | .I => s == 1
  | .M => s == 3 || s == 4
  | .L => s == 5
  | .V => false

/-- An inbound port code (05 R86). -/
def isInPort (code : Nat) : Bool := 72 ≤ code && code ≤ 79

/-- A code that is reserved as a target or as a source (05 R86). -/
def reservedTarget (c : Nat) : Bool := (72 ≤ c && c ≤ 126)
def reservedSource (c : Nat) : Bool := (56 ≤ c && c ≤ 63) || c ≥ 80

end Sys2Proof.Machine
end

