-- ==== Sys2Proof/Machine/Data.lean ====
section
/-! DEFINITION. The plain data that State is built of: finite tables, values with their dependences, records, queues,
agents and their blocks, memory requests, engine commands and the nodes of a graph (spec 03 R46 to R53; 08 R154; 09 R173
to R196; 10 R197 to R222; 12 R245; 13 R262; 14 R277 to R291; 15 R304; 16 R316 to R336). -/
namespace Sys2Proof.Machine

/-- The number in `n` bytes of a byte string. -/
def fieldAt (bs : List Byte) (off n : Nat) : Nat := bytesNat ((bs.drop off).take n)

/-! ### Finite tables -/

/-- A finite table: a list of keys and values; the first entry of a key is its value. -/
abbrev Tab (κ α : Type) := List (κ × α)

/-- The value of a key. -/
def Tab.get? {κ α : Type} [DecidableEq κ] : Tab κ α → κ → Option α
  | [], _ => none
  | (k, v) :: t, x => if k = x then some v else Tab.get? t x

/-- The value of a key, or a default. -/
def Tab.getD {κ α : Type} [DecidableEq κ] (t : Tab κ α) (k : κ) (d : α) : α := (Tab.get? t k).getD d

/-- The table with one key's value replaced, or a new entry at the end. -/
def Tab.set {κ α : Type} [DecidableEq κ] : Tab κ α → κ → α → Tab κ α
  | [], x, w => [(x, w)]
  | (k, v) :: t, x, w => if k = x then (k, w) :: t else (k, v) :: Tab.set t x w

/-- The table without a key. -/
def Tab.erase {κ α : Type} [DecidableEq κ] (t : Tab κ α) (x : κ) : Tab κ α := t.filter fun e => e.1 != x

/-- The table with one key's value changed, if it has one. -/
def Tab.modify {κ α : Type} [DecidableEq κ] (t : Tab κ α) (x : κ) (f : α → α) : Tab κ α :=
  match Tab.get? t x with
  | some v => Tab.set t x (f v)
  | none => t

/-- The keys of a table. -/
def Tab.keys {κ α : Type} (t : Tab κ α) : List κ := t.map Prod.fst

/-- The values of a table. -/
def Tab.vals {κ α : Type} (t : Tab κ α) : List α := t.map Prod.snd

/-! ### Values and records -/

/-- A value on its way between instructions or in a register: its bits, and the memory requests it depends on
(15 R304). A scalar or mask occupies the low bits (03 R35). -/
structure Val where
  bits : Vec
  dep : List Nat
  deriving DecidableEq, Repr

/-- The zero value. -/
def Val.zero : Val := ⟨0, []⟩

/-- A record: the payload and the sideband fields of 03 R46. `sr` lists the memory requests that must be performed
before any access of the firing that consumes it (15 R307). -/
structure Record where
  payload : Vec
  kind : Nat
  weight : Nat
  time : Nat
  key : Nat
  kv : Bool
  lvl : Nat
  nar : Bool
  exc : Bool
  wsat : Bool
  sr : List Nat
  deriving DecidableEq, Repr

/-- Token kinds (03 R48). -/
def kDATA : Nat := 0
def kGAP : Nat := 1
def kWCLOSE : Nat := 2
def kEOF : Nat := 3
def kSWAP : Nat := 4
def kDRAIN : Nat := 5
def kCFG : Nat := 6
def kRAND : Nat := 7
def kNULL : Nat := 8
def kEND : Nat := 9

/-- A control kind: GAP, WCLOSE, EOF, SWAP, DRAIN, END (09 R177). -/
def isControlKind (k : Nat) : Bool := k == 1 || k == 2 || k == 3 || k == 4 || k == 5 || k == 9

/-- A record with every sideband field zero but the kind. -/
def Record.token (kind : Nat) : Record := ⟨0, kind, 0, 0, 0, false, 0, false, false, false, []⟩

/-- The NULL entry: zero payload and zero sideband but the kind (09 R178). -/
def Record.null : Record := .token kNULL

/-- A DATA record of weight 1.0 (11 R228). -/
def Record.data (p : Vec) (time : Nat) (exc : Bool) (sr : List Nat) : Record :=
  ⟨p, kDATA, 0x7C00, time, 0, false, 0, false, exc, false, sr⟩

/-- The 96-bit sideband (03 R46); bits [15:11] are zero (R47). -/
def Record.sideband (r : Record) : Nat :=
  let b := fun (x : Bool) (n : Nat) => if x then 2 ^ n else 0
  r.kind % 16 + b r.exc 4 + b r.nar 5 + (r.lvl % 8) * 2 ^ 6 + b r.kv 9 + b r.wsat 10 + (r.weight % 2 ^ 16) * 2 ^ 16 +
    (r.key % 2 ^ 32) * 2 ^ 32 + (r.time % 2 ^ 32) * 2 ^ 64

/-- The record of a payload and a 96-bit sideband; bits [15:11] are ignored (03 R47). -/
def Record.ofSideband (p : Vec) (x : Nat) : Record :=
  ⟨p, bitsAt x 0 4, bitsAt x 16 16, bitsAt x 64 32, if bitsAt x 9 1 = 1 then bitsAt x 32 32 else 0, bitsAt x 9 1 == 1,
   bitsAt x 6 3, bitsAt x 5 1 == 1, bitsAt x 4 1 == 1, bitsAt x 10 1 == 1, []⟩

/-- The 80 bytes of a record (03 R49). -/
def Record.bytes (r : Record) : List Byte :=
  natBytes 64 r.payload.toNat ++ natBytes 12 r.sideband ++ natBytes 4 0

/-- The record of 80 bytes. -/
def Record.ofBytes (bs : List Byte) : Record :=
  .ofSideband (BitVec.ofNat 512 (bytesNat (bs.take 64))) (bytesNat ((bs.drop 64).take 12))

/-! ### Queues (10 R197 to R212) -/

/-- The fields of a queue descriptor (10 R199); `cap` and `thr` hold the capacity and the threshold themselves. -/
structure QDesc where
  cap : Nat
  thr : Nat
  pol : Nat
  sec : Nat
  k : Nat
  comb : Nat
  khash : Nat
  nfmt : Nat
  spbase : Nat
  spsize : Nat
  grid : Nat
  deriving DecidableEq, Repr

/-- Where a held token or record lies (10 R201): in storage, in the control reserve, in the further entry, or in the
spill ring at an index. -/
inductive Place where
  | storage | reserve | further
  | ring (j : Nat)
  deriving DecidableEq, Repr

/-- One thing a queue holds, in arrival order. `merged` is the merged bit of 10 R205; `own` marks a marker that this
queue's shear opened (R211); `serial` names it in the merge index; `kept` marks what came past the shear and is never shed (22 R400). -/
structure Held where
  r : Record
  units : Nat
  place : Place
  merged : Bool
  own : Bool
  serial : Nat
  kept : Bool
  deriving DecidableEq, Repr

/-- The summary of a spill ring's contents (10 R208). -/
structure RingSummary where
  count : Nat
  weight : Nat
  kr : Bool
  kmin : Nat
  kmax : Nat
  tmin : Nat
  tmax : Nat
  exc : Bool
  sr : List Nat
  deriving DecidableEq, Repr

def RingSummary.empty : RingSummary := ⟨0, 0, true, 0, 0, 0, 0, false, []⟩

/-- A queue: its descriptor and counters, what it holds, the merge index (bucket to serial), and the shear's own state
(10 R199, R204, R205, R208). `ctx` is the context whose tables translate the spill ring; `qid` its queue id (03 R53). -/
structure Queue where
  desc : QDesc
  ctx : Nat
  qid : Nat
  items : List Held
  index : Tab Nat Nat
  nextSerial : Nat
  nabs : Nat
  nlost : Nat
  sc : Nat
  scell : Nat
  /-- `scell` takes the cell of the next arrival (11 R237). -/
  scellFresh : Bool
  sexc : Bool
  /-- The `sr` of the records that SAMPLE has absorbed since the last survivor (15 R307). -/
  ssr : List Nat
  rd : Nat
  wr : Nat
  failed : Bool
  summary : RingSummary
  deriving DecidableEq, Repr

/-- A queue with nothing in it. -/
def Queue.empty (d : QDesc) (ctx qid : Nat) : Queue :=
  ⟨d, ctx, qid, [], [], 0, 0, 0, 0, 0, false, false, [], 0, 0, false, .empty⟩

/-- The descriptor of the `.stream` defaults (10 R197). -/
def QDesc.default : QDesc := ⟨16, 16, 0, 0, 0, 0, 0, 0, 0, 0, 0⟩

/-- A neighbour link (09 R191, R192): two slots, the token register and the gap register. `order` says which of the two
registers was filled first. -/
structure Link where
  policy : Nat
  slots : List Held
  token : Option Record
  gap : Option Record
  tokenFirst : Bool
  qid : Nat
  nextSerial : Nat
  deriving DecidableEq, Repr

/-! ### Ports -/

/-- Where an inbound port's entries come from. -/
inductive InSource where
  | queue (q : Qid)
  | link (q : Qid)
  deriving DecidableEq, Repr

/-- An inbound port: its number 0 to 7, its source and its count (09 R176). -/
structure InPort where
  n : Nat
  src : InSource
  count : Nat
  deriving DecidableEq, Repr

/-- What an outbound port feeds (09 R176). -/
inductive OutDest where
  | stream (source sink : Qid)
  | link (q : Qid)
  | join (nid : Nid) (arc : Nat)
  deriving DecidableEq, Repr

/-- The time declaration of an outbound port (09 R189). -/
inductive TimeDecl where
  | inPort | max
  | tick (s : Nat)
  | fidx
  deriving DecidableEq, Repr

/-- An outbound port, by its number 8 to 15. -/
structure OutPort where
  n : Nat
  dst : OutDest
  time : TimeDecl
  deriving DecidableEq, Repr

/-! ### Agents -/

/-- Block modes (05 R93). -/
inductive Mode where
  | pipe | win | seq
  deriving DecidableEq, Repr

/-- How an instruction of a block stands (08 R154): waiting, issued with its result on the way, waiting for a deadline,
fired, declined or starved. -/
inductive IStat where
  | waiting | issued | fired | declined | starved
  deriving DecidableEq, Repr

/-- A register write of a block, applied at commit: the code, the value, the bits it keeps (05 R92), and whether the
write stays pending until a completion names it (01 R18). -/
structure RegWrite where
  code : Nat
  val : Val
  keep : Vec
  deriving DecidableEq, Repr

/-- One store, atomic or lock access that a block performs from its commit on: addresses are checked and translated
before commit (13 R262). -/
inductive MemOp where
  | store (sys : Bool)
  | add | min | max | minu | maxu | and | or | xor | xchg
  | cas
  | fadd
  | lkacq | lkrel | lkwait
  deriving DecidableEq, Repr

/-- A checked access: virtual address, physical address, memory type 0 C, 1 MS, 2 IO, 3 scratch (12 R238, R239), bytes, and the
two dies that a pinned page names (R241). -/
structure Access where
  va : Nat
  pa : Nat
  mt : Nat
  len : Nat
  pin : Option (Nat × Nat)
  deriving DecidableEq, Repr

/-- An element of an access (12 R251): its offset in the access and two operands. Of a read: its length and its place in the buffer
of the load. Of a store: its data and the enabled bytes. Of an atomic: `b` and `c`. -/
structure Elem where
  off : Nat
  x : Nat
  y : Nat
  deriving DecidableEq, Repr

/-- The operands of an engine, fuller or needle command as its instruction read them (14 R279, 16 R317). `rm` and `ty`
select its variant; `a` includes the byte offset. -/
structure CmdArgs where
  op : Nat
  rm : Nat
  ty : Nat
  a : Nat
  b : Vec
  c : Nat
  lit : Nat
  deriving DecidableEq, Repr

/-- What an event of a fuller command gave: a value, or the cause of its failure (16 R318, R323). -/
inductive EngineEvent where
  | ok (v : Nat)
  | bad (cause : Nat)
  deriving DecidableEq, Repr

/-- The instruction behind an access or a command, as a trap record names it (22 R399): its block's id, its index and its block's
address. -/
structure Origin where
  bid : Nat
  iidx : Nat
  baddr : Nat
  deriving DecidableEq, Repr

/-- No instruction. -/
def Origin.none : Origin := ⟨0, 0xFFFF, 0⟩

/-- A command in an engine queue (14 R277). `after` lists the requests it follows in `dep`; `reg` its token register
(0 for none). `progress` counts the bytes it has written or the rows it has completed; `got` the bytes it has read or the
elements of its round; `rnd` its rounds or its phase; `buf` what it has read and not used. `link` is the number of the copy
it is linked to until that has completed, `linked` that it was linked to one, `cancelled` that this copy failed, and `result` what its
token receives. `lines` counts the destination lines that a round of `cpyt` has written; `log` is what a fuller command's events have
given so far. -/
structure Cmd where
  id : Nat
  args : CmdArgs
  after : List Nat
  reg : Nat
  started : Bool
  progress : Nat
  got : Nat
  rnd : Nat
  buf : List Byte
  link : Option Nat
  linked : Bool
  cancelled : Bool
  result : Option Vec
  lines : Nat
  log : List EngineEvent
  origin : Origin
  deriving DecidableEq, Repr

/-- A command as it enters its queue. -/
def Cmd.new (id : Nat) (args : CmdArgs) (after : List Nat) (reg : Nat) : Cmd :=
  ⟨id, args, after, reg, false, 0, 0, 0, [], none, false, false, none, 0, [], .none⟩

/-- A system effect that a block performs at commit (23 R403). -/
structure SysOp where
  op : Nat
  rm : Nat
  a : Nat
  b : Vec
  reg : Nat
  deriving DecidableEq, Repr

/-- What an instruction does at its block's commit (08 R156). -/
inductive Effect where
  | reg (w : RegWrite)
  /-- A put of records on an outbound port. -/
  | put (port : Nat) (r : Record)
  /-- Accesses, one for each line, each with its elements: the offset in the access, and for a store the data and the enabled
  bytes, else the operands; the token registers of `T0` and `T1` (0 for none). `vector` marks one of 12 R251. -/
  | mem (op : MemOp) (ty W : Nat) (acc : List (Access × List Elem)) (vector : Bool) (after : List Nat) (reg reg1 : Nat)
  | cmd (q : EngineKind) (args : CmdArgs) (after : List Nat) (reg : Nat) (linkTo : Option Nat)
  | sys (o : SysOp) (after : List Nat)
  | skip (port n : Nat)
  | qpol (port : Nat) (w0 : Bool) (b : Vec) (after : List Nat) (reg : Nat)
  | qclr (port sel v : Nat)
  | stash (op : Nat) (va len : Nat) (bank mu : Nat) (after : List Nat) (reg : Nat)
  | shape (bank mu : Nat) (bytes : List Byte) (after : List Nat) (reg : Nat)
  | flagsClear
  | bar (kind : Nat) (word gen : Nat) (after : List Nat) (reg : Nat)
  deriving DecidableEq, Repr

/-- Where an exit goes (08 R156): a block address, the end of the firing or run, or its end and a stop of the thread. -/
inductive ExitTo where
  | block (addr : Nat)
  | done
  | halt
  deriving DecidableEq, Repr

/-- A block in progress: its address, its 128-bit header, the words of each instruction, the operand slots, how each
instruction stands, the effects recorded for commit with the index of their instruction, the exits that fired and the
flags raised (08 R154, R156). -/
structure Block where
  addr : Nat
  hdr : BitVec 128
  code : List (List Word)
  slots : Tab (Nat × Nat) Val
  stat : Tab Nat IStat
  effects : List (Nat × Effect)
  exits : List (Nat × ExitTo)
  flags : FlagSet
  /-- Sticky arrivals of this entry: instruction, slot, count and value (01 R15). -/
  sticky : List (Nat × Nat × Nat × Val)
  /-- `trap` and `brk` decline for this entry: it resumes one they suspended (08 R166). -/
  noTrap : Bool
  /-- An entry that this block has read carries `exc` (04 R76). -/
  readExc : Bool
  /-- The numbers of the requests this block has made (15 R304, R307). -/
  made : List Nat
  /-- The requests of the previous block, which `BO` orders before this block's (05 R93). -/
  before : List Nat
  /-- The cycle in which it entered the window (20 R362). -/
  entered : Nat
  deriving DecidableEq, Repr

/-- A resident sticky operand (01 R15): its block, instruction and slot, the firings it stays for (`none`: until the next
arrival), and its value. -/
structure Resident where
  block : Nat
  idx : Nat
  slot : Nat
  left : Option Nat
  val : Val
  deriving DecidableEq, Repr

/-- The entries a firing is delivered on one port, with their serials in its queue or link (09 R177, R178). -/
structure Delivered where
  port : Nat
  entries : List Record
  serials : List Nat
  control : Bool
  deriving DecidableEq, Repr

/-- A firing or run in progress. -/
structure Firing where
  control : Bool
  delivered : List Delivered
  skips : Tab Nat Nat
  startTick : Nat
  /-- Invalid, divide-by-zero or overflow raised by an earlier block of the firing, or an `exc` entry it has read
  (04 R76). -/
  exc : Bool
  /-- What the firing wrote to each delay line so far (01 R16). -/
  dWritten : Tab Nat Val
  /-- The requests made by the firing's committed blocks, which its puts carry as `sr` (15 R307). -/
  made : List Nat
  /-- The requests that every access of the firing follows: the `sr` of what it was delivered (15 R307). -/
  follows : List Nat
  /-- The requests of the last committed block (05 R93 `BO`). -/
  lastBlock : List Nat
  deriving DecidableEq, Repr

/-- What an agent does next. -/
inductive Phase where
  /-- No firing or run in progress. -/
  | idle
  /-- A firing or run is about to enter the block at an address. -/
  | entering (addr : Nat)
  /-- The block is in progress. -/
  | running
  /-- Suspended at the block start by a trap; resumption may decline traps (08 R166, 22 R402). -/
  | suspended (addr : Nat) (noTrap : Bool)
  /-- Resumed: enters the block anew, with traps declined for that entry if the flag says so. -/
  | resuming (addr : Nat) (noTrap : Bool)
  deriving DecidableEq, Repr

/-- A register write on its way: its register, the number of what will write it (01 R13, R18), and the requests that the instruction
behind it follows, which what reads the register follows too (15 R304). -/
structure PendingWrite where
  code : Nat
  id : Nat
  dep : List Nat
  deriving DecidableEq, Repr

/-- An actor register set or a service thread (09 R196, 20 R364). -/
structure Agent where
  mode : Mode
  level : Level
  ctx : Nat
  inc : Nat
  die : Nat
  vq : Nat
  cu : Nat
  slot : Nat
  /-- Row and column of its quad relative to the region origin. -/
  row : Nat
  col : Nat
  /-- `s`, `v`, `p` registers by their codes of 05 R86; a code with no entry holds zero. -/
  regs : Tab Nat Val
  /-- Delay lines by code: the stages, oldest first (01 R16). -/
  delay : Tab Nat (List Val)
  /-- Registers with a write pending, once per write on its way (01 R13, R18). -/
  pending : List PendingWrite
  flags : FlagSet
  fidx : Nat
  resident : List Resident
  ins : List InPort
  outs : List OutPort
  /-- The code image of an actor, by byte address of each word (05 R101, 08 R158). -/
  code : Tab Nat Word
  /-- The starts of its blocks. -/
  starts : List Nat
  entry : Nat
  stmap : Nat
  /-- Pace period, and the next pace point (09 R181); a fired-once actor with no inbound port has `firedOnce`. -/
  pace : Option Nat
  nextPace : Nat
  paceDue : Bool
  firedOnce : Bool
  phase : Phase
  firing : Option Firing
  block : Option Block
  /-- The instruction that the issue logic has chosen (01 R13). -/
  idx : Nat
  /-- Deadlines of the `twait` and `swait` instructions in progress, by index (08 R171, 23 R409). -/
  deadline : Tab Nat (Nat × List Nat)
  /-- Program timestamp (12 R245). -/
  pts : Nat
  /-- The timestamps of its engine queues (12 R245). -/
  epts : Tab EngineKind Nat
  copyQ : List Cmd
  matrixQ : List Cmd
  needleQ : List Cmd
  fullerQ : List Cmd
  /-- Needle program slots: 16 rules each (16 R331, R332). -/
  programs : Tab Nat (List Nat)
  /-- `CTXCTL.INCNEXT` as the run began (08 R169). -/
  runInc : Nat
  /-- The incomplete call a run took: the number of the call at its head (23 R407). -/
  call : Option Nat
  /-- Since when its block waits for the CU window, as a step number (09 R185). -/
  waitSince : Option Nat
  /-- The firings of a pipe actor that are in the pipe ahead of the one in `firing`, the oldest first, and those behind it, each with its
  block (09 R180, R184). -/
  older : List (Firing × Block)
  younger : List (Firing × Block)
  /-- Since which cycle its firing rule has held (20 R362). -/
  readySince : Option Nat
  deriving DecidableEq, Repr

end Sys2Proof.Machine
end

