-- ==== Sys2Proof/Machine/Fabric.lean ====
section
/-! DEFINITION. The plain data of graphs, regions, memory and scheduling: the configuration a launch places, the nodes
that are not actors, outstanding memory requests, launches, images, contexts and partitions (spec 09 R173 to R195; 10
R213 to R222; 12 R243 to R254; 14 R283 to R298; 20 R350 to R366; 21 R369 to R387; 22 R393 to R401). -/
namespace Sys2Proof.Machine

/-! ### Memory requests -/

/-- Where the answer of a request goes: the buffer of an instruction's load (`aid`, load number), the
register of an agent, an element of a vector atomic (its group number), an engine command of a queue, the log of a
sink or ring (nothing), or nowhere. -/
inductive ReqDst where
  | load (aid : Aid) (load : Nat)
  | reg (aid : Aid) (code : Nat) (ty W : Nat)
  | group (aid : Aid) (group : Nat)
  | cmd (aid : Aid) (q : EngineKind) (cmd : Nat)
  | none
  deriving DecidableEq, Repr

/-- What a request does at its home to each of its elements (13 R263, R264, R270, R273). -/
inductive ReqKind where
  | read (sys : Bool)
  | write (sys : Bool)
  | rmw (op : MemOp) (ty W : Nat)
  /-- One unit of an engine command's work (14 R281, R289; 16 R333). -/
  | engine
  deriving DecidableEq, Repr

/-- A memory request that has not been performed (13 R262, 15 R301). `acc` is the checked access; `elems` the elements of it that
are still to be performed, each an event of its own; `after` the requests it follows in `mo`; `inc` the incarnation its tag carries;
`waitOrder` the place in order of arrival of one that waits on a lock word (13 R274). -/
structure Req where
  id : Nat
  aid : Aid
  ctx : Nat
  inc : Nat
  kind : ReqKind
  acc : Access
  elems : List Elem
  after : List Nat
  dst : ReqDst
  waitOrder : Option Nat
  /-- The vector instruction it is a part of, by the number of its load or group (12 R251). -/
  vec : Option Nat
  /-- What its performed elements read, with the place of each in the buffer of the load. -/
  got : List (Nat × List Byte)
  /-- The place and the VA of the first element that met an uncorrectable error. -/
  failed : Option (Nat × Nat)
  /-- The instruction that made it. -/
  origin : Origin
  deriving DecidableEq, Repr

/-- An answer on its way to its requester (12 R253): what its elements read, with the place of each in the load's buffer, and the place
and VA of the first one that met an uncorrectable error. `mu` is the MU whose tag it holds, if it crossed the lattice. -/
structure Reply where
  id : Nat
  aid : Aid
  inc : Nat
  dst : ReqDst
  got : List (Nat × List Byte)
  failed : Option (Nat × Nat)
  mu : Option Nat
  /-- The quad it returns to. -/
  die : Nat
  vq : Nat
  deriving DecidableEq, Repr

/-- A tag of an MU (12 R252, R253): the number of the access that holds it, the incarnation recorded with it, and whether its reply has
arrived. -/
structure MuTag where
  id : Nat
  inc : Nat
  replied : Bool
  deriving DecidableEq, Repr

/-- A load whose answers are outstanding: the block instruction, the fields that shape its value, the elements and their
byte places, the requests still
unanswered, and all it made (13 R263). -/
structure LoadOp where
  id : Nat
  aid : Aid
  idx : Nat
  ins : Ins
  mask : Dword
  base : List Nat
  buffer : List Byte
  waiting : List Nat
  ids : List Nat
  /-- The place and the VA of the lowest element known to have met an uncorrectable error (13 R262). -/
  failed : Option (Nat × Nat)
  deriving DecidableEq, Repr

/-- A vector atomic, whose last performance writes a register (13 R271, R272): the elements it has performed, the accesses that are
left, and whether an uncorrectable error stopped an element. -/
structure GroupOp where
  aid : Aid
  reg : Nat
  value : Nat
  left : Nat
  failed : Bool
  deriving DecidableEq, Repr

/-! ### Nodes that are not actors -/

/-- Bank-group modes (02 R23). -/
inductive BankMode where
  | scratch | queue | stash | agen | window | hacc | gen | sink
  deriving DecidableEq, Repr

/-- A bank group of one MU (09 R175). -/
structure BankGroup where
  first : Nat
  count : Nat
  mode : BankMode
  deriving DecidableEq, Repr

/-- A generator (04 R66, R67). -/
structure Gen where
  key : Dword
  ctr : Dword
  outstanding : Nat
  out : OutDest
  deriving DecidableEq, Repr

/-- A record a join's window holds, with its side: 0 L, 1 right (10 R214, R216). -/
structure WinRec where
  side : Nat
  r : Record
  deriving DecidableEq, Repr

/-- One result in the making of an aggregate: the key (`none` for a window's unkeyed records), Σ w·x, Σ w, min, max,
count and exc (10 R215). -/
structure AggSlot where
  key : Option Nat
  swx : Nat
  sw : Nat
  mn : Nat
  mx : Nat
  n : Nat
  exc : Bool
  sr : List Nat
  deriving DecidableEq, Repr

/-- A loss counted into windows: a gap's side, times, key range, lost weight and exc (10 R214, R217). -/
structure WinGap where
  side : Nat
  tmin : Nat
  tmax : Nat
  kr : Bool
  kmin : Nat
  kmax : Nat
  lostw : Nat
  exc : Bool
  sr : List Nat
  deriving DecidableEq, Repr

/-- An open window that holds records. -/
structure OpenWindow where
  id : Nat
  slots : List AggSlot
  recs : List WinRec
  deriving DecidableEq, Repr

/-- A window node's function (10 R213). -/
inductive WinFn where
  | agg (lane : Nat) (bykey total : Bool)
  | join (unknowns : Bool)
  deriving DecidableEq, Repr

/-- A window node: its inputs with their watermarks and END marks, its open windows and the gaps that touch them, and the
bound below which windows have closed (10 R213). -/
structure Window where
  fn : WinFn
  W : Nat
  banks : Nat
  ins : List Qid
  marks : List Nat
  ended : List Bool
  out : Option OutDest
  opens : List OpenWindow
  gaps : List WinGap
  closed : Nat
  excNext : Bool
  finished : Bool
  deriving DecidableEq, Repr

/-- One entry of a hash-accumulator bank (10 R219). -/
structure HaccEntry where
  coord : Nat
  swx : Nat
  sw : Nat
  exc : Bool
  deriving DecidableEq, Repr

/-- A hash accumulator: entries by bank and slot, the spill ring's summary, and its lost triples, with whether a ring access
faulted (10 R219, R220). -/
structure Hacc where
  level : Nat
  spbase : Nat
  spsize : Nat
  entries : Tab (Nat × Nat) HaccEntry
  ring : RingSummary
  lost : RingSummary
  faulted : Bool
  /-- The flush in progress; triples that arrive wait for its end (16 R338). -/
  flushing : Option Nat
  out : Option OutDest
  ctx : Nat
  die : Nat
  vq : Nat
  deriving DecidableEq, Repr

/-- A sink on a region exit (10 R221, R222). -/
structure Sink where
  exit : Qid
  log : Nat
  size : Nat
  wr : Nat
  seq : Nat
  reported : Bool
  ctx : Nat
  deriving DecidableEq, Repr

/-- A matrix tile: weights by byte, 128 scale bytes, 256 base-table rows, its `ety`; LC2 tiles have Kt 128 (02 R24). -/
structure Tile where
  ty : Nat
  weights : List Byte
  scales : List Byte
  table : List Byte
  deriving DecidableEq, Repr

/-- The pass in hand of a matrix element (14 R289 to R291): its command; whether the exchange before row `sw` is done;
whether it holds for a full `wl`; and in stream mode the records of the row in its buffer, the tokens to put after that row,
how many swaps act after it, and the END that ends the pass once they have (14 R290, R291). -/
structure Pass where
  cmd : Nat
  swapped : Bool
  held : Bool
  buffer : List Record
  pending : List Record
  swaps : Nat
  ending : Option Record
  deriving DecidableEq, Repr

/-- A matrix element (14 R286). -/
structure Me where
  owner : Aid
  wa : Tile
  wl : Tile
  full : Bool
  acc : Tab (Nat × Nat) Nat
  flags : FlagSet
  slots : List Nat
  outRow : Nat
  pass : Option Pass
  inn : Option Qid
  out : Option OutDest
  vq : Nat
  ctx : Nat
  deriving DecidableEq, Repr

/-- A shape record (14 R283): base, element size log2, extents and strides of its dimensions, innermost first. -/
structure Shape where
  base : Nat
  esz : Nat
  ext : List Nat
  str : List Int
  deriving DecidableEq, Repr

/-- An address-generator group: its shape, the replacements that wait for a round boundary, each with the agent, register
and number of its `ldsh` token and the reads that token follows, and its parameter port (14 R283 to R285). -/
structure Agen where
  shape : Option Shape
  next : List (Shape × Aid × Nat × Nat × List Nat)
  port : Option Qid
  /-- The copy whose round is in progress. -/
  busy : Option Nat
  deriving DecidableEq, Repr

/-- A line a stash holds: its address, whether dirty, its lease end, and the agent or engine queue that last accessed it, its holder
(12 R243 to R246). -/
structure StashLine where
  pa : Nat
  va : Nat
  ctx : Nat
  data : List Byte
  /-- The stash owns the line. -/
  owned : Bool
  dirty : Bool
  wts : Nat
  lease : Nat
  holder : Option (Aid × Option EngineKind)
  /-- Its check bits are wrong (26 R445, R449). -/
  bad : Bool
  deriving DecidableEq, Repr

/-- A stash group: its window and lines (12 R243). -/
structure Stash where
  base : Nat
  lsize : Nat
  mapped : Bool
  lines : List StashLine
  deriving DecidableEq, Repr

/-- A join element: the counts of its control arcs, its release arcs, and the `sr` each arc carries (09 R193, 15 R307). -/
structure Join where
  counts : List Nat
  release : List OutDest
  sr : List Nat
  deriving DecidableEq, Repr

/-- The records of one send on their way over the lattice: the queue they go to, the tick of their injection, the router that holds
them, by its row and column in the package, and the input port that they came in by (02 R27, 20 R363). -/
structure Packet where
  dst : Qid
  recs : List Record
  tick : Nat
  y : Nat
  x : Nat
  port : Nat
  deriving DecidableEq, Repr

/-! ### Graphs (09 R173) -/

/-- An actor of a graph, with its placement relative to the region origin. -/
structure GActor where
  row : Nat
  col : Nat
  cu : Nat
  slot : Nat
  mode : Mode
  ins : List InPort
  outs : List OutPort
  code : Tab Nat Word
  starts : List Nat
  stmap : Nat
  delay : Tab Nat (List Vec)
  pace : Option Nat
  args : List (Nat × Nat)
  deriving DecidableEq, Repr

/-- A configuration image: nodes, streams with the descriptors of their queues, links, bank groups by MU (row, column,
MU number). Region numbers in its names are 0; placement replaces them. -/
structure Graph where
  actors : List GActor
  queues : Tab Qid QDesc
  /-- The QUEUE group of each queue in an MU: its first bank and its span of MUs (10 R198). -/
  homes : Tab Qid (Nat × Nat)
  /-- Each stream's source-side queue and its sink-side queue. -/
  streams : Tab Qid Qid
  /-- The sink-side queues of streams declared `to=exit`, and of those declared `to=text`. -/
  exits : List Qid
  texts : List Qid
  /-- The inbound port fed by the text request queue, if a stream is declared `from=text`. -/
  fromText : Bool
  links : Tab Qid Nat
  banks : List (Nat × Nat × Nat × BankGroup)
  joins : Tab Nid Join
  gens : Tab Nid Gen
  windows : Tab Nid Window
  haccs : Tab Nid Hacc
  sinks : Tab Nid Sink
  mes : Tab Nid Me
  agens : Tab Nid Agen
  deriving DecidableEq, Repr

/-! ### Launches and regions -/

/-- The states of an admitted launch (23 R416), and what precedes and follows them. -/
inductive LState where
  | waiting | running | imaged | exported | completed
  deriving DecidableEq, Repr

/-- A launch that is admitted and not yet retired (20 R352 to R355). -/
structure Launch where
  state : LState
  image : Nat
  height : Nat
  width : Nat
  prio : Nat
  reduced : Bool
  startTick : Option Nat
  cva : Nat
  args : List Nat
  ctx : Nat
  late : Bool
  /-- Admitted as the n-th launch of the device: the order of 20 R360. -/
  order : Nat
  /-- Since when it waits, as a tick (20 R360). -/
  since : Nat
  /-- The priorities that waiters have donated, each with the lock word waited on (21 R384). -/
  donated : List (Nat × Nat)
  preempted : Bool
  status : Nat
  cause : Nat
  started : Bool
  deriving DecidableEq, Repr

/-- The owner tag of an MU bank (21 R377). -/
structure BankTag where
  img : Bool
  ctx : Nat
  inc : Nat
  deriving DecidableEq, Repr

/-- Who asked for a drain: an instruction, the allocator, or the watchdog ladder (21 R370). -/
inductive Asker where
  | software | allocator | ladder
  deriving DecidableEq, Repr

/-- What is under way in a region (21 R369, R371). -/
inductive RegionOp where
  | none
  /-- A drain with its deadline tick, who asked, and the agent, register and number that its status goes to. -/
  | drain (deadline : Nat) (by_ : Asker) (who : Option (Aid × Nat × Nat))
  /-- A freeze with the cycle at which its wave entered. -/
  | freeze (start : Nat) (who : Option (Aid × Nat × Nat)) (drnp : Bool)
  deriving DecidableEq, Repr

/-- A placed region, or one held in an image (20 R357, 21 R371, R382). -/
structure Region where
  y : Nat
  x : Nat
  height : Nat
  width : Nat
  ctx : Nat
  inc : Nat
  prio : Nat
  op : RegionOp
  banks : List (Nat × Nat × Nat × BankGroup)
  /-- A drain was in progress when it was frozen; the tick at which its capture closed; 0 after a drain, 1 after a freeze (21
  R372). -/
  drnp : Bool
  ctick : Nat
  kind : Nat
  /-- Banks saved while its image was held, by region-relative MU number and offset (21 R378). -/
  saved : List Host.Cell
  /-- The banks whose save failed, by region-relative MU number and bank, each with the cause and the VA (21 R378). -/
  spoiled : List (Nat × Nat × Nat × Nat)
  /-- The exits at which the drain in progress has removed its DRAIN (21 R369). -/
  exited : List Qid
  deriving DecidableEq, Repr

/-- An image kept in memory by `imgsv.drop`, with what `imgld` finds there (21 R372; 23 R416). -/
structure Exported where
  rid : Nat
  va : Nat
  size : Nat
  crc : Nat
  deriving DecidableEq, Repr

/-- The 64-byte trap record (22 R399). -/
structure Trap where
  cause : Nat
  tflags : Nat
  ctx : Nat
  inc : Nat
  vq : Nat
  cu : Nat
  slot : Nat
  die : Nat
  bid : Nat
  iidx : Nat
  baddr : Nat
  va : Nat
  tick : Nat
  detail : Nat
  handle : Nat
  deriving DecidableEq, Repr

/-- A trap record waiting for delivery or handling: the agent it suspended and those joined to it, whether the fault thread has taken it
(22 R400, R401), and the entry of the call queue that holds it until then. -/
structure TrapEntry where
  id : Nat
  trap : Trap
  who : Option Aid
  joined : List Aid
  delivered : Bool
  taken : Bool
  /-- Delivered to the management fault thread, not to the context's. -/
  management : Bool
  /-- Raised by the management fault thread: it goes to the host. -/
  host : Bool
  at_ : Option (Qid × Nat)
  deriving DecidableEq, Repr

/-- A service call in progress (23 R406, R407): its caller and status register, and the call-queue entry of the thread that
takes it; or the command-processor function it names, with its argument (24 R438). -/
structure Call where
  id : Nat
  caller : Aid
  reg : Nat
  ctx : Nat
  thread : Aid
  serial : Nat
  fn : Option (Nat × Vec)
  deriving DecidableEq, Repr

/-- A launch queue (20 R350). -/
structure Lq where
  base : Nat
  en : Bool
  depth : Nat
  lsize : Nat
  ctx : Nat
  dies : Dword
  tail : Nat
  head : Nat
  done : Nat
  deriving DecidableEq, Repr

/-- The registers of a context (20 R358; 21 R381; 22 R389; 23 R411). -/
structure Context where
  live : Bool
  incnext : Nat
  fthr : Nat
  fdie : Nat
  vfv : Bool
  vf : Nat
  part : Nat
  root : Nat
  rootV : Bool
  priomax : Nat
  sharemin : Nat
  share : Nat
  svctab : Nat
  lease : Nat
  deriving DecidableEq, Repr

/-- A partition's registers (20 R366; 21 R385; 23 R411). -/
structure Partition where
  v : Bool
  first : Nat
  last : Nat
  fnmode : Nat
  hfvec : Nat
  mfthr : Nat
  mfdie : Nat
  phfbase : Nat
  phfslots : Nat
  phabase : Nat
  phaslots : Nat
  migva : Nat
  migold : Nat
  mignew : Nat
  migdone : Bool
  migst : Nat
  migctx : Nat
  /-- The VA, the old and the new page of a migration in progress (22 R397). -/
  migrun : Option (Nat × Nat × Nat)
  hfwr : Nat
  hawr : Nat
  deriving DecidableEq, Repr

/-- The registers of a service thread beside its agent (20 R364). -/
structure ThreadCtl where
  en : Bool
  fault : Bool
  level : Level
  ctx : Nat
  entry : Nat
  deriving DecidableEq, Repr

/-- A barrier entry (14 R296, R298) of a network instance: count, generation, n and context of the current generation, and
the largest timestamp of its arrivals (R297), in the partition `part`. -/
structure Barrier where
  count : Nat
  gen : Nat
  n : Nat
  ctx : Option Nat
  ts : Nat
  part : Nat
  deriving DecidableEq, Repr

/-- An arrival or a wait at a barrier: who, its token register, its kind (0 `bar`, 1 `bara`, 2 `barw`), the generation it
waits for once known, and the requests that must be performed before it arrives (14 R296). -/
structure BarWait where
  id : Nat
  aid : Aid
  kind : Nat
  word : Nat
  gen : Option Nat
  after : List Nat
  reg : Nat
  /-- It has been sent to the package that counts its barrier, which has not yet answered (24 R432). -/
  sent : Bool
  deriving DecidableEq, Repr

/-- Timestamps of a home line, and the slice that holds it, if one does (12 R242, R245). -/
structure LineTs where
  wts : Nat
  rts : Nat
  slice : Option Nat
  deriving DecidableEq, Repr

/-- One counter of the contention predictor (12 R254). -/
structure Contention where
  count : Nat
  last : Option Aid
  deriving DecidableEq, Repr

/-- A translation a cache holds: context, VA of its page, page size log2, and the leaf entry (22 R393). -/
structure Cached where
  ctx : Nat
  va : Nat
  lg : Nat
  leaf : Dword
  deriving DecidableEq, Repr

/-- A walk of the needle in progress (16 R333 to R336), under the number of its command. `flags` is the order of the last CMP,
the field against the key; `due` that a LOAD has been reached and not yet done; `va` and `cause` its fault. -/
structure Walk where
  handle : Nat
  aid : Aid
  cmd : Nat
  node : Nat
  pc : Nat
  steps : Nat
  limit : Nat
  key : Nat
  flags : Option Ordering
  buf : List Byte
  program : List Nat
  policy : Nat
  due : Bool
  waiting : Bool
  va : Nat
  cause : Nat
  deriving DecidableEq, Repr

end Sys2Proof.Machine
end

