-- ==== Sys2Proof/Machine/Outside.lean ====
section
/-! DEFINITION. The plain data of the machine's edges and of what outlives launches: host functions and their ordering
point, text sessions, error counts and repair maps, firmware, command processors, the pod, power and the watchdog ladder
(spec 24 R420 to R441; 26 R445 to R468). -/
namespace Sys2Proof.Machine

/-! ### Host (24 R421 to R428) -/

/-- The registers of a VF (24 R422), its bucket (R434), and its MSI-X table with its mask and pending bits (R420, R421, R428). A physical
function has the last three only. `rst` is the
64-byte reset record; `bucket` counts in 1/675 of a byte, since a rate of R MB/s is R/675 bytes a tick. -/
structure Vf where
  aperBase : Nat
  aperEn : Bool
  hcrb : Nat
  lslots : Nat
  hcrt : Nat
  hcrh : Nat
  burst : Nat
  rate : Nat
  rst : List Byte
  bucket : Int
  msixMask : Nat
  msixPend : Nat
  /-- The address and data of each vector's message, as the host has written them (24 R421). -/
  msixTab : Tab Nat (Nat × Nat)
  deriving DecidableEq, Repr

/-- A message that leaves the device. The model keeps all of them, in order. -/
inductive Out where
  | frame (conn : Nat) (bytes : List Byte)
  /-- An MSI-X message of a VF, or of a PF: the vector, with the address and data that the function's table gives it. -/
  | msix (vf : Option Nat) (vec addr data : Nat)
  /-- The reset of the package, which the host sees as a function-level reset of every function (26 R455). -/
  | functionResets
  /-- A posted write on PCIe, to the APC, or to pod memory: `en` tells which of the bytes it writes. -/
  | bus (vf : Option Nat) (addr : Nat) (bytes : List Byte) (en : Nat)
  | apc (addr : Nat) (bytes : List Byte) (en : Nat)
  | pod (pkg ctx va : Nat) (bytes : List Byte) (en : Nat)
  /-- A read of an IO page of `n` bytes: on PCIe, of the APC, or of pod memory (24 R485). -/
  | busRead (vf : Option Nat) (addr n : Nat)
  | apcRead (addr n : Nat)
  | podRead (pkg ctx va n : Nat)
  /-- A completion of a host read: 0 success, 1 Unsupported Request, 2 Completer Abort; or the answer to a remote package, 0 or the
  cause of a refusal. -/
  | completion (req status : Nat) (bytes : List Byte)
  | claim (term serial : Nat)
  | claimAck (serial : Nat)
  | heartbeat (term serial : Nat)
  | loadStep (serial n idx count : Nat)
  | progressQuery (serial : Nat)
  | progress (serial step : Nat)
  /-- The arrival `id` of this package at a pod barrier counted at package `pkg`: its barrier word, its kind and its context (24 R432). -/
  | barrier (pkg word kind ctx id : Nat)
  /-- The answer to the arrival `id` of package `pkg`: its token's value. -/
  | barrierAnswer (pkg id value : Nat)
  /-- The release of a generation of a pod barrier that is counted here, to every package. -/
  | barrierRelease (bid gen : Nat)
  /-- A shoot-down of the pod scope, to every other package, and the answer to one of package `pkg` (22 R395). -/
  | shoot (id ctx : Nat) (va : Option Nat)
  | shootDone (pkg id : Nat)
  /-- What a hart of the application processor chiplet is answered: the bytes of a read or of an atomic's old value, or nothing (24 R429). -/
  | hart (h : Nat) (bytes : List Byte)
  /-- What a command-processor core reads from a CSR (26 R459). -/
  | csr (core value : Nat)
  deriving DecidableEq, Repr

/-- One thing an IOP holds for a requester, in arrival order (24 R423 to R425): a write that has not been translated, of the context
it acts in and where its lines lie; a line write with its home route and whether it has been sent; a control-register write; or a
read that waits for the earlier ones. `vf` marks an access through the aperture of a VF, whose `va` is then the offset in it. `reading` is a
read that has been translated, with its lines to come and the bytes of those before. `regRead` is a read of a register, and `pass` an access of the application processor chiplet that goes on to its target. -/
inductive IopItem where
  | raw (vf : Option Nat) (ctx va : Nat) (bytes : List Byte)
  | write (acc : Access) (ctx : Nat) (bytes : List Byte) (route : Nat) (sent : Bool)
  | reg (who : Option Nat) (addr : Nat) (v : Nat)
  | read (vf : Option Nat) (ctx va size : Nat) (relaxed : Bool)
  | reading (ctx : Nat) (left : List Access) (got : List Byte) (relaxed : Bool)
  | regRead (who : Option Nat) (addr : Nat)
  | pass (m : Out)
  deriving DecidableEq, Repr

/-- What a hart of the application processor chiplet does to a line (24 R429): a read of `n` bytes, a write, or an atomic of a width with
its two operands. -/
inductive HartOp where
  | read (n : Nat)
  | write (bytes : List Byte)
  | amo (op : MemOp) (width x y : Nat)
  deriving DecidableEq, Repr

/-- A requester of an IOP: what it holds, and the largest timestamp acknowledged to it for its writes to each route (24 R424, 25 R442). -/
structure Requester where
  items : List IopItem
  acks : Tab Nat Nat
  deriving DecidableEq, Repr

/-- A device write to an IO page on its way: held by its rate limiter until sent, then awaiting the read behind it (24
R426, R434). -/
structure IoWrite where
  id : Nat
  aid : Option Aid
  ctx : Nat
  vf : Option Nat
  pa : Nat
  bytes : List Byte
  sent : Bool
  /-- The token register of a `stsys` or strong host call that its acknowledgement writes. -/
  reg : Option (Aid × Nat × Nat)
  /-- What it must follow (24 R428 `.strong`). -/
  after : List Nat
  /-- The MSI-X vector raised once it is sent. -/
  vec : Option Nat
  /-- Which of the bytes it writes: one write of the enabled bytes of a line (15 R301). -/
  en : Nat
  deriving DecidableEq, Repr

/-- How many bytes a posted write carries (24 R434). -/
def IoWrite.size (w : IoWrite) : Nat := (List.range w.bytes.length).countP w.en.testBit

/-- Every byte of a write is enabled. -/
def allEnabled (n : Nat) : Nat := 2 ^ n - 1

/-! ### Text (24 R435 to R441) -/

/-- A vocabulary version: its image, and its number among the versions that were loaded. -/
structure Vocab where
  image : List Byte
  id : Nat
  deriving DecidableEq, Repr

/-- A session: its connection and VF; the open request with its vocabulary, its next frame, the carder's piece, the position of
the next token, and the last token, held with its time until it is known whether the request ends there; the tokens that a shed
has the carder discard, with the times of the first and the last; and the reply: the bytes that are not yet a whole character, the
released bytes, the next frame, and the tick since which released bytes wait. -/
structure Session where
  conn : Nat
  closed : Bool
  vf : Nat
  ctx : Nat
  vslot : Nat
  vocab : Vocab
  isOpen : Bool
  fseq : Nat
  piece : List Byte
  pos : Nat
  held : Option (Nat × Nat)
  lost : Nat
  lostFrom : Nat
  lostTo : Nat
  tail : List Byte
  released : List Byte
  outSeq : Nat
  since : Nat
  deriving DecidableEq, Repr

/-! ### RAS, firmware, pod, power (26) -/

/-- The RAS state of a die (26 R452, R453). `vpt` lists the virtual quads that are not on the physical quad of their own
number, with the one they are on, if any; `ueTicks` are the ticks of each physical quad's errors; `repair` the defective
quads. -/
structure RasDie where
  failedLinks : Nat
  eccUncorr : Nat
  vptidx : Nat
  vpt : Tab Nat (Option Nat)
  ueTicks : List (Nat × Nat)
  repair : List Nat
  deriving DecidableEq, Repr

/-- A link's failed replays in a row and failed retrainings (26 R450, R451). -/
structure LinkState where
  replays : Nat
  retraining : Bool
  failed : Nat
  deriving DecidableEq, Repr

/-- A request posted to a host-assist ring (20 R366): partition, slot, function bit, die, LQ, sequence, candidate. -/
structure Assist where
  p : Nat
  slot : Nat
  fn : Nat
  die : Nat
  lq : Nat
  seq : Nat
  cand : List Nat
  deriving DecidableEq, Repr

/-- The state record that the active set writes and the next set to run reads (26 R462): the indices of the host-assist rings, by partition,
the requests in hand, and the vocabulary slots. -/
structure SwapRecord where
  rings : Tab Nat Nat
  inHand : List Assist
  vocabs : Tab (Nat × Nat) Vocab
  deriving DecidableEq, Repr

/-- The phases of a firmware swap (26 R462): none; the standby set starts the new firmware; or the active set has set `RELEASE`, with the
tick at which the window began, and its record. -/
inductive Swap where
  | none
  | starting
  | released (at_ : Nat) (record : SwapRecord)
  deriving DecidableEq, Repr

/-- A command-processor core's CSRs (26 R459); `wdog` is the tick at which its watchdog expires. -/
structure CpCore where
  role : Nat
  handoff : Nat
  ready : Bool
  release : Bool
  wdog : Nat
  deriving DecidableEq, Repr

/-- Firmware state (26 R460 to R462). `verified` marks the slots that hold a verified image. -/
structure Firmware where
  src : Nat
  done : Bool
  boot : Nat
  act : Nat
  cmd : Nat
  st : Nat
  slots : Tab Nat (List Byte)
  verified : List Nat
  floor : Nat
  swap : Swap
  cores : Tab Nat CpCore
  deriving DecidableEq, Repr

/-- Roles in the pod (26 R465). -/
inductive PodRole where
  | follower | candidate | leader
  deriving DecidableEq, Repr

/-- The pod state of this package (26 R465, R466). `list` is the configured pod list of serial numbers. -/
structure Pod where
  serial : Nat
  term : Nat
  role : PodRole
  leader : Option (Nat × Nat)
  list : List Nat
  acks : List Nat
  lastBeat : Nat
  nextBeat : Nat
  progress : Nat
  count : Nat
  index : Nat
  joined : Bool
  /-- The last step completed by each follower that has answered its leader, by serial number (26 R466). -/
  records : Tab Nat Nat
  deriving DecidableEq, Repr

/-- A die's power state (26 R467, R468). -/
structure PowerDie where
  pwr : Nat
  tj : Nat
  step : Nat
  under : Option Nat
  pauseUntil : Nat
  deriving DecidableEq, Repr

/-- The power registers and dies. -/
structure Power where
  mbudget : Nat
  dshare : Nat
  dies : Tab Nat PowerDie
  deriving DecidableEq, Repr

/-- Event counters' selection and count (23 R419, 26 R464). -/
structure Counter where
  code : Nat
  count : Nat
  deriving DecidableEq, Repr

/-- The watchdog ladder of an LQ (26 R454, R455): its timer, the last step, and the tick at which that step began. -/
structure Ladder where
  idle : Nat
  step : Nat
  since : Nat
  deriving DecidableEq, Repr

/-- A migration or partition-change status (21 R387, 22 R396). -/
structure Pchg where
  done : Bool
  who : Nat
  st : Nat
  deriving DecidableEq, Repr

/-- The watchdog budgets of a partition (26 R457). -/
structure Budgets where
  b1 : Nat
  b2 : Nat
  t2 : Nat
  b3 : Nat
  b4 : Nat
  deriving DecidableEq, Repr

/-- A context's credit and last service of a die's allocator (20 R359), since when it waits under its floor, and the region
that was last pre-empted for it (R360). -/
structure Credit where
  credit : Int
  lastLq : Nat
  floorSince : Option Nat
  victim : Option Nat
  deriving DecidableEq, Repr

/-- What follows a shoot-down once it is complete: a `tlbi` writes its token (23 R415), a context gets the root that was written to `CTXPT`
(22 R389), or the package that asked for it is answered (22 R395). -/
inductive ShotEnd where
  | token (aid : Aid) (reg : Nat)
  | root (ctx v : Nat)
  | answer (pkg id : Nat)
  deriving DecidableEq, Repr

/-- The agent that waits. -/
def ShotEnd.aid? : ShotEnd → Option Aid
  | .token a _ => some a
  | .root _ _ => none
  | .answer _ _ => none

/-- An image that an `imgld` reads (23 R416): who gets its status, the launch that takes it, and what has been read from its address on. -/
structure ImageRead where
  id : Nat
  aid : Aid
  reg : Nat
  rid : Nat
  va : Nat
  got : List Byte
  deriving DecidableEq, Repr

/-- A shoot-down in progress (22 R395): the requests it waits for, the blocks with accesses that have been checked and not committed, by
agent and the cycle of their entry, and the line writes that requesters have sent, by their number. -/
structure SysWait where
  id : Nat
  ends : ShotEnd
  on : List Nat
  blocks : List (Aid × Nat)
  sent : List (Nat × Nat)
  deriving DecidableEq, Repr

end Sys2Proof.Machine
end

