-- ==== Sys2Proof/Machine/State.lean ====
section
/-! DEFINITION. The state of the machine as plain data, the state after reset, and the reasons a step can stop. Every
field cites the chapter of the spec that names it in INVENTORY.md. -/
namespace Sys2Proof.Machine

/-- Why a step stops with a fault. No instruction of this machine stops it: every fault of the spec is taken as a next
state. `halted` is raised by no meaning; it keeps the type inhabited. Safe: a stop proves nothing. -/
inductive Fault where
  | halted
  deriving DecidableEq, Repr

/-- Why a step is refused. `notModelled` is raised by an arm of `exec` whose instruction has no meaning yet; safe, since a
refused step proves nothing. -/
inductive Refusal where
  | notModelled (mnemonic : String)
  deriving DecidableEq, Repr

/-- What comes next: a row of the opcode table; an instruction that the issue logic of an agent's window or processor chooses, whose number
is 128 for each firing ahead of its own in the pipe, plus its index in its block; a grant of the lattice to a packet (20 R363); an
eviction from a slice (12 R242); a read of a register by a function of the host (24 R425) or an access of a CSR by a command-processor
core (26 R459); an access of a hart of the application processor chiplet to a physical address of a page type (24 R429); a bit error in
a line, which the check bits correct or do not (26 R445); the answer of a remote package that refuses an access of a copy (24 R431); an
arrival of another package at a pod barrier that is homed here, or the answer to an arrival of this one's (24 R432); a read of the host with
relaxed ordering, and a later read's line ahead of the earlier ones (24 R424); a shoot-down of the pod scope from another package, and
another's answer to one of this one's (22 R395); a follower's progress record (26 R466); the next line of an image that is read (23 R416); a
corrected error of a die's registers, queues or other state, an error in a copy of a line, and a parity error in a translation or a tag (26
R445); a replay of a link that succeeds (26 R450); or the steps of a partition change (21 R387) or of a partition's page migration (22 R397)
that has begun. -/
inductive Todo where
  | event (i : Instr)
  | issue (a : Aid) (idx : Nat)
  | hop (k : Nat)
  | evict (line : Nat)
  | regRead (who : Option Nat) (addr : Nat)
  | csr (core addr : Nat) (write : Option Nat)
  | hart (h mt pa : Nat) (op : HartOp)
  | bitError (line : Nat) (correctable : Bool)
  | podRefusal (a : Aid) (id cause : Nat)
  | podArrival (pkg word kind ctx id : Nat)
  | podAnswer (id value : Nat)
  | relaxedRead (vf off size : Nat)
  | readAhead (req k : Nat)
  | podShoot (pkg id ctx : Nat) (va : Option Nat)
  | podShootDone (pkg id : Nat)
  | podProgress (serial step : Nat)
  | imageRead (id : Nat)
  | stateError (die : Nat)
  | copyError (die vq line : Nat) (correctable : Bool)
  | parityError (die vq va : Nat)
  | replayed (link : Nat)
  | partitionChange
  | migration (p : Nat)
  deriving DecidableEq, Repr

/-- The arithmetic clock of a die since its power step last changed (02 R30, 26 R467): the cycles that it had counted at cycle `since` of the
fastest clock, and its rate, in 54ths of that clock's. -/
structure DieClock where
  base : Nat
  since : Nat
  rate : Nat
  deriving DecidableEq, Repr

/-- The clock: the package tick (02 R30), the cycle count of the fastest arithmetic clock, the correction that time messages
have left to slew with the tick of the last slewed one (24 R433), and the arithmetic clocks of the dies. -/
structure Clock where
  tick : Nat
  cycle : Nat
  slew : Int
  lastSlew : Nat
  dies : Tab Nat DieClock
  deriving DecidableEq, Repr

/-- Queues, links and the nodes that are not actors (09 R196 Region), barriers and call threads. -/
structure Fabric where
  queues : Tab Qid Queue
  /-- Source-side queues to sink-side queues (10 R197); exits of regions and text exits (10 R198, 24 R436). -/
  streams : Tab Qid Qid
  exits : List Qid
  texts : List Qid
  links : Tab Qid Link
  joins : Tab Nid Join
  gens : Tab Nid Gen
  windows : Tab Nid Window
  haccs : Tab Nid Hacc
  sinks : Tab Nid Sink
  mes : Tab Nid Me
  agens : Tab Nid Agen
  stashes : Tab Nid Stash
  /-- Records that the lattice has brought to their queue's quad: destination queue and record, in order (10 R197). -/
  flight : List (Qid × Record)
  /-- Sends that the routers of the lattice hold (20 R363). -/
  packets : List Packet
  /-- Records on their way to a link or a join arc. -/
  linkFlight : List (Qid × Record)
  arcFlight : List (Nid × Nat × Record)
  barriers : Tab (Nat × Nat) Barrier
  waits : List BarWait
  /-- CFG runs injected at source actors that have not reconfigured yet (21 R379, R380). -/
  waves : Tab Aid (List Vec)
  /-- The divider of a CU, or of the SVP of a die (quad `0x1FF`, CU 0): the cycle in which it is free, and who uses it (06 R107). -/
  dividers : Tab (Nat × Nat × Nat) (Nat × Aid)
  deriving DecidableEq, Repr

/-- The memory system (12, 13, 15, 22). `mem` holds device memory by PA, `scratch` the MU banks by MU and offset, in
canonical form; `ue` the lines whose check bits are wrong, and `ce` those with an error that they correct. -/
structure MemSys where
  mem : List Host.Cell
  scratch : List Host.Cell
  ue : List Nat
  ce : List Nat
  lines : Tab Nat LineTs
  sliceTs : Tab Nat Nat
  predictor : Tab (Nat × Nat) Contention
  svpCache : Tab Nat (List StashLine)
  /-- The context that last wrote a line in its slice (26 R449). -/
  writers : Tab Nat Nat
  reqs : List Req
  replies : List Reply
  loads : List LoadOp
  groups : List (Nat × GroupOp)
  /-- The timestamp at which a request was performed, and its partition (12 R245, R250). -/
  stamps : Tab Nat (Nat × Nat)
  tlbQuad : Tab (Nat × Nat) (List Cached)
  tlbDie : Tab Nat (List Cached)
  ioWrites : List IoWrite
  /-- Walks in progress (16 R333). -/
  walks : List Walk
  /-- Contexts whose dirty copy of a line was uncorrectable when it was written back, with the line (26 R449). -/
  lost : List (Nat × Nat)
  /-- The tags that an MU has given out, oldest first (12 R252). -/
  tags : Tab Nat (List MuTag)
  /-- The timestamps, by die, of the service threads, routes and harts that have never acted (12 R245, R248). -/
  floors : Tab Nat Nat
  /-- The timestamp of the lines of an MU bank that have none of their own (12 R239, R242). -/
  scratchTs : Tab Nat Nat
  /-- The partitions whose memory has not been preserved, with the number of the free values that its bytes have since (21 R388). -/
  blank : Tab Nat Nat
  deriving DecidableEq, Repr

/-- Launch queues, launches, regions, contexts, partitions and threads (20 to 23), traps and calls (22, 23). -/
structure Sched where
  lqs : Tab Nat Lq
  ladders : Tab Nat Ladder
  launches : Tab Nat Launch
  regions : Tab Nat Region
  graphs : Tab (Nat × Nat) Graph
  exported : List Exported
  contexts : Tab Nat Context
  partitions : Tab Nat Partition
  budgets : Tab Nat Budgets
  nbr : Tab Nat Nat
  schedcfg : Tab Nat (Nat × Nat)
  pchg : Pchg
  threads : Tab (Nat × Nat) ThreadCtl
  credits : Tab (Nat × Nat) Credit
  lastCtx : Tab Nat Nat
  tags : Tab Nat BankTag
  retired : List (Nat × Nat × Nat)
  assists : List Assist
  admitted : Nat
  traps : List TrapEntry
  calls : List Call
  sysWaits : List SysWait
  counters : Tab (Nat × Nat × Nat) Counter
  /-- Kills that wait for an incarnation to give (21 R382). -/
  kills : List Nat
  /-- Contexts that end once their waiting kills are done (21 R381). -/
  ending : List Nat
  /-- The thread of a die that issued last (20 R365). -/
  lastThread : Tab Nat Nat
  /-- Launches that the ladder's L3 has frozen, with the tick in which it did; it kills them in the next (27 R471). -/
  ladderKills : Tab Nat Nat
  /-- The value written to `PCHG` of a change in progress (21 R387). -/
  pchgRun : Option Nat
  /-- Images that `imgld` reads (23 R416). -/
  imageReads : List ImageRead
  deriving DecidableEq, Repr

/-- The machine's edges and what outlives launches (24, 26). -/
structure Outside where
  vfs : Tab Nat Vf
  requesters : Tab Nat Requester
  /-- The timestamps of the routes of the IOPs (12 R245). IOP 4 stands for the device's own writes (log 53). -/
  iopPts : Tab (Nat × Nat) Nat
  /-- The PF among which each VF is counted, as boot has divided them (24 R420). -/
  vfPf : Tab Nat Nat
  outbox : List Out
  vocabs : Tab (Nat × Nat) Vocab
  sessions : Tab Nat Session
  ras : Tab Nat RasDie
  links : Tab Nat LinkState
  fw : Firmware
  pod : Pod
  power : Power
  stage : Nat
  rfail : Bool
  /-- Reply frames that a rate limiter holds: VF, connection and bytes (24 R434). -/
  frames : List (Nat × Nat × List Byte)
  /-- Ethernet ports that have failed (24 R430). -/
  deadPorts : List Nat
  /-- The timestamps of the harts of the application processor chiplet, and the copies that its caches hold (12 R245, R246; 24
  R429). -/
  harts : Tab Nat Nat
  apcCache : List StashLine
  /-- Packages whose answer a shoot-down of the pod scope waits for, by its number (22 R395). -/
  shots : Tab Nat (List Nat)
  deriving DecidableEq, Repr

/-- The machine. `agenda`, `cur`, `fresh` and `nextId` are the model's own: what comes next from outside, the agent whose
instruction issues, the counter that free values are taken by, and the next number of a request, trap or call. -/
structure State where
  clk : Clock
  agents : Tab Aid Agent
  fab : Fabric
  ms : MemSys
  sched : Sched
  out : Outside
  agenda : List Todo
  cur : Option Aid
  fresh : Nat
  nextId : Nat
  deriving DecidableEq, Repr

/-! ### Reset -/

/-- A context at reset (20 R358, 21 R381, 22 R389, 23 R411). -/
def Context.reset : Context := ⟨false, 0, 0, 0, false, 0, 0, 0, false, 7, 0, 1, 0, 63⟩

/-- A partition at reset (20 R366, 21 R385, 22 R396, 23 R411). -/
def Partition.reset (p : Nat) : Partition :=
  ⟨p == 0, 0, if p = 0 then 7 else 0, 0, 0, 0, 0, 0, 0, 0, 0, 0, 0, 0, true, 0, 0, none, 0, 0⟩

/-- A launch queue at reset (20 R350). -/
def Lq.reset : Lq := ⟨0, false, 0, 0, 0, 0, 0, 0, 0⟩

/-- Budgets at reset (26 R457). -/
def Budgets.reset : Budgets := ⟨675000000, 675000000, 675000, 675000, 67500000⟩

/-- A thread's registers at reset (20 R364, 27 R470). -/
def ThreadCtl.reset : ThreadCtl := ⟨false, false, .S, 0, 0⟩

/-- Every vector of a function is masked at reset, as PCI Express has it (log 26). The product is 2^512 - 1. -/
def Vf.allMasked : Nat := (2 ^ 256 - 1) * (2 ^ 256 + 1)

/-- A VF at reset (24 R422). -/
def Vf.reset : Vf := ⟨0, false, 0, 0, 0, 0, 1, 0, List.replicate 64 0, 0, Vf.allMasked, 0, []⟩

/-- A die's RAS state at reset (26 R452). -/
def RasDie.reset : RasDie := ⟨0, 0, 0, [], [], []⟩

/-- A command-processor core at reset: core 0 of each pair active (26 R459, log 2). -/
def CpCore.reset (c : Nat) : CpCore := ⟨c % 2, 0, false, false, 2 ^ 24⟩

/-- Firmware at reset (26 R461). -/
def Firmware.reset : Firmware := ⟨0, true, 0, 0, 0, 0, [], [], 0, .none, []⟩

/-- The pod at reset: a pod list that holds this package alone (26 R466, log 2). -/
def Pod.reset : Pod := ⟨0, 0, .leader, some (0, 0), [0], [], 0, 0, 0, 1, 0, true, []⟩

/-- The machine right after reset. -/
def State.reset : State where
  clk := ⟨0, 0, 0, 0, []⟩
  agents := []
  fab := ⟨[], [], [], [], [], [], [], [], [], [], [], [], [], [], [], [], [], [], [], [], []⟩
  ms := ⟨[], [], [], [], [], [], [], [], [], [], [], [], [], [], [], [], [], [], [], [], [], [], []⟩
  sched := ⟨[], [], [], [], [], [], [], [], [], [], [], ⟨true, 0, 0⟩, [], [], [], [], [], [], 0, [], [], [], [], [], [], [], [], none, []⟩
  out := ⟨[], [], [], [], [], [], [], [], [], .reset, .reset, ⟨7500, 950, []⟩, 1, false, [], [], [], [], []⟩
  agenda := []
  cur := none
  fresh := 0
  nextId := 1

end Sys2Proof.Machine
end

