-- ==== Sys2Proof/Machine/Mem.lean ====
section
/-! DEFINITION. Byte memory in canonical form: addresses strictly rising, no entry equal to what an unlisted address
reads as (log 1: zero). Little-endian words (spec 00 R5). -/
namespace Sys2Proof.Machine

/-- What a byte that nothing has written reads as (log 1). -/
def Mem.unlisted : Byte := 0

/-- One byte. -/
def Mem.read : List Host.Cell → Nat → Byte
  | [], _ => Mem.unlisted
  | (k, b) :: m, a => if k = a then b else Mem.read m a

/-- Puts an entry in front, unless the byte is what an unlisted address reads as. -/
def Mem.cons (a : Nat) (b : Byte) (m : List Host.Cell) : List Host.Cell :=
  if b = Mem.unlisted then m else (a, b) :: m

/-- Writes one byte, keeping the canonical form. -/
def Mem.write : List Host.Cell → Nat → Byte → List Host.Cell
  | [], a, b => Mem.cons a b []
  | (k, c) :: m, a, b =>
    if a < k then Mem.cons a b ((k, c) :: m)
    else if k = a then Mem.cons a b m
    else (k, c) :: Mem.write m a b

/-- The bytes of a range. -/
def Mem.readBytes (m : List Host.Cell) (a n : Nat) : List Byte := (List.range n).map fun j => Mem.read m (a + j)

/-- Writes consecutive bytes. -/
def Mem.writeBytes (m : List Host.Cell) : Nat → List Byte → List Host.Cell
  | _, [] => m
  | a, b :: bs => Mem.writeBytes (Mem.write m a b) (a + 1) bs

/-- Every entry lies at or above an address, in rising order, and differs from the unlisted byte. -/
def Mem.wfFrom : Nat → List Host.Cell → Bool
  | _, [] => true
  | lo, (k, b) :: m => decide (lo ≤ k) && decide (b ≠ Mem.unlisted) && Mem.wfFrom (k + 1) m

/-- The canonical form. -/
def Memory.wf (m : List Host.Cell) : Bool := Mem.wfFrom 0 m

end Sys2Proof.Machine
end

