-- ==== Sys2Proof/Machine/Ops.lean ====
section
/-! DEFINITION. The named operations over the state: agents and their registers, placement, event counters, free values,
the trap record, taking an exception and returning from one (spec 02 R26, R28; 05 R86; 08 R157, R166; 20 R357; 22 R398
to R402; 23 R413; 26 R464). -/
namespace Sys2Proof

/-- The launch of an actor; none for a service thread. -/
def Aid.rid : Aid → Option Nat
  | .actor rid _ _ _ _ => some rid
  | .thread _ _ => none

/-- A service thread. -/
def Aid.isThread : Aid → Bool
  | .thread _ _ => true
  | .actor .. => false

end Sys2Proof

namespace Sys2Proof.Machine

/-! ### Status and cause codes -/

/-- Trap causes (22 R398). -/
def cOPCODE : Nat := 0x01
def cHEADER : Nat := 0x02
def cTARGET : Nat := 0x03
def cTYPE : Nat := 0x04
def cPLACEMENT : Nat := 0x05
def cPRIVILEGED : Nat := 0x06
def cNOT_PRESENT : Nat := 0x10
def cPERMISSION : Nat := 0x11
def cALIGN : Nat := 0x12
def cMEMORY_UE : Nat := 0x13
def cBAD_ENTRY : Nat := 0x14
def cSOFTWARE : Nat := 0x20
def cBREAK : Nat := 0x21
def cENGINE : Nat := 0x30
def cSPILL : Nat := 0x31
def cWATCHDOG : Nat := 0x40
def cLOCK_INVERSION : Nat := 0x41
def cLEASE_LOST : Nat := 0x42
def cVF_RESET : Nat := 0x43
def cDOUBLE : Nat := 0x50

/-- A failure status: bit 63 and a code (23 R405). -/
def failure (code : Nat) : Nat := 2 ^ 63 + code

def sREJECTED : Nat := failure 1
def sNOSVC : Nat := failure 2
def sNOTOWNER : Nat := failure 3
def sSTATE : Nat := failure 4
def sTIMEOUT : Nat := failure 5
def sBUSY : Nat := failure 6
def sBADIMG : Nat := failure 7
def sDEAD : Nat := failure 8

/-! ### Small list and table helpers -/

/-- `xs` with `x` added once. -/
def addOnce {α : Type} [DecidableEq α] (xs : List α) (x : α) : List α := if xs.contains x then xs else xs ++ [x]

/-- The four engine queues. -/
def engineKinds : List EngineKind := [.copy, .matrix, .needle, .fuller]

/-- The union of two dependence sets. -/
def unionDep (xs ys : List Nat) : List Nat := ys.foldl addOnce xs

/-- Replaces position `i` of a list. -/
def setAt {α : Type} (xs : List α) (i : Nat) (x : α) : List α := xs.set i x

/-- The index of the first element that satisfies a test. -/
def findIdx? {α : Type} (p : α → Bool) (xs : List α) : Option Nat :=
  let n := xs.findIdx p
  if n < xs.length then some n else none

/-! ### Agents -/

/-- An agent with every register zero and nothing in progress. -/
def Agent.blank : Agent where
  mode := .seq
  level := .U
  ctx := 0
  inc := 0
  die := 0
  vq := 0x1FF
  cu := 0
  slot := 0
  row := 0
  col := 0
  regs := []
  delay := []
  pending := []
  flags := fNone
  fidx := 0
  resident := []
  ins := []
  outs := []
  code := []
  starts := []
  entry := 0
  stmap := 0
  pace := none
  nextPace := 0
  paceDue := false
  firedOnce := false
  phase := .idle
  firing := none
  block := none
  idx := 0
  deadline := []
  pts := 0
  epts := [(.copy, 0), (.matrix, 0), (.needle, 0), (.fuller, 0)]
  copyQ := []
  matrixQ := []
  needleQ := []
  fullerQ := []
  programs := []
  runInc := 0
  call := none
  waitSince := none
  older := []
  younger := []
  readySince := none

/-- A service thread that has never run: its call queue is `q0` (01 R20). -/
def Agent.thread (die t : Nat) : Agent :=
  { Agent.blank with die := die, cu := t, ins := [⟨0, .queue (.call die t), 1⟩] }

/-- The timestamp of what has never acted: the threads of a die, the routes to it, and the harts on die 0 (12 R245, R248). -/
def State.floorTs (s : State) (k : Nat) : Nat := Tab.getD s.ms.floors k 0

/-- A service thread that has never run, with the timestamps it has by now. -/
def State.freshThread (s : State) (d t : Nat) : Agent :=
  let ts := s.floorTs d
  { Agent.thread d t with pts := ts, epts := [(.copy, ts), (.matrix, ts), (.needle, ts), (.fuller, ts)] }

/-- The agent of an identifier; every service thread of the 64 dies exists (20 R364). -/
def State.agent? (s : State) (a : Aid) : Option Agent :=
  match Tab.get? s.agents a, a with
  | some g, _ => some g
  | none, .thread d t => if d < 64 ∧ t < 64 then some (s.freshThread d t) else none
  | none, .actor .. => none

/-- The state with an agent replaced. -/
def State.setAgent (s : State) (a : Aid) (g : Agent) : State := { s with agents := Tab.set s.agents a g }

/-- The state with an agent changed, if it exists. -/
def State.updAgent (s : State) (a : Aid) (f : Agent → Agent) : State :=
  match s.agent? a with
  | some g => s.setAgent a (f g)
  | none => s

/-- Changes of parts of the state. -/
def State.updFab (s : State) (f : Fabric → Fabric) : State := { s with fab := f s.fab }
def State.updMs (s : State) (f : MemSys → MemSys) : State := { s with ms := f s.ms }
def State.updSched (s : State) (f : Sched → Sched) : State := { s with sched := f s.sched }
def State.updOut (s : State) (f : Outside → Outside) : State := { s with out := f s.out }

/-- A message leaves the device. -/
def State.send (s : State) (m : Out) : State := s.updOut fun o => { o with outbox := o.outbox ++ [m] }

/-- A new number for a request, trap or call. -/
def State.takeId (s : State) : Nat × State := (s.nextId, { s with nextId := s.nextId + 1 })

/-- A value the spec leaves open (log 3). -/
def State.free (s : State) : Vec × State := (Config.freeValue s.fresh, { s with fresh := s.fresh + 1 })

/-! ### Registers of the control space -/

def State.context (s : State) (c : Nat) : Context := Tab.getD s.sched.contexts c .reset
def State.partition (s : State) (p : Nat) : Partition := Tab.getD s.sched.partitions p (.reset p)
def State.lq (s : State) (n : Nat) : Lq := Tab.getD s.sched.lqs n .reset
def State.ladder (s : State) (n : Nat) : Ladder := Tab.getD s.sched.ladders n ⟨0, 0, 0⟩
def State.threadCtl (s : State) (d t : Nat) : ThreadCtl := Tab.getD s.sched.threads (d, t) .reset
def State.vf (s : State) (v : Nat) : Vf := Tab.getD s.out.vfs v .reset
def State.budgets (s : State) (p : Nat) : Budgets := Tab.getD s.sched.budgets p .reset
def State.ras (s : State) (d : Nat) : RasDie := Tab.getD s.out.ras d .reset

def State.updContext (s : State) (c : Nat) (f : Context → Context) : State :=
  s.updSched fun x => { x with contexts := Tab.set x.contexts c (f (s.context c)) }
def State.updPartition (s : State) (p : Nat) (f : Partition → Partition) : State :=
  s.updSched fun x => { x with partitions := Tab.set x.partitions p (f (s.partition p)) }
def State.updLq (s : State) (n : Nat) (f : Lq → Lq) : State :=
  s.updSched fun x => { x with lqs := Tab.set x.lqs n (f (s.lq n)) }
def State.updLadder (s : State) (n : Nat) (f : Ladder → Ladder) : State :=
  s.updSched fun x => { x with ladders := Tab.set x.ladders n (f (s.ladder n)) }
def State.updThreadCtl (s : State) (d t : Nat) (f : ThreadCtl → ThreadCtl) : State :=
  s.updSched fun x => { x with threads := Tab.set x.threads (d, t) (f (s.threadCtl d t)) }
def State.updLaunch (s : State) (r : Nat) (f : Launch → Launch) : State :=
  s.updSched fun x => { x with launches := Tab.modify x.launches r f }
def State.updRegion (s : State) (r : Nat) (f : Region → Region) : State :=
  s.updSched fun x => { x with regions := Tab.modify x.regions r f }
def State.updVf (s : State) (v : Nat) (f : Vf → Vf) : State :=
  s.updOut fun x => { x with vfs := Tab.set x.vfs v (f (s.vf v)) }
def State.updRas (s : State) (d : Nat) (f : RasDie → RasDie) : State :=
  s.updOut fun x => { x with ras := Tab.set x.ras d (f (s.ras d)) }

/-- The queue of a service thread's calls exists at its `CQDESC` (20 R364); the descriptor at reset has every field zero,
which is a capacity of 1 (log 2). -/
def State.queue? (s : State) (q : Qid) : Option Queue :=
  match Tab.get? s.fab.queues q, q with
  | some x, _ => some x
  | none, .call d t =>
    some (.empty ⟨1, 1, 0, 0, 0, 0, 0, 0, 0, 0, 0⟩ 0 (d * 2 ^ 26 + 0x1FF * 2 ^ 17 + t))
  | none, _ => none

def State.setQueue (s : State) (q : Qid) (x : Queue) : State := s.updFab fun f => { f with queues := Tab.set f.queues q x }
def State.updQueue (s : State) (q : Qid) (f : Queue → Queue) : State :=
  match s.queue? q with
  | some x => s.setQueue q (f x)
  | none => s

/-! ### Placement (02 R26, R28; 20 R357) -/

/-- The die and virtual quad at package coordinates. -/
def quadAt (Y X : Nat) : Nat × Nat := (8 * (Y / 16) + X / 20, 20 * (Y % 16) + X % 20)

/-- The die and virtual quad at a place of a region. -/
def Region.quad (r : Region) (row col : Nat) : Nat × Nat := quadAt (r.y + row) (r.x + col)

/-- The linear number of an MU of the package. -/
def muNumber (die vq mu : Nat) : Nat := (die * 320 + vq) * 4 + mu

/-- The quads a region covers, as relative row and column. -/
def Region.cells (r : Region) : List (Nat × Nat) :=
  (List.range r.height).flatMap fun y => (List.range r.width).map fun x => (y, x)

/-- The launch of a launch name: LQ number and sequence number. -/
def ridOf (lq seq : Nat) : Nat := lq * 2 ^ 32 + seq % 2 ^ 32
def ridLq (rid : Nat) : Nat := rid / 2 ^ 32
def ridSeq (rid : Nat) : Nat := rid % 2 ^ 32

/-- The launch is placed and live (23 R416 RUNNING), and its first firing is allowed. -/
def State.running (s : State) (rid : Nat) : Bool :=
  match Tab.get? s.sched.launches rid with
  | some l => l.state == .running
  | none => false

/-- The cycles of a die's arithmetic clock so far. Out of reset the device is in service stage S1, in which it runs at 1.35 GHz (26
R463, R467). -/
def Clock.dieCycle (c : Clock) (d : Nat) : Nat :=
  let k := Tab.getD c.dies d ⟨0, 0, 27⟩
  k.base + (c.cycle - k.since) * k.rate / 54

/-- The tick after one more tick of the reference clock: slewing adds or withholds one of 4,096 (24 R433). -/
def Clock.nextTick (c : Clock) : Clock :=
  if c.slew != 0 && c.tick ≥ c.lastSlew + 4096 then
    if c.slew > 0 then { c with tick := c.tick + 2, slew := c.slew - 1, lastSlew := c.tick }
    else { c with slew := c.slew + 1, lastSlew := c.tick }
  else { c with tick := c.tick + 1 }

/-- The clock after one more cycle of P0: a tick is four of them. -/
def Clock.next (c : Clock) : Clock :=
  let c := { c with cycle := c.cycle + 1 }
  if c.cycle % 4 = 0 then c.nextTick else c

/-- The cycle is the last one of its tick: what progress goes before acts only now (26 R454). -/
def State.tickEnds (s : State) : Bool := s.clk.next.tick != s.clk.tick

/-- A freeze wave has passed a quad of the region, counted in cycles of the die of its origin (21 R371; log 4). -/
def State.waved (s : State) (rid row col : Nat) : Bool :=
  match Tab.get? s.sched.regions rid with
  | some r => match r.op with
    | .freeze start _ _ => decide (start + row + col ≤ s.clk.dieCycle (r.quad 0 0).1)
    | _ => false
  | none => false

/-- A node of the region may act: its launch has started and no freeze has reached its quad (20 R354, 21 R371). -/
def State.alive (s : State) (rid row col : Nat) : Bool :=
  match Tab.get? s.sched.launches rid with
  | some l => l.state == .running && l.started && !s.waved rid row col
  | none => false

def State.nodeAlive (s : State) (n : Nid) : Bool := s.alive n.rid n.row n.col

/-- An agent may act: an actor of a live region, or a thread (20 R365). -/
def State.agentAlive (s : State) : Aid → Bool
  | .actor rid row col _ _ => s.alive rid row col
  | .thread _ _ => true

/-- A die of row 0 has failed repair: the package goes no further than its command processors (26 R453). -/
def State.rowZeroFails (s : State) : Bool :=
  s.out.rfail && s.out.stage = 1 && s.out.ras.any fun e => decide (e.1 < 8) && decide (e.2.repair.length > 10)

/-- A die is in service: in S1, those of die row 0 are (26 R463). -/
def State.dieServes (s : State) (d : Nat) : Bool := s.out.stage != 1 || (decide (d < 8) && !s.rowZeroFails)

/-- The incarnation an agent bears (08 R169 `.inc`). -/
def State.incOf (s : State) (a : Aid) (g : Agent) : Nat :=
  match a.rid with
  | some rid => match Tab.get? s.sched.regions rid with
    | some r => r.inc
    | none => g.inc
  | none => g.runInc

/-- The partition of a die (21 R386). -/
def State.dieOf (s : State) (die : Nat) : Nat := Tab.getD s.sched.nbr die 0

/-- A die lies in a partition (21 R385). -/
def Partition.hasDie (p : Partition) (d : Nat) : Bool := p.v && p.first ≤ d / 8 && d / 8 ≤ p.last

/-! ### Event counters (23 R419, 26 R464) -/

/-- The die-only event codes. -/
def dieOnly (code : Nat) : Bool := (0x50 ≤ code && code ≤ 0x57) || (0x60 ≤ code && code ≤ 0x65)

/-- The event codes of 26 R464. -/
def eventListed (code : Nat) : Bool :=
  [0x01, 0x10, 0x11, 0x12].contains code || (0x20 ≤ code && code ≤ 0x26) || code == 0x28 || code == 0x29 ||
  (0x30 ≤ code && code ≤ 0x38) || (0x40 ≤ code && code ≤ 0x48) || dieOnly code

/-- Counts an event of a die, at one of its quads or none, in every counter that selects its code. A count saturates at
`2^48 - 1`. An uncorrectable error also counts in the die's `RASLOG` (26 R452). -/
def State.count (s : State) (die : Nat) (vq : Option Nat) (code : Nat) (n : Nat := 1) : State :=
  let s := if code = 0x61 then s.updRas die fun r => { r with eccUncorr := min (r.eccUncorr + n) (2 ^ 32 - 1) } else s
  s.updSched fun x => { x with counters := x.counters.map fun e =>
    let here := e.1.1 == die && (e.1.2.1 == 0x1FF || (some e.1.2.1 == vq && !dieOnly code))
    if here && e.2.code == code && eventListed code then (e.1, { e.2 with count := min (e.2.count + n) (2 ^ 48 - 1) })
    else e }

/-- Counts an event at an agent's quad. -/
def State.countAt (s : State) (g : Agent) (code : Nat) (n : Nat := 1) : State :=
  s.count g.die (if g.vq = 0x1FF then none else some g.vq) code n

/-- A packet of one die is refused at another whose `NBR` names another partition, which is counted there (21 R386; log 57). -/
def State.refuses (s : State) (src dst : Nat) : Bool := s.dieOf src != s.dieOf dst

/-- The refusal of a packet at a die. -/
def State.refuse (s : State) (dst : Nat) : State := s.count dst none 0x53

/-! ### Registers (05 R86) -/

/-- The committed value of an `s`, `v` or `p` register: `s0` reads as zero and `p0` as all ones. -/
def Agent.reg (g : Agent) (code : Nat) : Val :=
  if code = 0 then .zero
  else if code = 48 then ⟨scal (2 ^ 64 - 1), []⟩
  else Tab.getD g.regs code .zero

/-- A value written over another, of which it keeps some bits. It then follows what both follow (15 R304). -/
def Val.over (v old : Val) (keep : Vec) : Val :=
  ⟨(v.bits &&& ~~~keep) ||| (old.bits &&& keep), if keep = 0 then v.dep else unionDep old.dep v.dep⟩

/-- What a block writes to a delay line, over the value its firing reads from it (01 R16). -/
def Block.lineValue (b : Block) (code : Nat) (read : Val) : Val :=
  b.effects.foldl (fun v e => match e.2 with
    | .reg w => if w.code = code then w.val.over v w.keep else v
    | _ => v) read

/-- What the firing at a place of the pipe reads from a delay line: a stage of the line, or what the firing that lies the line's depth
ahead of it in the pipe writes to it (09 R184). -/
def Agent.lineAt (g : Agent) (code : Nat) : Nat → Nat → Option Val
  | 0, _ => none
  | fuel + 1, k => match Tab.get? g.delay code with
    | none => none
    | some stages =>
      if k < stages.length then stages[k]?
      else if stages.length = 0 then none
      else match g.older[k - stages.length]? with
        | some (_, b) => (g.lineAt code fuel (k - stages.length)).map fun v => b.lineValue code v
        | none => none

/-- The value a firing reads from a delay line (01 R16). -/
def Agent.delayHead (g : Agent) (code : Nat) : Option Val := g.lineAt code (g.older.length + 1) g.older.length

/-- The index of the firing in progress or of the next one (08 R169). -/
def Agent.firingIndex (g : Agent) : Nat := g.fidx + g.older.length

/-- The firings of an agent in progress, the oldest first, each with its block (09 R180). -/
def Agent.inFlight (g : Agent) : List (Firing × Block) :=
  g.older ++ (match g.firing, g.block with
    | some f, some b => [(f, b)]
    | _, _ => []) ++ g.younger

/-- The agent with the firing at a place of the pipe in hand. -/
def Agent.focus (g : Agent) (k : Nat) : Agent :=
  if k = g.older.length then g
  else
    match g.block, g.inFlight[k]? with
    | some _, some (f, b) =>
      { g with older := g.inFlight.take k, firing := some f, block := some b, younger := g.inFlight.drop (k + 1) }
    | _, _ => g

/-- The firings in progress move up in the pipe for one more. -/
def Agent.makeRoom (g : Agent) : Agent :=
  if g.inFlight.isEmpty then g else { g with older := g.inFlight, firing := none, block := none, younger := [] }

/-- The firing in hand has ended: the next one in the pipe follows. -/
def Agent.nextInPipe (g : Agent) : Agent := match g.younger with
  | (f, b) :: rest => { g with phase := .running, firing := some f, block := some b, younger := rest }
  | [] => g

/-- Every firing in the pipe but the oldest is abandoned, and the oldest is in hand (09 R184). -/
def Agent.rewind (g : Agent) : Agent := match g.older with
  | (f, b) :: _ => { g with phase := .running, firing := some f, block := some b, older := [], younger := [] }
  | [] => { g with younger := [] }

/-- The entries delivered on an inbound port; NULL where the firing delivers nothing (09 R178). -/
def Firing.entry (f : Firing) (port j : Nat) : Record :=
  match f.delivered.find? (fun d => d.port == port) with
  | some d => d.entries.getD j .null
  | none => .null

/-- The inbound port of a number. -/
def Agent.inPort? (g : Agent) (n : Nat) : Option InPort := g.ins.find? fun p => p.n == n

/-- The outbound port of a number. -/
def Agent.outPort? (g : Agent) (n : Nat) : Option OutPort := g.outs.find? fun p => p.n == n

/-- What a source code reads at issue; `none` for a reserved code or a delay line that is not declared. A head entry
carries its payload (05 R86, R88). -/
def Agent.source (g : Agent) (code : Nat) : Option Val :=
  if code < 56 then some (g.reg code)
  else if 64 ≤ code ∧ code < 72 then g.delayHead code
  else if 72 ≤ code ∧ code < 80 then
    match g.firing with
    | some f => some ⟨(f.entry (code - 72) 0).payload, []⟩
    | none => some .zero
  else none

/-- The width a register holds: 64 bits for `s` and `p`, 512 for `v` and `d` (03 R35). -/
def regMask (code : Nat) : Vec := if code < 32 ∨ (48 ≤ code ∧ code < 56) then scal (2 ^ 64 - 1) else allOnes

/-- A register write: `s0` and `p0` discard it; the kept bits stay as committed (05 R86, R92). -/
def Agent.write (g : Agent) (code : Nat) (v : Val) (keep : Vec) : Agent :=
  if code = 0 ∨ code = 48 then g
  else if code < 56 then
    let x := v.over (g.reg code) keep
    { g with regs := Tab.set g.regs code ⟨x.bits &&& regMask code, x.dep⟩ }
  else if 64 ≤ code ∧ code < 72 then
    match g.firing, g.delayHead code with
    | some f, some head =>
      { g with firing := some { f with dWritten := Tab.set f.dWritten code (v.over (Tab.getD f.dWritten code head) keep) } }
    | _, _ => g
  else g

/-- A register write is on its way (01 R13). -/
def Agent.isPending (g : Agent) (code : Nat) : Bool := g.pending.any fun p => p.code == code

/-- A result that arrives after its block's commit is written and its scoreboard cleared (01 R18). It follows what its instruction
followed (15 R304). -/
def Agent.receive (g : Agent) (code id : Nat) (v : Val) : Agent :=
  match g.pending.find? fun p => p.code == code && p.id == id with
  | some p => ({ g with pending := g.pending.erase p } : Agent).write code ⟨v.bits, unionDep p.dep v.dep⟩ 0
  | none => g

/-- A scalar result arrives at an agent's register. -/
def State.arrive (s : State) (a : Aid) (code id value : Nat) (dep : List Nat) : State :=
  s.updAgent a fun g => g.receive code id ⟨scal value, dep⟩

/-! ### Progress of the watchdog (26 R454) -/

/-- Progress resets the timer of the launch's LQ and returns its ladder to idle. -/
def State.progress (s : State) (rid : Nat) : State := s.updLadder (ridLq rid) fun _ => ⟨0, 0, 0⟩

def State.agentProgress (s : State) (a : Aid) : State :=
  match a.rid with
  | some r => s.progress r
  | none => s

/-! ### Trap records (22 R399) -/

/-- The handle of a firing or run. -/
def Agent.handle (a : Aid) (g : Agent) (inc : Nat) : Nat :=
  match a with
  | .actor .. => inc * 2 ^ 48 + g.die * 2 ^ 42 + g.vq * 2 ^ 33 + g.cu * 2 ^ 31 + g.slot * 2 ^ 29
  | .thread _ t => inc * 2 ^ 48 + g.die * 2 ^ 42 + 0x1FF * 2 ^ 33 + 2 ^ 28 + t * 2 ^ 22

/-- The id of a block, from its header (05 R93). -/
def hdrId (h : BitVec 128) : Nat := (h.extractLsb' 48 8).toNat

/-- The 64 bytes of a trap record as a 512-bit payload. -/
def Trap.payload (t : Trap) : Vec :=
  BitVec.ofNat 512 (t.cause + t.tflags * 2 ^ 8 + t.ctx * 2 ^ 16 + t.inc * 2 ^ 32 + t.vq * 2 ^ 48 + t.cu * 2 ^ 64 +
    t.slot * 2 ^ 72 + t.die * 2 ^ 80 + t.bid * 2 ^ 88 + t.iidx * 2 ^ 96 + t.baddr * 2 ^ 128 + t.va * 2 ^ 192 +
    t.tick * 2 ^ 256 + t.detail * 2 ^ 320 + t.handle * 2 ^ 384)

/-- Adds a record that waits for delivery. -/
def State.postTrap (s : State) (t : Trap) (who : Option Aid) (management : Bool) (host : Bool := false) : State :=
  let (id, s) := s.takeId
  s.updSched fun x => { x with traps := x.traps ++ [⟨id, t, who, [], false, false, management, host, none⟩] }

/-- An asynchronous record of an element (22 R399): a region's queue, sink or engine, or an access performed after its
block's commit. -/
def State.asyncRecord (s : State) (cause ctx inc die vq unit va : Nat) : State :=
  s.postTrap ⟨cause, 1, ctx, inc, vq, unit, 0, die, 0, 0xFFFF, 0, va, s.clk.tick, 0, 0⟩ none false

/-- Where a record goes: to the management fault thread if a fault thread raises it (1), and to the host if the management fault thread does
(2) (22 R400). -/
def State.raiserRank (s : State) (a : Aid) (g : Agent) : Nat :=
  match a with
  | .thread d t =>
    let part := s.partition (s.context g.ctx).part
    if part.mfdie = d ∧ part.mfthr = t then 2
    else
      let c := s.context g.ctx
      if (s.threadCtl d t).fault || (c.fdie == d && c.fthr == t) then 1 else 0
  | .actor .. => 0

/-- Posts a record that an agent raises: as DOUBLE where a fault thread raises it (22 R400). -/
def State.postRaised (s : State) (a : Aid) (g : Agent) (t : Trap) (who : Option Aid) : State :=
  let rank := s.raiserRank a g
  if rank = 0 then s.postTrap t who false
  else s.postTrap { t with cause := cDOUBLE, detail := t.cause } who true (rank == 2)

/-- An asynchronous record that an agent's instruction raises after its commit (22 R398, R399). -/
def State.agentRecord (s : State) (a : Aid) (o : Origin) (cause va : Nat) : State :=
  match s.agent? a with
  | some g =>
    s.postRaised a g ⟨cause, if a.isThread then 5 else 1, g.ctx, s.incOf a g, g.vq, g.cu, g.slot, g.die, o.bid, o.iidx, o.baddr, va,
      s.clk.tick, 0, 0⟩ none
  | none => s

/-- A management record (22 R398, R400). -/
def State.managementRecord (s : State) (cause ctx part detail : Nat) : State :=
  let p := s.partition part
  s.postTrap ⟨cause, 1, ctx, 0, 0x1FF, 0, 0, p.first * 8, 0, 0xFFFF, 0, 0, s.clk.tick, detail, 0⟩ none true

/-! ### Blocks: abandoning and suspending -/

/-- Discards what a block in progress was doing: its values, effects and loads (08 R157, 06 R108), and the firings behind it in the pipe
(09 R184). Reads on their way are
answered and discarded at their tags (21 R371). -/
def State.dropBlock (s : State) (a : Aid) : State :=
  let s := s.updAgent a fun g => { g with block := none, deadline := [], waitSince := none, younger := [] }
  s.updMs fun m => { m with loads := m.loads.filter fun l => l.aid != a }

/-- Every unhandled record of a region is withdrawn, from its fault thread's call queue too (22 R402), and no `eret` finds a handled one any
more: its firings start again with the region. -/
def State.withdraw (s : State) (rid : Nat) : State :=
  let mine := fun (t : TrapEntry) => match t.who with
    | some w => w.rid == some rid
    | none => false
  let s := (s.sched.traps.filter fun t => mine t && !t.taken).foldl (fun s t => match t.at_ with
    | some (q, n) => s.updQueue q fun x => { x with items := x.items.filter fun h => h.serial != n }
    | none => s) s
  s.updSched fun x => { x with traps := x.traps.filter fun t => !mine t }

/-- Starts the freeze of a region (21 R371); a freeze in progress stays as it is. A drain in progress ends, and the image
carries `DRNP` (R370); the `drn` that asked for it completes with STATE (23 R417). Every unhandled record of the region is
withdrawn (22 R402). -/
def State.startFreeze (s : State) (rid : Nat) (who : Option (Aid × Nat × Nat)) : State :=
  match Tab.get? s.sched.regions rid with
  | none => s
  | some r =>
    let go := fun (drnp : Bool) => (s.updRegion rid fun r => { r with
      op := .freeze (s.clk.dieCycle (r.quad 0 0).1) who drnp }).withdraw rid
    match r.op with
    | .freeze .. => s
    | .drain _ _ asker =>
      let s' := go true
      match asker with
      | some (a, code, id) => s'.arrive a code id sSTATE []
      | none => s'
    | .none => go false

/-! ### Taking an exception -/

/-- A synchronous exception of an agent (22 R398 to R402): its block is abandoned, precise at the block; the firing or run
is suspended at the block's start; and the record is made. In a region with an unhandled record, a fault of the same
cause and page joins it, and any other raises DOUBLE and freezes the region. A fault of a fault thread goes to the
management fault thread as DOUBLE. -/
def State.takeTrap (s : State) (a : Aid) (cause iidx baddr va detail : Nat) : State :=
  match s.agent? a with
  | none => s
  | some g =>
    let bid := match g.block with
      | some b => if iidx = 0xFFFF then 0 else hdrId b.hdr
      | none => 0
    let s := (s.dropBlock a).updAgent a fun g =>
      { g with phase := .suspended baddr (cause == cSOFTWARE || cause == cBREAK) }
    let inc := s.incOf a g
    let t : Trap :=
      ⟨cause, if a.isThread then 4 else 0, g.ctx, inc, g.vq, g.cu, g.slot, g.die, bid, iidx, baddr, va, s.clk.tick, detail,
       g.handle a inc⟩
    if s.raiserRank a g > 0 then s.postRaised a g t (some a)
    else
      let unhandled := s.sched.traps.find? fun e =>
        !e.taken && !e.management && (match e.who with | some w => w.rid.isSome && w.rid == a.rid | none => false)
      match unhandled, a.rid with
      | some e, some rid =>
        if e.trap.cause = cause ∧ e.trap.va / 2 ^ 16 = va / 2 ^ 16 then
          s.updSched fun x => { x with traps := x.traps.map fun (f : TrapEntry) =>
            if f.id = e.id then { f with joined := f.joined ++ [a] } else f }
        else
          (s.startFreeze rid none).postTrap { t with cause := cDOUBLE, detail := e.trap.cause } none true
      | _, _ => s.postTrap t (some a) false

/-- Resumes a suspended firing or run at its block start (22 R402). -/
def State.resumeAgent (s : State) (a : Aid) : State :=
  s.updAgent a fun g =>
    match g.phase with
    | .suspended addr noTrap => { g with phase := .resuming addr noTrap }
    | _ => g

/-- Return from an exception (23 R413): resumes the firing or run that a handle names and every one joined to its record,
and answers the status: 0, NOSVC, or NOTOWNER for another context below level M. -/
def State.returnFromTrap (s : State) (issuerCtx : Nat) (level : Level) (handle : Nat) : State × Nat :=
  match s.sched.traps.find? fun e => e.who.isSome && handle != 0 && e.trap.handle == handle with
  | none => (s, sNOSVC)
  | some e =>
    if e.trap.ctx != issuerCtx && level != .M then (s, sNOTOWNER)
    else
      let s := s.updSched fun x => { x with traps := x.traps.filter fun f => f.id != e.id }
      (((e.who.toList ++ e.joined).foldl State.resumeAgent s), 0)

end Sys2Proof.Machine
end

