-- ==== Sys2Proof/Machine/Access.lean ====
section
/-! DEFINITION. Memory accesses: the scratch window, page tables and translation caches, homes, leases, stash windows and
the operations a home performs (spec 12 R238 to R257; 13 R259, R262 to R274; 22 R389 to R395). -/
namespace Sys2Proof.Machine

/-! ### Homes (12 R240 to R242) -/

/-- The address of the line of a physical address. -/
def lineOf (pa : Nat) : Nat := pa / 64

/-- The memory of a partition: its own slices and channels hold every physical address (12 R240, R242; 15 R303; log 24). The
model's memory holds the line of PA `x` of partition `p` at `p * 2^52 + x`. -/
def memBase (p : Nat) : Nat := p * 2 ^ 52
def memPart (pa : Nat) : Nat := pa / 2 ^ 52

/-- `F` of 12 R240. -/
def foldPa (pa : Nat) : Nat := Nat.xor (bitsAt pa 6 32) (bitsAt pa 38 14)

/-- The 32 bits of a number in reverse. -/
def bitReverse (x : Nat) : Nat := sumNat ((List.range 32).map fun i => bitsAt x i 1 * 2 ^ (31 - i))

/-- The home slice of a C line: die and slice (12 R240, R241). `pin` names the two pinned dies. -/
def homeSlice (p : Partition) (pa : Nat) (pin : Option (Nat × Nat)) : Nat × Nat :=
  let r := bitReverse (foldPa pa)
  match pin with
  | some (da, db) => (if bitsAt pa 11 1 = 0 then da else db, r * 320 / 2 ^ 32)
  | none =>
    let S := 2560 * (p.last + 1 - p.first)
    let k := r * S / 2 ^ 32
    (8 * p.first + k / 320, k % 320)

/-- The number of a slice in the package. -/
def sliceNumber (h : Nat × Nat) : Nat := h.1 * 320 + h.2

/-- The HBM channel of a line: stack and channel (12 R242). -/
def homeChannel (p : Partition) (pa : Nat) : Nat × Nat :=
  let c := bitReverse (foldPa pa) * (64 * (p.last + 1 - p.first)) / 2 ^ 32
  (2 * p.first + c / 32, c % 32)

/-- The die whose counters and error log take what happens at an HBM stack: the die beside it (02 R28; log 6). -/
def stackDie (stack : Nat) : Nat := 8 * (stack / 2) + 7 * (stack % 2)

/-- A number that no context has: a hart of the chiplet acts in none, and its leases have the default length (log 58). -/
def noCtx : Nat := 1024

/-- The die and quad of a node. -/
def State.nodeQuad (s : State) (n : Nid) : Nat × Nat :=
  match Tab.get? s.sched.regions n.rid with
  | some r => r.quad n.row n.col
  | none => (0, 0)

/-- The die of an MU bank by the place of a byte in the banks (12 R239). -/
def bankDie (pa : Nat) : Nat := pa / 2 ^ 17 / 1280

/-- The event-counting die of a home; of the scratch window, the die of its MU. -/
def State.homeDie (s : State) (acc : Access) : Nat :=
  let p := s.partition (memPart acc.pa)
  if acc.mt = 3 then bankDie acc.pa
  else if acc.mt = 0 then (homeSlice p acc.pa acc.pin).1 else stackDie (homeChannel p acc.pa).1

/-! ### Rate limiters (24 R434) -/

/-- One byte in the units of a bucket: a rate of 1 MB/s fills one unit a tick. -/
def bucketUnit : Int := 675

/-- Charges bytes to a VF that has a limit. -/
def State.charge (s : State) (v : Option Nat) (n : Nat) : State :=
  match v with
  | some v => if (s.vf v).rate = 0 then s else s.updVf v fun f => { f with bucket := f.bucket - bucketUnit * n }
  | none => s

/-- A VF's originators must wait. -/
def State.limited (s : State) (v : Option Nat) : Bool :=
  match v with
  | some v => (s.vf v).rate != 0 && (s.vf v).bucket ≤ 0
  | none => false

/-- The VF bound to a context (24 R426). -/
def State.vfOf (s : State) (ctx : Nat) : Option Nat :=
  if (s.context ctx).vfv then some (s.context ctx).vf else none

/-- A read of an IO page as it leaves: from pod memory, from the APC, or on the bus (24 R485). -/
def ioReadMessage (ctx : Nat) (vf : Option Nat) (pa n : Nat) : Out :=
  let top := bitsAt pa 48 4
  if top = 0xF then .podRead (bitsAt pa 40 8) ctx (bitsAt pa 0 40) n
  else if top = 0xE then .apcRead pa n
  else .busRead vf (pa % 2 ^ 52) n

/-! ### Line timestamps (12 R245 to R249) -/

/-- Lines of the MU banks have their timestamps above those of device memory, whose addresses end at `2^55`. -/
def scratchLine (pa : Nat) : Nat := 2 ^ 55 + pa

/-- The timestamps of a line. One that has none of its own has those of its MU bank, or of a memory-side line never accessed. -/
def State.lineTs (s : State) (pa : Nat) : LineTs :=
  match Tab.get? s.ms.lines (lineOf pa) with
  | some t => t
  | none =>
    let t := if pa < 2 ^ 55 then 0 else Tab.getD s.ms.scratchTs ((pa - 2 ^ 55) / 2 ^ 14) 0
    ⟨t, t, none⟩

/-- Sets the timestamps of a line; it stays where it is held. -/
def State.setLineTs (s : State) (pa wts rts : Nat) : State :=
  s.updMs fun m => { m with lines := Tab.set m.lines (lineOf pa) ⟨wts, rts, (s.lineTs pa).slice⟩ }

/-- A C line that no slice holds is fetched from its channel: it takes the slice's memory timestamp as both its own (12 R242). -/
def State.fetchLine (s : State) (pa : Nat) (pin : Option (Nat × Nat)) : State :=
  match (Tab.get? s.ms.lines (lineOf pa)).bind LineTs.slice with
  | some _ => s
  | none =>
    let n := sliceNumber (homeSlice (s.partition (memPart pa)) pa pin)
    let t := Tab.getD s.ms.sliceTs n 0
    s.updMs fun m => { m with lines := Tab.set m.lines (lineOf pa) ⟨max t (s.lineTs pa).wts, max t (s.lineTs pa).rts, some n⟩ }

/-- Who makes an access: an agent, or one of its engine queues, each with its own timestamp (12 R245); an IOP route; or a hart of the
application processor chiplet. -/
inductive Issuer where
  | agent (a : Aid)
  | engine (a : Aid) (e : EngineKind)
  | route (iop r : Nat)
  | hart (h : Nat)
  deriving DecidableEq, Repr

def Issuer.aid? : Issuer → Option Aid
  | .agent a => some a
  | .engine a _ => some a
  | .route _ _ => none
  | .hart _ => none

/-- The agent or engine queue by which a stash knows who holds a copy (12 R244). -/
def Issuer.holder : Issuer → Option (Aid × Option EngineKind)
  | .agent a => some (a, none)
  | .engine a e => some (a, some e)
  | .route _ _ => none
  | .hart _ => none

/-- Whose timestamp tells whether a stash copy's lease has expired. -/
def holderIssuer (h : Aid × Option EngineKind) : Issuer := match h with
  | (a, none) => .agent a
  | (a, some e) => .engine a e

def State.requester (s : State) (r : Nat) : Requester := Tab.getD s.out.requesters r ⟨[], []⟩
def State.updRequester (s : State) (r : Nat) (f : Requester → Requester) : State :=
  s.updOut fun o => { o with requesters := Tab.set o.requesters r (f (s.requester r)) }

def State.ptsOf (s : State) : Issuer → Nat
  | .agent a => match s.agent? a with
    | some g => g.pts
    | none => 0
  | .engine a e => match s.agent? a with
    | some g => Tab.getD g.epts e 0
    | none => 0
  | .route q r => Tab.getD s.out.iopPts (q, r) (s.floorTs r)
  | .hart h => Tab.getD s.out.harts h (s.floorTs 0)

/-- A timestamp never decreases. -/
def State.raisePts (s : State) (i : Issuer) (t : Nat) : State :=
  match i with
  | .agent a => s.updAgent a fun g => { g with pts := max g.pts t }
  | .engine a e => s.updAgent a fun g => { g with epts := Tab.set g.epts e (max (Tab.getD g.epts e 0) t) }
  | .route q r => s.updOut fun o => { o with iopPts := Tab.set o.iopPts (q, r) (max (Tab.getD o.iopPts (q, r) (s.floorTs r)) t) }
  | .hart h => s.updOut fun o => { o with harts := Tab.set o.harts h (max (Tab.getD o.harts h (s.floorTs 0)) t) }

/-- A requester is a remote package, which a refused access is answered to (24 R431). -/
def isPod (q : Nat) : Bool := q ≥ 1024

/-- The PF of a VF: 32 to each of the eight ports, unless boot has divided them otherwise (24 R420; log 63). -/
def State.pfOf (s : State) (v : Nat) : Nat := Tab.getD s.out.vfPf v (v / 32)

/-- The IOP that orders a requester (24 R424, R485): of the I/O die that carries its function's link; the north-west one for the APC and,
as its packets come over any port, for a remote package (log 63). -/
def State.iopOf (s : State) (req : Nat) : Nat :=
  if isPod req then 0
  else if req = 0 then 4
  else if req ≤ 256 then s.pfOf (req - 1) / 2
  else if req ≤ 258 then 0
  else (req - 258) / 2

/-- The die whose translation caches and counters the IOP of a context uses (log 11). -/
def State.iopDie (s : State) (ctx : Nat) : Nat := 8 * (s.partition (s.context ctx).part).first

/-- The route by which the device writes on behalf of a context, whose timestamp orders those writes (12 R245, 20 R355). -/
def State.deviceRoute (s : State) (ctx : Nat) : Issuer := .route 4 (s.iopDie ctx)

/-- The largest timestamp among performed requests (12 R245). -/
def State.stampMax (s : State) (ids : List Nat) : Nat :=
  ids.foldl (fun m i => max m (Tab.getD s.ms.stamps i (0, 0)).1) 0

/-- Notes the timestamp at which something was performed, and its partition. -/
def State.setStamp (s : State) (id ts part : Nat) : State :=
  s.updMs fun m => { m with stamps := Tab.set m.stamps id (ts, part) }

/-- A new number that stands for everything performed up to a timestamp: what follows it in `dep` starts no earlier (12 R245). -/
def State.takeStamp (s : State) (ts part : Nat) : Nat × State :=
  let (id, s) := s.takeId
  (id, s.setStamp id ts part)

/-! ### Bytes of device memory -/

/-- What a byte that nothing has written reads as: zero from reset (log 1), or a free value since its partition's memory was not preserved
(21 R388; log 25). -/
def State.fill (s : State) (pa : Nat) : Byte := match Tab.get? s.ms.blank (memPart pa) with
  | none => Mem.unlisted
  | some n => (Config.freeValue (n + pa % 2 ^ 52)).extractLsb' 0 8

/-- Memory holds each byte by its difference from what its address reads as unwritten: bytes as they are held, or held bytes as they read. -/
def State.masked (s : State) (pa : Nat) (bytes : List Byte) : List Byte := match Tab.get? s.ms.blank (memPart pa) with
  | none => bytes
  | some _ => (List.range bytes.length).map fun j => bytes.getD j 0 ^^^ s.fill (pa + j)

/-- A byte of device memory. -/
def State.byteAt (s : State) (pa : Nat) : Byte := Mem.read s.ms.mem pa ^^^ s.fill pa

/-! ### Stash windows (12 R243, R244) -/

/-- A line that a stash or an SVP cache holds. -/
def StashLine.holds (l : StashLine) (pa : Nat) : Bool := l.pa == lineOf pa

/-- Writes a line's bytes back to its home, keeping its timestamps there: the slice holds it dirty, written last by the stash's context. An
uncorrectable one goes onward so, and its context is noted (26 R449). -/
def State.putLine (s : State) (l : StashLine) : State :=
  (s.updMs fun m => { m with
    mem := Mem.writeBytes m.mem (l.pa * 64) (s.masked (l.pa * 64) l.data)
    writers := Tab.set m.writers l.pa l.ctx
    ue := if l.bad then addOnce m.ue l.pa else m.ue
    lost := if l.bad || m.ue.contains l.pa then addOnce m.lost (l.ctx, l.pa) else m.lost }).setLineTs (l.pa * 64)
      (max l.wts (s.lineTs (l.pa * 64)).wts) (max l.lease (s.lineTs (l.pa * 64)).rts)

/-- Every stash gives up its ownership of a line, which is written back first (12 R244). The copy stays, clean. -/
def State.recall (s : State) (pa : Nat) : State :=
  s.fab.stashes.foldl (fun s e =>
    match e.2.lines.find? fun l => l.holds pa && l.owned with
    | some l =>
      let s := if l.dirty then s.putLine l
        else s.setLineTs pa (max l.wts (s.lineTs pa).wts) (max l.lease (s.lineTs pa).rts)
      s.updFab fun f => { f with stashes := Tab.modify f.stashes e.1 fun st =>
        { st with lines := st.lines.map fun m => if m.holds pa then { m with owned := false, dirty := false } else m } }
    | none => s) s

/-- Recalls the lines of a range. -/
def State.recallRange (s : State) (pa n : Nat) : State :=
  (List.range (lineOf (pa + n - 1) + 1 - lineOf pa)).foldl (fun s j => s.recall ((lineOf pa + j) * 64)) s

/-- The die on which a line is stored: of its MU bank, of the slice that holds it, or of its channel. -/
def State.storeDie (s : State) (pa : Nat) : Nat :=
  if pa ≥ 2 ^ 55 then bankDie (pa - 2 ^ 55)
  else match (Tab.get? s.ms.lines (lineOf pa)).bind LineTs.slice with
    | some n => n / 320
    | none => stackDie (homeChannel (s.partition (memPart pa)) pa).1

/-- An access of a line finds an error that the check bits correct: it is written back corrected, and counted (26 R445). -/
def State.corrected (s : State) (pa : Nat) : State :=
  if s.ms.ce.contains (lineOf pa) then
    (s.count (s.storeDie pa) none 0x60).updMs fun m => { m with ce := m.ce.filter (· != lineOf pa) }
  else s

/-- The current bytes at a home. -/
def State.homeBytes (s : State) (pa n : Nat) : List Byte := s.masked pa (Mem.readBytes s.ms.mem pa n)

/-- The physical quad beneath a virtual quad (26 R452). -/
def State.physQuad (s : State) (d vq : Nat) : Option Nat := Tab.getD (s.ras d).vpt vq (some vq)

/-- An error of a physical quad; the third within 2^46 ticks enters the repair map (26 R453). -/
def State.quadError (s : State) (d pq : Nat) : State :=
  s.updRas d fun r =>
    let ticks := r.ueTicks ++ [(pq, s.clk.tick)]
    let recent := ticks.filter fun e => e.1 == pq && e.2 + 2 ^ 46 > s.clk.tick
    { r with ueTicks := ticks, repair := if recent.length ≥ 3 then addOnce r.repair pq else r.repair }

/-- An uncorrectable error in storage of a quad is counted, on its die and against its physical quad (26 R446, R452). -/
def State.quadUe (s : State) (d vq : Nat) : State :=
  let s := s.count d none 0x61
  match s.physQuad d vq with
  | some q => s.quadError d q
  | none => s

/-- A line of the range has wrong check bits (26 R447). -/
def State.hasUe (s : State) (pa n : Nat) : Bool := s.ms.ue.any fun l => l ≥ lineOf pa && l ≤ lineOf (pa + n - 1)

/-! ### Page tables (22 R389 to R394) -/

/-- What an access needs of a leaf (22 R392). -/
structure Need where
  r : Bool
  w : Bool
  x : Bool
  u : Bool
  deriving DecidableEq, Repr

/-- The page size of a leaf found at a level. -/
def levelSize (level : Nat) : Nat := if level = 1 then 42 else if level = 2 then 29 else 16

/-- The index bits of a level. -/
def levelIndex (level va : Nat) : Nat :=
  match level with
  | 0 => bitsAt va 55 9
  | 1 => bitsAt va 42 13
  | 2 => bitsAt va 29 13
  | _ => bitsAt va 16 13

/-- An entry breaks 22 R391 or R392. -/
def badEntry (p : Partition) (level e : Nat) : Bool :=
  let leaf := bitsAt e 2 1 = 1
  bitsAt e 10 6 != 0 || bitsAt e 1 1 != 0 || (leaf && level == 0) || (!leaf && level == 3) || bitsAt e 7 2 == 3 ||
  (leaf && level == 2 && bitsAt e 16 13 != 0) || (leaf && level == 1 && bitsAt e 16 26 != 0) ||
  (bitsAt e 9 1 == 1 && !(p.hasDie (bitsAt e 52 6) && p.hasDie (bitsAt e 58 6))) ||
  (!leaf && (bitsAt e 3 7 != 0 || bitsAt e 52 12 != 0))

/-- One walk, at most four levels: the leaf entry and its page size, or the cause (22 R390, R392). -/
def State.walkFrom (s : State) (part : Nat) (va : Nat) : Nat → Nat → Nat → Except Nat (Nat × Nat)
  | 0, _, _ => .error cBAD_ENTRY
  | fuel + 1, level, table =>
    let pa := memBase part + table + 8 * levelIndex level va
    if s.hasUe pa 8 then .error cMEMORY_UE
    else
      let e := bytesNat (s.homeBytes pa 8)
      if bitsAt e 0 1 = 0 then .error cNOT_PRESENT
      else if badEntry (s.partition part) level e then .error cBAD_ENTRY
      else if bitsAt e 2 1 = 1 then .ok (e, levelSize level)
      else s.walkFrom part va fuel (level + 1) (bitsAt e 16 36 * 2 ^ 16)

/-- The entries that a walk reads: their lines are recalled first, as reads at the home (22 R394), and an uncorrectable error is counted
(26 R446). -/
def State.recallWalk (s : State) (part va : Nat) : Nat → Nat → Nat → State
  | 0, _, _ => s
  | fuel + 1, level, table =>
    let pa := memBase part + table + 8 * levelIndex level va
    let s := (s.recall pa).corrected pa
    let e := bytesNat (s.homeBytes pa 8)
    if s.hasUe pa 8 then s.count (s.storeDie pa) none 0x61
    else if bitsAt e 0 1 = 1 ∧ bitsAt e 2 1 = 0 then s.recallWalk part va fuel (level + 1) (bitsAt e 16 36 * 2 ^ 16) else s

/-- A cached entry covers a VA of a context. -/
def Cached.covers (c : Cached) (ctx va : Nat) : Bool := c.ctx == ctx && va / 2 ^ c.lg == c.va / 2 ^ c.lg

/-- Finds a cached entry and makes it the most recently used. -/
def lookupCache (cs : List Cached) (ctx va : Nat) : Option (Cached × List Cached) :=
  match cs.find? fun c => c.covers ctx va with
  | some c => some (c, c :: cs.erase c)
  | none => none

/-- The set of an entry in a cache of a number of sets: its page number, modulo the sets (log 35). -/
def Cached.inSet (sets : Nat) (c : Cached) : Nat := c.va / 2 ^ c.lg % sets

/-- Adds an entry to its set of 8 ways, whose least recently used entry leaves a full set (22 R393). -/
def fillCache (sets : Nat) (cs : List Cached) (c : Cached) : List Cached :=
  let rest := cs.erase c
  let same := rest.filter fun d => d.inSet sets == c.inSet sets
  c :: (if same.length ≥ 8 then rest.filter fun d => some d != same.getLast? else rest)

/-- The leaf for a VA: from the quad's cache, the die's cache, or a walk, which fills both (22 R393, R394). -/
def State.leafFor (s : State) (die vq ctx va : Nat) : State × Except Nat (Nat × Nat) :=
  let quad := if vq < 320 then some vq else none
  let qs := Tab.getD s.ms.tlbQuad (die, vq) []
  let ds := Tab.getD s.ms.tlbDie die []
  let setQ := fun (s : State) (cs : List Cached) =>
    if vq < 320 then s.updMs fun m => { m with tlbQuad := Tab.set m.tlbQuad (die, vq) cs } else s
  let setD := fun (s : State) (cs : List Cached) => s.updMs fun m => { m with tlbDie := Tab.set m.tlbDie die cs }
  match if vq < 320 then lookupCache qs ctx va else none with
  | some (c, cs) => (setQ s cs, .ok (c.leaf.toNat, c.lg))
  | none =>
    let s := if vq < 320 then s.count die quad 0x33 else s
    match lookupCache ds ctx va with
    | some (c, cs) => (setQ (setD s cs) (fillCache 32 qs c), .ok (c.leaf.toNat, c.lg))
    | none =>
      let s := (s.count die quad 0x34).count die quad 0x35
      let c := s.context ctx
      if !c.rootV then (s, .error cNOT_PRESENT)
      else
        let s := s.recallWalk c.part va 4 0 (c.root * 2 ^ 12)
        match s.walkFrom c.part va 4 0 (c.root * 2 ^ 12) with
        | .error e => (s, .error e)
        | .ok (e, lg) =>
          let entry : Cached := ⟨ctx, va / 2 ^ lg * 2 ^ lg, lg, BitVec.ofNat 64 e⟩
          (setQ (setD s (fillCache 2048 ds entry)) (fillCache 32 qs entry), .ok (e, lg))

/-- Translates one access within a line and checks its permissions (22 R392). -/
def State.translate (s : State) (die vq ctx va len : Nat) (need : Need) : State × Except Nat Access :=
  match s.leafFor die vq ctx va with
  | (s, .error e) => (s, .error e)
  | (s, .ok (e, lg)) =>
    let ok := (!need.r || bitsAt e 3 1 == 1) && (!need.w || bitsAt e 4 1 == 1) && (!need.x || bitsAt e 5 1 == 1) &&
      (!need.u || bitsAt e 6 1 == 1)
    let base := if bitsAt e 7 2 = 2 then 0 else memBase (s.context ctx).part
    if ok then (s, .ok ⟨va, base + bitsAt e 16 36 * 2 ^ 16 / 2 ^ lg * 2 ^ lg + va % 2 ^ lg, bitsAt e 7 2, len,
      if bitsAt e 9 1 = 1 then some (bitsAt e 52 6, bitsAt e 58 6) else none⟩)
    else (s, .error cPERMISSION)

/-! ### The scratch window (12 R239) -/

/-- A VA lies in the scratch window. -/
def inScratch (va : Nat) : Bool := va ≥ 0xFFFFFF0000000000

/-- The region's bank group that holds a bank of an MU (09 R175). -/
def Region.group? (r : Region) (row col mu bank : Nat) : Option BankGroup :=
  (r.banks.find? fun e => e.1 == row && e.2.1 == col && e.2.2.1 == mu && e.2.2.2.first ≤ bank &&
    bank < e.2.2.2.first + e.2.2.2.count).map fun e => e.2.2.2

/-- The place of region-relative MU number `m`: row, column, MU. -/
def Region.muPlace? (r : Region) (m : Nat) : Option (Nat × Nat × Nat) :=
  let q := m / 4
  if q < r.height * r.width then some (q / r.width, q % r.width, m % 4) else none

/-- An access in the scratch window, made for an agent of a region. -/
def State.scratchAccess (s : State) (rid : Option Nat) (va len : Nat) : Except Nat Access :=
  match rid with
  | none => .error cNOT_PRESENT
  | some rid =>
    match Tab.get? s.sched.regions rid with
    | none => .error cNOT_PRESENT
    | some r =>
      match r.muPlace? (bitsAt va 17 23) with
      | none => .error cNOT_PRESENT
      | some (row, col, mu) =>
        match r.group? row col mu (bitsAt va 14 3) with
        | some g =>
          if g.mode = .scratch then
            let (die, vq) := r.quad row col
            .ok ⟨va, muNumber die vq mu * 2 ^ 17 + va % 2 ^ 17, 3, len, none⟩
          else .error cNOT_PRESENT
        | none => .error cNOT_PRESENT

/-- Checks one access of an agent that lies within a line: the scratch window or its translation (13 R259, R262). -/
def State.access (s : State) (a : Aid) (va len : Nat) (need : Need) : State × Except Nat Access :=
  match s.agent? a with
  | none => (s, .error cNOT_PRESENT)
  | some g =>
    if inScratch va then (s, s.scratchAccess a.rid va len)
    else s.translate g.die g.vq g.ctx va len { need with u := need.u && g.level == .U }

/-- Cuts a range into its parts by line. -/
def linePieces : Nat → Nat → Nat → List (Nat × Nat)
  | 0, _, _ => []
  | fuel + 1, va, len =>
    if len = 0 then []
    else
      let n := min len (64 - va % 64)
      (va, n) :: linePieces fuel (wrap 64 (va + n)) (len - n)

/-- Checks a list of accesses in order; the first failure gives its cause and VA (13 R262). -/
def State.accesses (s : State) (a : Aid) (need : Need) :
    List (Nat × Nat) → State × Except (Nat × Nat) (List Access)
  | [] => (s, .ok [])
  | (va, len) :: rest =>
    match s.access a va len need with
    | (s, .error c) => (s, .error (c, va))
    | (s, .ok x) =>
      match s.accesses a need rest with
      | (s, .ok xs) => (s, .ok (x :: xs))
      | (s, .error e) => (s, .error e)

/-- The accesses an agent needs: loads `R`, stores `W`, atomics both, and `U` at level U (22 R392). -/
def needRead : Need := ⟨true, false, false, true⟩
def needWrite : Need := ⟨false, true, false, true⟩
def needBoth : Need := ⟨true, true, false, true⟩
def needFetch : Need := ⟨false, false, true, true⟩

/-! ### Shoot-down (22 R395) -/

/-- Lines of the stashes of some dies are written back and discarded. -/
def State.flushStash (s : State) (on : Nat → Bool) (hit : StashLine → Bool) : State :=
  s.fab.stashes.foldl (fun s e =>
    if !on (s.nodeQuad e.1).1 then s
    else
      let s := e.2.lines.foldl (fun s l => if hit l && l.dirty then s.putLine l else s) s
      s.updFab fun f => { f with stashes := Tab.modify f.stashes e.1 fun st =>
        { st with lines := st.lines.filter fun l => !hit l } }) s

/-- What a shoot-down names: a context, one VA of it or all, and one die or all. -/
structure Shot where
  ctx : Nat
  va : Option Nat
  die : Option Nat
  deriving DecidableEq, Repr

/-- A die is in scope. -/
def Shot.on (x : Shot) (d : Nat) : Bool := x.die.isNone || x.die == some d

/-- A cached entry is dropped. -/
def Shot.drops (x : Shot) (c : Cached) : Bool := c.ctx == x.ctx && (match x.va with
  | some v => c.covers x.ctx v
  | none => true)

/-- A VA of the context is one that an entry in scope translated, or lies on the page named. -/
def State.shotHits (s : State) (x : Shot) (a : Nat) : Bool := match x.va with
  | none => true
  | some v =>
    let covers := fun (c : Cached) => x.drops c && c.covers x.ctx a
    a / 2 ^ 16 == v / 2 ^ 16 || (s.ms.tlbDie.any fun e => x.on e.1 && e.2.any covers) ||
      s.ms.tlbQuad.any fun e => x.on e.1.1 && e.2.any covers

/-- Drops the cached entries of a context that cover one VA, or all of them, on the dies in scope, and the stash lines they
translated. -/
def State.shootDown (s : State) (ctx : Nat) (va : Option Nat) (die : Option Nat) : State :=
  let x : Shot := ⟨ctx, va, die⟩
  let s := s.flushStash x.on fun l => l.ctx == ctx && s.shotHits x l.va
  s.updMs fun m => { m with
    tlbDie := m.tlbDie.map fun e => if x.on e.1 then (e.1, e.2.filter fun c => !x.drops c) else e
    tlbQuad := m.tlbQuad.map fun e => if x.on e.1.1 then (e.1, e.2.filter fun c => !x.drops c) else e }

/-! ### Performing accesses (12 R244 to R249, R254) -/

/-- The lease length of a context (12 R246, 23 R411). -/
def State.leaseOf (s : State) (ctx : Nat) : Nat := (s.context ctx).lease + 1

/-- The stash whose window holds a VA for an agent of a region. -/
def State.stashFor (s : State) (a : Aid) (va : Nat) : Option (Nid × Stash) :=
  match a.rid with
  | none => none
  | some rid => s.fab.stashes.find? fun e =>
    e.1.rid == rid && e.2.mapped && e.2.base ≤ va && va < e.2.base + 2 ^ e.2.lsize

/-- The sets of a stash group: 8 ways of 64-byte lines (12 R243). -/
def Stash.sets (banks : Nat) : Nat := banks * 2 ^ 14 / 64 / 8

/-- A new line takes its place as most recently used; the least recently used way of a full set is evicted, written back if
dirty. -/
def State.stashFill (s : State) (n : Nid) (sets : Nat) (l : StashLine) : State :=
  match Tab.get? s.fab.stashes n with
  | none => s
  | some st =>
    let inSet := fun (m : StashLine) => m.va / 64 % sets == l.va / 64 % sets
    let same := st.lines.filter fun m => inSet m && m.pa != l.pa
    let victim := if same.length ≥ 8 then same.getLast? else none
    let s := match victim with
      | some v => if v.dirty then s.putLine v else s
      | none => s
    let keep := st.lines.filter fun m => m.pa != l.pa && (match victim with
      | some v => m.pa != v.pa
      | none => true)
    s.updFab fun f => { f with stashes := Tab.set f.stashes n { st with lines := l :: keep } }

/-- The bank count of a node's group. -/
def State.groupBanks (s : State) (n : Nid) : Nat :=
  match Tab.get? s.sched.regions n.rid with
  | some r => match r.group? n.row n.col n.unit n.idx with
    | some g => g.count
    | none => 2
  | none => 2

/-- A read served at the home (12 R246, R249): the bytes, with the issuer's timestamp raised and the line's read timestamp at or above it.
`lease` is the lease taken when a private copy is kept; `sys` marks the reads of R249, which take none. -/
def State.homeRead (s : State) (i : Issuer) (pa n lease : Nat) (sys : Bool) : State × List Byte :=
  let s := (s.recallRange pa n).corrected pa
  let t := s.lineTs pa
  let pts := s.ptsOf i
  let pts := if sys then max pts (max t.wts t.rts) else max pts t.wts
  let s := s.raisePts i pts
  let s := s.setLineTs pa t.wts (max t.rts (pts + if sys then 0 else lease))
  (s, s.homeBytes pa n)

/-- A write performed at the home (12 R247). -/
def State.homeWrite (s : State) (i : Issuer) (ctx pa : Nat) (bytes : List Byte) : State :=
  let s := (s.recallRange pa bytes.length).corrected pa
  let t := s.lineTs pa
  let wts := max (s.ptsOf i) (t.rts + 1)
  let s := (s.raisePts i wts).setLineTs pa wts wts
  s.updMs fun m => { m with mem := Mem.writeBytes m.mem pa (s.masked pa bytes), writers := Tab.set m.writers (lineOf pa) ctx }

/-- The read of a line whose expired copy was still the newest is a lease renewal, which event 0x32 counts (12 R246). -/
def State.renewed (s : State) (i : Issuer) (stale : Option StashLine) (wts : Nat) : State :=
  match stale, i.aid?.bind s.agent? with
  | some l, some g => if l.wts = wts then s.countAt g 0x32 else s
  | _, _ => s

/-! ### Where check bits are wrong (26 R445 to R447) -/

/-- Where the check bits of what an access touches are noted. -/
def checkedAt (acc : Access) : Nat := if acc.mt = 3 then scratchLine acc.pa else acc.pa

/-- An access meets wrong check bits (26 R447). -/
def State.accessUe (s : State) (acc : Access) : Bool := s.hasUe (checkedAt acc) acc.len

/-- The error that an access meets is counted: where its line lies, and for an MU bank against its quad (26 R446, R452). -/
def State.ueMet (s : State) (acc : Access) : State :=
  if acc.mt = 3 then s.quadUe (bankDie acc.pa) (acc.pa / 2 ^ 17 % 1280 / 4) else s.count (s.homeDie acc) none 0x61

/-- What a read that met an error answers: no byte of it is used (13 R263). -/
def State.ueRead (s : State) (acc : Access) : State × List Byte × Bool := (s.ueMet acc, List.replicate acc.len 0, true)

/-- A read through a stash (12 R243, R246): a copy whose lease holds for the reader serves it, else the line is filled with a read
lease; the stash gives up a line that it owns past its lease (R244). -/
def State.stashRead (s : State) (i : Issuer) (ctx : Nat) (n : Nid) (acc : Access) : State × List Byte × Bool :=
  let sets := Stash.sets (s.groupBanks n)
  let off := acc.pa % 64
  let lines : List StashLine := match Tab.get? s.fab.stashes n with
    | some st => st.lines
    | none => []
  match lines.find? fun l => l.holds acc.pa && s.ptsOf i ≤ l.lease with
  | some l =>
    if l.bad then (s.quadUe (s.nodeQuad n).1 (s.nodeQuad n).2, List.replicate acc.len 0, true)
    else ((s.raisePts i l.wts).stashFill n sets { l with holder := i.holder }, (l.data.drop off).take acc.len, false)
  | none =>
    let stale := lines.find? fun l => l.holds acc.pa
    let s := s.recall acc.pa
    if s.accessUe acc then s.ueRead acc
    else
      let (s, data) := s.homeRead i (acc.pa / 64 * 64) 64 (s.leaseOf ctx) false
      let t := s.lineTs acc.pa
      let s := s.renewed i stale t.wts
      (s.stashFill n sets ⟨lineOf acc.pa, acc.va / 64 * 64, ctx, data, false, false, t.wts, t.rts, i.holder, false⟩,
       (data.drop off).take acc.len, false)

/-- Replaces bytes of a line. -/
def spliceBytes (data : List Byte) (off : Nat) (bytes : List Byte) : List Byte :=
  data.take off ++ bytes ++ data.drop (off + bytes.length)

/-- A write through a stash, which takes ownership of the line and writes it there (12 R243, R244, R247). A line with an error takes only a
write of all its bytes (13 R264). -/
def State.stashWrite (s : State) (i : Issuer) (ctx : Nat) (n : Nid) (acc : Access) (bytes : List Byte) : State × Bool :=
  let sets := Stash.sets (s.groupBanks n)
  let full := bytes.length == 64 && acc.pa % 64 == 0
  let own := match Tab.get? s.fab.stashes n with
    | some st => st.lines.find? fun l => l.holds acc.pa && l.owned
    | none => none
  let (s, l) : State × StashLine := match own with
    | some l => (s, l)
    | none =>
      let s := (s.recall acc.pa).corrected acc.pa
      let t := s.lineTs acc.pa
      (s, ⟨lineOf acc.pa, acc.va / 64 * 64, ctx, s.homeBytes (acc.pa / 64 * 64) 64, true, false, t.wts, t.rts, i.holder, s.accessUe acc⟩)
  if l.bad && !full then
    (if own.isSome then s.quadUe (s.nodeQuad n).1 (s.nodeQuad n).2 else s.ueMet acc, false)
  else
    let wts := max (s.ptsOf i) (l.lease + 1)
    let s := s.updMs fun m => { m with ue := if full then m.ue.filter fun x => x != lineOf acc.pa else m.ue }
    ((s.raisePts i wts).stashFill n sets
      { l with
        data := spliceBytes l.data (acc.pa % 64) bytes, dirty := true, owned := true, wts := wts, lease := wts, holder := i.holder
        bad := false }, true)

/-- A read through a cache that keeps copies under leases, of which the first is the newest (12 R246): the copies after it, and the line
filled where none served. -/
def State.cachedRead (s : State) (i : Issuer) (ctx : Nat) (cs : List StashLine) (acc : Access) :
    State × (List Byte × Bool) × List StashLine :=
  let off := acc.pa % 64
  match cs.find? fun l => l.holds acc.pa && s.ptsOf i ≤ l.lease with
  | some l =>
    if l.bad then (s.ueMet acc, (List.replicate acc.len 0, true), cs)
    else (s.raisePts i l.wts, ((l.data.drop off).take acc.len, false), cs)
  | none =>
    let s := s.recall acc.pa
    if s.accessUe acc then (s.ueMet acc, (List.replicate acc.len 0, true), cs)
    else
      let (s, data) := s.homeRead i (acc.pa / 64 * 64) 64 (s.leaseOf ctx) false
      let t := s.lineTs acc.pa
      let l : StashLine := ⟨lineOf acc.pa, acc.va / 64 * 64, ctx, data, false, false, t.wts, t.rts, i.holder, false⟩
      (s.renewed i (cs.find? fun l => l.holds acc.pa) t.wts, ((data.drop off).take acc.len, false), l :: cs.filter fun c => !c.holds acc.pa)

/-- A thread's read through its die's SVP data cache of 4,096 lines (12 R246). -/
def State.svpRead (s : State) (i : Issuer) (die ctx : Nat) (acc : Access) : State × List Byte × Bool :=
  let (s, r, cs) := s.cachedRead i ctx (Tab.getD s.ms.svpCache die []) acc
  (s.updMs fun m => { m with svpCache := Tab.set m.svpCache die (cs.take 4096) }, r)

/-- A hart's read through the caches of its chiplet (12 R246, 24 R429). -/
def State.apcRead (s : State) (i : Issuer) (ctx : Nat) (acc : Access) : State × List Byte × Bool :=
  let (s, r, cs) := s.cachedRead i ctx s.out.apcCache acc
  (s.updOut fun o => { o with apcCache := cs.take (2 ^ 20) }, r)

/-! ### Scratch accesses (12 R239, R245 to R247): a bank keeps timestamps for its lines and grants no lease -/

/-- A read of scratch bytes of one line. -/
def State.scratchRead (s : State) (i : Issuer) (pa n : Nat) : State × List Byte :=
  let s := s.corrected (scratchLine pa)
  let t := s.lineTs (scratchLine pa)
  let pts := max (s.ptsOf i) t.wts
  ((s.raisePts i pts).setLineTs (scratchLine pa) t.wts (max t.rts pts), Mem.readBytes s.ms.scratch pa n)

/-- A write of scratch bytes of one line. -/
def State.scratchWrite (s : State) (i : Issuer) (pa : Nat) (bytes : List Byte) : State :=
  let s := s.corrected (scratchLine pa)
  let wts := max (s.ptsOf i) ((s.lineTs (scratchLine pa)).rts + 1)
  ((s.raisePts i wts).setLineTs (scratchLine pa) wts wts).updMs fun m => { m with
    scratch := Mem.writeBytes m.scratch pa bytes }

/-! ### One event -/

/-- A C line that is accessed stands in its slice. -/
def State.fetched (s : State) (acc : Access) : State := if acc.mt = 0 then s.fetchLine acc.pa acc.pin else s

/-- The stash that serves an access: of a C line in its window, by an agent of its region (12 R243). -/
def State.stashOf (s : State) (i : Issuer) (acc : Access) (sys : Bool) : Option Nid :=
  if acc.mt = 0 ∧ !sys then (i.aid?.bind fun a => s.stashFor a acc.va).map Prod.fst else none

/-- A read of a C or MS line that no stash serves: through the cache of a thread's die or of the chiplet, or at its home. -/
def State.lineRead (s : State) (i : Issuer) (ctx : Nat) (acc : Access) (sys : Bool) : State × List Byte × Bool :=
  let atHome :=
    let s := s.recallRange acc.pa acc.len
    if s.accessUe acc then s.ueRead acc
    else let (s, b) := s.homeRead i acc.pa acc.len 0 sys; (s, b, false)
  match i with
  | .agent (.thread die _) => if acc.mt = 0 ∧ !sys then s.svpRead i die ctx acc else atHome
  | .hart _ => if acc.mt = 0 then s.apcRead i ctx acc else atHome
  | .agent (.actor ..) | .engine _ _ | .route _ _ => atHome

/-- The bytes of a checked access, and whether the read met an uncorrectable error (13 R263, 26 R446). A read of an IO page leaves for
its target, and its bytes come from outside (24 R485; log 3). -/
def State.readAccess (s : State) (i : Issuer) (ctx : Nat) (acc : Access) (sys : Bool) : State × List Byte × Bool :=
  match acc.mt with
  | 3 => if s.accessUe acc then s.ueRead acc else let (s, b) := s.scratchRead i acc.pa acc.len; (s, b, false)
  | 2 =>
    let v := s.vfOf ctx
    let (x, s) := ((s.charge v acc.len).send (ioReadMessage ctx v acc.pa acc.len)).free
    (s, natBytes acc.len x.toNat, false)
  | _ => match s.stashOf i acc sys with
    | some n => (s.fetched acc).stashRead i ctx n acc
    | none => (s.fetched acc).lineRead i ctx acc sys

/-- A write of a line that no stash serves. One with an error takes only a write of all its bytes, which clears it (13 R264). -/
def State.lineWrite (s : State) (i : Issuer) (ctx : Nat) (acc : Access) (bytes : List Byte) : State × Bool :=
  let s := if acc.mt = 3 then s else s.recallRange acc.pa bytes.length
  let full := bytes.length == 64 && acc.pa % 64 == 0
  if s.accessUe acc && !full then (s.ueMet acc, false)
  else
    let s := if full then s.updMs fun m => { m with ue := m.ue.filter fun l => l != lineOf (checkedAt acc) } else s
    (if acc.mt = 3 then s.scratchWrite i acc.pa bytes else s.homeWrite i ctx acc.pa bytes, true)

/-- A store of a checked access. A partial store to a line with an uncorrectable error is not performed; a store of all 64
bytes clears the error (13 R264). Answers whether it was performed. An IO page's store leaves as a posted write, which the
caller makes. -/
def State.writeAccess (s : State) (i : Issuer) (ctx : Nat) (acc : Access) (bytes : List Byte) (sys : Bool) :
    State × Bool :=
  match s.stashOf i acc sys with
  | some n => (s.fetched acc).stashWrite i ctx n acc bytes
  | none => (s.fetched acc).lineWrite i ctx acc bytes

/-- Who sent an atomic, for the contention predictor: an agent; the harts of the chiplet count as one requester (12 R254; log 52). -/
def Issuer.requester (i : Issuer) : Aid := i.aid?.getD (.thread 64 0)

/-- The contention predictor decides where an atomic on a C line is performed and counts it (12 R254). -/
def State.predict (s : State) (i : Issuer) (acc : Access) : State :=
  if acc.mt = 0 then
    let h := sliceNumber (homeSlice (s.partition (memPart acc.pa)) acc.pa acc.pin)
    let key := (h, foldPa acc.pa % 1024)
    let c := Tab.getD s.ms.predictor key ⟨0, none⟩
    let far := decide (c.count ≥ 2)
    let c' : Contention := match c.last with
      | none => ⟨c.count, some i.requester⟩
      | some b => if b = i.requester then ⟨c.count - 1, some b⟩ else ⟨min 3 (c.count + 1), some i.requester⟩
    let s := s.updMs fun m => { m with predictor := Tab.set m.predictor key c' }
    match i.aid?.bind s.agent? with
    | some g => s.countAt g (if far then 0x38 else 0x37)
    | none => s
  else s

/-- The bytes an atomic works on, wherever its line lives, and the write of the new ones, as one event (13 R270, R271): the
answer is the old value, or none if the line's error stopped it. -/
def State.rmwAccess (s : State) (i : Issuer) (ctx : Nat) (acc : Access) (f : Nat → Nat) : State × Option Nat :=
  let s := s.fetched acc
  let s := if acc.mt = 3 then s else s.recall acc.pa
  if s.accessUe acc then (s.ueMet acc, none)
  else if acc.mt = 3 then
    let (s, old) := s.scratchRead i acc.pa acc.len
    (s.scratchWrite i acc.pa (natBytes acc.len (f (bytesNat old))), some (bytesNat old))
  else
    let s := (s.predict i acc).corrected acc.pa
    let x := bytesNat (s.homeBytes acc.pa acc.len)
    let s := s.raisePts i (max (s.ptsOf i) (s.lineTs acc.pa).wts)
    (s.homeWrite i ctx acc.pa (natBytes acc.len (f x)), some x)

/-- A slice evicts a line: its data stays in memory, its timestamps fold into the slice's memory timestamp (12 R242). A stash that owns
it gives it up first. A line dirty in its slice whose check bits are wrong goes onward so, and the context that wrote it last is noted (26
R449). -/
def State.evictLine (s : State) (line : Nat) : State :=
  let s := s.recall (line * 64)
  match (Tab.get? s.ms.lines line).bind fun t => t.slice.map fun n => (t, n) with
  | none => s
  | some (t, n) => s.updMs fun m => { m with
      lines := Tab.erase m.lines line
      sliceTs := Tab.set m.sliceTs n (max (Tab.getD m.sliceTs n 0) (max t.wts t.rts))
      writers := Tab.erase m.writers line
      lost := match Tab.get? m.writers line with
        | some c => if m.ue.contains line then addOnce m.lost (c, line) else m.lost
        | none => m.lost }

/-- A line is dirty in its slice: it has been written there since it was fetched. -/
def State.dirtyInSlice (s : State) (line : Nat) : Bool := (Tab.get? s.ms.writers line).isSome

/-- A bit error comes up in a line of memory or of an MU bank (26 R445 to R447). One that the check bits correct stays until an access or a
scrub finds it. Any other marks the line, but for a clean C line in its slice, which is discarded and fetched again. -/
def State.bitError (s : State) (line : Nat) (correctable : Bool) : State :=
  let inSlice := ((Tab.get? s.ms.lines line).bind LineTs.slice).isSome
  if correctable then s.updMs fun m => { m with ce := addOnce m.ce line }
  else if inSlice && !s.dirtyInSlice line then s.evictLine line
  else s.updMs fun m => { m with ue := addOnce m.ue line }

/-- A bit error in a copy of a line that the SVP data cache of a die holds, or a stash of its quad `vq` (26 R445). One that the check bits
correct is corrected and counted; any other stays with the copy. -/
def State.copyError (s : State) (die vq line : Nat) (correctable : Bool) : State :=
  if correctable then s.count die none 0x60
  else
    let mark := fun (l : StashLine) => if l.pa = line then { l with bad := true } else l
    let inStash := fun (e : Nid × Stash) =>
      if s.nodeQuad e.1 = (die, vq) then (e.1, { e.2 with lines := e.2.lines.map mark }) else e
    if vq < 320 then s.updFab fun f => { f with stashes := f.stashes.map inStash }
    else s.updMs fun m => { m with svpCache := Tab.modify m.svpCache die fun cs => cs.map mark }

/-- A parity error in an entry of a translation cache, or in the tag of a clean line of a stash: it is discarded, and fetched again when it
is next needed (26 R445). `vq` is 320 or more for a die's own cache. -/
def State.parityError (s : State) (die vq va : Nat) : State :=
  let keep := fun (c : Cached) => c.va / 2 ^ c.lg != va / 2 ^ c.lg
  let stay := fun (l : StashLine) => l.owned || l.va != va / 64 * 64
  let inStash := fun (e : Nid × Stash) =>
    if s.nodeQuad e.1 = (die, vq) then (e.1, { e.2 with lines := e.2.lines.filter stay }) else e
  if vq < 320 then
    (s.updMs fun m => { m with tlbQuad := Tab.modify m.tlbQuad (die, vq) fun cs => cs.filter keep }).updFab fun f => { f with
      stashes := f.stashes.map inStash }
  else s.updMs fun m => { m with tlbDie := Tab.modify m.tlbDie die fun cs => cs.filter keep }

end Sys2Proof.Machine
end

