-- ==== Sys2Proof/Machine/Banks.lean ====
section
/-! DEFINITION. What the banks of a group hold beside scratch bytes, as the bytes of its BANKS section: hash accumulators, window nodes,
address generators and stash windows (spec 21 R373; 09 R196; log 30). -/
namespace Sys2Proof.Machine

/-- Zeros. -/
def zeros (n : Nat) : List Byte := List.replicate n 0

/-- Fills a byte string up to a length with zeros. -/
def padTo (n : Nat) (bs : List Byte) : List Byte := bs ++ zeros (n - bs.length)

/-- One bit at a place. -/
def bitAt (b : Bool) (n : Nat) : Nat := if b then 2 ^ n else 0

/-- The bank modes in the order of 02 R23, by which a section names them (log 30). -/
def bankModes : List BankMode := [.scratch, .queue, .stash, .agen, .window, .hacc, .gen, .sink]
def BankMode.code (m : BankMode) : Nat := bankModes.findIdx (· == m)

/-- The window of an id, empty where it holds nothing. -/
def Window.openOf (w : Window) (i : Nat) : OpenWindow := (w.opens.find? fun o => o.id == i).getD ⟨i, [], []⟩

/-- Replaces or adds an open window. -/
def Window.setOpen (w : Window) (o : OpenWindow) : Window :=
  { w with opens := if w.opens.any (fun x => x.id == o.id) then w.opens.map fun x => if x.id = o.id then o else x
      else w.opens ++ [o] }

/-- The shape that 128 bytes describe, or none where they break the table. -/
def Shape.ofBytes (bs : List Byte) : Option Shape :=
  let f := fun (off n : Nat) => bytesNat ((bs.drop off).take n)
  let ndim := f 8 1
  let esz := f 9 1
  let ext := (List.range 5).map fun d => f (16 + 4 * d) 4
  let str := (List.range 5).map fun d => f (40 + 8 * d) 8
  let ok := 1 ≤ ndim && ndim ≤ 5 && esz ≤ 6 && f 10 6 == 0 && f 36 4 == 0 && f 80 48 == 0 &&
    (ext.take ndim).all (· ≥ 1) && (ext.drop ndim).all (· == 0) && (str.drop ndim).all (· == 0)
  if ok then some ⟨f 0 8, esz, ext.take ndim, (str.take ndim).map fun x => sint 64 x⟩ else none

/-- The 128 bytes of a shape record (14 R283). -/
def Shape.bytes (sh : Shape) : List Byte :=
  let ext := sh.ext ++ List.replicate (5 - sh.ext.length) 0
  let str := (sh.str.map fun x => wrap 64 x) ++ List.replicate (5 - sh.str.length) 0
  natBytes 8 sh.base ++ natBytes 1 sh.ext.length ++ natBytes 1 sh.esz ++ zeros 6 ++ ext.flatMap (natBytes 4) ++ zeros 4 ++
    str.flatMap (natBytes 8) ++ zeros 48

/-- The summary of a spill ring, and back. -/
def summaryBytes (m : RingSummary) : List Byte :=
  [m.count, m.weight, m.kmin, m.kmax, m.tmin, m.tmax].flatMap (natBytes 4) ++ natBytes 1 (bitAt m.kr 0 + bitAt m.exc 1)

def summaryOf (b : List Byte) (off : Nat) (sr : List Nat) : RingSummary :=
  ⟨fieldAt b off 4, fieldAt b (off + 4) 4, bitsAt (fieldAt b (off + 24) 1) 0 1 == 1, fieldAt b (off + 8) 4, fieldAt b (off + 12) 4,
   fieldAt b (off + 16) 4, fieldAt b (off + 20) 4, bitsAt (fieldAt b (off + 24) 1) 1 1 == 1, sr⟩

/-- What a hash accumulator has beside its banks, in the first bytes of its section, and its four banks of 1,024 entries (10 R219; log
30). -/
def haccHead (h : Hacc) : List Byte := summaryBytes h.ring ++ summaryBytes h.lost ++ natBytes 1 (bitAt h.faulted 0)

def haccBanks (h : Hacc) : List Byte := (List.range 4).flatMap fun b => (List.range 1024).flatMap fun k =>
  match Tab.get? h.entries (b, k) with
  | some e => natBytes 4 e.coord ++ natBytes 4 e.swx ++ natBytes 4 e.sw ++ natBytes 4 (1 + bitAt e.exc 1)
  | none => zeros 16

/-- A hash accumulator read back. -/
def Hacc.putBanks (h : Hacc) (b : List Byte) : Hacc :=
  let entry := fun (i k : Nat) =>
    let o := 64 + (i * 1024 + k) * 16
    let w := fieldAt b (o + 12) 4
    if w % 2 = 1 then some ((i, k), (⟨fieldAt b o 4, fieldAt b (o + 4) 4, fieldAt b (o + 8) 4, w.testBit 1⟩ : HaccEntry)) else none
  { h with
    ring := summaryOf b 3 h.ring.sr
    lost := summaryOf b 28 h.lost.sr
    faulted := fieldAt b 53 1 == 1
    entries := (List.range 4).flatMap fun i => (List.range 1024).filterMap (entry i) }

/-- What a window node has beside its banks: its bound, its flags, and the watermarks and END marks of its inputs (log 30). -/
def windowHead (w : Window) : List Byte :=
  natBytes 8 w.closed ++ natBytes 1 (bitAt w.excNext 0 + bitAt w.finished 1) ++
    (List.range 8).flatMap (fun k => natBytes 4 (w.marks.getD k 0)) ++
    natBytes 1 (sumNat ((List.range 8).map fun k => bitAt (w.ended.getD k false) k))

/-- A keyed slot of a window, in 64 bytes, a record of a join's window, in 96, and a gap, in either (10 R214; log 30). -/
def aggBytes (id : Nat) (a : AggSlot) : List Byte :=
  padTo 64 (natBytes 1 1 ++ natBytes 1 (bitAt a.key.isSome 0 + bitAt a.exc 1) ++ natBytes 8 id ++ natBytes 4 (a.key.getD 0) ++
    [a.swx, a.sw, a.mn, a.mx, a.n].flatMap (natBytes 4))

def winRecBytes (id : Nat) (x : WinRec) : List Byte := padTo 96 (natBytes 1 1 ++ natBytes 1 x.side ++ natBytes 8 id ++ x.r.bytes)

def winGapBytes (size : Nat) (g : WinGap) : List Byte :=
  padTo size (natBytes 1 2 ++ natBytes 1 (bitAt g.kr 0 + bitAt g.exc 1) ++ natBytes 1 g.side ++
    [g.tmin, g.tmax, g.kmin, g.kmax, g.lostw].flatMap (natBytes 4))

def windowBanks (w : Window) : List Byte :=
  let size := match w.fn with
    | .agg _ _ _ => 64
    | .join _ => 96
  padTo (w.banks * 2 ^ 14) ((w.opens.flatMap fun o => o.slots.flatMap (aggBytes o.id) ++ o.recs.flatMap (winRecBytes o.id)) ++
    w.gaps.flatMap (winGapBytes size)) |>.take (w.banks * 2 ^ 14)

/-- A window node read back: slot after slot up to the first empty one. -/
def Window.putSlots (w : Window) (size : Nat) : Nat → List Byte → Window
  | 0, _ => w
  | fuel + 1, b =>
    let fl := fieldAt b 1 1
    let next : Option Window := match fieldAt b 0 1, size with
      | 1, 64 =>
        let key := if fl % 2 = 1 then some (fieldAt b 10 4) else none
        let a : AggSlot := ⟨key, fieldAt b 14 4, fieldAt b 18 4, fieldAt b 22 4, fieldAt b 26 4, fieldAt b 30 4, fl.testBit 1, []⟩
        let o := w.openOf (fieldAt b 2 8)
        some (w.setOpen { o with slots := o.slots ++ [a] })
      | 1, _ =>
        let o := w.openOf (fieldAt b 2 8)
        some (w.setOpen { o with recs := o.recs ++ [⟨fl, Record.ofBytes (b.drop 10)⟩] })
      | 2, _ => some { w with gaps := w.gaps ++ [⟨fieldAt b 2 1, fieldAt b 3 4, fieldAt b 7 4, fl % 2 == 1, fieldAt b 11 4, fieldAt b 15 4,
          fieldAt b 19 4, fl.testBit 1, []⟩] }
      | _, _ => none
    match next with
    | some v => v.putSlots size fuel (b.drop size)
    | none => w

def Window.putBanks (w : Window) (b : List Byte) : Window :=
  let size := match w.fn with
    | .agg _ _ _ => 64
    | .join _ => 96
  let w' := { w with
    closed := fieldAt b 3 8
    excNext := bitsAt (fieldAt b 11 1) 0 1 == 1
    finished := bitsAt (fieldAt b 11 1) 1 1 == 1
    marks := (List.range w.ins.length).map fun k => fieldAt b (12 + 4 * k) 4
    ended := (List.range w.ins.length).map fun k => bitsAt (fieldAt b 44 1) k 1 == 1
    opens := []
    gaps := [] }
  w'.putSlots size (b.length / size) (b.drop 64)

/-- The node that stands in a bank group. -/
def bankNode (rid : Nat) (e : Nat × Nat × Nat × BankGroup) : Nid := ⟨rid, e.1, e.2.1, e.2.2.1, e.2.2.2.first⟩

/-- What a stash has beside its lines, which a capture has written back: its window (12 R243). -/
def stashHead (x : Stash) : List Byte := natBytes 1 (bitAt x.mapped 0) ++ natBytes 1 x.lsize ++ natBytes 8 x.base

/-- A section of a group whose banks hold no scratch bytes: all of it, behind the mode, first bank and count. -/
def State.groupData (s : State) (n : Nid) (g : BankGroup) : Option (List Byte) :=
  let head := natBytes 1 g.mode.code ++ natBytes 1 g.first ++ natBytes 1 g.count
  match Tab.get? s.fab.haccs n, Tab.get? s.fab.windows n, Tab.get? s.fab.agens n, Tab.get? s.fab.stashes n with
  | some h, _, _, _ => some (padTo 64 (head ++ haccHead h) ++ haccBanks h)
  | none, some w, _, _ => some (padTo 64 (head ++ windowHead w) ++ windowBanks w)
  | none, none, some a, _ => some (padTo (64 + g.count * 2 ^ 14) (padTo 64 (head ++ natBytes 1 (bitAt a.shape.isSome 0)) ++
      ((a.shape.map Shape.bytes).getD [])))
  | none, none, none, some x => some (padTo (64 + g.count * 2 ^ 14) (head ++ stashHead x))
  | none, none, none, none => none

/-- Such a section is written into the group's node; none where the group's banks hold scratch bytes. -/
def State.putGroupData (s : State) (n : Nid) (b : List Byte) : Option State :=
  match Tab.get? s.fab.haccs n, Tab.get? s.fab.windows n, Tab.get? s.fab.agens n, Tab.get? s.fab.stashes n with
  | some h, _, _, _ => some (s.updFab fun f => { f with haccs := Tab.set f.haccs n (h.putBanks b) })
  | none, some w, _, _ => some (s.updFab fun f => { f with windows := Tab.set f.windows n (w.putBanks b) })
  | none, none, some a, _ => some (s.updFab fun f => { f with agens := Tab.set f.agens n { a with
      shape := if (fieldAt b 3 1).testBit 0 then Shape.ofBytes ((b.drop 64).take 128) else none } })
  | none, none, none, some x => some (s.updFab fun f => { f with stashes := Tab.set f.stashes n { x with
      mapped := (fieldAt b 3 1).testBit 0, lsize := fieldAt b 4 1, base := fieldAt b 5 8 } })
  | none, none, none, none => none

end Sys2Proof.Machine
end

