-- ==== Sys2Proof/Machine/Shear.lean ====
section
/-! DEFINITION. Queues and their shear, gap markers, merging, narrowing, spilling and delivery (spec 10 R197 to R212), and
the neighbour links with their token and gap registers (09 R191, R192). -/
namespace Sys2Proof.Machine

/-! ### Gap markers (03 R51) -/

/-- Lane `j` of an `l32` payload. -/
def lane32 (v : Vec) (j : Nat) : Nat := getE 32 v j

/-- The fields of a gap marker. -/
structure Gap where
  lost : Nat
  lostw : Nat
  kr : Bool
  pol : Nat
  cause : Nat
  kmin : Nat
  kmax : Nat
  tmin : Nat
  tmax : Nat
  qid : Nat
  exc : Bool
  sr : List Nat
  deriving DecidableEq, Repr

/-- The GAP record of a marker: a zero weight, the key range in the sideband, time `tmin`. -/
def Gap.record (g : Gap) : Record :=
  let krb := if g.kr then 2 ^ 11 else 0
  ⟨packE 32 [g.lost, g.lostw, krb + g.pol * 2 ^ 8 + g.cause, g.kmin, g.kmax, g.tmin, g.tmax, g.qid], kGAP, 0, g.tmin,
   if g.kr then g.kmin else 0, g.kr, 0, false, g.exc, false, g.sr⟩

/-- The marker of a GAP record. -/
def Gap.ofRecord (r : Record) : Gap :=
  let p := lane32 r.payload
  ⟨p 0, p 1, bitsAt (p 2) 11 1 == 1, bitsAt (p 2) 8 3, bitsAt (p 2) 0 8, p 3, p 4, p 5, p 6, p 7, r.exc, r.sr⟩

/-- The marker of one lost record (10 R211). -/
def Gap.one (r : Record) (pol cause qid : Nat) : Gap :=
  ⟨1, wt16ToF32 r.weight, r.kv, pol, cause, if r.kv then r.key else 0, if r.kv then r.key else 0, r.time, r.time, qid, r.exc,
   r.sr⟩

/-- Coalesces a loss into a marker: `lost` stays at its largest value, ranges widen, and a marker of another cause becomes
MIXED (10 R211). -/
def Gap.join (g h : Gap) : Gap :=
  let kr := g.kr && h.kr
  ⟨min (g.lost + h.lost) 0xFFFFFFFF, f32Add g.lostw h.lostw, kr, g.pol, if g.cause = h.cause then g.cause else 10,
   if kr then min g.kmin h.kmin else 0, if kr then max g.kmax h.kmax else 0, min g.tmin h.tmin, max g.tmax h.tmax, g.qid,
   g.exc || h.exc, unionDep g.sr h.sr⟩

/-! ### Storage (10 R201) -/

def Held.isControl (h : Held) : Bool := isControlKind h.r.kind

/-- Records in storage take units; control tokens that stand in storage take 8 each. -/
def Queue.occ (q : Queue) : Nat :=
  sumNat (q.items.map fun h => if h.place = .storage ∧ !h.isControl then h.units else 0)

def Queue.controlInStorage (q : Queue) : Nat :=
  (q.items.filter fun h => h.place = .storage ∧ h.isControl).length

def Queue.free (q : Queue) : Nat := 8 * q.desc.cap - q.occ - 8 * q.controlInStorage

/-- Control tokens in the reserve. -/
def Queue.reserved (q : Queue) : Nat := (q.items.filter fun h => h.place = .reserve ∧ h.isControl).length

/-- Records in the ring. -/
def Queue.ringCount (q : Queue) : Nat :=
  (q.items.filter fun h => match h.place with
    | .ring _ => true
    | _ => false).length

/-- The bucket of a key (10 R205). -/
def bucketOf (khash key : Nat) : Nat := (Nat.xor (key / 2 ^ 16) (key % 2 ^ 16)) % 2 ^ khash

/-- Appends a record to storage; one with a key becomes its bucket's entry. -/
def Queue.store (q : Queue) (r : Record) (units : Nat) (merged : Bool) : Queue :=
  let h : Held := ⟨r, units, .storage, merged, false, q.nextSerial, false⟩
  { q with
    items := q.items ++ [h]
    nextSerial := q.nextSerial + 1
    index := if r.kv ∧ q.desc.pol = 3 then Tab.set q.index (bucketOf q.desc.khash r.key) q.nextSerial else q.index }

/-- The cell of a time (10 R202). -/
def QDesc.cell (d : QDesc) (t : Nat) : Nat := if d.grid = 0 then 0 else t / d.grid

/-- The cause of a loss by the step that lost the record (10 R210). `step` is 1 DROP_NEW, 2 a displacement, 7 REJECT. -/
def Queue.causeOf (q : Queue) (step : Nat) : Nat :=
  if q.desc.pol = 5 then (if q.failed then 6 else 5)
  else if step = 1 ∧ q.desc.pol = 3 then 4
  else step

/-- Inserts a marker for a loss at a position of the order, or coalesces it (10 R211). Answers whether a marker opened. -/
def Queue.mark (q : Queue) (pos : Nat) (g : Gap) : Queue × Bool :=
  let q := { q with nlost := min (q.nlost + g.lost) 0xFFFFFFFF }
  let joins := fun (h : Held) =>
    let m := Gap.ofRecord h.r
    h.own && m.cause == g.cause && q.desc.cell m.tmin == q.desc.cell g.tmin && m.lost + g.lost ≤ 0xFFFFFFFF
  let joinAt := fun (i : Nat) => { q with items := q.items.mapIdx fun j h =>
    if j = i then { h with r := ((Gap.ofRecord h.r).join g).record } else h }
  let before := if pos = 0 then none else (q.items[pos - 1]?).bind fun h => if joins h then some (pos - 1) else none
  let after := (q.items[pos]?).bind fun h => if joins h then some pos else none
  match before.orElse fun _ => after with
  | some i => (joinAt i, false)
  | none =>
    let place : Option Place :=
      if q.reserved < 8 then some .reserve
      else if q.items.any fun h => h.place == .further then none else some .further
    match place with
    | some p =>
      let h : Held := ⟨g.record, 0, p, false, true, q.nextSerial, false⟩
      ({ q with items := q.items.take pos ++ [h] ++ q.items.drop pos, nextSerial := q.nextSerial + 1 }, true)
    | none =>
      -- The newest marker is the one that opened last, wherever it stands.
      let newest := q.items.foldl (fun m h => if h.own then max m h.serial else m) 0
      match findIdx? (fun h : Held => h.own && h.serial == newest) q.items with
      | some k => (joinAt k, false)
      | none => (q, false)

/-! ### Merging (10 R205, R206) -/

/-- One lane of a combiner. -/
def combineLane (comb : Nat) (merged : Bool) (wr wa pr xa : Nat) : Nat :=
  let V := fmtF32.value
  let W := wt16Value
  let term := fun (w x : Nat) => ((W w).mul (V x)).1
  match comb with
  | 0 => (fmtF32.ofVal 0 (sumVals 0 [if merged then V pr else term wr pr, term wa xa]).1).1
  | 1 =>
    let num := (sumVals 0 [term wr pr, term wa xa]).1
    match num, (sumVals 0 [W wr, W wa]).1 with
    | .fin neg n e, .fin _ d f =>
      if n = 0 ∨ d = 0 then (fmtF32.ofVal 0 num).1
      else
        let (a, b) := scaleQ n d (e - f)
        (fmtF32.round 0 neg a b).1
    | _, _ => (fmtF32.ofVal 0 num).1
  | 2 => (fmtF32.pick true pr xa).1
  | 3 => (fmtF32.pick false pr xa).1
  | _ => xa

/-- The merged record: the resident's place and `lvl`, weights added (10 R205). -/
def combine (comb : Nat) (h : Held) (a : Record) : Held :=
  let lanes := (List.range 16).map fun j => combineLane comb h.merged h.r.weight a.weight (lane32 h.r.payload j) (lane32 a.payload j)
  let (w, sat) := wt16Add h.r.weight a.weight
  { h with
    merged := true
    r := { h.r with
      payload := packE 32 lanes
      weight := w
      wsat := h.r.wsat || a.wsat || sat
      time := if comb = 4 then a.time else max h.r.time a.time
      exc := h.r.exc || a.exc
      sr := unionDep h.r.sr a.sr } }

/-- The resident record that an arrival matches. -/
def Queue.match? (q : Queue) (a : Record) : Option Nat :=
  if !a.kv then none
  else
    match Tab.get? q.index (bucketOf q.desc.khash a.key) with
    | none => none
    | some n => findIdx? (fun h : Held => h.serial == n && h.place == .storage && !h.isControl && h.r.kv && h.r.key == a.key)
        q.items

/-- A payload weighted for delivery: each lane rounded once; an overflow sets `exc` (10 R206). -/
def weighted (r : Record) : Record :=
  let rs := (List.range 16).map fun j => fmtF32.ofVal 0 ((wt16Value r.weight).mul (fmtF32.value (lane32 r.payload j))).1
  { r with payload := packE 32 (rs.map Prod.fst), exc := r.exc || rs.any fun x => (x.2 &&& fOF) != 0 }

/-- A reserved kind is delivered as DATA with `exc` (03 R48), and DATA whose weight reads as zero with `exc` (03 R42). -/
def Record.asDelivered (r : Record) : Record :=
  if r.kind ≥ 10 then { r with kind := kDATA, exc := true }
  else if r.kind == kDATA && (wt16Value r.weight).isZero then { r with exc := true }
  else r

/-- What a queue delivers for a held token or record: a SUM queue weights an unmerged record (10 R206). -/
def Queue.deliver (q : Queue) (h : Held) : Record :=
  let r := if q.desc.pol = 3 ∧ q.desc.comb = 0 ∧ !h.isControl ∧ h.r.kind != kRAND ∧ h.r.kind != kNULL ∧ !h.merged
    then weighted h.r else h.r
  r.asDelivered

/-! ### Narrowing (10 R207) -/

/-- The units of a narrow format. -/
def narrowUnits (nfmt : Nat) : Nat :=
  match nfmt with
  | 0 => 4
  | 1 => 2
  | 2 => 4
  | 3 => 2
  | _ => 1

/-- The payload as it is delivered after narrowing, and whether a lane raised invalid or overflow. -/
def narrowPayload (nfmt : Nat) (p : Vec) : Vec × Bool :=
  let conv := fun (F : FFmt) =>
    let rs := (List.range 16).map fun j =>
      let (x, f) := F.ofVal 0 (fmtF32.value (lane32 p j))
      let (y, _) := fmtF32.ofVal 0 (F.value x)
      (y, f ||| snan [fmtF32.value (lane32 p j)])
    (packE 32 (rs.map Prod.fst), rs.any fun r => (r.2 &&& (fNV ||| fOF)) != 0)
  match nfmt with
  | 0 => conv fmtBF16
  | 1 => conv fmtE4M3
  | 2 => (p &&& BitVec.ofNat 512 (2 ^ 256 - 1), false)
  | 3 => (p &&& BitVec.ofNat 512 (2 ^ 128 - 1), false)
  | _ => (scal p.toNat, false)

/-- The narrowed payload in its leading bytes, as it is stored (03 R49), and the payload that such bytes are delivered as. -/
def storedPayload (nfmt : Nat) (p : Vec) : Vec :=
  let pack := fun (F : FFmt) (W : Nat) => packE W ((List.range 16).map fun j => (F.ofVal 0 (fmtF32.value (lane32 p j))).1)
  match nfmt with
  | 0 => pack fmtBF16 16
  | 1 => pack fmtE4M3 8
  | _ => p

def widenPayload (nfmt : Nat) (p : Vec) : Vec :=
  let unpack := fun (F : FFmt) (W : Nat) => packE 32 ((List.range 16).map fun j => (fmtF32.ofVal 0 (F.value (getE W p j))).1)
  match nfmt with
  | 0 => unpack fmtBF16 16
  | 1 => unpack fmtE4M3 8
  | _ => p

def narrow (nfmt : Nat) (r : Record) : Record :=
  let (p, e) := narrowPayload nfmt r.payload
  { r with payload := p, nar := true, exc := r.exc || e }

/-! ### Spilling (10 R208, R209) -/

/-- Where a queue lies: its die, virtual quad and unit, from its queue id (03 R53). -/
def Queue.die (q : Queue) : Nat := bitsAt q.qid 26 6
def Queue.vq (q : Queue) : Nat := bitsAt q.qid 17 9
def Queue.unit (q : Queue) : Nat := bitsAt q.qid 14 3

/-- Translates a ring, log or hash-spill access made by an MU for its context: a C or MS page, `U` not checked. An IO page
gives PERMISSION and the scratch window NOT_PRESENT. -/
def State.muAccess (s : State) (die vq ctx va len : Nat) (need : Need) : State × Except (Nat × Nat) (List Access) :=
  if inScratch va then (s, .error (cNOT_PRESENT, va))
  else
    (linePieces (len / 64 + 2) va len).foldl (fun (acc : State × Except (Nat × Nat) (List Access)) p =>
      match acc with
      | (s, .error e) => (s, .error e)
      | (s, .ok xs) =>
        match s.translate die vq ctx p.1 p.2 need with
        | (s, .error c) => (s, .error (c, p.1))
        | (s, .ok x) => if x.mt = 2 then (s, .error (cPERMISSION, p.1)) else (s, .ok (xs ++ [x]))) (s, .ok [])

/-- Reads a range for an MU, in the order of an engine's command. -/
def State.muReadAs (s : State) (i : Issuer) (die vq ctx va len : Nat) : State × Except (Nat × Nat) (List Byte) :=
  match s.muAccess die vq ctx va len ⟨true, false, false, false⟩ with
  | (s, .error e) => (s, .error e)
  | (s, .ok xs) => xs.foldl (fun (acc : State × Except (Nat × Nat) (List Byte)) x =>
      match acc with
      | (s, .error e) => (s, .error e)
      | (s, .ok bs) => match s.readAccess i ctx x true with
        | (s, b, ue) => (s, if ue then .error (cMEMORY_UE, x.va) else .ok (bs ++ b))) (s, .ok [])

/-- Writes a range for an MU, in the order of an issuer's events. -/
def State.muWriteAs (s : State) (i : Issuer) (die vq ctx va : Nat) (bytes : List Byte) : State × Except (Nat × Nat) Unit :=
  match s.muAccess die vq ctx va bytes.length ⟨false, true, false, false⟩ with
  | (s, .error e) => (s, .error e)
  | (s, .ok xs) =>
    let step := fun (acc : State × List Byte × Except (Nat × Nat) Unit) (x : Access) =>
      match acc with
      | (s, bs, .error e) => (s, bs, .error e)
      | (s, bs, .ok _) =>
        let (s, ok) := s.writeAccess i ctx x (bs.take x.len) true
        (s, bs.drop x.len, if ok then .ok () else .error (cMEMORY_UE, x.va))
    let (s, _, r) := xs.foldl step (s, bytes, .ok ())
    (s, r)

/-- Reads and writes of a range that an MU makes for its context: a spill ring's or a sink log's (15 R301). They are ordered among
themselves, and before what else the device writes for the context (10 R208, R221). -/
def State.muRead (s : State) (die vq ctx va len : Nat) : State × Except (Nat × Nat) (List Byte) :=
  s.muReadAs (s.deviceRoute ctx) die vq ctx va len

def State.muWrite (s : State) (die vq ctx va : Nat) (bytes : List Byte) : State × Except (Nat × Nat) Unit :=
  s.muWriteAs (s.deviceRoute ctx) die vq ctx va bytes

/-- The spill of a queue fails: the failure bit is set, and once per setting a SPILL record is sent. -/
def State.spillFails (s : State) (q : Queue) (inc va : Nat) : State × Queue :=
  if q.failed then (s, q)
  else (s.asyncRecord cSPILL q.ctx inc q.die q.vq (q.unit % 4) va, { q with failed := true })

/-- The incarnation of the region that holds a queue. -/
def State.queueInc (s : State) (id : Qid) : Nat :=
  let rid := match id with
    | .mu r _ _ _ _ | .port r _ _ _ _ _ | .node r _ _ _ _ => some r
    | _ => none
  match rid.bind (Tab.get? s.sched.regions) with
  | some r => r.inc
  | none => 0

/-- The ring's summary after one more record. -/
def RingSummary.add (m : RingSummary) (r : Record) : RingSummary :=
  let first := m.count == 0
  let kr := (first || m.kr) && r.kv
  ⟨m.count + 1, f32Add m.weight (wt16ToF32 r.weight), kr,
   if kr then (if first then r.key else min m.kmin r.key) else 0, if kr then max m.kmax r.key else 0,
   if first then r.time else min m.tmin r.time, max m.tmax r.time, m.exc || r.exc, unionDep m.sr r.sr⟩

/-- Writes a record to the ring; false when the ring is full, has failed, or the write faults. -/
def State.ringWrite (s : State) (id : Qid) (q : Queue) (r : Record) : State × Queue × Bool :=
  if q.failed || q.ringCount ≥ q.desc.spsize then (s, q, false)
  else
    let va := q.desc.spbase + 80 * (q.wr % q.desc.spsize)
    match s.muWrite q.die q.vq q.ctx va r.bytes with
    | (s, .error (_, v)) =>
      let (s, q) := s.spillFails q (s.queueInc id) v
      (s, q, false)
    | (s, .ok _) =>
      (s, { q with
        wr := q.wr + 1
        items := q.items ++ [⟨r, 8, .ring q.wr, false, false, q.nextSerial, false⟩]
        nextSerial := q.nextSerial + 1
        summary := q.summary.add r }, true)

/-- The position of the oldest ring record. -/
def Queue.ringHead? (q : Queue) : Option Nat :=
  findIdx? (fun h : Held => match h.place with
    | .ring _ => true
    | _ => false) q.items

/-- The summary of what the ring still holds. -/
def Queue.summarise (q : Queue) : RingSummary :=
  q.items.foldl (fun m h => match h.place with
    | .ring _ => m.add h.r
    | _ => m) .empty

/-- Moves the oldest ring record into storage where 8 units are free. A failed read loses every record in the ring as one
loss. -/
def State.refill (s : State) (id : Qid) (q : Queue) : State × Queue :=
  match q.ringHead? with
  | none => (s, q)
  | some i =>
    if q.free < 8 then (s, q)
    else
      let va := q.desc.spbase + 80 * (q.rd % q.desc.spsize)
      match s.muRead q.die q.vq q.ctx va 80 with
      | (s, .ok bs) =>
        let r := Record.ofBytes bs
        let q := { q with
          rd := q.rd + 1
          items := q.items.mapIdx fun j (h : Held) =>
            if j = i then { h with r := { r with sr := h.r.sr }, place := .storage } else h }
        let q := { q with index := match q.items[i]? with
          | some h => if h.r.kv ∧ q.desc.pol = 3 then Tab.set q.index (bucketOf q.desc.khash h.r.key) h.serial else q.index
          | none => q.index }
        (s, { q with summary := q.summarise })
      | (s, .error (_, v)) =>
        let (s, q) := s.spillFails q (s.queueInc id) v
        let m := q.summary
        let q := { q with
          rd := q.wr
          summary := .empty
          items := q.items.filter fun h => match h.place with
            | .ring _ => false
            | _ => true }
        let (q, opened) := q.mark i ⟨m.count, m.weight, m.kr, q.desc.pol, 6, m.kmin, m.kmax, m.tmin, m.tmax, q.qid, m.exc, m.sr⟩
        (if opened then s.count q.die (some q.vq) 0x28 else s, q)

/-! ### The shear (10 R202, R210, R211) -/

/-- How an arrival was judged. -/
inductive Judged where
  | kept | rejected | shed
  deriving DecidableEq, Repr

/-- Enters a record into a marker at a place of the order. -/
def State.lose (s : State) (q : Queue) (pos step : Nat) (r : Record) : State × Queue :=
  let (q, opened) := q.mark pos (Gap.one r q.desc.pol (q.causeOf step) q.qid)
  (if opened then s.count q.die (some q.vq) 0x28 else s, q)

/-- The position of the oldest DATA record in storage that may be shed. -/
def Queue.oldest? (q : Queue) : Option Nat := findIdx? (fun h : Held => h.place == .storage && !h.isControl && !h.kept) q.items

/-- Loses the oldest stored records until 8 units are free or none remains. `fuel` bounds the records held. -/
def State.displace (s : State) (id : Qid) (q : Queue) : Nat → State × Queue
  | 0 => (s, q)
  | fuel + 1 =>
    if q.free ≥ 8 then (s, q)
    else
      match q.oldest? with
      | none => (s, q)
      | some i =>
        match q.items[i]? with
        | none => (s, q)
        | some h =>
          let (s, q) := s.lose { q with items := q.items.eraseIdx i } i 2 h.r
          let (s, q) := s.refill id q
          s.displace id q fuel

/-- Keeps a record at the tail: in the ring behind what it holds, or in storage. -/
def State.keep (s : State) (id : Qid) (q : Queue) (a : Record) : State × Queue × Judged :=
  if q.ringCount > 0 then
    match s.ringWrite id q a with
    | (s, q, true) => (s, q, .kept)
    | (s, q, false) => let (s, q) := s.lose q q.items.length 1 a; (s, q, .shed)
  else (s, q.store a 8 false, .kept)

/-- The policy path that loses or samples (10 R202 `Fallback`). -/
def State.fallback (s : State) (id : Qid) (q : Queue) (p : Nat) (a : Record) : State × Queue × Judged :=
  match p with
  | 1 =>
    let (s, q) := s.displace id q (q.items.length + 1)
    s.keep id q a
  | 2 =>
    let c := q.desc.cell a.time
    let q := if c != q.scell then { q with sc := 0, scell := c } else q
    if q.sc = 0 then
      let (w, sat) := wt16Mul a.weight (wt16Round 0 q.desc.k 1).1
      let a := { a with weight := w, wsat := a.wsat || sat, exc := a.exc || q.sexc, sr := unionDep a.sr q.ssr }
      let q := { q with sexc := false, ssr := [], sc := (q.sc + 1) % q.desc.k }
      let (s, q) := if q.free < 8 then s.displace id q (q.items.length + 1) else (s, q)
      s.keep id q a
    else
      (s, { q with sexc := q.sexc || a.exc, ssr := unionDep q.ssr a.sr, nabs := min (q.nabs + 1) 0xFFFFFFFF, sc := (q.sc + 1) % q.desc.k }, .shed)
  | _ =>
    let (s, q) := s.lose q q.items.length (if p = 6 then 7 else 1) a
    (s, q, if p = 6 then .rejected else .shed)

/-- Writes a record to the ring, or falls back to the secondary policy. -/
def State.spill (s : State) (id : Qid) (q : Queue) (a : Record) : State × Queue × Judged :=
  match s.ringWrite id q a with
  | (s, q, true) => (s, q, .kept)
  | (s, q, false) => s.fallback id q q.desc.sec a

/-- Stores a control token (10 R210). -/
def State.storeControl (s : State) (id : Qid) (q : Queue) (a : Record) : State × Queue × Judged :=
  let add := fun (s : State) (q : Queue) (p : Place) =>
    (s, { q with items := q.items ++ [⟨a, 0, p, false, false, q.nextSerial, false⟩], nextSerial := q.nextSerial + 1 }, Judged.kept)
  let raise := fun (i : Nat) => { q with items := q.items.mapIdx fun j h =>
    if j = i then { h with r := { h.r with time := max h.r.time a.time, exc := h.r.exc || a.exc, sr := unionDep h.r.sr a.sr } }
    else h }
  let lastWclose := match q.items.getLast? with
    | some h => h.r.kind == kWCLOSE
    | none => false
  let newest := fun (p : Held → Bool) => (findIdx? p q.items.reverse).map fun k => q.items.length - 1 - k
  if a.kind == kWCLOSE && lastWclose then (s, raise (q.items.length - 1), .kept)
  else if q.reserved < 8 then add s q .reserve
  else
    let upstream := newest fun h => h.r.kind == kGAP && !h.own
    let wclose := newest fun h => h.r.kind == kWCLOSE
    match a.kind, upstream, wclose with
    | 1, some i, _ =>
      (s, { q with items := q.items.mapIdx fun j h =>
        if j = i then { h with r := ((Gap.ofRecord h.r).join (Gap.ofRecord a)).record } else h }, .kept)
    | 2, _, some i => (s, raise i, .kept)
    | _, _, _ =>
      let (s, q) := s.displace id q (q.items.length + 1)
      if q.free ≥ 8 then add s q .storage else (s.count q.die (some q.vq) 0x48, q, .shed)

/-- Sheds counted by policy code (26 R464). -/
def State.countShed (s : State) (q : Queue) (p : Nat) : State := s.count q.die (some q.vq) (0x20 + p)

/-! ### Descriptors (10 R199, R200) -/

/-- The descriptor of its first three 64-bit words; the fourth holds the counters. -/
def QDesc.ofWords (w0 w1 w2 : Nat) : QDesc :=
  ⟨bitsAt w0 0 12 + 1, bitsAt w0 12 12 + 1, bitsAt w0 24 3, bitsAt w0 27 3, bitsAt w0 32 12, bitsAt w0 44 4, bitsAt w0 48 5,
   bitsAt w0 53 3, w1, bitsAt w2 0 32, bitsAt w2 32 32⟩

/-- Word 0 of a descriptor. -/
def QDesc.word0 (d : QDesc) : Nat :=
  (d.cap - 1) + (d.thr - 1) * 2 ^ 12 + d.pol * 2 ^ 24 + d.sec * 2 ^ 27 + d.k * 2 ^ 32 + d.comb * 2 ^ 44 + d.khash * 2 ^ 48 +
    d.nfmt * 2 ^ 53

/-- Configuration accepts a descriptor (10 R200); `rejectOk` on a call queue or a text request queue. -/
def QDesc.ok (d : QDesc) (rejectOk : Bool) : Bool :=
  let sampled := d.pol == 2 || ((d.pol == 3 || d.pol == 4 || d.pol == 5) && d.sec == 2)
  d.thr ≥ 1 && d.thr ≤ d.cap && d.pol != 7 && (d.pol != 6 || rejectOk) &&
  (!(d.pol == 3 || d.pol == 4 || d.pol == 5) || d.sec ≤ 2) &&
  (!sampled || (2 ≤ d.k && d.k ≤ 2048)) &&
  (d.pol != 3 || (d.comb ≤ 4 && 1 ≤ d.khash && d.khash ≤ 16)) &&
  (d.pol != 4 || d.nfmt ≤ 4) &&
  (d.pol != 5 || (d.spsize != 0 && d.spbase % 64 == 0))

/-- The descriptor of 32 bytes, with its counters (10 R199). -/
def Queue.descBytes (q : Queue) : List Byte :=
  natBytes 8 q.desc.word0 ++ natBytes 8 q.desc.spbase ++ natBytes 4 q.desc.spsize ++ natBytes 4 q.desc.grid ++
    natBytes 4 q.nlost ++ natBytes 4 q.nabs

/-- The status of a descriptor change, of which `reserved` are the reserved bits of word 0, and the queue after it (11 R236, R237).
`respill` says that the change writes the spill fields. -/
def Queue.change (q : Queue) (rejectOk respill : Bool) (d : QDesc) (reserved : Nat) : Queue × Nat :=
  let spill := d.spbase != q.desc.spbase || d.spsize != q.desc.spsize
  let narrowed := q.items.any fun h => h.place == .storage && !h.isControl && h.units < 8
  if d.cap != q.desc.cap then (q, 4)
  else if !(d.ok rejectOk) || reserved != 0 then (q, 1)
  else if (d.nfmt != q.desc.nfmt && narrowed) ||
      (!q.failed && q.ringCount > 0 && ((q.desc.pol == 5 && d.pol != 5) || spill)) then (q, 3)
  else
    let q1 := if d.pol != q.desc.pol || d.sec != q.desc.sec || d.k != q.desc.k then { q with sc := 0, scellFresh := true } else q
    let q2 := if d.khash != q.desc.khash || d.pol != 3 then { q1 with index := [] } else q1
    let q3 :=
      if !respill then q2
      else if q2.failed then
        let m := q2.summary
        let q' := { q2 with
          rd := q2.wr
          failed := false
          summary := .empty
          items := q2.items.filter fun h => match h.place with
            | .ring _ => false
            | _ => true }
        if m.count = 0 then q'
        else (q'.mark q'.items.length ⟨m.count, m.weight, m.kr, q2.desc.pol, 6, m.kmin, m.kmax, m.tmin, m.tmax, q2.qid, m.exc,
          m.sr⟩).1
      else q2
    ({ q3 with desc := d }, 0)

/-- The reserved bits of word 0 of a descriptor. -/
def QDesc.reserved (w0 : Nat) : Nat := bitsAt w0 56 8 + bitsAt w0 30 2

/-- The status of a `qpol` and the queue after it: of the whole descriptor, or of word 0 alone. -/
def Queue.repolicy (q : Queue) (rejectOk : Bool) (w0only : Bool) (b : Vec) : Queue × Nat :=
  let w := fun (k : Nat) => bitsAt b.toNat (64 * k) 64
  let n := QDesc.ofWords (w 0) (w 1) (w 2)
  q.change rejectOk (!w0only) (if w0only then { n with spbase := q.desc.spbase, spsize := q.desc.spsize, grid := q.desc.grid } else n)
    (QDesc.reserved (w 0))

/-! ### Descriptor records of a CFG wave (21 R379, R380) -/

/-- A write of a CFG record: the section it names, where it starts and the data. -/
structure CfgWrite where
  type : Nat
  unit : Nat
  index : Nat
  row : Nat
  col : Nat
  off : Nat
  data : List Byte
  deriving DecidableEq, Repr

/-- What the payload of a CFG record writes. -/
def CfgWrite.of (p : Vec) : CfgWrite :=
  let a := lane32 p 0
  let b := lane32 p 1
  ⟨bitsAt a 24 8, bitsAt a 16 4, bitsAt a 20 4, bitsAt a 8 8, bitsAt a 0 8, bitsAt b 0 24,
   (natBytes 64 p.toNat).drop 8 |>.take (bitsAt b 24 8)⟩

/-- The write put into a body, which it may lengthen. -/
def CfgWrite.splice (w : CfgWrite) (body : List Byte) : List Byte :=
  let head := body.take w.off
  head ++ List.replicate (w.off - head.length) 0 ++ w.data ++ body.drop (w.off + w.data.length)

/-- The queue that a write of type 3 names: by its unit, and its port or queue number. -/
def CfgWrite.names (w : CfgWrite) : Qid → Bool
  | .mu _ y x mu i => w.type == 3 && y == w.row && x == w.col && mu == w.unit && i == w.index
  | .port _ y x cu _ p => w.type == 3 && y == w.row && x == w.col && cu == w.unit && p == w.index
  | .node _ y x u i => w.type == 3 && y == w.row && x == w.col && u == w.unit && i == w.index
  | .call _ _ | .text _ => false

/-- A queue takes a descriptor write; `none` where its descriptor is refused (10 R200). Only the shear writes the counters (R199). A write of
the spill fields acts on the ring as a `qpol` does (DESIGN CHOICE, log 62). -/
def Queue.reconfigure (q : Queue) (w : CfgWrite) : Option Queue :=
  let bs := w.splice q.descBytes
  let respill := w.off < 20 && w.off + w.data.length > 8
  let (q', st) := q.change false respill (QDesc.ofWords (fieldAt bs 0 8) (fieldAt bs 8 8) (fieldAt bs 16 8))
    (QDesc.reserved (fieldAt bs 0 8))
  if st = 0 then some q' else none

/-- The group that a write of a BANKS section names, and whether it lies within the group's own body (21 R379). -/
def Region.cfgGroup (r : Region) (w : CfgWrite) : Option (Nat × Nat × Nat × BankGroup) :=
  (r.banks.find? fun e => e.1 == w.row && e.2.1 == w.col && e.2.2.1 == w.unit && e.2.2.2.first == w.index).filter fun e =>
    w.off + w.data.length ≤ 64 + e.2.2.2.count * 2 ^ 14

/-- A write of a BANKS section: the group's mode, first bank and count where it covers them, and what the group's node or its banks hold (21
R373). A write that names no group, passes its end or makes no group is bad. -/
def State.putBankData (s : State) (rid : Nat) (r : Region) (w : CfgWrite) : State :=
  let (die, vq) := r.quad w.row w.col
  match r.cfgGroup w with
  | none => s.count die (some vq) 0x47
  | some (row, col, mu, b) =>
    let n : Nid := ⟨rid, row, col, mu, b.first⟩
    let head := (w.splice (natBytes 1 b.mode.code ++ natBytes 1 b.first ++ natBytes 1 b.count)).take 3
    match bankModes[fieldAt head 0 1]? with
    | none => s.count die (some vq) 0x47
    | some m =>
      let b' : BankGroup := ⟨fieldAt head 1 1, fieldAt head 2 1, m⟩
      if b'.count = 0 ∨ b'.first + b'.count > 8 then s.count die (some vq) 0x47
      else
        let s := match (s.groupData n b).bind fun bs => s.putGroupData n (w.splice bs) with
          | some s => s
          | none => s.updMs fun m => { m with
            scratch := Mem.writeBytes m.scratch ((muNumber die vq mu * 8 + b.first) * 2 ^ 14 + (w.off - 64)) (w.data.drop (64 - w.off)) }
        let here := fun (e : Nat × Nat × Nat × BankGroup) => e.1 == row && e.2.1 == col && e.2.2.1 == mu && e.2.2.2.first == b.first
        s.updRegion rid fun r => { r with banks := r.banks.map fun e => if here e then (row, col, mu, b') else e }

/-- A node that is no actor applies the CFG records of bank groups in its quad (21 R380). -/
def State.nodeBanks (s : State) (n : Nid) (rs : List Record) : State :=
  rs.foldl (fun s r =>
    let w := CfgWrite.of r.payload
    match Tab.get? s.sched.regions n.rid with
    | some g => if w.type = 4 && w.row == n.row && w.col == n.col then s.putBankData n.rid g w else s
    | none => s) s

/-- The records that a node that is no actor forwards. -/
def Nid.forwards (n : Nid) (rs : List Record) : List Record := rs.filter fun r =>
  let w := CfgWrite.of r.payload
  !(w.type == 4 && w.row == n.row && w.col == n.col)

/-- A CFG record enters a queue, which applies a write addressed to it. The record keeps its place and takes no storage. -/
def State.passCfg (s : State) (id : Qid) (q : Queue) (a : Record) : State × Queue :=
  let w := CfgWrite.of a.payload
  let (s, q) := if !w.names id then (s, q)
    else match q.reconfigure w with
      | some q' => (s, q')
      | none => (s.count q.die (some q.vq) 0x47, q)
  (s, { q with items := q.items ++ [⟨a, 0, .reserve, false, false, q.nextSerial, false⟩], nextSerial := q.nextSerial + 1 })

/-- The cell of SAMPLE takes that of the next arrival after a change of the policy (11 R237). -/
def Queue.freshCell (q : Queue) (a : Record) : Queue :=
  if q.scellFresh then { q with scell := q.desc.cell a.time, scellFresh := false } else q

/-- The shear judges a DATA arrival (10 R202). -/
def State.judge (s : State) (id : Qid) (q : Queue) (a : Record) : State × Queue × Judged :=
  if q.desc.pol = 5 ∧ q.ringCount > 0 then s.spill id q a
  else if q.occ < 8 * q.desc.thr ∧ q.free ≥ 8 then (s, q.store a 8 false, .kept)
  else
    let s := s.countShed q q.desc.pol
    match q.desc.pol with
    | 3 =>
      match q.match? a with
      | some i =>
        (s, { q with
          items := q.items.mapIdx fun j h => if j = i then combine q.desc.comb h a else h
          nabs := min (q.nabs + 1) 0xFFFFFFFF }, .kept)
      | none => s.fallback id q q.desc.sec a
    | 4 =>
      let u := narrowUnits q.desc.nfmt
      if q.free ≥ u then (s, q.store (narrow q.desc.nfmt a) u false, .kept) else s.fallback id q q.desc.sec a
    | 5 => s.spill id q a
    | p => s.fallback id q p a

/-- The shear takes one arrival (10 R202). -/
def State.shear (s : State) (id : Qid) (q : Queue) (a : Record) : State × Queue × Judged :=
  if isControlKind a.kind then s.storeControl id q a
  else if a.kind = kCFG then
    let (s, q) := s.passCfg id q a
    (s, q, .kept)
  else s.judge id (q.freshCell a) a

/-- A record reaches a queue. -/
def State.arriveAt (s : State) (id : Qid) (a : Record) : State × Judged :=
  match s.queue? id with
  | none => (s, .shed)
  | some q =>
    let (s, q, j) := s.shear id q a
    (s.setQueue id q, j)

/-- A record enters a queue past its shear, which never sheds it: trap records and management notices (22 R400), while the queue has
room. -/
def Queue.bypass (q : Queue) (a : Record) : Queue :=
  { q with items := q.items ++ [⟨a, 8, .storage, false, false, q.nextSerial, true⟩], nextSerial := q.nextSerial + 1 }

/-- Removes the first `n` held things for which a test holds, and refills from the ring. -/
def Queue.removeFirst (q : Queue) (p : Held → Bool) : Nat → Queue
  | 0 => q
  | n + 1 =>
    match findIdx? p q.items with
    | none => q
    | some i => ({ q with items := q.items.eraseIdx i } : Queue).removeFirst p n

/-! ### Neighbour links (09 R191, R192) -/

/-- Both slots of a link are taken. A CFG record takes none (log 33). -/
def Link.isFull (l : Link) : Bool := (l.slots.filter fun h => h.r.kind != kCFG).length ≥ 2

/-- A loss of a link enters its gap register, with cause LINK and `pol` 7. -/
def Link.lose (l : Link) (r : Record) : Link :=
  let g := Gap.one r 7 9 l.qid
  { l with
    gap := some (match l.gap with
      | some h => ((Gap.ofRecord h).join g).record
      | none => g.record)
    tokenFirst := if l.gap.isNone then l.token.isSome else l.tokenFirst }

/-- `drop_old`: the oldest record is lost and the arriving one takes a place behind the other; a control token that waits enters the
freed slot first, and one more record is then lost. A control token is never lost. -/
def Link.dropOld (l : Link) (held : Held) : Nat → Link
  | 0 => l.lose held.r
  | fuel + 1 =>
    match findIdx? (fun h : Held => !h.isControl && h.r.kind != kCFG) l.slots with
    | none => l.lose held.r
    | some i =>
      let l := match l.slots[i]? with
        | some h => { l.lose h.r with slots := l.slots.eraseIdx i }
        | none => l
      match l.token with
      | some t => ({ l with
          slots := l.slots ++ [⟨t, 8, .storage, false, false, l.nextSerial, false⟩], token := none, nextSerial := l.nextSerial + 1 } :
          Link).dropOld held fuel
      | none => { l with slots := l.slots ++ [held] }

/-- A record enters a link behind what it holds: into a free slot, or by its policy. A control token waits in the token register; a second one
that finds it occupied is lost. -/
def Link.push (l : Link) (a : Record) : Link :=
  let held : Held := ⟨a, 8, .storage, false, false, l.nextSerial, false⟩
  let l := { l with nextSerial := l.nextSerial + 1 }
  if !l.isFull ∨ a.kind = kCFG then { l with slots := l.slots ++ [held] }
  else if isControlKind a.kind then
    if l.token.isNone then { l with token := some a, tokenFirst := l.gap.isNone } else l.lose a
  else
    match l.policy with
    | 1 => l.dropOld held 2
    | 2 =>
      match findIdx? (fun h : Held => h.r.kind == kDATA && h.r.kv && a.kv && h.r.key == a.key) l.slots with
      | some i => { l with slots := l.slots.mapIdx fun j h => if j = i then combine 0 h a else h }
      | none => l.lose a
    | _ => l.lose a

/-- At a firing end that frees slots, the registers enter them: under `drop_old` the gap goes ahead of both slots' records;
otherwise registers enter the free slots in the order in which they were filled. -/
def Link.settle (l : Link) : Nat → Link
  | 0 => l
  | fuel + 1 =>
    if l.isFull then l
    else
      let hold : Record → Held := fun r => ⟨r, 8, .storage, false, false, l.nextSerial, false⟩
      let l := { l with nextSerial := l.nextSerial + 1 }
      match l.gap, l.token with
      | none, none => l
      | some g, tok =>
        if l.policy = 1 then ({ l with slots := hold g :: l.slots, gap := none } : Link).settle fuel
        else if tok.isSome && l.tokenFirst then
          match tok with
          | some t => ({ l with slots := l.slots ++ [hold t], token := none } : Link).settle fuel
          | none => l
        else ({ l with slots := l.slots ++ [hold g], gap := none } : Link).settle fuel
      | none, some t => ({ l with slots := l.slots ++ [hold t], token := none } : Link).settle fuel

/-- A record reaches a link. What waits in its registers enters a free slot ahead of it, so that no record takes the slot of a gap (09 R191,
R192). -/
def Link.arrive (l : Link) (a : Record) : Link := (l.settle 4).push a

/-- What a link delivers; under `merge` as a SUM queue does (10 R206). -/
def Link.deliver (l : Link) (h : Held) : Record :=
  let r := if l.policy = 2 ∧ !h.isControl ∧ !h.merged ∧ h.r.kind != kNULL ∧ h.r.kind != kRAND then weighted h.r else h.r
  r.asDelivered

end Sys2Proof.Machine
end

