-- ==== Sys2Proof/Machine/Issue.lean ====
section
/-! DEFINITION. Issuing an instruction of a block: gathering its operands, declining, delivering results to slots at once
and recording the rest for commit, and the starvation of instructions whose slots cannot be fed (spec 01 R13 to R15; 05
R86 to R92; 06 R108; 08 R154). -/
namespace Sys2Proof.Machine

/-- The instruction that issues: its agent, its block, its index and its fields. -/
structure Issue where
  aid : Aid
  g : Agent
  b : Block
  idx : Nat
  ins : Ins
  deriving DecidableEq, Repr

/-- How instruction `i` of a block stands. -/
def Block.statOf (b : Block) (i : Nat) : IStat := Tab.getD b.stat i .waiting

def Block.setStat (b : Block) (i : Nat) (x : IStat) : Block := { b with stat := Tab.set b.stat i x }

/-- The lane mode of a block's header. -/
def Block.lanes (b : Block) : Lanes := (Lanes.ofCode (b.hdr.extractLsb' 4 2).toNat).getD .l32

/-- A thread may issue: its die is in service (26 R463), its `CQCTL.EN` is set, its run's context is live, and it is not in a wait of `twait` or
`swait` (20 R365; 08 R171, 23 R409). -/
def State.threadReady (s : State) (a : Aid) (g : Agent) : Bool :=
  match a with
  | .thread d t => s.dieServes d && (s.threadCtl d t).en && (s.context g.ctx).live && g.deadline.isEmpty
  | .actor .. => true

/-- The instruction that the issue logic has chosen, if its agent has a block in progress and the instruction has not
issued yet. -/
def State.issuing (s : State) (ins : Ins) : Option Issue :=
  match s.cur with
  | none => none
  | some a =>
    match s.agent? a with
    | none => none
    | some g =>
      match g.block, g.phase with
      | some b, .running =>
        if s.agentAlive a && s.threadReady a g && b.statOf g.idx == .waiting then some ⟨a, g, b, g.idx, ins⟩ else none
      | _, _ => none

/-- The fields of instruction `i` of a block. -/
def Block.insAt (b : Block) (i : Nat) : Option Ins := (b.code[i]?).bind Ins.ofWords

/-- The first word of an instruction, which a trap record carries (22 R399 `detail`). -/
def Block.word0 (b : Block) (i : Nat) : Nat := match b.code[i]? with
  | some (w :: _) => w.toNat
  | _ => 0

/-- An instruction of a block, as a trap record names it (22 R399). -/
def Block.origin (b : Block) (i : Nat) : Origin := ⟨hdrId b.hdr, i, b.addr⟩

/-- The instructions of a block that name a slot as a target. -/
def Block.producers (b : Block) (idx slot : Nat) : List Nat :=
  (List.range b.code.length).filter fun j => match b.insAt j with
    | some i => i.targets.contains (.slot slot idx)
    | none => false

/-- An instruction of a block that may still send something to a slot. -/
def Block.unsettled (b : Block) (idx slot : Nat) : Bool :=
  (b.producers idx slot).any fun j => b.statOf j == .waiting || b.statOf j == .issued

/-- The sticky value that the firings ahead in the pipe leave in a slot, the nearest first: `some none` while one of them may still send
there (01 R15, 09 R180). -/
def aheadValue (idx slot : Nat) : Nat → List (Firing × Block) → Option (Option Val)
  | _, [] => none
  | d, (_, b) :: rest =>
    if b.unsettled idx slot then some none
    else match b.sticky.find? fun x => x.1 == idx && x.2.1 == slot with
      | some x => if x.2.2.1 = 15 ∨ d ≤ x.2.2.1 then some (some x.2.2.2) else some none
      | none => aheadValue idx slot (d + 1) rest

/-- The value in a slot: one that arrived in this entry, or a sticky one of an earlier firing (01 R15). -/
def slotValue (g : Agent) (b : Block) (idx slot : Nat) : Option Val :=
  match Tab.get? b.slots (idx, slot) with
  | some v => some v
  | none => match aheadValue idx slot 1 g.older.reverse with
    | some v => v
    | none => (g.resident.find? fun r => r.block == b.addr && r.idx == idx && r.slot == slot && (match r.left with
      | some n => decide (g.older.length < n)
      | none => true)).map (·.val)

/-- Every instruction of a block that targets a register has fired, declined or starved. -/
def Block.settledLine (b : Block) (code : Nat) : Bool :=
  (List.range b.code.length).all fun i => match b.insAt i with
    | some ins => !ins.targets.contains (.reg code) || (b.statOf i != .waiting && b.statOf i != .issued)
    | none => true

/-- What a place of the pipe reads from a delay line has been produced (09 R184). -/
def Agent.lineReady (g : Agent) (code : Nat) : Nat → Nat → Bool
  | 0, _ => true
  | fuel + 1, k => match Tab.get? g.delay code with
    | none => true
    | some stages =>
      k < stages.length || stages.length == 0 || (match g.older[k - stages.length]? with
        | some (_, b) => b.settledLine code && g.lineReady code fuel (k - stages.length)
        | none => true)

/-- A register source, when no write to it is pending (01 R13). -/
def readSource (g : Agent) (src : Nat) : Option Val :=
  let c := Ins.srcCode src
  if g.isPending c || !g.lineReady c (g.older.length + 1) g.older.length then none else some ((g.source c).getD .zero)

/-- The operands of an instruction as it issues. -/
structure Operands where
  a : Val
  b : Val
  c : Val
  mask : Dword
  dep : List Nat
  /-- An inbound entry that the instruction reads carries `exc`. -/
  exc : Bool
  deriving DecidableEq, Repr

/-- What gathering finds: an operand is still missing, the predicate declines, or the operands. -/
inductive Gathered where
  | notReady
  | decline
  | ready (o : Operands)
  deriving DecidableEq, Repr

/-- An instruction whose `srcA` names an inbound port whose head it does not read as operand A (11 R224). -/
def Ins.namesEntry (i : Ins) : Bool :=
  (0x82 ≤ i.op && i.op ≤ 0x85) || i.op == 0x87 || (i.op == 0x80 && i.form != .f0 && isInPort (Ins.srcCode i.srcA))

/-- A source that is used and names an inbound port whose head entry carries `exc` (04 R76). -/
def headExc (g : Agent) (uses : Bool) (src : Nat) : Bool :=
  uses && Ins.validSrc src && isInPort (Ins.srcCode src) && (match g.firing with
    | some f => (f.entry (Ins.srcCode src - 72) 0).exc
    | none => false)

/-- Gathers the operands (05 R82, R88, R91, R92; 13 R260). -/
def Issue.gather (i : Issue) : Gathered :=
  let ins := i.ins
  let slotC := slotValue i.g i.b i.idx 2
  let declines : Option Bool :=
    if ins.predicated then slotC.map fun v => (v.bits.getLsbD 0) != (ins.pm == 1) else some false
  match declines with
  | none => .notReady
  | some true => .decline
  | some false =>
    let operand := fun (uses : Bool) (src slot : Nat) =>
      if !uses then some Val.zero
      else if Ins.validSrc src then readSource i.g src
      else slotValue i.g i.b i.idx slot
    let a := if ins.litIsA then some ⟨scal ((ins.lit.getD 0).toNat), []⟩ else operand ins.usesA ins.srcA 0
    let b := if ins.litIsB then some ⟨placeLiteral ins.ty ins.width (ins.lit.getD 0), []⟩
      else operand ins.usesB ins.srcB 1
    let c := match ins.cUse with
      | .data => slotC
      | .order => if (i.b.producers i.idx 2).isEmpty then some Val.zero else slotC
      | .pred => if ins.predicated then slotC else some Val.zero
    let maskCode := 48 + ins.pmask
    let mask := if i.g.isPending maskCode then none else some (i.g.reg maskCode)
    match a, b, c, mask with
    | some a, some b, some c, some m =>
      .ready ⟨a, b, c, lowScal m.bits, unionDep (unionDep a.dep b.dep) (unionDep c.dep m.dep),
        headExc i.g (ins.usesA && !ins.namesEntry) ins.srcA || headExc i.g ins.usesB ins.srcB⟩
    | _, _, _, _ => .notReady

/-- The operand record of the value functions. -/
def Issue.opnds (i : Issue) (o : Operands) : Opnds :=
  ⟨i.ins.ty, i.ins.width, i.b.lanes, i.ins.rm, o.a.bits, o.b.bits, o.c.bits, o.mask, i.ins.immediate, i.ins.srcB, i.ins.stkB⟩

/-! ### Event times of puts (09 R189) -/

/-- The event time that an outbound port's declaration gives. -/
def Agent.putTime (g : Agent) (port : Nat) : Nat :=
  match g.firing, g.outPort? port with
  | some f, some p =>
    let entries := f.delivered.flatMap fun d => d.entries.filter fun r => r.kind != kNULL
    match p.time with
    | .inPort =>
      let heads := (List.range 8).filterMap fun n =>
        (f.delivered.find? fun d => d.port == n).bind fun d => d.entries.head?.filter fun r =>
          r.kind != kNULL && (!f.control || isControlKind r.kind)
      match heads with
      | r :: _ => r.time
      | [] => 0
    | .max => entries.foldl (fun m r => max m r.time) 0
    | .tick sh => bitsAt f.startTick sh 32
    | .fidx => g.firingIndex % 2 ^ 32
  | _, _ => 0

/-! ### Delivering -/

/-- Records an effect for the block's commit. -/
def Block.effect (b : Block) (idx : Nat) (e : Effect) : Block := { b with effects := b.effects ++ [(idx, e)] }

/-- Changes the block in progress of an agent. -/
def State.updBlock (s : State) (a : Aid) (f : Block → Block) : State :=
  s.updAgent a fun g => { g with block := g.block.map f }

/-- Sends a value to one target: a slot at once, a register or a port at commit. A second arrival at a slot that is not
sticky raises ILLEGAL_TARGET naming the consumer (05 R89). -/
def State.sendTo (s : State) (a : Aid) (idx : Nat) (t : Target) (v : Val) (keep : Vec) : State :=
  match s.agent? a with
  | none => s
  | some g =>
    match g.block with
    | none => s
    | some b =>
      match t with
      | .slot slot j =>
        let sticky := match b.insAt j with
          | some ins => ins.stkOf slot
          | none => 0
        if sticky = 0 && (Tab.get? b.slots (j, slot)).isSome then
          s.takeTrap a cTARGET j b.addr 0 (b.word0 j)
        else
          s.updBlock a fun b => { b with
            slots := Tab.set b.slots (j, slot) v
            sticky := if sticky = 0 then b.sticky
              else (b.sticky.filter fun x => !(x.1 == j && x.2.1 == slot)) ++ [(j, slot, sticky, v)] }
      | .reg code =>
        if code = 127 ∨ code = 0 ∨ code = 48 then s
        else if isOutPort code then
          s.updBlock a fun b => b.effect idx (.put (code - 48) (Record.data v.bits (g.putTime (code - 48)) false []))
        else s.updBlock a fun b => b.effect idx (.reg ⟨code, v, keep⟩)

/-- Sends the two results of an instruction to its targets and marks it fired. -/
def State.deliver (s : State) (i : Issue) (v0 v1 : Val) (keep : Vec) : State :=
  let s := s.updBlock i.aid fun b => b.setStat i.idx .fired
  let s := s.sendTo i.aid i.idx (Target.of i.ins.t0) v0 keep
  match s.agent? i.aid with
  | some g => if g.block.isSome then s.sendTo i.aid i.idx (Target.of i.ins.t1) v1 keep else s
  | none => s

/-- The instruction declines (01 R14). -/
def State.decline (s : State) (i : Issue) : State := s.updBlock i.aid fun b => b.setStat i.idx .declined

/-- The instruction issues: it is counted, an inbound `exc` it reads is noted, and its flags are kept for commit. -/
def State.note (s : State) (i : Issue) (exc : Bool) (flags : FlagSet) : State :=
  (s.countAt i.g 0x12).updBlock i.aid fun b => { b with flags := b.flags ||| flags, readExc := b.readExc || exc }

/-- An instruction issues with its operands, or declines, or waits. -/
def State.issue (s : State) (ins : Ins) (body : Issue → Operands → State → State) : State :=
  match s.issuing ins with
  | none => s
  | some i =>
    match i.gather with
    | .notReady => s
    | .decline => s.decline i
    | .ready o => body i o (s.note i o.exc fNone)

/-- An instruction that issues only when a further condition holds. -/
def State.issueWhen (s : State) (ins : Ins) (when_ : Issue → Bool) (body : Issue → Operands → State → State) : State :=
  match s.issuing ins with
  | none => s
  | some i =>
    match i.gather with
    | .notReady => s
    | .decline => s.decline i
    | .ready o => if when_ i then body i o (s.note i o.exc fNone) else s

/-- Raises flags for commit. -/
def State.raiseFlags (s : State) (i : Issue) (flags : FlagSet) : State :=
  s.updBlock i.aid fun b => { b with flags := b.flags ||| flags }

/-- What a value instruction does once it has its operands: its flags are raised and its results go to its targets (05
R87, R92). -/
def valueBody (f : Opnds → Res) (i : Issue) (o : Operands) (s : State) : State :=
  let r := f (i.opnds o)
  (s.raiseFlags i r.flags).deliver i ⟨r.out, o.dep⟩ ⟨r.out1, o.dep⟩ r.keep

/-- A value instruction. -/
def execVal (ins : Ins) (f : Opnds → Res) (s : State) : Host.Outcome State Fault Refusal :=
  .next (s.issue ins (valueBody f))

end Sys2Proof.Machine
end

