-- ==== Sys2Proof/Machine/Check.lean ====
section
/-! DEFINITION. The decode checks of a block in the order of 05 R99: its header, each instruction, and the fed slots; and the
placement of a pipe block (05 R77 to R95; 08 R159, R160; 09 R182, R187; 11 R224, R225; 13 R258 to R261; 14 R279, R280, R286,
R295; 16 R317, R319; 23 R403, R404, R406, R408). -/
namespace Sys2Proof.Machine

/-- What the checks of a block depend on beside its words: its node's mode and level, whether it is a thread, whether it owns
its quad's matrix element, its inbound and outbound ports and the codes of its delay lines (05 R100). -/
structure Node where
  mode : Mode
  level : Level
  isThread : Bool
  ownsMe : Bool
  ins : List InPort
  outs : List Nat
  delays : List Nat
  deriving DecidableEq, Repr

/-- The node that an agent is. -/
def State.nodeOf (s : State) (a : Aid) (g : Agent) : Node :=
  ⟨g.mode, g.level, a.isThread, s.fab.mes.any fun e => e.2.owner == a, g.ins, g.outs.map (·.n), Tab.keys g.delay⟩

/-- Cuts the words of a block into instructions; `none` where the last one runs past the last word (05 R94). -/
def splitWords : Nat → List Word → Option (List (List Word))
  | 0, _ => none
  | _, [] => some []
  | fuel + 1, w :: ws =>
    let n := wordLen w
    if (w :: ws).length < n then none
    else (splitWords fuel ((w :: ws).drop n)).map fun r => (w :: ws).take n :: r

/-- A word with `11` where an instruction should begin (05 R77). -/
def misplaced (ws : List Word) : Bool := match ws with
  | w :: _ => (field w 0 2).toNat == 3
  | [] => true

/-- The mode that a header names. -/
def hdrMode (h : BitVec 128) : Option Mode :=
  match (h.extractLsb' 2 2).toNat with
  | 0 => some .pipe
  | 1 => some .win
  | 2 => some .seq
  | _ => none

/-- A field of a header. -/
def hdrField (h : BitVec 128) (lo n : Nat) : Nat := (h.extractLsb' lo n).toNat

/-- The count of instructions that satisfy a test, where each misplaced word may stand for one (05 R77). -/
def countsOk (declared : Nat) (p : Ins → Bool) (code : List (List Word)) : Bool :=
  let n := (code.filterMap Ins.ofWords).countP p
  let odd := code.countP misplaced
  n ≤ declared && declared ≤ n + odd

/-- The header checks of 05 R78 and R94. -/
def headerOk (n : Node) (h : BitVec 128) (code : Option (List (List Word))) : Bool :=
  match code with
  | none => false
  | some c =>
    hdrField h 0 2 == 3 && hdrMode h == some n.mode && hdrField h 4 2 != 3 && hdrField h 56 72 == 0 &&
    c.length == hdrField h 6 7 + 1 && hdrField h 44 3 != 0 &&
    countsOk (hdrField h 44 3) (fun i => isExit i.op) c && countsOk (hdrField h 37 7) Ins.commitSide c &&
    (List.range 8).all (fun j => !(hdrField h 29 8).testBit j || n.ins.any fun p => p.n == j) &&
    (List.range 8).all (fun j => !(hdrField h 21 8).testBit j || n.outs.contains (8 + j))

/-! ### One instruction -/

/-- The codes an immediate or literal must hold (05 R96; 08 R169; 13 R266, R267; 14 R295; 23 R406). -/
def Ins.immOk (i : Ins) : Bool :=
  let x := i.imm.toNat
  let l := (i.lit.getD 0).toNat
  match i.op with
  | 0x79 => x ≤ 12
  | 0x99 => x == 3 || x == 5
  | 0x9A => x != 0 && x < 16
  | 0xB8 | 0xB9 | 0xBA => bitsAt l 12 3 ≤ 4 && bitsAt l 15 1 == 0
  | 0xD0 => l < 256
  | _ => true

/-- Where an op may stand (08 R159; 14 R280, R286; 16 R319; 23 R404, R408). -/
def Ins.placeOk (i : Ins) (n : Node) : Bool :=
  (!(i.op == 0x72 || i.op == 0x73) || n.mode == .seq) &&
  (!(i.op == 0xD2 || i.op == 0xD5 || i.op == 0xDF) || n.mode != .win) &&
  (!(0xB3 ≤ i.op && i.op ≤ 0xB7) || (!n.isThread && n.ownsMe)) &&
  (!n.isThread || !([0xB1, 0xB2, 0xBB, 0xCA, 0xCB, 0xCC].contains i.op)) &&
  (!(n.isThread && 0xB8 ≤ i.op && i.op ≤ 0xBA) || bitsAt (i.lit.getD 0).toNat 12 3 ≥ 2) &&
  (!(i.op == 0xD1 && i.rm == 1) || n.isThread)

/-- Length and opcode, `pm` and `rm` (05 R84, R91, R98, R99). -/
def Ins.opcodeOk (i : Ins) (n : Node) : Bool :=
  (match opClass i.op with
   | some c => c.accepts i.form
   | none => false) &&
  i.pm != 3 && (i.cUse != .data || i.pm == 0) &&
  (!(i.form == .f1 || i.form == .f2) || (i.rmOk && i.groupOk && (i.pmask == 0 || pmaskAllowed i.op))) && i.immOk && i.placeOk n

/-- A code of an `s` register or null. -/
def Target.isScalar : Target → Bool
  | .reg c => c < 32 || c == 127
  | .slot _ _ => false

/-- The targets an op may have, by its entry (08 R160 to R172; 11 R225, R236; 13 R261, R265; 14 R279, R282; 16 R317; 23 R404). -/
def Ins.targetRule (i : Ins) (code : List (List Word)) : Bool :=
  let t0 := Target.of i.t0
  let t1 := Target.of i.t1
  let outOrNull := fun (t : Target) => match t with
    | .reg c => isOutPort c || c == 127
    | .slot _ _ => false
  if [0x70, 0x71, 0x73, 0x74, 0x76, 0x77, 0x7D, 0x98].contains i.op then t0 == .null && t1 == .null
  else if i.op = 0x75 then t1 == .null
  else if i.op = 0x72 ∨ i.op = 0x89 then t0.isScalar && t1 == .null
  else if [0x7C, 0x80, 0x81, 0x86, 0x8A, 0x8B, 0x8C].contains i.op then outOrNull t0 && outOrNull t1
  else if i.op = 0xB1 then
    t0.isScalar && (match t1 with
      | .slot 2 j => match (code[j]?).bind Ins.ofWords with
        | some m => (m.op == 0xB3 || m.op == 0xB4) && m.pm == 0
        | none => false
      | _ => false)
  else if i.op = 0xB5 then
    (match t0 with
     | .reg c => (32 ≤ c && c < 48) || c == 127
     | .slot _ _ => false) && t1 == .null
  else if i.op = 0xC7 then
    (match t0 with
     | .reg c => 1 ≤ c && c ≤ 30
     | .slot _ _ => false) && t1 == .null
  else if i.op = 0x97 ∨ (0x9B ≤ i.op ∧ i.op ≤ 0xAD) ∨ 0xB0 ≤ i.op then t0.isScalar && t1 == .null
  else true

/-- One target (05 R86, R87; 09 R187). DESIGN CHOICE (log 55): a target that names a word which is no instruction, or one with a reserved
op, is the producer's ILLEGAL_TARGET. -/
def targetOk (n : Node) (h : BitVec 128) (code : List (List Word)) (self : Nat) (t : Target) : Bool :=
  match t with
  | .reg c =>
    c == 127 ||
    (!reservedTarget c &&
     (!isOutPort c || (hdrField h 21 8).testBit (c - 56)) &&
     (!(64 ≤ c && c < 72) || n.delays.contains c) &&
     (n.mode != .pipe || c == 0 || isOutPort c || 64 ≤ c))
  | .slot s j =>
    j < code.length && j != self && (match (code[j]?).bind Ins.ofWords with
      | some k => (opClass k.op).isSome && match s with
        | 0 => k.usesA && !Ins.validSrc k.srcA
        | 1 => k.usesB && !Ins.validSrc k.srcB
        | _ => match k.cUse with
          | .pred => k.predicated
          | _ => true
      | none => false)

/-- One source field (05 R86, R88, R90; 09 R187). -/
def sourceOk (n : Node) (h : BitVec 128) (src stk : Nat) : Bool :=
  if Ins.validSrc src then
    let c := Ins.srcCode src
    !reservedSource c && stk == 0 &&
    (!isInPort c || (hdrField h 29 8).testBit (c - 72)) && (!(64 ≤ c && c < 72) || n.delays.contains c)
  else src == 0

/-- A source names an inbound port. -/
def namesPort (src : Nat) : Bool := Ins.validSrc src && isInPort (Ins.srcCode src)

/-- The source fields of F1 and F2 (05 R82, R85, R88, R90; 07 R150; 08 R160; 11 R224, R225, R228; 14 R279; 16 R317; 23 R404). -/
def Ins.sourcesOk (i : Ins) (n : Node) (h : BitVec 128) : Bool :=
  if i.form = .f0 ∨ i.form = .fi then true
  else
    let typed := i.op == 0x2C || i.op == 0x2D || i.op == 0x67
    let indexed := (0x82 ≤ i.op && i.op ≤ 0x85) || (i.op == 0x80 && i.rm == 0 && namesPort i.srcA)
    let count := ((n.ins.find? fun p => p.n + 72 == Ins.srcCode i.srcA).map (·.count)).getD 0
    let fixedRange := (0x70 ≤ i.op && i.op ≤ 0x7F)
    let engineRange := 0xB0 ≤ i.op && i.op ≤ 0xCC
    sourceOk n h i.srcA i.stkA &&
    (if typed then i.srcB / 32 == 0 else sourceOk n h i.srcB (if i.stkBIsIndex then 0 else i.stkB)) &&
    (!i.litIsB || (i.srcB == 0 && i.stkB == 0)) && (!i.litIsA || i.srcA == 0) &&
    (i.op != 0x68 || namesPort i.srcB) &&
    (!((0x82 ≤ i.op && i.op ≤ 0x85) || i.op == 0x87) || namesPort i.srcA) &&
    (!indexed || i.stkB < count) &&
    (!(i.op == 0x80 && i.rm == 0) || i.srcB == 0) &&
    (!fixedRange || ((i.usesA || (i.srcA == 0 && i.stkA == 0)) && (i.usesB || (i.srcB == 0 && i.stkB == 0)))) &&
    (!engineRange || ((i.usesA || !Ins.validSrc i.srcA) && (i.usesB || !Ins.validSrc i.srcB)))

/-- The checks of one instruction in the order of 05 R99: its first failing cause. -/
def insFault (n : Node) (h : BitVec 128) (code : List (List Word)) (idx : Nat) (ws : List Word) : Option Nat :=
  match if misplaced ws then none else Ins.ofWords ws with
  | none => some cHEADER
  | some i =>
    let lanes := (Lanes.ofCode (hdrField h 4 2)).getD .l32
    let t0 := Target.of i.t0
    let t1 := Target.of i.t1
    if !i.opcodeOk n then some cOPCODE
    else if (opLevel i.op).rank > n.level.rank then some cPRIVILEGED
    else if !i.typeOk lanes then some cTYPE
    else if !(i.targetRule code && targetOk n h code idx t0 && targetOk n h code idx t1 && (t0 == .null || t0 != t1) &&
        i.sourcesOk n h) then some cTARGET
    else none

/-- The first failing instruction from an index on, with its cause. -/
def firstFault (n : Node) (h : BitVec 128) (code : List (List Word)) : Nat → List (List Word) → Option (Nat × Nat)
  | _, [] => none
  | i, ws :: rest =>
    match insFault n h code i ws with
    | some c => some (c, i)
    | none => firstFault n h code (i + 1) rest

/-- The fed-slot check (05 R89): the lowest instruction with a slot that nothing feeds. -/
def unfed (code : List (List Word)) : Option Nat :=
  let all := code.filterMap Ins.ofWords
  let named := fun (s j : Nat) => all.any fun i => i.targets.contains (.slot s j)
  findIdx? (fun e : List Word × Nat => match Ins.ofWords e.1 with
    | some i => (i.awaits (named 2 e.2)).any fun s => !named s e.2
    | none => false) code.zipIdx

/-- The checks of a block (05 R99): its instructions, or the cause and the instruction index of the fault. -/
def checkBlock (n : Node) (h : BitVec 128) (words : List Word) : Except (Nat × Nat) (List (List Word)) :=
  let code := splitWords (words.length + 1) words
  if !headerOk n h code then .error (cHEADER, 0xFFFF)
  else
    match code with
    | none => .error (cHEADER, 0xFFFF)
    | some c =>
      match firstFault n h c 0 c with
      | some e => .error e
      | none => match unfed c with
        | some i => .error (cTARGET, i)
        | none => .ok c

/-! ### Pipe placement (05 R95, 09 R182) -/

/-- The stage map places a block's instructions as the pipe allows. -/
def pipeOk (stmap : Nat) (code : List (List Word)) : Bool :=
  let stages := (List.range 6).map fun k => bitsAt stmap (3 * k) 3
  let is := code.filterMap Ins.ofWords
  let stageOf := fun (j : Nat) => stages.findIdx (· == j)
  code.length ≤ 6 && is.length == code.length &&
  (List.range code.length).all (fun j => stages.count j == 1) &&
  stages.all (fun x => x == 7 || x < code.length) &&
  is.countP (fun i => opStage i.op == .I) ≤ 1 &&
  is.zipIdx.all (fun e =>
    let i := e.1
    (opStage i.op).allows (stageOf e.2 + 1) && !([0x70, 0x71, 0x75] : List Nat).contains i.op &&
    i.targets.all fun t => match t with
      | .slot _ j => stageOf e.2 < stageOf j
      | .reg _ => true)

end Sys2Proof.Machine
end

