-- ==== Sys2Proof/Machine/Ports.lean ====
section
/-! DEFINITION. What nodes and firings do at the two ends of a stream: putting a record on what an outbound port feeds, and
taking the head of an inbound queue or link (spec 09 R174 to R193; 10 R197 to R212). -/
namespace Sys2Proof.Machine

/-- A put: the record enters the source-side queue through its shear, or sets out on a link or a join arc (09 R190 to R193). -/
def State.putOn (s : State) (d : OutDest) (r : Record) : State :=
  match d with
  | .stream q _ => (s.arriveAt q r).1
  | .link q => s.updFab fun f => { f with linkFlight := f.linkFlight ++ [(q, r)] }
  | .join n arc => s.updFab fun f => { f with arcFlight := f.arcFlight ++ [(n, arc, r)] }

/-- A put on an outbound connection, or nothing where there is none. -/
def State.putOn? (s : State) (d : Option OutDest) (r : Record) : State :=
  match d with
  | some d => s.putOn d r
  | none => s

/-- A held thing that stands in the ring is not deliverable before it is refilled (10 R208). -/
def Held.inRing (h : Held) : Bool := match h.place with
  | .ring _ => true
  | _ => false

/-- The things a queue can deliver, in order: those ahead of the first ring record. -/
def Queue.ready (q : Queue) : List Held := q.items.takeWhile fun h => !h.inRing

/-- Removes the first `n` deliverable things and refills storage from the ring (10 R208). -/
def State.dequeue (s : State) (id : Qid) (n : Nat) : State :=
  match s.queue? id with
  | none => s
  | some q =>
    let gone := q.items.take n
    let q := { q with
      items := q.items.drop n
      index := q.index.filter fun e => !(gone.any fun h => h.serial == e.2) }
    let (s, q) := (List.range n).foldl (fun (x : State × Queue) _ => x.1.refill id x.2) (s, q)
    s.setQueue id q

/-- The head of a queue as it is delivered. -/
def State.head? (s : State) (id : Qid) : Option Record :=
  (s.queue? id).bind fun q => q.ready.head?.map q.deliver

/-- Takes the head of a queue. -/
def State.takeHead (s : State) (id : Qid) : State × Option Record :=
  match s.head? id with
  | some r => (s.dequeue id 1, some r)
  | none => (s, none)

/-- A request has been performed (15 R301): it is not outstanding, nor an IO write without its acknowledgement, nor a command
that has memory events to come. A stream-mode pass has none. -/
def State.performed (s : State) (id : Nat) : Bool :=
  !(s.ms.reqs.any fun r => r.id == id) && !(s.ms.ioWrites.any fun w => w.id == id) &&
  !(s.agents.any fun e => (e.2.copyQ ++ e.2.matrixQ ++ e.2.needleQ ++ e.2.fullerQ).any fun c =>
    c.id == id && c.result.isNone && !(c.args.op == 0xB4 && c.args.b.getLsbD 49))

/-- A write to a register by an element: a scalar or a vector (01 R18). -/
def State.arriveVal (s : State) (a : Aid) (code id : Nat) (v : Val) : State :=
  s.updAgent a fun g => g.receive code id v

end Sys2Proof.Machine
end

