-- ==== Sys2Proof/Machine/Stream.lean ====
section
/-! DEFINITION. The stream instructions: reading delivered entries, putting records and control tokens, consuming fewer
entries, and inspecting or changing a queue (spec 11 R224 to R237; 08 R172 `null`). -/
namespace Sys2Proof

/-- A queue that may have REJECT as its primary (10 R200). -/
def Qid.rejectOk : Qid → Bool
  | .call _ _ | .text _ => true
  | _ => false

end Sys2Proof

namespace Sys2Proof.Machine

/-- Entry `j` of the port that an instruction's `srcA` names (11 R224). -/
def Issue.entry (i : Issue) (j : Nat) : Record :=
  match i.g.firing with
  | some f => f.entry (Ins.srcCode i.ins.srcA - 72) j
  | none => .null

/-- The reader ops: a scalar or payload of an entry (11 R227). -/
def readEntry (f : Record → Vec) (i : Issue) (o : Operands) (s : State) : State :=
  let r := i.entry i.ins.stkB
  let s := s.updBlock i.aid fun b => { b with readExc := b.readExc || r.exc }
  s.deliver i ⟨f r, o.dep⟩ ⟨f r, o.dep⟩ 0

/-- KGET (11 R227). -/
def execKget (f : FX) (s : State) : Host.Outcome State Fault Refusal :=
  .next (s.issue (f.ins 0x82) (readEntry fun r => scal (r.key + if r.kv then 2 ^ 32 else 0)))

/-- WGET (11 R227). -/
def execWget (f : FX) (s : State) : Host.Outcome State Fault Refusal :=
  .next (s.issue (f.ins 0x83) (readEntry fun r => scal (r.weight + if r.wsat then 2 ^ 16 else 0)))

/-- TGET (11 R227). -/
def execTget (f : FX) (s : State) : Host.Outcome State Fault Refusal :=
  .next (s.issue (f.ins 0x84) (readEntry fun r => scal r.time))

/-- KIND (11 R227): the kind, the payload, or sideband bits [63:0]. -/
def execKind (f : FX) (s : State) : Host.Outcome State Fault Refusal :=
  .next (s.issue (f.ins 0x85) (readEntry fun r =>
    if f.rm = 1 then r.payload else if f.rm = 2 then scal (r.sideband % 2 ^ 64) else scal r.kind))

/-- The outbound ports an instruction targets. -/
def Ins.ports (i : Ins) : List Nat :=
  i.targets.filterMap fun t => match t with
    | .reg c => if isOutPort c then some (c - 48) else none
    | .slot _ _ => none

/-- Puts a record, made for each port, on every outbound port the instruction targets; the puts happen at commit. -/
def State.putAll (s : State) (i : Issue) (r : Nat → Record) : State :=
  let s := s.updBlock i.aid fun b => b.setStat i.idx .fired
  i.ins.ports.foldl (fun s p => s.updBlock i.aid fun b => b.effect i.idx (.put p (r p))) s

/-- The instruction puts nothing and counts as complete. -/
def State.putNothing (s : State) (i : Issue) : State := s.updBlock i.aid fun b => b.setStat i.idx .fired

/-- A payload whose inactive elements are zero, at the width of the type (05 R92). -/
def maskPayload (W : Nat) (mask : Dword) (p : Vec) : Vec :=
  if W = 64 then (if active mask 64 0 then p else 0)
  else packE W ((List.range (512 / W)).map fun j => if active mask W j then getE W p j else 0)

/-- `put` (11 R228, R229): a computed record, or an entry forwarded. -/
def putBody (i : Issue) (o : Operands) (s : State) : State :=
  let timed := i.ins.rm == 1
  let forwards := i.ins.form != .f0 && Ins.validSrc i.ins.srcA && isInPort (Ins.srcCode i.ins.srcA)
  let payload := fun (p : Vec) => if i.ins.form = .f0 then p else maskPayload i.ins.width o.mask p
  if forwards then
    let e := i.entry (if timed then 0 else i.ins.stkB)
    let s := s.updBlock i.aid fun b => { b with readExc := b.readExc || e.exc }
    if e.kind = kDRAIN then s.putNothing i
    else s.putAll i fun _ => { e with payload := payload e.payload, time := if timed then scalNat o.b.bits % 2 ^ 32 else e.time,
                                      sr := [] }
  else
    s.putAll i fun q => Record.data (payload o.a.bits) (if timed then scalNat o.b.bits % 2 ^ 32 else i.g.putTime q) false []

/-- PUT_F0 (11 R228). -/
def execPutF0 (f : F0) (s : State) : Host.Outcome State Fault Refusal := .next (s.issue (f.ins 0x80) putBody)

/-- PUT_F1 (11 R228, R229). -/
def execPutF1 (f : FX) (s : State) : Host.Outcome State Fault Refusal := .next (s.issue (f.ins 0x80) putBody)

/-- PUTK (01 R19, 11 R230): a weight that reads as zero puts nothing and raises invalid. -/
def execPutk (f : FX) (s : State) : Host.Outcome State Fault Refusal :=
  .next (s.issue (f.ins 0x81) fun i o s =>
    let w := scalNat o.c.bits % 2 ^ 16
    if (wt16Value w).isZero then (s.raiseFlags i fNV).putNothing i
    else s.putAll i fun q =>
      { Record.data (maskPayload i.ins.width o.mask o.a.bits) (i.g.putTime q) false [] with
        weight := w, key := scalNat o.b.bits % 2 ^ 32, kv := true, wsat := bitsAt (scalNat o.c.bits) 16 1 == 1 })

/-- An `f32` that is less than zero, infinite or NaN. -/
def badLostw (x : Nat) : Bool :=
  match fmtF32.value x with
  | .fin neg n _ => neg && n != 0
  | _ => true

/-- GAP (11 R231). -/
def execGap (f : FX) (s : State) : Host.Outcome State Fault Refusal :=
  .next (s.issue (f.ins 0x86) fun i o s =>
    let g := Gap.ofRecord { Record.null with payload := o.a.bits }
    let bad := g.lost == 0 || !([1, 2, 4, 5, 6, 7, 8, 9, 10].contains g.cause) || badLostw g.lostw ||
      (g.kr && g.kmin > g.kmax) || g.tmin > g.tmax
    if bad then (s.raiseFlags i fNV).putNothing i
    else s.putAll i fun _ => { g with kmin := if g.kr then g.kmin else 0, kmax := if g.kr then g.kmax else 0 : Gap }.record)

/-- WCLOSE (11 R232). -/
def wcloseBody (i : Issue) (o : Operands) (s : State) : State :=
  s.putAll i fun _ => { Record.token kWCLOSE with time := scalNat o.a.bits % 2 ^ 32 }

/-- WCLOSE_F0 (11 R232). -/
def execWcloseF0 (f : F0) (s : State) : Host.Outcome State Fault Refusal := .next (s.issue (f.ins 0x8A) wcloseBody)

/-- WCLOSE_F1 (11 R232). -/
def execWcloseF1 (f : FX) (s : State) : Host.Outcome State Fault Refusal := .next (s.issue (f.ins 0x8A) wcloseBody)

/-- EOF (11 R232). -/
def execEof (f : FX) (s : State) : Host.Outcome State Fault Refusal :=
  .next (s.issue (f.ins 0x8B) fun i o s => s.putAll i fun _ => { Record.token kEOF with lvl := scalNat o.b.bits % 8 })

/-- EOF_END (11 R232): END, whatever B holds. -/
def execEofEnd (f : FX) (s : State) : Host.Outcome State Fault Refusal :=
  .next (s.issue (f.ins 0x8B) fun i _ s => s.putAll i fun _ => Record.token kEND)

/-- SWAP_F0 (11 R232). -/
def execSwapF0 (f : F0) (s : State) : Host.Outcome State Fault Refusal :=
  .next (s.issue (f.ins 0x8C) fun i _ s => s.putAll i fun _ => Record.token kSWAP)

/-- SWAP_F1 (11 R232). -/
def execSwapF1 (f : FX) (s : State) : Host.Outcome State Fault Refusal :=
  .next (s.issue (f.ins 0x8C) fun i _ s => s.putAll i fun _ => Record.token kSWAP)

/-- NULL_F0 (08 R172). -/
def execNullF0 (f : F0) (s : State) : Host.Outcome State Fault Refusal :=
  .next (s.issue (f.ins 0x7C) fun i _ s => s.putAll i fun q => { Record.null with time := i.g.putTime q })

/-- SKIP (11 R234): the count is recorded at commit. -/
def execSkip (f : FX) (s : State) : Host.Outcome State Fault Refusal :=
  .next (s.issue (f.ins 0x87) fun i o s =>
    (s.updBlock i.aid fun b =>
      b.effect i.idx (.skip (Ins.srcCode i.ins.srcA - 72) (min (scalNat o.b.bits) 16))).deliver i
        ⟨0, o.dep⟩ ⟨0, o.dep⟩ 0)

/-- What stands behind a port number (11 R224). -/
inductive Behind where
  | queue (q : Qid)
  | link (q : Option Qid)
  deriving DecidableEq, Repr

/-- The queue or link of port 0 to 15 of an agent; `none` where it does not declare the port. -/
def Agent.behind (g : Agent) (n : Nat) : Option Behind :=
  if n < 8 then (g.inPort? n).map fun p => match p.src with
    | .queue q => .queue q
    | .link q => .link (some q)
  else (g.outPort? n).map fun p => match p.dst with
    | .stream q _ => .queue q
    | .link q => .link (some q)
    | .join _ _ => .link none

/-- What `qstat` reads (11 R235). -/
def State.qstat (s : State) (p : Behind) (sel : Nat) : Nat :=
  match p with
  | .link q =>
    match q.bind (Tab.get? s.fab.links), sel with
    | some l, 0 => (l.slots.filter fun h => h.r.kind != kCFG).length + (if l.token.isSome then 2 ^ 16 else 0)
    | _, _ => 0
  | .queue q =>
    match s.queue? q with
    | none => 0
    | some x =>
      match sel with
      | 0 => (x.items.filter fun h => h.place = .storage ∧ !h.isControl).length % 2 ^ 13 + x.reserved * 2 ^ 16 +
          x.controlInStorage % 2 ^ 12 * 2 ^ 20 + x.ringCount * 2 ^ 32
      | 1 => x.nlost
      | 2 => x.nabs
      | 3 => x.desc.word0
      | 4 => (if x.failed then 1 else 0) + (if x.sexc then 2 else 0)
      | _ => 0

/-- The port number in operand A, or the ILLEGAL_TARGET of a bad one. -/
def State.withPort (s : State) (i : Issue) (o : Operands) (f : Nat → Behind → State) : State :=
  let n := scalNat o.a.bits
  match if n < 16 then i.g.behind n else none with
  | some p => f n p
  | none => s.takeTrap i.aid cTARGET i.idx i.b.addr 0 (i.b.word0 i.idx)

/-- QSTAT (11 R235). -/
def execQstat (f : FX) (s : State) : Host.Outcome State Fault Refusal :=
  .next (s.issue (f.ins 0x88) fun i o s => s.withPort i o fun _ p =>
    let v := scal (s.qstat p (scalNat o.b.bits))
    s.deliver i ⟨v, o.dep⟩ ⟨v, o.dep⟩ 0)

/-- QSTAT_CLR (11 R235): the counter falls at commit by the value read. -/
def execQstatClr (f : FX) (s : State) : Host.Outcome State Fault Refusal :=
  .next (s.issue (f.ins 0x88) fun i o s => s.withPort i o fun n p =>
    let sel := scalNat o.b.bits
    let v := s.qstat p sel
    (s.updBlock i.aid fun b => b.effect i.idx (.qclr n sel v)).deliver i ⟨scal v, o.dep⟩ ⟨scal v, o.dep⟩ 0)

/-- The register that an instruction's `T0` names, 0 for null. -/
def Ins.tokenReg (i : Ins) : Nat :=
  match Target.of i.t0 with
  | .reg c => if c = 127 then 0 else c
  | .slot _ _ => 0

/-- QPOL (11 R236): decided at commit. -/
def execQpol (f : FX) (s : State) : Host.Outcome State Fault Refusal :=
  .next (s.issue (f.ins 0x89) fun i o s => s.withPort i o fun n _ =>
    s.updBlock i.aid fun b =>
      (b.setStat i.idx .fired).effect i.idx (.qpol n (f.rm == 1) o.b.bits o.dep i.ins.tokenReg))

/-! ### Applying `qpol` and `qstat.clr` at commit -/

/-- The queue of a port changed at commit. -/
def Agent.portQueue (g : Agent) (n : Nat) : Option Qid :=
  match g.behind n with
  | some (.queue q) => some q
  | _ => none

/-- `qpol` at commit: the new queue and the status. -/
def State.applyQpol (s : State) (g : Agent) (n : Nat) (w0only : Bool) (b : Vec) : State × Nat :=
  match g.portQueue n with
  | none => (s, 2)
  | some q =>
    match s.queue? q with
    | none => (s, 2)
    | some x =>
      let (x', st) := x.repolicy q.rejectOk w0only b
      (if st = 0 then s.setQueue q x' else s, st)

/-- `qstat.clr` at commit. -/
def State.applyQclr (s : State) (g : Agent) (n sel v : Nat) : State :=
  match g.portQueue n with
  | none => s
  | some q => s.updQueue q fun x =>
    if sel = 1 then { x with nlost := x.nlost - v } else if sel = 2 then { x with nabs := x.nabs - v } else x

end Sys2Proof.Machine
end

