-- ==== Sys2Proof/Machine/Control.lean ====
section
/-! DEFINITION. Control within and between blocks: the exits, traps and breakpoints, `nop`, and the reads of registers,
state and time (spec 08 R153 to R171). -/
namespace Sys2Proof.Machine

/-! ### Block addresses (08 R158) -/

/-- The number of words after a block's header. -/
def Block.nword (b : Block) : Nat := (b.hdr.extractLsb' 13 8).toNat

/-- The first 16-byte boundary after the end of the block. -/
def Block.nextAddr (b : Block) : Nat := wrap 64 ((b.addr + 16 + 4 * b.nword + 15) / 16 * 16 : Nat)

/-- An address at a signed offset from the block. -/
def Block.relative (b : Block) (off : Int) : Nat := wrap 64 (b.addr + off)

/-- An exit fires: its transfer of control waits for commit. -/
def State.exitTo (s : State) (i : Issue) (x : ExitTo) : State :=
  s.updBlock i.aid fun b => { b.setStat i.idx .fired with exits := b.exits ++ [(i.idx, x)] }

/-! ### Exits -/

/-- BR (08 R161). -/
def execBr (f : FX) (s : State) : Host.Outcome State Fault Refusal :=
  .next (s.issue (f.ins 0x70) fun i _ s => s.exitTo i (.block (i.b.relative i.ins.offset)))

/-- BRI (08 R162). -/
def execBri (f : FX) (s : State) : Host.Outcome State Fault Refusal :=
  .next (s.issue (f.ins 0x71) fun i o s => s.exitTo i (.block (scalNat o.a.bits)))

/-- CALL (08 R164): `T0` receives the address of the next block at commit. -/
def execCall (f : FX) (s : State) : Host.Outcome State Fault Refusal :=
  .next (s.issue (f.ins 0x72) fun i o s =>
    let v : Val := ⟨scal i.b.nextAddr, o.dep⟩
    (s.deliver i v v 0).exitTo i (.block (i.b.relative i.ins.offset)))

/-- RET (08 R164). -/
def execRet (f : F0) (s : State) : Host.Outcome State Fault Refusal :=
  .next (s.issue (f.ins 0x73) fun i o s => s.exitTo i (.block (scalNat o.a.bits)))

/-- FEND (08 R165). -/
def execFend (f : F0) (s : State) : Host.Outcome State Fault Refusal :=
  .next (s.issue (f.ins 0x74) fun i _ s => s.exitTo i .done)

/-- The count of `loopn` goes to its target at commit: to a register or a port, or to a sticky slot for the entries to come; any other
slot is gone by then (08 R163; log 7). -/
def State.sendAtCommit (s : State) (i : Issue) (v : Val) : State :=
  match Target.of i.ins.t0 with
  | .reg _ => s.deliver i v v 0
  | .slot slot j =>
    let sticky := ((i.b.insAt j).map fun k => k.stkOf slot).getD 0
    s.updBlock i.aid fun b => { b.setStat i.idx .fired with
      sticky := if sticky = 0 then b.sticky
        else (b.sticky.filter fun x => !(x.1 == j && x.2.1 == slot)) ++ [(j, slot, sticky, v)] }

/-- `loopn` (08 R163): the offset is in units of 16 bytes. -/
def loopnBody (i : Issue) (o : Operands) (s : State) : State :=
  let c := scalNat o.a.bits
  let v : Val := ⟨scal (c - 1), o.dep⟩
  (s.sendAtCommit i v).exitTo i (.block (if c > 1 then i.b.relative (16 * i.ins.immediate) else i.b.nextAddr))

/-- LOOPN_FI (08 R163). -/
def execLoopnFi (f : FI) (s : State) : Host.Outcome State Fault Refusal := .next (s.issue (f.ins 0x75) loopnBody)

/-- LOOPN_F2 (08 R163). -/
def execLoopnF2 (f : FX) (s : State) : Host.Outcome State Fault Refusal := .next (s.issue (f.ins 0x75) loopnBody)

/-! ### Traps, breakpoints, nop (08 R166, R167) -/

/-- `trap` and `brk`: the block is abandoned and the firing or run suspended at its start; in a resumed entry they
decline. -/
def trapBody (cause : Nat) (i : Issue) (_ : Operands) (s : State) : State :=
  if i.b.noTrap then s.decline i
  else s.takeTrap i.aid cause i.idx i.b.addr (wrap 64 i.ins.immediate) 0

/-- TRAP (08 R166). -/
def execTrap (f : FI) (s : State) : Host.Outcome State Fault Refusal := .next (s.issue (f.ins 0x76) (trapBody cSOFTWARE))

/-- BRK (08 R166). -/
def execBrk (f : FI) (s : State) : Host.Outcome State Fault Refusal := .next (s.issue (f.ins 0x7D) (trapBody cBREAK))

/-- NOP (08 R167). -/
def execNop (f : F0) (s : State) : Host.Outcome State Fault Refusal :=
  .next (s.issue (f.ins 0x77) fun i _ s => s.updBlock i.aid fun b => b.setStat i.idx .fired)

/-! ### Reading registers, state and time -/

/-- RDR (08 R168, 09 R187): the code is checked at run time; a register with a write pending holds the instruction. -/
def execRdr (f : FX) (s : State) : Host.Outcome State Fault Refusal :=
  .next (s.issue (f.ins 0x78) fun i o s' =>
    let x := scalNat o.a.bits
    let inmask := (i.b.hdr.extractLsb' 29 8).toNat
    let bad := x ≥ 128 || reservedSource x || (isInPort x && !inmask.testBit (x - 72)) ||
      (64 ≤ x && x < 72 && (i.g.delayHead x).isNone)
    if bad then s'.takeTrap i.aid cTARGET i.idx i.b.addr 0 (i.b.word0 i.idx)
    else if i.g.isPending x || !i.g.lineReady x (i.g.older.length + 1) i.g.older.length then s
    else
      let v := (i.g.source x).getD .zero
      let s' := s'.updBlock i.aid fun b => { b with readExc := b.readExc || headExc i.g true (128 + x) }
      let w : Val := ⟨v.bits, unionDep o.dep v.dep⟩
      s'.deliver i w w 0)

/-- The value `mfs` sends for a selector (08 R169). -/
def State.mfs (s : State) (a : Aid) (g : Agent) (b : Block) (sel : Nat) : Nat :=
  match sel with
  | 0 => g.firingIndex % 2 ^ 64
  | 1 => if a.isThread then g.cu else 0
  | 2 => g.vq
  | 3 => if a.isThread then 0 else g.cu
  | 4 => if g.mode = .win then g.slot else 0
  | 5 => if a.isThread then 0 else g.row * 2 ^ 16 + g.col
  | 6 => g.die
  | 7 => s.out.pod.index
  | 8 => g.ctx
  | 9 => s.incOf a g
  | 10 | 11 => flagsScalar g.flags
  | 12 => hdrId b.hdr
  | _ => 0

/-- MFS (08 R169); `.flagsc` clears the flags at commit. -/
def execMfs (f : FI) (s : State) : Host.Outcome State Fault Refusal :=
  .next (s.issue (f.ins 0x79) fun i o s =>
    let v : Val := ⟨scal (s.mfs i.aid i.g i.b i.ins.imm.toNat), o.dep⟩
    let s := if i.ins.imm.toNat = 11 then s.updBlock i.aid fun b => b.effect i.idx .flagsClear else s
    s.deliver i v v 0)

/-- TICK (08 R170). -/
def execTick (f : F0) (s : State) : Host.Outcome State Fault Refusal :=
  .next (s.issue (f.ins 0x7A) fun i o s =>
    let v : Val := ⟨scal s.clk.tick, o.dep⟩
    s.deliver i v v 0)

/-- An instruction waits for a deadline (08 R171, 23 R409). -/
def State.awaitDeadline (s : State) (i : Issue) (w : Nat) (dep : List Nat) : State :=
  s.updAgent i.aid fun g => { g with
    deadline := Tab.set g.deadline i.idx (w, dep)
    block := g.block.map fun b => b.setStat i.idx .issued }

/-- TWAIT_F0 (08 R171): an absolute deadline. -/
def execTwaitF0 (f : F0) (s : State) : Host.Outcome State Fault Refusal :=
  .next (s.issue (f.ins 0x7B) fun i o s => s.awaitDeadline i (scalNat o.a.bits) o.dep)

/-- TWAIT_F1 (08 R171): with `.rel` the deadline is the tick at issue plus the operand. -/
def execTwaitF1 (f : FX) (s : State) : Host.Outcome State Fault Refusal :=
  .next (s.issue (f.ins 0x7B) fun i o s =>
    s.awaitDeadline i (if f.rm = 1 then (s.clk.tick + scalNat o.a.bits) % 2 ^ 64 else scalNat o.a.bits) o.dep)

/-- An instruction of a block that has issued, as an `Issue`. -/
def State.issueOf (s : State) (a : Aid) (idx : Nat) : Option Issue :=
  match s.agent? a with
  | none => none
  | some g =>
    match g.block with
    | none => none
    | some b => (b.insAt idx).map fun ins => ⟨a, g, b, idx, ins⟩

/-- The indices of waiting instructions of an op whose deadline the tick has reached. -/
def State.due (s : State) (a : Aid) (op : Nat) (early : Bool) : List (Nat × List Nat) :=
  match s.agent? a with
  | none => []
  | some g => match g.block with
    | none => []
    | some b => g.deadline.filterMap fun e =>
      match b.insAt e.1 with
      | some ins => if ins.op = op ∧ (e.2.1 ≤ s.clk.tick ∨ early) then some (e.1, e.2.2) else none
      | none => none

/-- A waiting instruction fires with a value. -/
def State.wake (s : State) (a : Aid) (value : Nat) (e : Nat × List Nat) : State :=
  match s.issueOf a e.1 with
  | none => s
  | some i =>
    let s := s.updAgent a fun g => { g with deadline := Tab.erase g.deadline e.1 }
    s.deliver i ⟨scal value, e.2⟩ ⟨scal value, e.2⟩ 0

/-- TWAIT_DEADLINE (08 R171): a waiting `twait` whose deadline the tick has reached fires with the tick. -/
def execTwaitDeadline (a : Aid) (s : State) : Host.Outcome State Fault Refusal :=
  .next (if s.agentAlive a then (s.due a 0x7B false).foldl (fun s e => s.wake a s.clk.tick e) s else s)

end Sys2Proof.Machine
end

