-- ==== Sys2Proof/Machine/Memory.lean ====
section
/-! DEFINITION. The memory, atomic, fence, stash and lock instructions up to their block's commit (spec 13 R258 to R275; 12
R256, R257). -/
namespace Sys2Proof.Machine

/-! ### Addresses and checks -/

/-- The address of an op marked Addr (13 R259). -/
def Issue.va (i : Issue) (o : Operands) : Nat := wrap 64 ((scalNat o.a.bits : Int) + i.ins.offset)

/-- What every access of the instruction follows: its operands' dependences, the previous block under `BO`, and what the
firing was delivered (15 R304, R307). -/
def Issue.follows (i : Issue) (o : Operands) : List Nat :=
  unionDep (unionDep o.dep i.b.before) (match i.g.firing with
    | some f => f.follows
    | none => [])

/-- The trap of a failed check, precise at the block (13 R262). -/
def State.faultAt (s : State) (i : Issue) (cause va : Nat) : State :=
  s.takeTrap i.aid cause i.idx i.b.addr va (if cause ≤ 6 then i.b.word0 i.idx else 0)

/-- The active elements of a vector access with their addresses, in ascending order. -/
def activeElems (W : Nat) (mask : Dword) (addr : Nat → Nat) : List (Nat × Nat) :=
  ((List.range (count W)).filter fun j => active mask W j).map fun j => (j, addr j)

/-- Groups elements by line: each group is the list of its elements (13 R263: one event a line). -/
def byLine (es : List (Nat × Nat)) : List (List (Nat × Nat)) :=
  es.foldl (fun gs e =>
    match gs.reverse with
    | g :: rest =>
      match g.head? with
      | some h => if h.2 / 64 = e.2 / 64 then (rest.reverse) ++ [g ++ [e]] else gs ++ [[e]]
      | none => gs ++ [[e]]
    | [] => gs ++ [[e]]) []

/-- The span of a group of elements of `n` bytes: first element, address, length. -/
def spanOf (n : Nat) (g : List (Nat × Nat)) : Nat × Nat × Nat :=
  match g.head?, g.getLast? with
  | some h, some l => (h.1, h.2, l.2 + n - h.2)
  | _, _ => (0, 0, 0)

/-- The elements of an access in index order: the place of each in the buffer of a load, its address and its length. Those of `ldv` and
`stv` that lie on one line are one (13 R263, R264). -/
def Issue.elements (i : Issue) (o : Operands) : List (Nat × Nat × Nat) :=
  let va := i.va o
  let n := i.ins.width / 8
  match i.ins.op with
  | 0x91 | 0x94 =>
    (byLine (activeElems i.ins.width o.mask fun j => wrap 64 (va + j * n : Nat))).map fun g =>
      let (j, a, l) := spanOf n g
      (j * n, a, l)
  | 0x92 | 0x95 | 0xA7 =>
    let sc : Int := if i.ins.rm = 1 then 4 else 1
    (activeElems 32 o.mask fun j => wrap 64 ((va : Int) + sint 32 (getE 32 o.b.bits j) * sc)).map fun e => (4 * e.1, e.2, 4)
  | _ => [(0, va, n)]

/-- Checks the elements in index order: the first one that is not aligned, not translated, not permitted or of a type that the op
refuses gives its cause and VA (13 R259, R262). -/
def State.checkElements (s : State) (i : Issue) (need : Need) (refuses : Access → Bool) :
    List (Nat × Nat × Nat) → State × Except (Nat × Nat) (List (Nat × Access))
  | [] => (s, .ok [])
  | (place, va, len) :: rest =>
    if va % (i.ins.width / 8) != 0 then (s, .error (cALIGN, va))
    else
      match s.access i.aid va len need with
      | (s, .error c) => (s, .error (c, va))
      | (s, .ok x) =>
        if refuses x then (s, .error (cPERMISSION, va))
        else
          match s.checkElements i need refuses rest with
          | (s, .ok xs) => (s, .ok ((place, x) :: xs))
          | (s, .error e) => (s, .error e)

/-- Ops that run in the paired MU and are split by line (12 R251). -/
def Ins.isVector (i : Ins) : Bool := i.op == 0x92 || i.op == 0x95 || i.op == 0xA7

/-- An element joins the access to its line, or starts one. -/
def addToLine (gs : List (Access × List Elem)) (e : Access × Elem) : List (Access × List Elem) :=
  let x : Access := { e.1 with va := e.1.va / 64 * 64, pa := e.1.pa / 64 * 64, len := 64 }
  let y : Elem := { e.2 with off := e.1.va % 64 }
  if gs.any fun g => g.1 == x then gs.map fun g => if g.1 = x then (x, g.2 ++ [y]) else g else gs ++ [(x, [y])]

/-- The accesses of an instruction: one for each line of a vector op, else one for each element. -/
def accessesOf (vector : Bool) (es : List (Access × Elem)) : List (Access × List Elem) :=
  if vector then es.foldl addToLine [] else es.map fun e => (e.1, [e.2])

/-- An agent shares the CU of another, or is it. -/
def State.sameCu (s : State) (a : Aid) (g : Agent) (b : Aid) : Bool :=
  b == a || (!a.isThread && b.rid == a.rid && (match s.agent? b with
    | some k => k.row == g.row && k.col == g.col && k.cu == g.cu
    | none => false))

/-- The vector instructions whose accesses the MU of a CU has not all sent (12 R251). -/
def State.vectorRequests (s : State) (a : Aid) (g : Agent) : Nat :=
  ((s.ms.reqs.filterMap fun r => if s.sameCu a g r.aid then r.vec else none).foldl addOnce []).length

/-- The MU has room for another vector request of the CU (12 R251). -/
def State.vectorRoom (s : State) (i : Issue) : Bool := !i.ins.isVector || s.vectorRequests i.aid i.g < 16

/-! ### Loads (13 R263, 12 R257) -/

/-- A load is a touch: its value goes to `s0` or `p0` and its second target is null. -/
def Ins.isTouch (i : Ins) : Bool :=
  (Target.of i.t0 == .reg 0 || Target.of i.t0 == .reg 48) && Target.of i.t1 == .reg 127

/-- Makes the read requests of a load, one per access, and the load that waits for them. -/
def State.startLoad (s : State) (i : Issue) (o : Operands) (parts : List (Access × List Elem)) (size : Nat) (base : List Nat)
    (sys : Bool) : State :=
  let (load, s) := s.takeId
  let inc := s.incOf i.aid i.g
  let after := i.follows o
  let vec := if i.ins.isVector then some load else none
  let (s, ids) := parts.foldl (fun (acc : State × List Nat) p =>
    let (s, ids) := acc
    let (id, s) := s.takeId
    (s.updMs fun m => { m with reqs := m.reqs ++
      [⟨id, i.aid, i.g.ctx, inc, .read sys, p.1, p.2, after, .load i.aid load, none, vec, [], none, i.b.origin i.idx⟩] }, ids ++ [id])) (s, [])
  let s := s.updMs fun m => { m with
    loads := m.loads ++ [⟨load, i.aid, i.idx, i.ins, o.mask, base, List.replicate size 0, ids, ids, none⟩] }
  s.updBlock i.aid fun b => { b.setStat i.idx .issued with made := b.made ++ ids }

/-- The value of a finished load, with the bits an inactive element keeps (13 R263, 05 R92). -/
def loadValue (ins : Ins) (mask : Dword) (buffer : List Byte) : Vec × Vec :=
  match ins.op with
  | 0x91 | 0x92 =>
    let W := if ins.op = 0x92 then 32 else ins.width
    (packE W ((List.range (count W)).map fun j =>
      if active mask W j then bytesNat ((buffer.drop (j * W / 8)).take (W / 8)) else 0), keepBits W (count W) mask)
  | _ =>
    let x := bytesNat buffer
    (scal (if etySigned ins.ty then wrap 64 (sint ins.width x) else x), 0)

/-- The load's value goes to `T0`, keeping what an inactive element keeps, and its token, a zero, to `T1` (13 R261). -/
def State.deliverLoad (s : State) (i : Issue) (v : Val) (keep : Vec) (dep : List Nat) : State :=
  let s := (s.updBlock i.aid fun b => b.setStat i.idx .fired).sendTo i.aid i.idx (Target.of i.ins.t0) v keep
  match s.agent? i.aid with
  | some g => if g.block.isSome then s.sendTo i.aid i.idx (Target.of i.ins.t1) ⟨0, dep⟩ 0 else s
  | none => s

/-- A load whose answers are all in. -/
def State.finishLoad (s : State) (l : LoadOp) : State :=
  match s.issueOf l.aid l.idx with
  | none => s
  | some i =>
    let (v, keep) := loadValue l.ins l.mask l.buffer
    s.deliverLoad { i with ins := l.ins } ⟨v, l.ids⟩ keep l.ids

/-- A line fills a stash window with a read lease, or with ownership (12 R257, 13 R265). -/
def State.touchLine (s : State) (i : Issue) (own : Bool) (x : Access) : State :=
  if x.mt != 0 then s
  else
    match s.stashFor i.aid x.va with
    | none => s
    | some (n, _) =>
      let s := (s.fetched x).recall x.pa
      let t := s.lineTs x.pa
      let rts := if own then t.rts else max t.rts (s.ptsOf (.agent i.aid) + s.leaseOf i.g.ctx)
      (s.setLineTs x.pa t.wts rts).stashFill n (Stash.sets (s.groupBanks n))
        ⟨lineOf x.pa, x.va / 64 * 64, i.g.ctx, s.homeBytes (x.pa / 64 * 64) 64, own, false, t.wts, rts, some (i.aid, none), false⟩

/-- A touch succeeds. -/
def State.touchLines (s : State) (i : Issue) (xs : List Access) (own : Bool) : State := xs.foldl (fun s x => s.touchLine i own x) s

/-- A load whose element at a VA fails a check: an element below it that an uncorrectable error stops fails first (13 R262). -/
def State.loadFault (s : State) (i : Issue) (o : Operands) (c va : Nat) : State :=
  match s.checkElements i needRead (fun _ => false) ((i.elements o).takeWhile fun e => e.2.1 != va) with
  | (s, .error (c, va)) => s.faultAt i c va
  | (s, .ok xs) => match xs.find? fun x => x.2.mt != 2 && s.accessUe x.2 with
    | some x => (s.ueMet x.2).faultAt i cMEMORY_UE x.2.va
    | none => s.faultAt i c va

/-- A load issues: its accesses are checked and its reads are sent; a touch that would fault is dropped. -/
def loadBody (sys : Bool) (i : Issue) (o : Operands) (s : State) : State :=
  let touch := i.ins.isTouch
  let drop := fun (s : State) => (s.countAt i.g 0x30).deliver i .zero .zero 0
  match s.checkElements i needRead (fun _ => false) (i.elements o) with
  | (s, .error (c, va)) => if touch then drop s else s.loadFault i o c va
  | (s, .ok xs) =>
    if touch then
      if xs.any fun x => x.2.mt != 2 && s.accessUe x.2 then drop s
      else (s.touchLines i (xs.map Prod.snd) false).deliver i .zero .zero 0
    else if xs.isEmpty then
      let (v, keep) := loadValue i.ins o.mask (List.replicate 64 0)
      s.deliverLoad i ⟨v, o.dep⟩ keep o.dep
    else
      let size := if i.ins.op = 0x91 ∨ i.ins.op = 0x92 then 64 else i.ins.width / 8
      s.startLoad i o (accessesOf i.ins.isVector (xs.map fun x => (x.2, ⟨0, x.2.len, x.1⟩))) size [] sys

/-- LD (13 R263). -/
def execLd (f : FX) (s : State) : Host.Outcome State Fault Refusal := .next (s.issue (f.ins 0x90) (loadBody false))
/-- LDV (13 R263). -/
def execLdv (f : FX) (s : State) : Host.Outcome State Fault Refusal := .next (s.issue (f.ins 0x91) (loadBody false))
/-- LDG (13 R263). -/
def execLdg (f : FX) (s : State) : Host.Outcome State Fault Refusal := 
  .next (s.issueWhen (f.ins 0x92) s.vectorRoom (loadBody false))
/-- LDSYS (13 R263). -/
def execLdsys (f : FX) (s : State) : Host.Outcome State Fault Refusal := .next (s.issue (f.ins 0x96) (loadBody true))

/-- PREF (13 R265): a touch, for reading or for ownership. Either needs `R` (22 R392). -/
def execPref (f : FX) (s : State) : Host.Outcome State Fault Refusal :=
  .next (s.issue (f.ins 0x98) fun i o s =>
    let va := i.va o
    let done := fun (s : State) => s.updBlock i.aid fun b => b.setStat i.idx .fired
    let drop := fun (s : State) => done (s.countAt i.g 0x30)
    if va % 8 != 0 then drop s
    else
      match s.access i.aid va 8 needRead with
      | (s, .error _) => drop s
      | (s, .ok x) => if x.mt ≠ 2 ∧ s.accessUe x then drop s else done (s.touchLines i [x] (f.rm == 1)))

/-! ### Stores (13 R264) -/

/-- The data and enabled bytes of a part of `stv`: only active elements are written. -/
def storePart (W : Nat) (mask : Dword) (v : Vec) (off len : Nat) : Elem :=
  let bytes := (natBytes 64 v.toNat).drop off |>.take len
  let en := sumNat ((List.range len).map fun k => if active mask W ((off + k) * 8 / W) then 2 ^ k else 0)
  ⟨0, bytesNat bytes, en⟩

/-- The register of a store's token target. -/
def tokenOf (t : Nat) : Nat :=
  match Target.of t with
  | .reg c => if c = 127 then 0 else c
  | .slot _ _ => 0

/-- A store issues: its accesses are checked, and it is performed from its block's commit on. -/
def storeBody (sys : Bool) (i : Issue) (o : Operands) (s : State) : State :=
  match s.checkElements i needWrite (fun _ => false) (i.elements o) with
  | (s, .error (c, va)) => s.faultAt i c va
  | (s, .ok xs) =>
    let elem := fun (x : Nat × Access) => match i.ins.op with
      | 0x94 => storePart i.ins.width o.mask o.b.bits x.1 x.2.len
      | 0x95 => ⟨0, getE 32 o.c.bits (x.1 / 4), 15⟩
      | _ => ⟨0, scalNat o.b.bits % 2 ^ i.ins.width, 2 ^ (i.ins.width / 8) - 1⟩
    s.updBlock i.aid fun b => (b.setStat i.idx .fired).effect i.idx
      (.mem (.store sys) i.ins.ty i.ins.width (accessesOf i.ins.isVector (xs.map fun x => (x.2, elem x))) i.ins.isVector
        (i.follows o) (tokenOf i.ins.t0) (tokenOf i.ins.t1))

/-- ST (13 R264). -/
def execSt (f : FX) (s : State) : Host.Outcome State Fault Refusal := .next (s.issue (f.ins 0x93) (storeBody false))
/-- STV (13 R264). -/
def execStv (f : FX) (s : State) : Host.Outcome State Fault Refusal := .next (s.issue (f.ins 0x94) (storeBody false))
/-- STS (13 R264). -/
def execSts (f : FX) (s : State) : Host.Outcome State Fault Refusal := .next (s.issue (f.ins 0x95) (storeBody false))
/-- STSYS (13 R264). -/
def execStsys (f : FX) (s : State) : Host.Outcome State Fault Refusal := .next (s.issue (f.ins 0x97) (storeBody true))

/-! ### Fences (13 R266, R267) -/

/-- A request comes from the agent itself, not from its engines. -/
def Req.isOwn (r : Req) (a : Aid) : Bool := r.aid == a && (match r.dst with
  | .cmd _ _ _ => false
  | _ => true)

/-- Every access of the agent's earlier blocks has been performed; under `.sys` its IO stores are acknowledged too. -/
def State.fenced (s : State) (i : Issue) (sys : Bool) : Bool :=
  !(s.ms.reqs.any fun r => r.isOwn i.aid && !i.b.made.contains r.id) &&
  (!sys || !(s.ms.ioWrites.any fun w => w.aid == some i.aid))

/-- The token of a fence: what follows it follows everything performed up to a timestamp (13 R266, R267; 15 R304, R306). -/
def State.fenceToken (s : State) (i : Issue) (o : Operands) (ts : Nat) : State :=
  let (id, s) := s.takeStamp ts (s.context i.g.ctx).part
  s.deliver i ⟨0, o.dep ++ [id]⟩ ⟨0, o.dep ++ [id]⟩ 0

/-- FENCE (13 R266): waits, then sends its token. -/
def execFence (f : FI) (s : State) : Host.Outcome State Fault Refusal :=
  .next (s.issueWhen (f.ins 0x99) (fun i => s.fenced i (f.imm.toNat % 8 == 5)) fun i o s =>
    s.fenceToken i o (s.ptsOf (.agent i.aid)))

/-- The commands an agent holds in a queue. -/
def Agent.engineQ (g : Agent) : EngineKind → List Cmd
  | .copy => g.copyQ
  | .matrix => g.matrixQ
  | .needle => g.needleQ
  | .fuller => g.fullerQ

/-- The queues that a `qfence` names. -/
def fencedQueues (m : Nat) : List EngineKind :=
  ([(0, EngineKind.copy), (1, .matrix), (2, .needle), (3, .fuller)].filter fun e => m.testBit e.1).map Prod.snd

/-- QFENCE (13 R267): waits until the named queues hold no command. -/
def execQfence (f : FI) (s : State) : Host.Outcome State Fault Refusal :=
  .next (s.issueWhen (f.ins 0x9A) (fun i => (fencedQueues f.imm.toNat).all fun e => (i.g.engineQ e).isEmpty) fun i o s =>
    s.fenceToken i o ((fencedQueues f.imm.toNat).foldl (fun t e => max t (s.ptsOf (.engine i.aid e))) 0))

/-! ### Stash windows (13 R268, R269) and shapes (R275) -/

/-- The place of an MU by its region-relative number, with the mode of a bank's group and the group itself. -/
def State.groupAt (s : State) (a : Aid) (mu bank : Nat) : Option (Nid × BankGroup) :=
  match a.rid with
  | none => none
  | some rid =>
    match Tab.get? s.sched.regions rid with
    | none => none
    | some r =>
      match r.muPlace? mu with
      | none => none
      | some (row, col, k) =>
        match r.group? row col k bank with
        | some g => if g.first = bank then some (⟨rid, row, col, k, bank⟩, g) else none
        | none => none

/-- `sinv` and `swb`: only the address's alignment is checked. -/
def stashBody (i : Issue) (o : Operands) (s : State) : State :=
  let va := i.va o
  if va % 8 != 0 then s.faultAt i cALIGN va
  else s.updBlock i.aid fun b => (b.setStat i.idx .fired).effect i.idx
    (.stash i.ins.op va (scalNat o.b.bits) 0 0 (i.follows o) i.ins.tokenReg)

/-- SINV (13 R268). -/
def execSinv (f : FX) (s : State) : Host.Outcome State Fault Refusal := .next (s.issue (f.ins 0x9B) stashBody)
/-- SWB (13 R268). -/
def execSwb (f : FX) (s : State) : Host.Outcome State Fault Refusal := .next (s.issue (f.ins 0x9C) stashBody)

/-- SMAP (13 R269). -/
def execSmap (f : FX) (s : State) : Host.Outcome State Fault Refusal :=
  .next (s.issue (f.ins 0x9D) fun i o s =>
    let va := i.va o
    let b := scalNat o.b.bits
    let lsize := bitsAt b 0 6
    match s.groupAt i.aid (bitsAt b 8 17) (bitsAt b 25 3) with
    | none => s.faultAt i cNOT_PRESENT va
    | some (_, g) =>
      if g.mode != .stash then s.faultAt i cNOT_PRESENT va
      else if bitsAt b 28 36 != 0 || bitsAt b 6 2 != 0 || lsize < 12 || 2 ^ lsize > g.count * 2 ^ 14 then
        s.faultAt i cTARGET va
      else if va % 2 ^ lsize != 0 then s.faultAt i cALIGN va
      else s.updBlock i.aid fun blk => (blk.setStat i.idx .fired).effect i.idx
        (.stash 0x9D va lsize (bitsAt b 25 3) (bitsAt b 8 17) (i.follows o) i.ins.tokenReg))

/-- LDSH (13 R275): the record is read before commit like any load. -/
def execLdsh (f : FX) (s : State) : Host.Outcome State Fault Refusal :=
  .next (s.issue (f.ins 0xAB) fun i o s =>
    let va := i.va o
    let b := scalNat o.b.bits
    let mu := bitsAt b 8 17
    let bank := bitsAt b 25 3
    match s.groupAt i.aid mu bank with
    | none => s.faultAt i cNOT_PRESENT va
    | some (_, g) =>
      if g.mode != .agen then s.faultAt i cNOT_PRESENT va
      else if b != mu * 2 ^ 8 + bank * 2 ^ 25 then s.faultAt i cTARGET va
      else if va % 64 != 0 then s.faultAt i cALIGN va
      else
        match s.accesses i.aid needRead (linePieces 3 va 128) with
        | (s, .error (c, v)) => s.faultAt i c v
        | (s, .ok xs) => s.startLoad i o ((xs.zip (List.range xs.length)).map fun x => (x.1, [⟨0, x.1.len, 64 * x.2⟩])) 128
            [bank, mu] false)

/-! ### Atomics and locks (13 R270 to R274) -/

/-- The bits of an operand at the type's width. -/
def lowBits (W : Nat) (v : Vec) : Nat := scalNat v % 2 ^ W

/-- An atomic issues: translated for reading and writing; an IO page raises PERMISSION, as does anything but a C or MS page
for a lock. -/
def atomicBody (op : MemOp) (lock : Bool) (i : Issue) (o : Operands) (s : State) : State :=
  match s.checkElements i needBoth (fun x => x.mt == 2 || (lock && x.mt == 3)) (i.elements o) with
  | (s, .error (c, va)) => s.faultAt i c va
  | (s, .ok xs) =>
    let W := i.ins.width
    let elem := fun (x : Nat × Access) =>
      if i.ins.isVector then ⟨0, getE 32 o.c.bits (x.1 / 4), 0⟩ else ⟨0, lowBits W o.b.bits, lowBits W o.c.bits⟩
    s.updBlock i.aid fun blk => (blk.setStat i.idx .fired).effect i.idx
      (.mem op i.ins.ty W (accessesOf i.ins.isVector (xs.map fun x => (x.2, elem x))) i.ins.isVector (i.follows o)
        i.ins.tokenReg 0)

/-- AADD (13 R270). -/
def execAadd (f : FX) (s : State) : Host.Outcome State Fault Refusal := .next (s.issue (f.ins 0x9E) (atomicBody .add false))
/-- AMIN (13 R270). -/
def execAmin (f : FX) (s : State) : Host.Outcome State Fault Refusal := .next (s.issue (f.ins 0x9F) (atomicBody .min false))
/-- AMAX (13 R270). -/
def execAmax (f : FX) (s : State) : Host.Outcome State Fault Refusal := .next (s.issue (f.ins 0xA0) (atomicBody .max false))
/-- AAND (13 R270). -/
def execAand (f : FX) (s : State) : Host.Outcome State Fault Refusal := .next (s.issue (f.ins 0xA1) (atomicBody .and false))
/-- AOR (13 R270). -/
def execAor (f : FX) (s : State) : Host.Outcome State Fault Refusal := .next (s.issue (f.ins 0xA2) (atomicBody .or false))
/-- AXOR (13 R270). -/
def execAxor (f : FX) (s : State) : Host.Outcome State Fault Refusal := .next (s.issue (f.ins 0xA3) (atomicBody .xor false))
/-- AXCHG (13 R270). -/
def execAxchg (f : FX) (s : State) : Host.Outcome State Fault Refusal := .next (s.issue (f.ins 0xA4) (atomicBody .xchg false))
/-- ACAS (13 R270). -/
def execAcas (f : FX) (s : State) : Host.Outcome State Fault Refusal := .next (s.issue (f.ins 0xA5) (atomicBody .cas false))
/-- AFADD (13 R270). -/
def execAfadd (f : FX) (s : State) : Host.Outcome State Fault Refusal := .next (s.issue (f.ins 0xA6) (atomicBody .fadd false))
/-- AADDV (13 R272). -/
def execAaddv (f : FX) (s : State) : Host.Outcome State Fault Refusal :=
  .next (s.issue (f.ins 0xA7) (atomicBody (if f.ety = 8 then .fadd else .add) false))
/-- AMINU (13 R270). -/
def execAminu (f : FX) (s : State) : Host.Outcome State Fault Refusal := .next (s.issue (f.ins 0xAC) (atomicBody .minu false))
/-- AMAXU (13 R270). -/
def execAmaxu (f : FX) (s : State) : Host.Outcome State Fault Refusal := .next (s.issue (f.ins 0xAD) (atomicBody .maxu false))
/-- LKACQ (13 R273). -/
def execLkacq (f : FX) (s : State) : Host.Outcome State Fault Refusal := .next (s.issue (f.ins 0xA8) (atomicBody .lkacq true))
/-- LKREL (13 R273). -/
def execLkrel (f : FX) (s : State) : Host.Outcome State Fault Refusal := .next (s.issue (f.ins 0xA9) (atomicBody .lkrel true))

/-- The word of a lock as it stands (13 R274). -/
def State.peekWord (s : State) (pa : Nat) : Nat := bytesNat ((s.recall pa).homeBytes pa 8)

/-- LKWAIT (13 R274): a word held by the issuer's own context raises LOCK_INVERSION before commit. -/
def execLkwait (f : FX) (s : State) : Host.Outcome State Fault Refusal :=
  .next (s.issue (f.ins 0xAA) fun i o s =>
    let inverted := match s.access i.aid (i.va o) 8 needBoth with
      | (s, .ok x) => x.mt < 2 && (let w := s.peekWord x.pa; w.testBit 63 && bitsAt w 0 10 == i.g.ctx)
      | _ => false
    if inverted && i.va o % 8 = 0 then s.faultAt i cLOCK_INVERSION (i.va o) else atomicBody .lkwait true i o s)

/-- The holder form of a lock word (12 R256). -/
def holderForm (ctx inc : Nat) : Nat := 2 ^ 63 + inc % 2 ^ 16 * 2 ^ 16 + ctx % 2 ^ 10

/-- The word after a scalar atomic, and the value returned for it (13 R270, R273). -/
def rmwNew (op : MemOp) (W b c holder old : Nat) : Nat :=
  match op with
  | .add => (old + b) % 2 ^ W
  | .min => if sint W b < sint W old then b else old
  | .max => if sint W old < sint W b then b else old
  | .minu => min old b
  | .maxu => max old b
  | .and => old &&& b
  | .or => old ||| b
  | .xor => old ^^^ b
  | .xchg => b
  | .cas => if old = b then c else old
  | .fadd => (fmtF32.addF 0 (fmtF32.value old) (fmtF32.value b)).1
  | .lkacq | .lkwait => if old = 0 then holder else old
  | .lkrel => if old = holder then 0 else old
  | .store _ => old

/-- The value a scalar atomic's register receives. -/
def rmwResult (op : MemOp) (ty W holder old : Nat) : Nat :=
  match op with
  | .lkacq => if old = 0 then 0 else 1
  | .lkwait => 0
  | .lkrel => if old = holder then 0 else 2
  | _ => if etySigned ty then wrap 64 (sint W old) else old

end Sys2Proof.Machine
end

