-- ==== Sys2Proof/Machine/Engine.lean ====
section
/-! DEFINITION. Engine commands up to their block's commit, the engine queues, the units of work of the copy engine, and the
shapes of the address generators (spec 14 R277 to R285, R295, R299; 13 R275). -/
namespace Sys2Proof.Machine

/-! ### Commands up to commit (14 R277, R279) -/

/-- An engine instruction issues its command, which enters its queue at commit. -/
def cmdBody (q : EngineKind) (args : Issue → Operands → CmdArgs) (i : Issue) (o : Operands) (s : State) : State :=
  s.updBlock i.aid fun b =>
    (b.setStat i.idx .fired).effect i.idx (.cmd q (args i o) (i.follows o) i.ins.tokenReg none)

/-- The literal of an F2 form, or a value for F1. -/
def Issue.litOr (i : Issue) (d : Nat) : Nat := match i.ins.lit with
  | some l => l.toNat
  | none => d

/-- The operands of a copy: destination, source, length (14 R281). -/
def cpyArgs (i : Issue) (o : Operands) : CmdArgs :=
  ⟨i.ins.op, 0, 0, scalNat o.a.bits, scal (scalNat o.b.bits), i.litOr (scalNat o.c.bits), 0⟩

/-- Operands with an address in A and a vector or scalar in B. -/
def addrArgs (i : Issue) (o : Operands) : CmdArgs :=
  ⟨i.ins.op, i.ins.rm, i.ins.ty, i.va o, o.b.bits, scalNat o.c.bits, 0⟩

/-- The operands of a pass: A itself stands beside the address of row 0 (14 R290). -/
def passArgs (i : Issue) (o : Operands) : CmdArgs := { addrArgs i o with c := scalNat o.a.bits }

/-- Operands without an address, with the literal of F2 or a value for F1. -/
def plainArgs (d : Nat) (i : Issue) (o : Operands) : CmdArgs :=
  ⟨i.ins.op, i.ins.rm, i.ins.ty, scalNat o.a.bits, o.b.bits, scalNat o.c.bits, i.litOr d⟩

/-- CPY (14 R281). -/
def execCpy (f : FX) (s : State) : Host.Outcome State Fault Refusal :=
  .next (s.issue (f.ins 0xB0) (cmdBody .copy cpyArgs))

/-- CPYX (14 R282): a zero goes at issue to slot C of the linked matrix instruction. -/
def execCpyx (f : FX) (s : State) : Host.Outcome State Fault Refusal :=
  .next (s.issue (f.ins 0xB1) fun i o s =>
    let linked := match Target.of i.ins.t1 with
      | .slot _ j => some j
      | .reg _ => none
    (s.updBlock i.aid fun b => (b.setStat i.idx .fired).effect i.idx
      (.cmd .copy (cpyArgs i o) (i.follows o) i.ins.tokenReg linked)).sendTo i.aid i.idx (Target.of i.ins.t1) ⟨0, o.dep⟩ 0)

/-- CPYT (14 R284). -/
def execCpyt (f : FX) (s : State) : Host.Outcome State Fault Refusal :=
  .next (s.issue (f.ins 0xB2) (cmdBody .copy (plainArgs 1)))

/-- MLD_L (14 R287). -/
def execMldL (f : FX) (s : State) : Host.Outcome State Fault Refusal :=
  .next (s.issue (f.ins 0xB3) (cmdBody .matrix addrArgs))

/-- MLD_A (14 R287). -/
def execMldA (f : FX) (s : State) : Host.Outcome State Fault Refusal :=
  .next (s.issue (f.ins 0xB3) (cmdBody .matrix addrArgs))

/-- MMUL (14 R289). -/
def execMmul (f : FX) (s : State) : Host.Outcome State Fault Refusal :=
  .next (s.issue (f.ins 0xB4) (cmdBody .matrix passArgs))

/-- MRD (14 R293): a selector with bits above [6] raises ILLEGAL_TARGET, precise at the block. -/
def execMrd (f : FX) (s : State) : Host.Outcome State Fault Refusal :=
  .next (s.issue (f.ins 0xB5) fun i o s =>
    if scalNat o.a.bits ≥ 128 then s.faultAt i cTARGET 0 else cmdBody .matrix (plainArgs 0) i o s)

/-- MCLR_F0 (14 R294). -/
def execMclrF0 (f : F0) (s : State) : Host.Outcome State Fault Refusal :=
  .next (s.issue (f.ins 0xB6) (cmdBody .matrix (plainArgs 0)))

/-- MCLR_F1 (14 R294). -/
def execMclrF1 (f : FX) (s : State) : Host.Outcome State Fault Refusal :=
  .next (s.issue (f.ins 0xB6) (cmdBody .matrix (plainArgs 0)))

/-- MFMT (14 R288). -/
def execMfmt (f : FX) (s : State) : Host.Outcome State Fault Refusal :=
  .next (s.issue (f.ins 0xB7) (cmdBody .matrix (plainArgs 0)))

/-- The barrier instructions (14 R295, R296): what they do begins at commit. -/
def barBody (kind : Nat) (i : Issue) (o : Operands) (s : State) : State :=
  s.updBlock i.aid fun b => (b.setStat i.idx .fired).effect i.idx
    (.bar kind (i.litOr 0) (scalNat o.a.bits % 2 ^ 16) (i.follows o) i.ins.tokenReg)

/-- BAR (14 R296). -/
def execBar (f : FX) (s : State) : Host.Outcome State Fault Refusal := .next (s.issue (f.ins 0xB8) (barBody 0))
/-- BARA (14 R296). -/
def execBara (f : FX) (s : State) : Host.Outcome State Fault Refusal := .next (s.issue (f.ins 0xB9) (barBody 1))
/-- BARW (14 R296). -/
def execBarw (f : FX) (s : State) : Host.Outcome State Fault Refusal := .next (s.issue (f.ins 0xBA) (barBody 2))

/-- `genk` takes effect at commit: its selector, key and counter (14 R299). -/
def genkBody (i : Issue) (o : Operands) (s : State) : State :=
  s.updBlock i.aid fun b => (b.setStat i.idx .fired).effect i.idx
    (.sys ⟨0xBB, i.ins.rm, i.litOr 0, scal (scalNat o.a.bits) ||| (scal (scalNat o.b.bits) <<< 64), i.ins.tokenReg⟩ (i.follows o))

/-- GENK (14 R299). -/
def execGenk (f : FX) (s : State) : Host.Outcome State Fault Refusal := .next (s.issue (f.ins 0xBB) genkBody)
/-- GENK_FLUSH (14 R299). -/
def execGenkFlush (f : FX) (s : State) : Host.Outcome State Fault Refusal := .next (s.issue (f.ins 0xBB) genkBody)

/-! ### Queues -/

def Agent.setEngineQ (g : Agent) (e : EngineKind) (q : List Cmd) : Agent :=
  match e with
  | .copy => { g with copyQ := q }
  | .matrix => { g with matrixQ := q }
  | .needle => { g with needleQ := q }
  | .fuller => { g with fullerQ := q }

/-- A command of an agent's queue. -/
def State.cmd? (s : State) (a : Aid) (e : EngineKind) (id : Nat) : Option Cmd :=
  (s.agent? a).bind fun g => (g.engineQ e).find? fun c => c.id == id

/-- Changes a command of an agent's queue. -/
def State.updCmd (s : State) (a : Aid) (e : EngineKind) (id : Nat) (f : Cmd → Cmd) : State :=
  s.updAgent a fun g => g.setEngineQ e ((g.engineQ e).map fun c => if c.id = id then f c else c)

/-- A command gets its result. -/
def State.cmdDone (s : State) (a : Aid) (e : EngineKind) (id : Nat) (v : Vec) : State :=
  s.updCmd a e id fun c => { c with result := some v }

/-- Engine statuses (14 R278, 16 R321, R336, R337). -/
def eBADCMD : Nat := 1
def eNOGROUP : Nat := 2
def eSHAPE : Nat := 3
def eBUSY : Nat := 4
def eCANCELLED : Nat := 5
def eTILEK : Nat := 6
def eFULL : Nat := 7
def eRANGE : Nat := 8
def eBADMARK : Nat := 9
def eNOSNAP : Nat := 10
def eNOWALK : Nat := 11

/-- The token of a failed command (14 R278). -/
def failToken (cause sub prog : Nat) : Nat := 2 ^ 63 + prog % 2 ^ 40 * 2 ^ 16 + sub * 2 ^ 8 + cause

/-- A command fails with an engine status, or with the cause of an access. -/
def State.cmdBad (s : State) (a : Aid) (e : EngineKind) (id sub : Nat) : State :=
  s.cmdDone a e id (scal (failToken cENGINE sub 0))
def State.cmdFault (s : State) (a : Aid) (e : EngineKind) (id cause prog : Nat) : State :=
  s.cmdDone a e id (scal (failToken cause 0 prog))

/-- A started command asks to be served: one request, under the command's own number, that stays until the command has no
more work. -/
def State.askEngine (s : State) (a : Aid) (e : EngineKind) (c : Cmd) : State :=
  match s.agent? a with
  | none => s
  | some g => s.updMs fun m => { m with
      reqs := m.reqs ++ [⟨c.id, a, g.ctx, s.incOf a g, .engine, ⟨0, 0, 0, 0, none⟩, [], c.after, .cmd a e c.id, none, none, [],
        none, c.origin⟩] }

/-- The ME of an agent's quad that it owns (14 R286). -/
def State.meOf (s : State) (a : Aid) : Option (Nid × Me) := s.fab.mes.find? fun e => e.2.owner == a

/-- Changes a matrix element. -/
def State.updMe (s : State) (n : Nid) (f : Me → Me) : State :=
  s.updFab fun x => { x with mes := Tab.modify x.mes n f }

/-- Whether the start rule of a command holds: those ahead of it in its queue have completed as far as its op asks (14 R281,
R287 to R294; 16 R318), the copy it is linked to has completed, and so has every linked matrix command ahead of it (R282). -/
def State.startable (s : State) (a : Aid) (g : Agent) (e : EngineKind) (c : Cmd) (earlier : List Cmd) : Bool :=
  (match c.link with
    | some l => !(g.copyQ.any fun d => d.id == l)
    | none => true) && !(e == .matrix && earlier.any Cmd.linked) &&
  match e, c.args.op, c.args.rm with
  | .matrix, 0xB3, 0 => !(earlier.any fun d => d.args.op == 0xB3) && (c.cancelled || match s.meOf a with
    | some (_, m) => !m.full
    | none => true)
  | .matrix, 0xB4, _ => !(earlier.any fun d => !(d.args.op == 0xB3 && d.args.rm == 0))
  | .matrix, 0xB5, _ => !(earlier.any fun d => d.args.op == 0xB4)
  | .needle, 0xC9, _ => true
  | _, _, _ => earlier.isEmpty

/-- The first command of a queue that has not started, with those ahead of it. -/
def firstUnstarted : List Cmd → List Cmd → Option (Cmd × List Cmd)
  | _, [] => none
  | before, c :: cs => if c.started then firstUnstarted (before ++ [c]) cs else some (c, before)

/-- A tile load into `wl` (14 R287). -/
def Cmd.loadsWl (c : Cmd) : Bool := c.args.op == 0xB3 && c.args.rm == 0

/-- The pass, with those ahead of it, behind which only tile loads into `wl` wait for their start: a pass waits for none of them
(14 R289; log 45) that is not linked to a copy (R282). -/
def passBehind : List Cmd → List Cmd → Option (Cmd × List Cmd)
  | _, [] => none
  | before, c :: cs =>
    if c.started || (c.loadsWl && !c.linked) then passBehind (before ++ [c]) cs else if c.args.op = 0xB4 then some (c, before) else none

/-- The command of a queue that starts next (14 R277): the first that has not started, once its start rule holds. -/
def State.nextStart (s : State) (a : Aid) (g : Agent) (e : EngineKind) : Option Cmd :=
  match firstUnstarted [] (g.engineQ e) with
  | none => none
  | some (c, earlier) =>
    if s.startable a g e c earlier then some c
    else
      match e, passBehind [] (g.engineQ e) with
      | .matrix, some (d, before) => if s.startable a g e d before then some d else none
      | _, _ => none

/-! ### The copy engine (14 R281) -/

/-- The bytes an overlapping copy writes: the value a byte's source held before, or the one that the copy wrote there, as the
free bits choose. `d` is source minus destination; the bytes are made in the order in which each depends on the last. -/
def overlapBytes (src : List Byte) (d : Int) (bit : Nat → Bool) : List Byte :=
  let n := src.length
  let pick := fun (done : Tab Nat Byte) (j : Nat) =>
    let k : Int := j + d
    let old := src.getD j 0
    if bit j && 0 ≤ k && k < n then (Tab.get? done k.toNat).getD old else old
  let order := if d ≥ 0 then (List.range n).reverse else List.range n
  let done := order.foldl (fun (t : Tab Nat Byte) j => (j, pick t j) :: t) []
  (List.range n).map fun j => (Tab.get? done j).getD 0

/-- The ranges of a copy overlap. -/
def copyOverlaps (a b len : Nat) : Bool := a != b && (wrap 64 ((b : Int) - a) < len || wrap 64 ((a : Int) - b) < len)

/-- The signed distance of two addresses. -/
def distance (a b : Nat) : Int := sint 64 (wrap 64 ((b : Int) - a))

/-- The first piece of a range within its line. -/
def nextPiece (va len : Nat) : Nat × Nat := (va, min len (64 - va % 64))

/-- The context of an agent. -/
def State.ctxOf (s : State) (a : Aid) : Nat := ((s.agent? a).map (·.ctx)).getD 0

/-- An engine may read an address: a read of an IO page waits for the VF's bucket (24 R434). -/
def State.engineMayRead (s : State) (a : Aid) (va len : Nat) : Bool :=
  match (s.access a va len needRead).2 with
  | .ok x => !(x.mt == 2 && s.limited (s.vfOf (s.ctxOf a)))
  | .error _ => true

/-- One read of an engine: its bytes, or the cause. -/
def State.engineRead (s : State) (a : Aid) (e : EngineKind) (va len : Nat) : State × Except Nat (List Byte) :=
  match s.access a va len needRead with
  | (s, .error c) => (s, .error c)
  | (s, .ok x) =>
    let ctx := s.ctxOf a
    match s.readAccess (.engine a e) ctx x false with
    | (s, bs, ue) => (s, if ue then .error cMEMORY_UE else .ok bs)

/-- A part of an access. -/
def Access.part (x : Access) (off len : Nat) : Access := { x with va := x.va + off, pa := x.pa + off, len := len }

/-- The runs of enabled bytes of a part of a store: offset and length. -/
def enabledRuns (en : Nat) : Nat → Nat → List (Nat × Nat)
  | 0, _ => []
  | n + 1, off =>
    if en.testBit off then
      match enabledRuns en n (off + 1) with
      | (o, l) :: rest => if o = off + 1 then (off, l + 1) :: rest else (off, 1) :: (o, l) :: rest
      | [] => [(off, 1)]
    else enabledRuns en n (off + 1)

/-- Writes the enabled bytes of a part of a line that is no IO page, as one event (15 R301); false where an uncorrectable error stops
it. -/
def State.writeEnabled (s : State) (i : Issuer) (ctx : Nat) (x : Access) (bytes : List Byte) (en : Nat) (sys : Bool) : State × Bool :=
  (enabledRuns en bytes.length 0).foldl (fun (r : State × Bool) p =>
    if r.2 then r.1.writeAccess i ctx (x.part p.1 p.2) ((bytes.drop p.1).take p.2) sys else (r.1, false)) (s, true)

/-- The posted write of the enabled bytes of a part of a line of an IO page, from the first of them to the last (15 R301, 24 R426). -/
def State.posted (s : State) (a : Aid) (ctx id : Nat) (x : Access) (bytes : List Byte) (en : Nat) (reg : Option (Aid × Nat × Nat)) :
    List IoWrite :=
  match enabledRuns en bytes.length 0 with
  | [] => []
  | (lo, n) :: rest =>
    let len := (match rest.getLast? with
      | some (o, k) => o + k
      | none => lo + n) - lo
    [⟨id, some a, ctx, s.vfOf ctx, x.pa + lo, (bytes.drop lo).take len, false, reg, [], none, en / 2 ^ lo % 2 ^ len⟩]

/-- One write of an engine: the enabled bytes of a part of a line, as one event. A store to an IO page waits at the IOP, and the command's
later work follows it (24 R426). -/
def State.engineWrite (s : State) (a : Aid) (e : EngineKind) (id va : Nat) (bytes : List Byte) (en : Nat) : State × Except Nat Unit :=
  match s.access a va bytes.length needWrite with
  | (s, .error c) => (s, .error c)
  | (s, .ok x) =>
    if x.mt = 2 then
      let (n, s) := s.takeId
      (s.updMs fun m => { m with
        ioWrites := m.ioWrites ++ s.posted a (s.ctxOf a) n x bytes en none
        reqs := m.reqs.map fun r => if r.id = id then { r with after := r.after ++ [n] } else r }, .ok ())
    else
      match s.writeEnabled (.engine a e) (s.ctxOf a) x bytes en false with
      | (s, true) => (s, .ok ())
      | (s, false) => (s, .error cMEMORY_UE)

/-- The request of a command waits for posted writes of it (24 R426). -/
def State.awaitsPosted (s : State) (id : Nat) : Bool :=
  s.ms.reqs.any fun r => r.id == id && r.after.any fun n => s.ms.ioWrites.any fun w => w.id == n

/-- How much of its source a copy has read before its next write: all of it where its ranges overlap. -/
def Cmd.copyWant (c : Cmd) : Nat :=
  if copyOverlaps c.args.a (scalNat c.args.b) c.args.c then c.args.c
  else c.progress + (nextPiece (wrap 64 (c.args.a + c.progress : Nat)) (c.args.c - c.progress)).2

/-- The address of a copy's next access. -/
def Cmd.copyVa (c : Cmd) : Option Nat :=
  if c.progress ≥ c.args.c then none
  else some (wrap 64 (if c.got < c.copyWant then (scalNat c.args.b + c.got : Nat) else (c.args.a + c.progress : Nat)))

/-- One event of a copy: the read of the next source line, or the write of the next destination line once its bytes have been
read. A copy whose ranges overlap reads everything first. One whose last write is posted is done once that has been acknowledged: its
target may refuse it (24 R431). -/
def State.copyUnit (s : State) (a : Aid) (c : Cmd) : State :=
  let dst := c.args.a
  let src := scalNat c.args.b
  let len := c.args.c
  if c.progress ≥ len then s.cmdDone a .copy c.id (scal len)
  else
    let w := nextPiece (wrap 64 (dst + c.progress : Nat)) (len - c.progress)
    let overlaps := copyOverlaps dst src len
    if c.got < c.copyWant then
      let r := nextPiece (wrap 64 (src + c.got : Nat)) (len - c.got)
      if !s.engineMayRead a r.1 r.2 then s
      else match s.engineRead a .copy r.1 r.2 with
      | (s, .error cause) => s.cmdFault a .copy c.id cause c.progress
      | (s, .ok bs) =>
        let buf := c.buf ++ bs
        let got := c.got + r.2
        if overlaps && got = len then
          let base := s.fresh
          let s := { s with fresh := base + len / 512 + 1 }
          let chosen := overlapBytes buf (distance dst src) fun j => (Config.freeValue (base + j / 512)).getLsbD (j % 512)
          s.updCmd a .copy c.id fun c => { c with buf := chosen, got := got }
        else s.updCmd a .copy c.id fun c => { c with buf := buf, got := got }
    else
      match s.engineWrite a .copy c.id w.1 (c.buf.take w.2) (allEnabled w.2) with
      | (s, .error cause) => s.cmdFault a .copy c.id cause c.progress
      | (s, .ok _) =>
        let s := s.updCmd a .copy c.id fun c => { c with buf := c.buf.drop w.2, progress := c.progress + w.2 }
        if c.progress + w.2 = len && !s.awaitsPosted c.id then s.cmdDone a .copy c.id (scal len) else s

/-! ### Address generators (14 R283 to R285, 13 R275) -/

/-- Elements of a round. -/
def Shape.count (sh : Shape) : Nat := sh.ext.foldl (· * ·) 1

/-- The address of element `i` of a round, index 0 fastest. -/
def Shape.addr (sh : Shape) (i : Nat) : Nat :=
  let r := (sh.ext.zip sh.str).foldl (fun (acc : Int × Nat) e => (acc.1 + ((acc.2 % e.1 : Nat) : Int) * e.2, acc.2 / e.1))
    ((sh.base : Int), i)
  wrap 64 r.1

def State.updAgen (s : State) (n : Nid) (f : Agen → Agen) : State :=
  s.updFab fun x => { x with agens := Tab.modify x.agens n f }

/-- A parameter applied to a shape: key 0 the base, keys 1 to 5 an extent; none where it is refused (14 R285). -/
def Shape.param (sh : Shape) (r : Record) : Option Shape :=
  if !r.kv then none
  else if r.key = 0 then some { sh with base := scalNat r.payload }
  else
    let v := r.payload.toNat % 2 ^ 32
    if r.key ≤ 5 && v != 0 && r.key ≤ sh.ext.length then some { sh with ext := sh.ext.set (r.key - 1) v } else none

/-- Takes entries of a parameter port until one DATA record with `kv` set has been taken: control tokens are ignored and a
record that is no parameter counts AGEN_BADPARAM. -/
def State.takeParam (s : State) (n : Nid) (q : Qid) : Nat → State
  | 0 => s
  | fuel + 1 =>
    match s.takeHead q with
    | (s, none) => s
    | (s, some r) =>
      if r.kind != kDATA then s.takeParam n q fuel
      else
        let (die, vq) := match Tab.get? s.sched.regions n.rid with
          | some g => g.quad n.row n.col
          | none => (0, 0)
        let bad := s.count die (some vq) 0x44
        match (Tab.get? s.fab.agens n).bind (·.shape) with
        | none => bad
        | some sh =>
          match sh.param r with
          | some sh' => s.updAgen n fun g => { g with shape := some sh' }
          | none => if r.kv then bad else bad.takeParam n q fuel

/-- The token of an installed `ldsh`: 0 (13 R275). -/
def State.installShape (s : State) (n : Nid) (e : Shape × Aid × Nat × Nat × List Nat) : State :=
  (s.updAgen n fun g => { g with shape := some e.1 }).arrive e.2.1 e.2.2.1 e.2.2.2.1 0 e.2.2.2.2

/-- A round boundary (14 R284): pending replacements, then one record of the parameter port. -/
def State.roundBoundary (s : State) (n : Nid) : State :=
  match Tab.get? s.fab.agens n with
  | none => s
  | some g =>
    let s := g.next.foldl (fun s e => s.installShape n e) (s.updAgen n fun g => { g with next := [] })
    match g.port with
    | some q => s.takeParam n q (((s.queue? q).map fun x => x.items.length).getD 0)
    | none => s

/-- `ldsh` at commit: a bad record is not installed; a group between rounds takes it at once. -/
def State.loadShape (s : State) (n : Nid) (bytes : List Byte) (a : Aid) (reg id : Nat) (dep : List Nat) : State :=
  match Shape.ofBytes bytes, Tab.get? s.fab.agens n with
  | none, _ => s.arrive a reg id (failToken cENGINE eBADCMD 0) dep
  | some _, none => s.arrive a reg id (failToken cENGINE eNOGROUP 0) dep
  | some sh, some g =>
    if g.busy.isNone then s.installShape n (sh, a, reg, id, dep)
    else s.updAgen n fun g => { g with next := g.next ++ [(sh, a, reg, id, dep)] }

/-- The group a selector names: BADCMD for stray bits, NOGROUP where there is no group of the mode (14 R280). -/
def State.selectGroup (s : State) (a : Aid) (sel : Nat) (mode : BankMode) : Except Nat Nid :=
  let mu := bitsAt sel 8 17
  let bank := bitsAt sel 25 3
  if sel != mu * 2 ^ 8 + bank * 2 ^ 25 then .error eBADCMD
  else
    match s.groupAt a mu bank with
    | some (n, g) => if g.mode = mode then .ok n else .error eNOGROUP
    | none => .error eNOGROUP

/-- The lines that a round of a shape touches, in the order in which its elements reach them. -/
def Shape.lines (sh : Shape) : List Nat :=
  ((List.range sh.count).foldl (fun (ls : List Nat) i => if ls.contains (sh.addr i / 64) then ls else sh.addr i / 64 :: ls) []).reverse

/-- The elements of a round that lie on a line. -/
def Shape.onLine (sh : Shape) (line : Nat) : List Nat := (List.range sh.count).filter fun i => sh.addr i / 64 == line

/-- The span of the elements of a round on a line: offset and length. -/
def Shape.span (sh : Shape) (line : Nat) : Nat × Nat :=
  let offs := (sh.onLine line).map fun i => sh.addr i % 64
  let lo := offs.foldl min 64
  (lo, offs.foldl max 0 + 2 ^ sh.esz - lo)

/-- The byte addresses of a round, in element order. -/
def Shape.byteAddrs (sh : Shape) : List Nat :=
  (List.range sh.count).flatMap fun i => (List.range (2 ^ sh.esz)).map fun k => sh.addr i + k

/-- The source bytes of a round in element order, out of the lines read: 64 bytes for each, in the order of `Shape.lines`. -/
def Shape.sourceBytes (sh : Shape) (buf : List Byte) : List Byte :=
  sh.byteAddrs.map fun x => buf.getD (64 * sh.lines.findIdx (· == x / 64) + x % 64) 0

/-- The byte of a round that stays at a destination address: where several name it, free bits choose (14 R284). -/
def writerOf (dst : List Nat) (bit : Nat → Bool) (x : Nat) : Option Nat :=
  (List.range dst.length).foldl (fun w j => if dst.getD j 0 = x ∧ (w.isNone ∨ bit j) then some j else w) none

/-- The value that byte `j` of a round takes: what its source held before, or, as a free bit chooses, what the copy writes there (14
R281, R284). The fuel ends a ring of such choices. -/
def chosenByte (src : List Nat) (writer : Nat → Option Nat) (old : List Byte) (bit : Nat → Bool) : Nat → Nat → Byte
  | 0, j => old.getD j 0
  | fuel + 1, j => match writer (src.getD j 0) with
    | some k => if bit j then chosenByte src writer old bit fuel k else old.getD j 0
    | none => old.getD j 0

/-- What a round writes: 64 bytes for each destination line, zero where it writes nothing. -/
def roundImage (ds qs : Shape) (buf : List Byte) (bit : Nat → Bool) : List Byte :=
  let src := qs.byteAddrs
  let dst := ds.byteAddrs
  let writer := writerOf dst fun j => bit (dst.length + j)
  let old := qs.sourceBytes buf
  ds.lines.flatMap fun line => (List.range 64).map fun o => match writer (64 * line + o) with
    | some j => chosenByte src writer old bit (dst.length + 1) j
    | none => 0

/-- What a round writes on a line: the offset of its first byte there, the bytes from it to the last, and which of them it writes. -/
def Shape.lineWrite (ds : Shape) (line : Nat) (bytes : List Byte) : Nat × List Byte × Nat :=
  let dst := ds.byteAddrs
  let (o, n) := ds.span line
  (o, (bytes.drop o).take n, sumNat ((List.range n).map fun k => bitAt (dst.contains (64 * line + o + k)) k))

/-- A group stands at a round boundary at which nothing reads it: its replacements are installed (13 R275, 14 R284). -/
def State.releaseAgen (s : State) (n : Nid) : State :=
  let waiting := ((Tab.get? s.fab.agens n).map (·.next)).getD []
  waiting.foldl (fun s e => s.installShape n e) (s.updAgen n fun g => { g with busy := none, next := [] })

/-- The groups that a command's round has taken stand at their boundaries. -/
def State.releaseRound (s : State) (id : Nat) : State :=
  (s.fab.agens.filter fun e => e.2.busy == some id).foldl (fun s e => s.releaseAgen e.1) s

/-- A `cpyt` fails: its groups stand at their boundaries; `prog` counts the bytes of the destination lines it has written (14 R278,
R281). -/
def State.cpytFails (s : State) (a : Aid) (c : Cmd) (d q : Nid) (cause sub : Nat) : State :=
  ((s.releaseAgen d).releaseAgen q).cmdDone a .copy c.id (scal (failToken cause sub c.progress))

/-- The line of a `cpyt`'s next access in a round that it has begun. -/
def State.cpytVa (s : State) (a : Aid) (c : Cmd) : Option Nat :=
  match s.selectGroup a c.args.a .agen, s.selectGroup a (scalNat c.args.b) .agen with
  | .ok d, .ok q =>
    match Tab.get? s.fab.agens d, Tab.get? s.fab.agens q with
    | some dg, some qg =>
      if dg.busy != some c.id || qg.busy != some c.id then none
      else match dg.shape, qg.shape with
        | some ds, some qs => (qs.lines[c.got]? <|> ds.lines[c.lines]?).map (64 * ·)
        | _, _ => none
    | _, _ => none
  | _, _ => none

/-- One event of a `cpyt` (14 R281, R284): the start of a round, the read of the next source line of its round, or, once the round's source has been read,
the write of the next destination line. A round starts at a boundary of both groups, where the pending changes apply and the shapes
must agree. -/
def State.cpytUnit (s : State) (a : Aid) (c : Cmd) : State :=
  match s.selectGroup a c.args.a .agen, s.selectGroup a (scalNat c.args.b) .agen with
  | .error e, _ => s.cmdBad a .copy c.id e
  | _, .error e => s.cmdBad a .copy c.id e
  | .ok d, .ok q => if c.rnd ≥ c.args.lit then s.cmdDone a .copy c.id (scal c.progress) else
    let mine := fun (n : Nid) => (Tab.get? s.fab.agens n).map (·.busy)
    let free := fun (n : Nid) => mine n == some none || mine n == some (some c.id)
    if !(free d && free q) then s
    else
      let starting := mine d == some none
      let s := if starting then (let s := s.roundBoundary d; if d = q then s else s.roundBoundary q) else s
      match (Tab.get? s.fab.agens d).bind (·.shape), (Tab.get? s.fab.agens q).bind (·.shape) with
      | some ds, some qs =>
        if starting && (ds.count != qs.count || ds.esz != qs.esz) then s.cpytFails a c d q cENGINE eSHAPE
        else if (List.range ds.count).any fun i => ds.addr i % 2 ^ ds.esz != 0 || qs.addr i % 2 ^ ds.esz != 0 then
          s.cpytFails a c d q cALIGN 0
        else
          let s := (s.updAgen d fun g => { g with busy := some c.id }).updAgen q fun g => { g with busy := some c.id }
          if starting then s
          else match qs.lines[c.got]? with
          | some line =>
            let (o, len) := qs.span line
            if !s.engineMayRead a (line * 64 + o) len then s
            else
              match s.engineRead a .copy (line * 64 + o) len with
              | (s, .error e) => s.cpytFails a c d q e 0
              | (s, .ok bs) =>
                let buf := c.buf ++ spliceBytes (List.replicate 64 0) o bs
                if c.got + 1 < qs.lines.length then s.updCmd a .copy c.id fun c => { c with got := c.got + 1, buf := buf }
                else
                  -- The round's source has been read: what it writes is settled now, with the free bits it takes.
                  let total := ds.byteAddrs.length
                  let bit := fun (j : Nat) => (Config.freeValue (s.fresh + j / 512)).getLsbD (j % 512)
                  ({ s with fresh := s.fresh + 2 * total / 512 + 1 } : State).updCmd a .copy c.id fun c => { c with
                    got := c.got + 1, buf := roundImage ds qs buf bit }
          | none =>
            match ds.lines[c.lines]? with
            | none => s
            | some line =>
              let (o, bytes, en) := ds.lineWrite line ((c.buf.drop (64 * c.lines)).take 64)
              match s.engineWrite a .copy c.id (line * 64 + o) bytes en with
              | (s, .error e) => s.cpytFails a c d q e 0
              | (s, .ok _) =>
                let n := (ds.onLine line).length * 2 ^ ds.esz
                let last := c.lines + 1 = ds.lines.length
                let s := s.updCmd a .copy c.id fun c => { c with
                  progress := c.progress + n
                  lines := if last then 0 else c.lines + 1
                  got := if last then 0 else c.got
                  buf := if last then [] else c.buf
                  rnd := if last then c.rnd + 1 else c.rnd }
                let s := if last then (s.releaseAgen d).releaseAgen q else s
                if last && c.rnd + 1 = c.args.lit && !s.awaitsPosted c.id then s.cmdDone a .copy c.id (scal (c.progress + n)) else s
      | _, _ => s.cpytFails a c d q cENGINE eSHAPE

/-- A copy command starts: what is wrong with it before its first access. -/
def State.startCopy (s : State) (a : Aid) (c : Cmd) : State :=
  if c.args.op = 0xB2 then
    match s.selectGroup a c.args.a .agen, s.selectGroup a (scalNat c.args.b) .agen with
    | .error e, _ => s.cmdBad a .copy c.id e
    | _, .error e => s.cmdBad a .copy c.id e
    | .ok _, .ok _ => if c.args.lit = 0 then s.cmdBad a .copy c.id eBADCMD else s.askEngine a .copy c
  else if c.args.c ≥ 2 ^ 40 then s.cmdBad a .copy c.id eBADCMD
  else s.askEngine a .copy c

end Sys2Proof.Machine
end

