-- ==== Sys2Proof/Machine/Matrix.lean ====
section
/-! DEFINITION. The matrix element: tiles, the order of a pass's sums, memory-mode and stream-mode rows, swaps and emitted
records (spec 02 R24; 03 R42 to R45; 04 R60, R61; 14 R286 to R294). -/
namespace Sys2Proof.Machine

/-! ### Tiles (03 R45) -/

/-- Weights along K: 32 in 8-bit modes, 128 in LC2 (02 R24). -/
def Tile.kt (t : Tile) : Nat := if t.ty = 15 then 128 else 32

/-- The tile of 14 R286 at configuration: `i8` zeros with every scale `0x7F`. -/
def Tile.zero : Tile := ⟨0, List.replicate 1024 0, List.replicate 128 0x7F, []⟩

/-- The exact value of an activation or 8-bit weight of a type. -/
def cellValue (ty x : Nat) : FVal :=
  match ty with
  | 0 => let i := sint 8 x; .fin (decide (i < 0)) i.natAbs 0
  | 1 => .fin false x 0
  | _ => match floatFmt ty with
    | some F => F.value x
    | none => .nan false

/-- Weight (k, n). -/
def Tile.weight (t : Tile) (k n : Nat) : FVal :=
  if t.ty = 15 then
    let idx := bytesNat ((t.weights.drop (32 * n + 2 * (k / 8))).take 2)
    let row := bytesNat ((t.table.drop (4 * (idx / 256))).take 4)
    quarters ((decodeLC2 idx row).getD (k % 8) 0)
  else cellValue t.ty ((t.weights.getD (32 * n + k) 0).toNat)

/-- The scale of group `g` of column n. -/
def Tile.scale (t : Tile) (g n : Nat) : FVal :=
  e8m0Value (t.scales.getD (if t.ty = 15 then 4 * n + g else n) 0).toNat

/-- The size of a tile image (14 R287). -/
def imageSize (ty : Nat) : Nat := if ty = 15 then 2176 else 1152

/-- The tile of an image. -/
def Tile.ofBytes (ty : Nat) (bs : List Byte) : Tile :=
  ⟨ty, bs.take 1024, (bs.drop 1024).take 128, (bs.drop 1152).take 1024⟩

/-! ### One row (04 R60, R61) -/

/-- The new accumulator of column n, and the flags raised. A tile is one chunk: one group of 32 in 8-bit mode, four in LC2. -/
def mmColumn (t : Tile) (acts : List FVal) (n acc : Nat) : Nat × FlagSet :=
  let group := fun (g : Nat) =>
    let ps := (List.range 32).map fun k => (t.weight (32 * g + k) n).mul (acts.getD (32 * g + k) (.fin false 0 0))
    let (sum, f) := sumVals 0 (ps.map Prod.fst)
    let (scaled, f') := sum.mul (t.scale g n)
    (scaled, ps.foldl (fun f p => f ||| p.2) (f ||| f'))
  let gs := (List.range (t.kt / 32)).map group
  let (csum, f) := sumVals 0 (gs.map Prod.fst)
  let (part, f') := fmtF32.ofVal 0 csum
  let (out, f'') := fmtF32.addF 0 (fmtF32.value acc) (fmtF32.value part)
  (out, gs.foldl (fun f g => f ||| g.2) (f ||| f' ||| f'' ||| snan acts))

/-- The activations of a row's bytes. -/
def rowActs (ty kt : Nat) (bs : List Byte) : List FVal :=
  let w := if ty = 9 ∨ ty = 10 then 2 else 1
  (List.range kt).map fun k => cellValue ty (bytesNat ((bs.drop (w * k)).take w))

/-- The bytes of a row (14 R288). -/
def rowBytes (ty kt : Nat) : Nat := if ty = 9 ∨ ty = 10 then 2 * kt else kt

/-- An accumulator. -/
def Me.accOf (m : Me) (row col : Nat) : Nat := Tab.getD m.acc (row, col) 0

/-- Adds one row into an accumulator row. -/
def Me.addRow (m : Me) (accRow : Nat) (acts : List FVal) : Me :=
  (List.range 32).foldl (fun m n =>
    let (x, f) := mmColumn m.wa acts n (m.accOf accRow n)
    { m with acc := Tab.set m.acc (accRow, n) x, flags := m.flags ||| f }) m

/-- The two records of an emitted row (14 R292). -/
def Me.emitted (m : Me) (accRow time : Nat) (exc : Bool) : List Record :=
  let e := exc || (m.flags &&& (fNV ||| fOF)) != 0
  (List.range 2).map fun h =>
    ⟨packE 32 ((List.range 16).map fun j => m.accOf accRow (16 * h + j)), kDATA, 0x7C00, time % 2 ^ 32,
     m.vq * 2 ^ 23 + h * 2 ^ 22 + m.outRow, true, 0, false, e, false, []⟩

/-- The fields of a pass descriptor (14 R289). -/
structure PassDesc where
  str : Bool
  sw : Nat
  fslot : Nat
  emit : Bool
  abase : Nat
  rstride : Nat
  rows : Nat
  bad : Bool
  deriving DecidableEq, Repr

def PassDesc.of (b : Nat) : PassDesc :=
  ⟨bitsAt b 49 1 == 1, bitsAt b 41 8, bitsAt b 39 2, bitsAt b 38 1 == 1, bitsAt b 32 6, bitsAt b 16 16, bitsAt b 0 16,
   bitsAt b 50 14 != 0⟩

/-- A row is complete: it is added, counted and, under `emit`, put and cleared; `time` is that of its first record in stream
mode. -/
def State.finishRow (s : State) (n : Nid) (d : PassDesc) (row : Nat) (bytes : List Byte) (time : Option Nat) (exc : Bool)
    (sr : List Nat) : State :=
  match Tab.get? s.fab.mes n with
  | none => s
  | some m =>
    let ty := m.slots.getD d.fslot 11
    let r := (d.abase + row) % 64
    let m := m.addRow r (rowActs ty m.wa.kt bytes)
    let outs := m.emitted r (time.getD m.outRow) exc
    let m' := { m with
      outRow := (m.outRow + 1) % 2 ^ 22
      acc := if d.emit then m.acc.filter fun e => e.1.1 != r else m.acc }
    let s := s.updMe n fun _ => m'
    if d.emit then outs.foldl (fun s o => s.putOn? m.out { o with sr := sr }) s else s

/-- What a swap does (14 R290). -/
inductive Swapped where
  | exchanged | holds | tilek
  deriving DecidableEq, Repr

/-- The exchange of `wa` and `wl`. -/
def State.swapTiles (s : State) (n : Nid) : State × Swapped :=
  match Tab.get? s.fab.mes n with
  | none => (s, .holds)
  | some m =>
    if !m.full then (s, .holds)
    else if m.wa.kt != m.wl.kt then (s, .tilek)
    else (s.updMe n fun m => { m with wa := m.wl, wl := m.wa, full := false }, .exchanged)

/-! ### Passes (14 R289 to R291) -/

/-- The pass of an element is over, with its command's result. -/
def State.endPass (s : State) (n : Nid) (a : Aid) (id : Nat) (v : Nat) : State :=
  (s.updMe n fun m => { m with pass := none }).cmdDone a .matrix id (scal v)

/-- The bytes of a row of a pass. -/
def Me.rowSize (m : Me) (c : Cmd) : Nat := rowBytes (m.slots.getD (PassDesc.of (scalNat c.args.b)).fslot 11) m.wa.kt

/-- The next read of a memory-mode pass: of the row that follows those its buffer holds. A failure ends the pass (14 R290). -/
def State.readRow (s : State) (n : Nid) (a : Aid) (c : Cmd) (size : Nat) (go : State → List Byte → State) : State :=
  let d := PassDesc.of (scalNat c.args.b)
  let part := c.buf.length % size
  let p := nextPiece (wrap 64 (c.args.a + (c.progress + c.buf.length / size) * d.rstride + part : Nat)) (size - part)
  if !s.engineMayRead a p.1 p.2 then s
  else match s.engineRead a .matrix p.1 p.2 with
    | (s, .error cause) => s.endPass n a c.id (failToken cause 0 c.progress)
    | (s, .ok bs) => go s (c.buf ++ bs)

/-- The address of the next read of a memory-mode pass, while it has one. -/
def Me.passVa (m : Me) (c : Cmd) : Option Nat :=
  let d := PassDesc.of (scalNat c.args.b)
  let size := m.rowSize c
  if c.buf.length ≥ (d.rows - c.progress) * size then none
  else some (wrap 64 (c.args.a + (c.progress + c.buf.length / size) * d.rstride + c.buf.length % size : Nat))

/-- One event of a memory-mode pass: the swap its next row needs, then one line of that row. A pass that its swap holds first reads the
rows that remain, since an `mld.l` behind it, for which it may hold, has its own reads after them (15 R305). -/
def State.mmulUnit (s : State) (a : Aid) (c : Cmd) : State :=
  match s.meOf a with
  | none => s.cmdBad a .matrix c.id eBADCMD
  | some (n, m) =>
    let d := PassDesc.of (scalNat c.args.b)
    let size := m.rowSize c
    let swapped := match m.pass with
      | some p => p.swapped
      | none => false
    let needs := d.sw > 0 && d.sw < d.rows && c.progress == d.sw && !swapped
    let (s, outcome) := if needs then s.swapTiles n else (s, .exchanged)
    match outcome with
    | .holds =>
      if c.buf.length < (d.rows - c.progress) * size then
        s.readRow n a c size fun s buf => s.updCmd a .matrix c.id fun c => { c with buf := buf }
      else s.updMe n fun m => { m with pass := m.pass.map fun p => { p with held := true } }
    | .tilek => s.endPass n a c.id (failToken cENGINE eTILEK c.progress)
    | .exchanged =>
      let s := if needs then s.updMe n fun m => { m with pass := m.pass.map fun p => { p with swapped := true } } else s
      let finish := fun (s : State) (buf : List Byte) =>
        let s := s.finishRow n d c.progress (buf.take size) none false [c.id]
        let s := s.updCmd a .matrix c.id fun c => { c with buf := buf.drop size, progress := c.progress + 1 }
        if c.progress + 1 = d.rows then s.endPass n a c.id d.rows else s
      if size ≤ c.buf.length then finish s c.buf
      else s.readRow n a c size fun s buf =>
        if buf.length < size then s.updCmd a .matrix c.id fun c => { c with buf := buf } else finish s buf

/-- One event of a tile load. A held pass goes on once `wl` is full. -/
def State.mldUnit (s : State) (a : Aid) (c : Cmd) : State :=
  match s.meOf a with
  | none => s.cmdBad a .matrix c.id eBADCMD
  | some (n, m) =>
    -- `qo` keeps its reads after those of a pass ahead of it; one that is held has made them all (15 R305, 14 R290).
    let ahead := match s.agent? a with
      | some g => (g.matrixQ.takeWhile fun d => d.id != c.id).any fun d =>
        d.args.op == 0xB4 && d.result.isNone && s.ms.reqs.any (fun r => r.id == d.id) &&
        !(match m.pass with | some p => p.held | none => false)
      | none => false
    if ahead && c.args.rm = 0 then s
    else
      if !s.engineMayRead a (wrap 64 (c.args.a + c.buf.length : Nat)) 64 then s
      else match s.engineRead a .matrix (wrap 64 (c.args.a + c.buf.length : Nat)) 64 with
      | (s, .error cause) => s.cmdFault a .matrix c.id cause 0
      | (s, .ok bs) =>
        let buf := c.buf ++ bs
        let size := imageSize c.args.ty
        if buf.length < size then s.updCmd a .matrix c.id fun c => { c with buf := buf }
        else
          let t := Tile.ofBytes c.args.ty buf
          let s := s.updMe n fun m => if c.args.rm = 0 then { m with wl := t, full := true } else { m with wa := t }
          let s := s.cmdDone a .matrix c.id (scal size)
          match m.pass with
          | some p =>
            if p.held then
              match s.cmd? a .matrix p.cmd with
              | some pc => (s.updMe n fun m => { m with pass := some { p with held := false } }).askEngine a .matrix pc
              | none => s
            else s
          | none => s

/-- The address of a matrix command's next read. -/
def State.matrixVa (s : State) (a : Aid) (c : Cmd) : Option Nat :=
  if c.args.op = 0xB3 then some (wrap 64 (c.args.a + c.buf.length : Nat)) else (s.meOf a).bind fun e => e.2.passVa c

/-- The pass in hand of an element. -/
def State.passOf (s : State) (n : Nid) : Option Pass := (Tab.get? s.fab.mes n).bind (·.pass)

/-- Changes the pass in hand. -/
def State.updPass (s : State) (n : Nid) (f : Pass → Pass) : State := s.updMe n fun m => { m with pass := m.pass.map f }

/-- A stream-mode pass ends with its token's value; an END that ends it is put at its place (14 R291). -/
def State.endStream (s : State) (n : Nid) (a : Aid) (id v : Nat) : State :=
  let ending := (s.passOf n).bind (·.ending)
  let s := s.endPass n a id v
  match ending with
  | some r => s.putOn? ((Tab.get? s.fab.mes n).bind (·.out)) r
  | none => s

/-- A stream-mode pass stands at a record boundary with no swap to make: it ends after its last row, or at its END. -/
def State.boundary (s : State) (n : Nid) (a : Aid) (id rows done : Nat) : State :=
  match s.passOf n with
  | some p => if p.swaps = 0 ∧ ((rows ≠ 0 ∧ done = rows) ∨ p.ending.isSome) then s.endStream n a id done else s
  | none => s

/-- The first swap that a stream-mode pass has to make at a record boundary: it waits for a full `wl` (14 R290). -/
def State.trySwap (s : State) (n : Nid) (a : Aid) (id rows done : Nat) : State :=
  match s.swapTiles n with
  | (s, .exchanged) => (s.updPass n fun p => { p with swaps := p.swaps - 1 }).boundary n a id rows done
  | (s, .holds) => s
  | (s, .tilek) => s.endStream n a id (failToken cENGINE eTILEK done)

/-- Puts the tokens that waited for a row, and makes a swap that waited for it. -/
def State.afterRow (s : State) (n : Nid) (a : Aid) (id rows done : Nat) : State :=
  match s.passOf n with
  | none => s
  | some p =>
    let s := p.pending.foldl (fun s r => s.putOn? ((Tab.get? s.fab.mes n).bind (·.out)) r) s
    let s := s.updPass n fun p => { p with pending := [], buffer := [] }
    if p.swaps = 0 then s.boundary n a id rows done else s.trySwap n a id rows done

/-- A stream-mode row is complete. -/
def State.streamRow (s : State) (n : Nid) (a : Aid) (c : Cmd) (rs : List Record) : State :=
  let d := PassDesc.of (scalNat c.args.b)
  match Tab.get? s.fab.mes n, rs with
  | some m, r0 :: _ =>
    let size := m.rowSize c
    let bytes := (rs.flatMap fun r => natBytes 64 r.payload.toNat).take size
    let s := s.finishRow n d c.progress bytes (some r0.time) (rs.any (·.exc)) (rs.foldl (fun x r => unionDep x r.sr) [c.id])
    (s.updCmd a .matrix c.id fun c => { c with progress := c.progress + 1 }).afterRow n a c.id d.rows (c.progress + 1)
  | _, _ => s

/-- What a stream-mode pass does with the head of its stream (14 R291). -/
def State.meTake (s : State) (n : Nid) (m : Me) (p : Pass) (c : Cmd) (q : Qid) (r : Record) : State :=
  let go := (s.dequeue q 1).progress n.rid
  let d := PassDesc.of (scalNat c.args.b)
  let inRow := !p.buffer.isEmpty
  match r.kind with
  | 1 | 2 | 3 => if inRow then go.updPass n fun p => { p with pending := p.pending ++ [r] } else go.putOn? m.out r
  | 4 =>
    let die := match Tab.get? s.sched.regions n.rid with
      | some g => (g.quad n.row n.col).1
      | none => 0
    let s := (if inRow then go.count die (some m.vq) 0x45 else go).updPass n fun p => { p with swaps := p.swaps + 1 }
    if inRow then s else s.trySwap n m.owner c.id d.rows c.progress
  | 9 =>
    let s := go.updPass n fun p => { p with ending := some r }
    if inRow then s.streamRow n m.owner c p.buffer else s.boundary n m.owner c.id d.rows c.progress
  | 5 => go.putOn? m.out r
  | 6 => (Nid.forwards n [r]).foldl (fun s r => s.putOn? m.out r) (go.nodeBanks n [r])
  | 7 | 8 => go
  | _ =>
    let buffer := p.buffer ++ [r]
    let need := (m.rowSize c + 63) / 64
    let s := go.updPass n fun p => { p with buffer := buffer }
    if buffer.length ≥ need then s.streamRow n m.owner c buffer else s

/-- ME_STREAM_RECORD (14 R291): the head of the element's inbound stream, or a swap that waits. Outside a stream-mode pass
only DRAIN moves on (09 R179), and CFG records (21 R380). -/
def State.meStream (s : State) (n : Nid) : State :=
  match Tab.get? s.fab.mes n with
  | none => s
  | some m =>
    let pass := m.pass.bind fun p => (s.cmd? m.owner .matrix p.cmd).bind fun c =>
      if (PassDesc.of (scalNat c.args.b)).str then some (p, c) else none
    let head := m.inn.bind fun q => (s.head? q).map fun r => (q, r)
    match pass, head with
    | some (p, c), h =>
      if p.swaps != 0 && p.buffer.isEmpty then s.trySwap n m.owner c.id (PassDesc.of (scalNat c.args.b)).rows c.progress
      else
        match h with
        | some (q, r) => s.meTake n m p c q r
        | none => s
    | none, some (q, r) =>
      if r.kind = kDRAIN then (s.dequeue q 1).putOn? m.out r
      else if r.kind = kCFG then (Nid.forwards n [r]).foldl (fun s r => s.putOn? m.out r) ((s.dequeue q 1).nodeBanks n [r])
      else s
    | none, none => s

/-- A matrix command starts (14 R287 to R294). `stage` 1 serves neither LC2 tiles nor `f16` activations (26 R463). -/
def State.startMatrix (s : State) (a : Aid) (c : Cmd) : State :=
  match s.meOf a with
  | none => s.cmdBad a .matrix c.id eBADCMD
  | some (n, m) =>
    if c.cancelled then s.cmdBad a .matrix c.id eCANCELLED
    else
      match c.args.op with
      | 0xB3 =>
        if c.args.ty = 15 && s.out.stage = 1 then s.cmdBad a .matrix c.id eBADCMD
        else if c.args.a % 64 != 0 then s.cmdFault a .matrix c.id cALIGN 0
        else s.askEngine a .matrix c
      | 0xB4 =>
        let d := PassDesc.of (scalNat c.args.b)
        if d.bad || (!d.str && (d.rows == 0 || d.rstride % 16 != 0)) || (d.emit && m.out.isNone) || (d.str && m.inn.isNone) then
          s.cmdBad a .matrix c.id eBADCMD
        else if !d.str && c.args.c % 16 != 0 then s.cmdFault a .matrix c.id cALIGN 0
        else
          let s := s.updMe n fun m => { m with pass := some ⟨c.id, false, false, [], [], 0, none⟩ }
          if d.str then s else s.askEngine a .matrix c
      | 0xB5 => s.cmdDone a .matrix c.id 0
      | 0xB6 =>
        (s.updMe n fun m => { m with acc := [], flags := fNone, outRow := 0 }).cmdDone a .matrix c.id 0
      | _ =>
        if c.args.lit > 3 || (c.args.ty = 10 && s.out.stage = 1) then s.cmdBad a .matrix c.id eBADCMD
        else (s.updMe n fun m => { m with slots := m.slots.set c.args.lit c.args.ty }).cmdDone a .matrix c.id 0

/-- What `mrd` writes and the flags it brings (14 R293). -/
def State.mrdValue (s : State) (a : Aid) (sel : Nat) : Vec × FlagSet :=
  match s.meOf a with
  | none => (0, fNone)
  | some (_, m) =>
    (packE 32 ((List.range 16).map fun j => m.accOf (sel % 64) (16 * (bitsAt sel 6 1) + j)), m.flags)

end Sys2Proof.Machine
end

