-- ==== Sys2Proof/Machine/Fuller.lean ====
section
/-! DEFINITION. The fuller: disjoint-set forests, snapshots and undo (spec 16 R316 to R329). A command performs its events
in the order of its algorithm, one for each unit of its work: each unit runs the algorithm again over what its events have given so
far, and performs the next one (log 20). -/
namespace Sys2Proof.Machine

/-! ### Issuing -/

/-- UFINIT (16 R322). -/
def execUfinit (f : FX) (s : State) : Host.Outcome State Fault Refusal :=
  .next (s.issue (f.ins 0xC0) (cmdBody .fuller addrArgs))
/-- UNITE (16 R324). -/
def execUnite (f : FX) (s : State) : Host.Outcome State Fault Refusal :=
  .next (s.issue (f.ins 0xC1) (cmdBody .fuller addrArgs))
/-- FIND (16 R323). -/
def execFind (f : FX) (s : State) : Host.Outcome State Fault Refusal :=
  .next (s.issue (f.ins 0xC2) (cmdBody .fuller addrArgs))
/-- RELABEL (16 R326). -/
def execRelabel (f : FX) (s : State) : Host.Outcome State Fault Refusal :=
  .next (s.issue (f.ins 0xC3) (cmdBody .fuller addrArgs))
/-- CCSIZE (16 R325). -/
def execCcsize (f : FX) (s : State) : Host.Outcome State Fault Refusal :=
  .next (s.issue (f.ins 0xC4) (cmdBody .fuller addrArgs))
/-- UFSNAP (16 R328). -/
def execUfsnap (f : FX) (s : State) : Host.Outcome State Fault Refusal :=
  .next (s.issue (f.ins 0xC5) (cmdBody .fuller addrArgs))
/-- UFSNAP_CLOSE (16 R328). -/
def execUfsnapClose (f : FX) (s : State) : Host.Outcome State Fault Refusal :=
  .next (s.issue (f.ins 0xC5) (cmdBody .fuller addrArgs))
/-- UFUNDO (16 R329). -/
def execUfundo (f : FX) (s : State) : Host.Outcome State Fault Refusal :=
  .next (s.issue (f.ins 0xC6) (cmdBody .fuller addrArgs))

/-! ### Events (16 R320, R323; 15 R313) -/

/-- How a part of a command stops: it fails with a cause and its engine status, or it has a further event to perform. -/
inductive Stop where
  | fails (cause sub : Nat)
  | more
  deriving DecidableEq, Repr

/-- One unit of a command's work: the state, what its past events gave that is still to be gone through, what the unit's own event
gave once performed, whether it may perform one, and the reserved log slots that are not written yet (16 R327). -/
structure Unit_ where
  s : State
  log : List EngineEvent
  fresh : Option EngineEvent
  open_ : Bool
  slots : List Nat
  /-- The address of the event at which it stopped. -/
  at_ : Option Nat
  deriving DecidableEq, Repr

/-- A unit of work and what a part of a command answers. -/
abbrev Part (α : Type) := Unit_ × Except Stop α

/-- The next part of a command, unless the last one stopped it. -/
def Part.andThen {α β : Type} (r : Part α) (f : Unit_ → α → Part β) : Part β :=
  match r with
  | (u, .ok a) => f u a
  | (u, .error e) => (u, .error e)

/-- Stops with an engine status. -/
def Unit_.stop {α : Type} (u : Unit_) (sub : Nat) : Part α := (u, .error (.fails cENGINE sub))

/-- What an event gave. -/
def EngineEvent.result : EngineEvent → Except Stop Nat
  | .ok v => .ok v
  | .bad cause => .error (.fails cause 0)

/-- The fuel that an algorithm needs to go through its past events and one more. -/
def Unit_.fuel (u : Unit_) : Nat := u.log.length + 2

/-- An event: what it gave if it is past, else it is performed, once for each unit. -/
def Unit_.event (u : Unit_) (va : Nat) (perform : State → State × EngineEvent) : Part Nat :=
  match u.log with
  | e :: rest => ({ u with log := rest }, e.result)
  | [] =>
    if u.fresh.isSome || !u.open_ then ({ u with at_ := some va }, .error .more)
    else
      let (s, e) := perform u.s
      ({ u with s := s, fresh := some e }, e.result)

/-- A checked fuller access: a C or MS page. -/
def State.fullerAccess (s : State) (a : Aid) (va len : Nat) (need : Need) : State × Except Nat Access :=
  if inScratch va then (s, .error cNOT_PRESENT)
  else
    match s.access a va len need with
    | (s, .error c) => (s, .error c)
    | (s, .ok x) => if x.mt = 2 then (s, .error cPERMISSION) else (s, .ok x)

/-- A read at the home, as a number (12 R249). A fuller command needs `R` and `W` of what it reads and writes (22 R392). -/
def State.fullerRead (s : State) (a : Aid) (va len : Nat) : State × EngineEvent :=
  match s.fullerAccess a va len needBoth with
  | (s, .error c) => (s, .bad c)
  | (s, .ok x) => match s.readAccess (.engine a .fuller) (s.ctxOf a) x true with
    | (s, bs, ue) => (s, if ue then .bad cMEMORY_UE else .ok (bytesNat bs))

/-- A write at the home. -/
def State.fullerWrite (s : State) (a : Aid) (va len v : Nat) : State × EngineEvent :=
  match s.fullerAccess a va len needBoth with
  | (s, .error c) => (s, .bad c)
  | (s, .ok x) => match s.writeAccess (.engine a .fuller) (s.ctxOf a) x (natBytes len v) true with
    | (s, true) => (s, .ok 0)
    | (s, false) => (s, .bad cMEMORY_UE)

/-- A read and, where `f` gives a new value, write as one event: the old value. -/
def State.fullerRmw (s : State) (a : Aid) (va len : Nat) (f : Nat → Option Nat) : State × EngineEvent :=
  match s.fullerAccess a va len needBoth with
  | (s, .error c) => (s, .bad c)
  | (s, .ok x) => match s.readAccess (.engine a .fuller) (s.ctxOf a) x true with
    | (s, _, true) => (s, .bad cMEMORY_UE)
    | (s, bs, false) =>
      (match f (bytesNat bs) with
        | some v => s.homeWrite (.engine a .fuller) (s.ctxOf a) x.pa (natBytes len v)
        | none => s, .ok (bytesNat bs))

/-- The events of a command. -/
def Unit_.fRead (u : Unit_) (a : Aid) (va len : Nat) : Part Nat := u.event va fun s => s.fullerRead a va len
def Unit_.fWrite (u : Unit_) (a : Aid) (va len v : Nat) : Part Nat := u.event va fun s => s.fullerWrite a va len v
def Unit_.fRmw (u : Unit_) (a : Aid) (va len : Nat) (f : Nat → Option Nat) : Part Nat := u.event va fun s => s.fullerRmw a va len f

/-! ### The forest (16 R320, R321, R327) -/

/-- What a command reads of a descriptor. -/
structure Forest where
  va : Nat
  ebase : Nat
  lbase : Nat
  lcap : Nat
  n : Nat
  bySize : Bool
  deriving DecidableEq, Repr

/-- The descriptor's alignment, with its `ebase` and `lbase`. -/
def forestAligned (ebase lbase : Nat) : Bool := ebase % 64 == 0 && lbase % 16 == 0

/-- Reads and checks the descriptor. -/
def Unit_.forest (u : Unit_) (a : Aid) (va : Nat) : Part Forest :=
  if va % 64 != 0 then (u, .error (.fails cALIGN 0))
  else (u.fRead a va 64).andThen fun u d =>
    let f := fun (off n : Nat) => bitsAt d (8 * off) (8 * n)
    if bitsAt (f 24 1) 7 1 = 0 || bitsAt (f 24 1) 1 6 != 0 || f 25 3 != 0 || f 36 28 != 0 then u.stop eBADCMD
    else if !forestAligned (f 0 8) (f 8 8) then (u, .error (.fails cALIGN 0))
    else (u, .ok ⟨va, f 0 8, f 8 8, f 16 4, f 20 4 + 1, bitsAt (f 24 1) 0 1 == 1⟩)

/-- The address of an entry, and of a log entry. -/
def Forest.entry (f : Forest) (i : Nat) : Nat := wrap 64 (f.ebase + 8 * i : Nat)
def Forest.log (f : Forest) (i : Nat) : Nat := wrap 64 (f.lbase + 16 * i : Nat)

def parentOf (e : Nat) : Nat := e % 2 ^ 32
def sizeOf_ (e : Nat) : Nat := bitsAt e 32 32 + 1

/-- `Reserve(k)` as one event: with no snapshot open it reserves nothing and writes nothing. -/
def State.fullerReserve (s : State) (a : Aid) (f : Forest) (k : Nat) : State × EngineEvent :=
  match s.fullerRead a (f.va + 28) 8 with
  | (s, .bad c) => (s, .bad c)
  | (s', .ok v) =>
    if bitsAt v 0 32 = 0 then (s', .ok v)
    else s.fullerRmw a (f.va + 28) 8 fun v => if bitsAt v 32 32 + k > f.lcap then none else some (v + k * 2 ^ 32)

/-- `Reserve(k)`: the first slot reserved, or none where no snapshot is open; fails to answer when the log is full. -/
def Unit_.reserve (u : Unit_) (a : Aid) (f : Forest) (k : Nat) : Part (Option (Option Nat)) :=
  (u.event (f.va + 28) fun s => s.fullerReserve a f k).andThen fun u v =>
    let first := bitsAt v 32 32
    if bitsAt v 0 32 = 0 then (u, .ok (some none))
    else if first + k > f.lcap then (u, .ok none)
    else ({ u with slots := u.slots ++ (List.range k).map fun j => f.log (first + j) }, .ok (some (some first)))

/-- `LogWrite`: the old value of an element in a reserved slot. -/
def Unit_.logWrite (u : Unit_) (a : Aid) (f : Forest) (slot : Option Nat) (i old : Nat) : Part Unit :=
  match slot with
  | none => (u, .ok ())
  | some k => (u.fWrite a (f.log k) 16 (old + i * 2 ^ 64)).andThen fun u _ =>
    ({ u with slots := u.slots.erase (f.log k) }, .ok ())

/-- The entry of a void slot. -/
def voidEntry : Nat := 0xFFFFFFFF * 2 ^ 64

/-- `LogVoid`. -/
def Unit_.logVoid (u : Unit_) (a : Aid) (f : Forest) (slot : Option Nat) : Part Unit := u.logWrite a f slot 0xFFFFFFFF 0

/-- `CAS` on an entry, which writes only on a match: whether it matched. -/
def Unit_.casEntry (u : Unit_) (a : Aid) (f : Forest) (i old new : Nat) : Part Bool :=
  (u.fRmw a (f.entry i) 8 fun v => if v = old then some new else none).andThen fun u v => (u, .ok (v == old))

/-- The climb of `Find`: the root, its entry as read, and the path with the entries as read. -/
def Unit_.climb (u : Unit_) (a : Aid) (f : Forest) : Nat → Nat → List (Nat × Nat) → Part (Nat × Nat × List (Nat × Nat))
  | 0, _, _ => (u, .error .more)
  | fuel + 1, x, path =>
    (u.fRead a (f.entry x) 8).andThen fun u e =>
      if parentOf e = x then (u, .ok (x, e, path)) else u.climb a f fuel (parentOf e) (path ++ [(x, e)])

/-- Full compression of a path towards a root. -/
def Unit_.compress (u : Unit_) (a : Aid) (f : Forest) (root : Nat) : List (Nat × Nat) → Part Unit
  | [] => (u, .ok ())
  | (y, e) :: rest =>
    if parentOf e = root then u.compress a f root rest
    else (u.reserve a f 1).andThen fun u r =>
      match r with
      | none => (u, .ok ())
      | some slot =>
        (u.casEntry a f y e (e / 2 ^ 32 * 2 ^ 32 + root)).andThen fun u hit =>
          (if hit then u.logWrite a f slot y e else u.logVoid a f slot).andThen fun u _ => u.compress a f root rest

/-- `Find`: the root and its entry as last read (16 R323). -/
def Unit_.findRoot (u : Unit_) (a : Aid) (f : Forest) (x : Nat) : Part (Nat × Nat) :=
  if x ≥ f.n then u.stop eRANGE
  else (u.climb a f u.fuel x []).andThen fun u r =>
    (u.compress a f r.1 r.2.2).andThen fun u _ => (u, .ok (r.1, r.2.1))

/-- `AddSize`: adds at the root that `w` leads to, logging its old entry. -/
def Unit_.addSize (u : Unit_) (a : Aid) (f : Forest) (slot : Option Nat) (k : Nat) : Nat → Nat → Part Unit
  | 0, _ => (u, .error .more)
  | fuel + 1, w =>
    (u.fRmw a (f.entry w) 8 fun v => if parentOf v = w then some ((v + k * 2 ^ 32) % 2 ^ 64) else none).andThen fun u v =>
      if parentOf v = w then u.logWrite a f slot w v
      else (u.findRoot a f w).andThen fun u r => u.addSize a f slot k fuel r.1

/-- The loop of `unite` with its two reserved slots (16 R324). -/
def Unit_.uniteLoop (u : Unit_) (a : Aid) (f : Forest) (x y : Nat) (slot : Option Nat) : Nat → Part Nat
  | 0 => (u, .error .more)
  | fuel + 1 =>
    let second := slot.map (· + 1)
    (u.findRoot a f x).andThen fun u ra =>
      (u.findRoot a f y).andThen fun u rb =>
        if ra.1 = rb.1 then
          (u.logVoid a f slot).andThen fun u _ => (u.logVoid a f second).andThen fun u _ => (u, .ok 0)
        else
          let aWins := if f.bySize then
              (if sizeOf_ ra.2 = sizeOf_ rb.2 then decide (ra.1 < rb.1) else decide (sizeOf_ ra.2 > sizeOf_ rb.2))
            else decide (ra.1 < rb.1)
          let w := if aWins then ra.1 else rb.1
          let (l, el) := if aWins then rb else ra
          (u.casEntry a f l el (el / 2 ^ 32 * 2 ^ 32 + w)).andThen fun u hit =>
            if hit then
              (u.logWrite a f slot l el).andThen fun u _ =>
                (u.addSize a f second (sizeOf_ el) u.fuel w).andThen fun u _ => (u, .ok 1)
            else u.uniteLoop a f x y slot fuel

/-- `unite` (16 R324). -/
def Unit_.unite (u : Unit_) (a : Aid) (f : Forest) (x y : Nat) : Part Nat :=
  (u.reserve a f 2).andThen fun u r =>
    match r with
    | none => u.stop eFULL
    | some slot => u.uniteLoop a f x y slot u.fuel

/-- Parts for each number of a range, in order, with a value carried along; the fuel ends it after as many parts. -/
def Unit_.forEach (u : Unit_) (one : Unit_ → Nat → Nat → Part Nat) : Nat → Nat → Nat → Nat → Part Nat
  | 0, _, _, _ => (u, .error .more)
  | fuel + 1, k, last, acc =>
    if k ≥ last then (u, .ok acc) else (one u k acc).andThen fun u acc => u.forEach one fuel (k + 1) last acc

/-- `ufinit` (16 R322). -/
def Unit_.ufinit (u : Unit_) (a : Aid) (va n rule : Nat) : Part Nat :=
  if va % 64 != 0 then (u, .error (.fails cALIGN 0))
  else (u.fRead a va 64).andThen fun u d =>
    let ebase := bitsAt d 0 64
    if !forestAligned ebase (bitsAt d 64 64) then (u, .error (.fails cALIGN 0))
    else if n = 0 ∨ n > 2 ^ 32 then u.stop eRANGE
    else
      let line := fun (u : Unit_) (k _ : Nat) =>
        let m := min 8 (n - 8 * k)
        u.fWrite a (wrap 64 (ebase + 64 * k : Nat)) (8 * m) (sumNat ((List.range m).map fun j => (8 * k + j) * 2 ^ (64 * j)))
      (u.forEach line u.fuel 0 ((n + 7) / 8) 0).andThen fun u _ =>
        (u.fWrite a (va + 20) 16 ((n - 1) + (128 + rule) * 2 ^ 32 + bitsAt d 200 24 * 2 ^ 40)).andThen fun u _ => (u, .ok n)

/-- One element of `relabel`'s reduction. -/
def relabelOp (ty rm old x : Nat) : Nat :=
  if ty = 8 then
    match rm with
    | 0 => f32Add old x
    | 1 => (fmtF32.pick false old x).1
    | _ => (fmtF32.pick true old x).1
  else
    match rm with
    | 0 => (old + x) % 2 ^ 32
    | 1 => if ty = 4 then (if sint 32 x < sint 32 old then x else old) else min old x
    | _ => if ty = 4 then (if sint 32 old < sint 32 x then x else old) else max old x

/-- `relabel` (16 R326). -/
def Unit_.relabel (u : Unit_) (a : Aid) (f : Forest) (rec ty rm : Nat) : Part Nat :=
  if rec % 32 != 0 then (u, .error (.fails cALIGN 0))
  else (u.fRead a rec 32).andThen fun u d =>
    let inp := bitsAt d 0 64
    let out := bitsAt d 64 64
    let first := bitsAt d 128 32
    let cnt := bitsAt d 160 32
    if inp % 4 != 0 || out % 4 != 0 then (u, .error (.fails cALIGN 0))
    else if bitsAt d 192 64 != 0 then u.stop eBADCMD
    else if first + cnt > f.n then u.stop eRANGE
    else
      let one := fun (u : Unit_) (i _ : Nat) =>
        (u.findRoot a f i).andThen fun u r =>
          (u.fRead a (wrap 64 (inp + 4 * i : Nat)) 4).andThen fun u x =>
            u.fRmw a (wrap 64 (out + 4 * r.1 : Nat)) 4 fun old => some (relabelOp ty rm old x)
      (u.forEach one u.fuel first (first + cnt) 0).andThen fun u _ => (u, .ok cnt)

/-- `ufsnap` opens a snapshot; `.close` ends one (16 R328). -/
def Unit_.ufsnap (u : Unit_) (a : Aid) (f : Forest) (close : Bool) : Part Nat :=
  if !close && f.lcap = 0 then u.stop eFULL
  else
    (u.fRmw a (f.va + 28) 8 fun v =>
      let depth := bitsAt v 0 32
      let lcount := bitsAt v 32 32
      if !close then some ((depth + 1) % 2 ^ 32 + lcount * 2 ^ 32)
      else if depth = 0 then none
      else some ((depth - 1) + (if depth = 1 then 0 else lcount) * 2 ^ 32)).andThen fun u v =>
        if close then (if bitsAt v 0 32 = 0 then u.stop eNOSNAP else (u, .ok 0)) else (u, .ok (bitsAt v 32 32))

/-- `ufundo` (16 R329): the number of entries restored. -/
def Unit_.ufundo (u : Unit_) (a : Aid) (f : Forest) (mark : Nat) : Part Nat :=
  (u.fRead a (f.va + 28) 8).andThen fun u v =>
    let depth := bitsAt v 0 32
    let lcount := bitsAt v 32 32
    if depth = 0 then u.stop eNOSNAP
    else if mark > lcount then u.stop eBADMARK
    else
      let one := fun (u : Unit_) (j done : Nat) =>
        (u.fRead a (f.log (lcount - 1 - j)) 16).andThen fun u e =>
          let i := bitsAt e 64 32
          if i = 0xFFFFFFFF then (u, .ok done)
          else (u.fWrite a (f.entry i) 8 (e % 2 ^ 64)).andThen fun u _ => (u, .ok (done + 1))
      (u.forEach one u.fuel 0 (lcount - mark) 0).andThen fun u done =>
        (u.fRmw a (f.va + 28) 8 fun _ => some ((depth - 1) + (if depth = 1 then 0 else mark) * 2 ^ 32)).andThen fun u _ => (u, .ok done)

/-- The algorithm of a fuller command (16 R318, R320). -/
def Unit_.command (u : Unit_) (a : Aid) (c : CmdArgs) : Part Nat :=
  let b := scalNat c.b
  if c.op = 0xC0 then u.ufinit a c.a b c.rm
  else (u.forest a c.a).andThen fun u f =>
    match c.op with
    | 0xC1 => u.unite a f b c.c
    | 0xC2 => (u.findRoot a f b).andThen fun u r => (u, .ok r.1)
    | 0xC3 => u.relabel a f b c.ty c.rm
    | 0xC4 => (u.findRoot a f b).andThen fun u r => (u, .ok (sizeOf_ r.2))
    | 0xC5 => u.ufsnap a f (c.rm == 1)
    | _ => u.ufundo a f b

/-- Voids reserved slots that end unused, each by an event; one that cannot be written is left (16 R327). -/
def Unit_.voidSlots (u : Unit_) (a : Aid) : List Nat → Part Unit
  | [] => (u, .ok ())
  | k :: ks => match u.fWrite a k 16 voidEntry with
    | (u, .error .more) => (u, .error .more)
    | (u, _) => u.voidSlots a ks

/-- A whole command: after a failure the slots that it reserved and did not write are written void. -/
def Unit_.run (u : Unit_) (a : Aid) (c : CmdArgs) : Part Nat :=
  match u.command a c with
  | (u, .error (.fails cause sub)) => (u.voidSlots a u.slots).andThen fun u _ => (u, .error (.fails cause sub))
  | r => r

/-- The unit of a fuller command: its next event, and its result once it has no more. -/
def State.fullerUnit (s : State) (a : Aid) (c : Cmd) : State :=
  match (Unit_.mk s c.log none true [] none).run a c.args with
  | (u, .ok v) => u.s.cmdDone a .fuller c.id (scal v)
  | (u, .error (.fails cause sub)) => u.s.cmdDone a .fuller c.id (scal (failToken cause sub 0))
  | (u, .error .more) => u.s.updCmd a .fuller c.id fun d => { d with log := c.log ++ u.fresh.toList }

/-- The log slots that a fuller command in progress has reserved and not written. -/
def State.openSlots (s : State) (a : Aid) (c : Cmd) : List Nat := ((Unit_.mk s c.log none false [] none).run a c.args).1.slots

/-- The address of a fuller command's next event. -/
def State.fullerVa (s : State) (a : Aid) (c : Cmd) : Option Nat := ((Unit_.mk s c.log none false [] none).run a c.args).1.at_

/-- A kill stops a fuller command after its current event: its reserved, unwritten log slots are written void, and what it has
performed stays (16 R340). -/
def State.cutFuller (s : State) (a : Aid) : State :=
  match s.agent? a with
  | none => s
  | some g => (g.fullerQ.filter fun c => c.started && c.result.isNone).foldl (fun s c =>
      (s.openSlots a c).foldl (fun s k => (s.fullerWrite a k 16 voidEntry).1) s) s

end Sys2Proof.Machine
end

