-- ==== Sys2Proof/Machine/Needle.lean ====
section
/-! DEFINITION. The needle's rule programs and walks, and the hash accumulator with its three commands (spec 10 R219, R220; 16
R330 to R339). -/
namespace Sys2Proof.Machine

/-! ### Issuing -/

/-- WALK (16 R333): A takes no offset; the literal is the walk word. -/
def execWalk (f : FX) (s : State) : Host.Outcome State Fault Refusal :=
  .next (s.issue (f.ins 0xC7) (cmdBody .needle (plainArgs 0)))
/-- WRULE (16 R332). -/
def execWrule (f : FX) (s : State) : Host.Outcome State Fault Refusal :=
  .next (s.issue (f.ins 0xC8) (cmdBody .needle addrArgs))
/-- WSTAT_Q (16 R336). -/
def execWstatQ (f : FX) (s : State) : Host.Outcome State Fault Refusal :=
  .next (s.issue (f.ins 0xC9) (cmdBody .needle (plainArgs 0)))
/-- WSTAT_RESUME (16 R336). -/
def execWstatResume (f : FX) (s : State) : Host.Outcome State Fault Refusal :=
  .next (s.issue (f.ins 0xC9) (cmdBody .needle (plainArgs 0)))
/-- WSTAT_ABORT (16 R336). -/
def execWstatAbort (f : FX) (s : State) : Host.Outcome State Fault Refusal :=
  .next (s.issue (f.ins 0xC9) (cmdBody .needle (plainArgs 0)))
/-- HACC (16 R337). -/
def execHacc (f : FX) (s : State) : Host.Outcome State Fault Refusal :=
  .next (s.issue (f.ins 0xCA) (cmdBody .fuller (plainArgs 0)))
/-- HFLUSH (16 R338). -/
def execHflush (f : FX) (s : State) : Host.Outcome State Fault Refusal :=
  .next (s.issue (f.ins 0xCB) (cmdBody .fuller (plainArgs 0)))
/-- HSTAT (16 R339). -/
def execHstat (f : FX) (s : State) : Host.Outcome State Fault Refusal :=
  .next (s.issue (f.ins 0xCC) (cmdBody .fuller (plainArgs 0)))

/-! ### Rules (16 R331, R332) -/

/-- A rule that 16 R332 calls malformed. -/
def badRule (r : Nat) : Bool :=
  let op := bitsAt r 0 4
  let width := 2 ^ bitsAt r 14 2
  bitsAt r 32 32 != 0 || bitsAt r 7 1 != 0 || bitsAt r 4 3 == 7 || op ≥ 7 ||
  (op == 2 && bitsAt r 8 6 + width > 64) || (op == 3 && bitsAt r 8 6 > 56) || (op == 6 && bitsAt r 26 6 > 32)

/-- The rules of 128 bytes. -/
def rulesOf (bs : List Byte) : List Nat := (List.range 16).map fun j => bytesNat ((bs.drop (8 * j)).take 8)

/-- `Cond`: false for every condition but "always" before any CMP. -/
def condHolds (cond : Nat) (flags : Option Ordering) : Bool :=
  match cond, flags with
  | 0, _ => true
  | _, none => false
  | 1, some o => o == .eq
  | 2, some o => o != .eq
  | 3, some o => o == .lt
  | 4, some o => o == .gt
  | 5, some o => o != .gt
  | 6, some o => o != .lt
  | _, _ => false

/-- A field of the loaded bytes. -/
def Walk.field (w : Walk) (off n : Nat) : Nat := bytesNat ((w.buf.drop off).take n)

/-- Outcomes of a walk (16 R334). -/
def wFOUND : Nat := 0
def wMISS : Nat := 1
def wNULL : Nat := 2
def wLIMIT : Nat := 3

/-- Executes rules until a LOAD is reached or the walk ends; `fuel` bounds the steps that remain. -/
def Walk.run (w : Walk) : Nat → Walk × Option Nat
  | 0 => (w, some wLIMIT)
  | fuel + 1 =>
    if w.pc = 16 then (w, some wMISS)
    else if w.steps = w.limit then (w, some wLIMIT)
    else
      let r := w.program.getD w.pc 0
      let w := { w with steps := w.steps + 1, pc := w.pc + 1 }
      let cond := condHolds (bitsAt r 4 3) w.flags
      let tgt := bitsAt r 16 4
      match bitsAt r 0 4 with
      | 0 => (w, some wMISS)
      | 1 => ({ w with due := true }, none)
      | 2 =>
        let n := 2 ^ bitsAt r 14 2
        let v := w.field (bitsAt r 8 6) n
        ({ w with flags := some (compare v (w.key % 2 ^ (8 * n))) } : Walk).run fuel
      | 3 =>
        if cond then
          let p := w.field (bitsAt r 8 6) 8
          if p = 0 then (w, some wNULL) else ({ w with node := p, pc := tgt } : Walk).run fuel
        else w.run fuel
      | 4 => if cond then (w, some (if tgt % 2 = 0 then wFOUND else wMISS)) else w.run fuel
      | 5 => if cond then ({ w with pc := tgt } : Walk).run fuel else w.run fuel
      | _ => ({ w with node := wrap 64 ((w.node : Int) + 8 * ((w.key / 2 ^ bitsAt r 20 6) % 2 ^ bitsAt r 26 6)) } : Walk).run fuel

/-! ### Walks (16 R333 to R335) -/

def State.updWalk (s : State) (w : Walk) : State :=
  s.updMs fun m => { m with walks := m.walks.map fun v => if v.handle = w.handle then w else v }

/-- A walk ends: the value of its token register and that of the next, in one vector. -/
def State.endWalk (s : State) (w : Walk) (token next : Nat) : State :=
  (s.updMs fun m => { m with walks := m.walks.filter fun v => v.handle != w.handle }).cmdDone w.aid .needle w.cmd
    (scal token ||| (scal next <<< 64))

/-- The next of the 64 bytes at a node, of which `got` have been read: one read per line touched, at the home with no lease. -/
def State.walkLoad (s : State) (a : Aid) (node got : Nat) : State × Except (Nat × Nat) (List Byte) :=
  let va := wrap 64 (node + got : Nat)
  if node % 8 != 0 then (s, .error (cALIGN, node))
  else if inScratch va then (s, .error (cNOT_PRESENT, va))
  else
    match s.access a va (min (64 - got) (64 - va % 64)) needRead with
    | (s, .error c) => (s, .error (c, va))
    | (s, .ok x) =>
      if x.mt = 2 then (s, .error (cPERMISSION, va))
      else match s.readAccess (.engine a .needle) (s.ctxOf a) x true with
        | (s, b, ue) => (s, if ue then .error (cMEMORY_UE, va) else .ok b)

/-- The record of a walk that waits for service: `SVC` is set, and its handle stands for the block address (16 R335, 22 R399). -/
def State.serviceRecord (s : State) (a : Aid) (o : Origin) (cause va handle : Nat) : State :=
  match s.agent? a with
  | some g => s.postRaised a g ⟨cause, if a.isThread then 7 else 3, g.ctx, s.incOf a g, g.vq, g.cu, g.slot, g.die, o.bid, o.iidx,
      handle, va, s.clk.tick, 0, 0⟩ none
  | none => s

/-- A LOAD that faults, under the walk's policy (16 R335). -/
def State.walkFaults (s : State) (w : Walk) (cause va : Nat) : State :=
  let origin := ((s.cmd? w.aid .needle w.cmd).map (·.origin)).getD .none
  match w.policy with
  | 0 => s.endWalk w (failToken cause 0 w.steps) va
  | 1 => (s.agentRecord w.aid origin cause va).endWalk w (failToken cause 0 w.steps) va
  | _ => (s.updWalk { w with waiting := true, va := va, cause := cause }).serviceRecord w.aid origin cause va w.handle

/-- The address of a needle command's next read: of a walk, or of a program. -/
def State.needleVa (s : State) (c : Cmd) : Option Nat :=
  if c.args.op = 0xC8 then some (wrap 64 (c.args.a + c.buf.length : Nat))
  else (s.ms.walks.find? fun w => w.cmd == c.id).bind fun w =>
    match if w.due then (w, none) else w.run (w.limit + 1) with
    | (w, none) => some (wrap 64 (w.node + c.buf.length : Nat))
    | (_, some _) => none

/-- The unit of a walk: its rules up to the next LOAD, and the next read of that LOAD. -/
def State.walkUnit (s : State) (a : Aid) (c : Cmd) : State :=
  match s.ms.walks.find? fun w => w.cmd == c.id with
  | none => s.cmdBad a .needle c.id eBADCMD
  | some w =>
    let (w, outcome) := if w.due then (w, none) else w.run (w.limit + 1)
    match outcome with
    | some out => s.endWalk w (out + w.steps * 2 ^ 32) w.node
    | none =>
      match s.walkLoad a w.node c.buf.length with
      | (s, .error (cause, va)) => (s.updCmd a .needle c.id fun c => { c with buf := [] }).walkFaults w cause va
      | (s, .ok bs) =>
        let buf := c.buf ++ bs
        if buf.length < 64 then (s.updCmd a .needle c.id fun c => { c with buf := buf }).updWalk w
        else (s.updCmd a .needle c.id fun c => { c with buf := [] }).updWalk { w with buf := buf, due := false }

/-- The unit of `wrule`: one line of the program; the last installs it. -/
def State.wruleUnit (s : State) (a : Aid) (c : Cmd) : State :=
  match s.engineRead a .needle (wrap 64 (c.args.a + c.buf.length : Nat)) 64 with
  | (s, .error cause) => s.cmdFault a .needle c.id cause 0
  | (s, .ok bs) =>
    let buf := c.buf ++ bs
    if buf.length < 128 then s.updCmd a .needle c.id fun c => { c with buf := buf }
    else if (rulesOf buf).any badRule then s.cmdBad a .needle c.id eBADCMD
    else
      (s.updAgent a fun g => { g with programs := Tab.set g.programs (scalNat c.args.b) (rulesOf buf) }).cmdDone a .needle c.id
        (scal 128)

/-- `wstat` (16 R336). -/
def State.wstat (s : State) (a : Aid) (c : Cmd) : State :=
  let ctx := fun (b : Aid) => (s.agent? b).map (·.ctx)
  let mine := s.ms.walks.find? fun w => w.handle == c.args.a && ctx w.aid == ctx a
  match c.args.rm, mine with
  | 0, none => s.cmdDone a .needle c.id 0
  | 0, some w => s.cmdDone a .needle c.id (scal (if w.waiting then 2 + w.steps * 2 ^ 32 else 1))
  | k, some w =>
    if !w.waiting then s.cmdBad a .needle c.id eNOWALK
    else if k = 1 then
      let s := s.updWalk { w with waiting := false }
      let s := match s.cmd? w.aid .needle w.cmd with
        | some d => s.askEngine w.aid .needle d
        | none => s
      s.cmdDone a .needle c.id 0
    else (s.endWalk w (failToken w.cause 0 w.steps) w.va).cmdDone a .needle c.id 0
  | _, none => s.cmdBad a .needle c.id eNOWALK

/-- A needle command starts; a program slot that nothing has loaded holds END rules (log 2). -/
def State.startNeedle (s : State) (a : Aid) (c : Cmd) : State :=
  match c.args.op with
  | 0xC7 =>
    let word := c.args.lit
    if word % 2 ^ 16 = 0 ∨ bitsAt word 18 14 != 0 then
      s.cmdDone a .needle c.id (scal (failToken cENGINE eBADCMD 0) ||| (scal c.args.a <<< 64))
    else
      let prog := match s.agent? a with
        | some g => Tab.getD g.programs (bitsAt word 16 2) (List.replicate 16 0)
        | none => []
      let (h, s) := s.takeId
      (s.updMs fun m => { m with
        walks := m.walks ++ [⟨h, a, c.id, c.args.a, 0, 0, word % 2 ^ 16, scalNat c.args.b, none, List.replicate 64 0, prog,
          c.args.rm, false, false, 0, 0⟩] }).askEngine a .needle c
  | 0xC8 =>
    if scalNat c.args.b > 3 then s.cmdBad a .needle c.id eBADCMD
    else if c.args.a % 64 != 0 then s.cmdFault a .needle c.id cALIGN 0
    else s.askEngine a .needle c
  | _ => s.wstat a c

/-! ### The hash accumulator (10 R219, R220) -/

def State.updHacc (s : State) (n : Nid) (f : Hacc → Hacc) : State :=
  s.updFab fun x => { x with haccs := Tab.modify x.haccs n f }

/-- A triple added to an entry: each sum rounded once; an invalid operation or an overflow sets `exc` (log 21). -/
def HaccEntry.add (e : HaccEntry) (x w : Nat) : HaccEntry :=
  let (wx, f) := fmtF32.ofVal 0 ((wt16Value w).mul (fmtF32.value x)).1
  let (swx, f') := fmtF32.addF 0 (fmtF32.value e.swx) (fmtF32.value wx)
  { e with swx := swx, sw := f32Add e.sw (wt16ToF32 w), exc := e.exc || flagsExc (f ||| f') || ((wt16Value w).mul (fmtF32.value x)).2 != 0 }

/-- The slot of a coordinate: the first of its eight that holds it or is free. -/
def Hacc.slot? (h : Hacc) (c : Nat) : Option (Nat × Nat) :=
  ((List.range 8).map fun j => (c % 4, (c / 4 + j) % 1024)).find? fun k =>
    match Tab.get? h.entries k with
    | some e => e.coord == c
    | none => true

/-- A lost or spilled triple as a record of its coordinate and weight. -/
def tripleRecord (c w : Nat) : Record := { Record.null with kind := kDATA, key := c, kv := true, weight := w }

/-- One triple reaches a group: an entry, the ring, or a loss. The ring is written in the order of its command (15 R305). -/
def State.haccAdd (s : State) (i : Issuer) (n : Nid) (c x w : Nat) : State :=
  match Tab.get? s.fab.haccs n with
  | none => s
  | some h =>
    match h.slot? c with
    | some k => s.updHacc n fun h => { h with
        entries := Tab.set h.entries k ((Tab.getD h.entries k ⟨c, 0, 0, false⟩).add x w) }
    | none =>
      let lose := fun (s : State) (fault : Bool) => s.updHacc n fun h => { h with
        lost := h.lost.add (tripleRecord c w), faulted := h.faulted || fault }
      if h.ring.count ≥ h.spsize then lose s false
      else
        match s.muWriteAs i h.die h.vq h.ctx (h.spbase + 16 * h.ring.count) (natBytes 16 (c + x * 2 ^ 32 + w * 2 ^ 64)) with
        | (s, .ok _) => s.updHacc n fun h => { h with ring := h.ring.add (tripleRecord c w) }
        | (s, .error _) => lose s true

/-- The triple of a ring entry: coordinate, x and weight. -/
def tripleOf (v : Nat) : Nat × Nat × Nat := (bitsAt v 0 32, bitsAt v 32 32, bitsAt v 64 16)

/-- The triples of ring entries in order. -/
def triplesOf (bs : List Byte) : List (Nat × Nat × Nat) :=
  (List.range (bs.length / 16)).map fun j => tripleOf (fieldAt bs (16 * j) 16)

/-- Inserts by ascending coordinate. -/
def insertCoord (e : HaccEntry) : List HaccEntry → List HaccEntry
  | [] => [e]
  | f :: fs => if e.coord < f.coord then e :: f :: fs else f :: insertCoord e fs

/-- The queue that a node's puts enter first. -/
def OutDest.first : OutDest → Option Qid
  | .stream q _ => some q
  | .link q => some q
  | .join _ _ => none

/-- The flush (10 R220): the records of ascending coordinates, one GAP for what was lost, and EOF. Answers the number of DATA
records. `bs` is what the ring held; where a read of it failed, the ring is lost whole, as a queue's is (10 R209, log 21). The times of the
records and of the GAP are left open: free values (log 3). The GAP names the queue that it enters (log 21). -/
def State.haccFlush (s : State) (n : Nid) (bs : List Byte) (failed : Bool) : State × Nat :=
  match Tab.get? s.fab.haccs n with
  | none => (s, 0)
  | some h =>
    let sums := (if failed then [] else triplesOf bs).foldl (fun (es : Tab Nat HaccEntry) t =>
      Tab.set es t.1 ((Tab.getD es t.1 ⟨t.1, 0, 0, false⟩).add t.2.1 t.2.2)) (h.entries.map fun e => (e.2.coord, e.2))
    let sorted := (Tab.vals sums).foldl (fun l e => insertCoord e l) []
    let (v, s) := s.free
    let open_ := fun (k : Nat) => bitsAt v.toNat (32 * k) 32
    let s := sorted.foldl (fun s e =>
      let (w, sat) := wt16OfFin (fmtF32.value e.sw)
      s.putOn? h.out ⟨scal e.swx, kDATA, w, open_ 0, e.coord, true, h.level, false, e.exc, sat, []⟩) s
    let lost := if failed && h.ring.count > 0 then h.ring else h.lost
    let total := min (h.lost.count + if failed then h.ring.count else 0) 0xFFFFFFFF
    let qid := (((h.out.bind OutDest.first).bind s.queue?).map (·.qid)).getD 0
    let s := if total = 0 then s else
      s.putOn? h.out (Gap.record ⟨total, if failed then f32Add h.lost.weight h.ring.weight else h.lost.weight, true, 7,
        if h.faulted || failed then 6 else 5, if h.lost.count = 0 then lost.kmin else min h.lost.kmin lost.kmin,
        max h.lost.kmax lost.kmax, open_ 1, max (open_ 1) (open_ 2), qid, false, []⟩)
    let s := s.putOn? h.out { Record.token kEOF with lvl := h.level }
    (s.updHacc n fun h => { h with entries := [], ring := .empty, lost := .empty, faulted := false, flushing := none }, sorted.length)

/-- `hstat` (16 R339). -/
def Hacc.stat (h : Hacc) (sel : Nat) : Nat :=
  match sel with
  | 0 => sumNat ((List.range 4).map fun j => (h.entries.filter fun e => e.1.1 == j).length * 2 ^ (11 * j))
  | 1 => h.ring.count
  | 2 => h.lost.count
  | _ => 0

/-- A fuller command starts: what is wrong with one of the hash accumulator's before it acts. -/
def State.startFuller (s : State) (a : Aid) (c : Cmd) : State :=
  if c.args.op < 0xCA then s.askEngine a .fuller c
  else
    match s.selectGroup a c.args.a .hacc with
    | .error e => s.cmdBad a .fuller c.id e
    | .ok n =>
      if c.args.op = 0xCA && (scalNat c.args.b ≥ 2 ^ 32 || c.args.c ≥ 2 ^ 48) then s.cmdBad a .fuller c.id eBADCMD
      else if c.args.op = 0xCB && ((Tab.get? s.fab.haccs n).bind (·.out)).isNone then s.cmdBad a .fuller c.id eBADCMD
      else s.askEngine a .fuller c

/-- An event of a command of the hash accumulator (16 R337 to R339): a triple, which waits while a flush is in progress; the next read
of the ring that a flush empties, and the flush once it has been read; or a snapshot. -/
def State.haccUnit (s : State) (a : Aid) (c : Cmd) : State :=
  match s.selectGroup a c.args.a .hacc with
  | .error e => s.cmdBad a .fuller c.id e
  | .ok n =>
    match Tab.get? s.fab.haccs n with
    | none => s.cmdBad a .fuller c.id eNOGROUP
    | some h =>
      let waits := h.flushing.isSome && h.flushing != some c.id
      let finish := fun (s : State) (bs : List Byte) (failed : Bool) =>
        let (s, k) := s.haccFlush n bs failed
        s.cmdDone a .fuller c.id (scal k)
      match c.args.op with
      | 0xCA =>
        let w := bitsAt c.args.c 32 16
        if waits then s
        else if (wt16Value w).isZero then s.cmdDone a .fuller c.id 0
        else (s.haccAdd (.engine a .fuller) n (scalNat c.args.b) (bitsAt c.args.c 0 32) w).cmdDone a .fuller c.id 0
      | 0xCB =>
        if waits then s
        else if c.buf.length = 16 * h.ring.count then finish s c.buf false
        else
          let s := s.updHacc n fun h => { h with flushing := some c.id }
          match s.muReadAs (.engine a .fuller) h.die h.vq h.ctx (h.spbase + c.buf.length) 16 with
          | (s, .ok bs) => s.updCmd a .fuller c.id fun c => { c with buf := c.buf ++ bs }
          | (s, .error _) => finish s [] true
      | _ => s.cmdDone a .fuller c.id (scal (h.stat (scalNat c.args.b)))

end Sys2Proof.Machine
end

