-- ==== Sys2Proof/Machine/Nodes.lean ====
section
/-! DEFINITION. The movement of records and the nodes that are not actors: sends and arrivals, refills, links, joins,
generators, windows and sinks (spec 04 R66, R67; 09 R190 to R194; 10 R197, R202, R208, R213 to R222; 14 R291). -/
namespace Sys2Proof

/-- The launch whose region holds a queue. -/
def Qid.rid? : Qid → Option Nat
  | .mu r _ _ _ _ | .port r _ _ _ _ _ | .node r _ _ _ _ => some r
  | .call _ _ | .text _ => none

end Sys2Proof

namespace Sys2Proof.Machine

/-! ### Where a queue lies -/

/-- Whether the place of a queue may act; queues outside regions always may. -/
def State.queueAlive (s : State) : Qid → Bool
  | .mu r y x _ _ | .port r y x _ _ _ | .node r y x _ _ => s.alive r y x
  | .call _ _ | .text _ => true

/-- Counts an event at a node's quad. -/
def State.countNode (s : State) (n : Nid) (code : Nat) : State :=
  s.count (s.nodeQuad n).1 (some (s.nodeQuad n).2) code

/-- The place of a queue may take records: its region is placed and has started, and its capture has not closed. A freeze does not halt
queues and links (21 R371). -/
def State.queueOpen (s : State) (q : Qid) : Bool := match q.rid? with
  | none => true
  | some r => match Tab.get? s.sched.launches r with
    | some l => l.state == .running && l.started
    | none => false

/-! ### The lattice (02 R27, 20 R363) -/

/-- The router of the quad that a queue lies on, by its row and column in the package; none for a queue outside the felt. -/
def State.routerOf (s : State) (q : Qid) : Option (Nat × Nat) :=
  let at_ := fun (rid row col : Nat) => (Tab.get? s.sched.regions rid).map fun r => (r.y + row, r.x + col)
  match q with
  | .mu r row col _ _ | .port r row col _ _ _ | .node r row col _ _ => at_ r row col
  | .call _ _ | .text _ => none

/-- The ports of a router, in the order that breaks ties. Rows count southwards and columns eastwards. -/
def pLOCAL : Nat := 0
def pVERTICAL : Nat := 1
def pWEST : Nat := 2
def pEAST : Nat := 3
def pNORTH : Nat := 4
def pSOUTH : Nat := 5

/-- The output port that a packet at a router wants for a destination: first along X, then along Y (02 R27). -/
def outputPort (y x ty tx : Nat) : Nat :=
  if x < tx then pEAST else if tx < x then pWEST else if y < ty then pSOUTH else if ty < y then pNORTH else pLOCAL

/-- The output port that a packet wants; the local one where its destination is gone. -/
def State.wants (s : State) (p : Packet) : Nat := match s.routerOf p.dst with
  | some (ty, tx) => outputPort p.y p.x ty tx
  | none => pLOCAL

/-- A packet is before another at an output port: the earlier injection, then the earlier input port. -/
def Packet.before (p q : Packet) : Bool := p.tick < q.tick || (p.tick == q.tick && p.port < q.port)

/-- The output port that the packet at a place of the list wants is granted to it. -/
def State.granted (s : State) (k : Nat) : Bool := match s.fab.packets[k]? with
  | none => false
  | some p => s.fab.packets.zipIdx.all fun e =>
      e.2 == k || e.1.y != p.y || e.1.x != p.x || s.wants e.1 != s.wants p ||
      p.before e.1 || (!e.1.before p && k < e.2)

/-- A granted packet after it has passed its output port, unless that is the local one. -/
def Packet.moved (p : Packet) (out : Nat) : Packet :=
  if out = pEAST then { p with x := p.x + 1, port := pWEST }
  else if out = pWEST then { p with x := p.x - 1, port := pEAST }
  else if out = pSOUTH then { p with y := p.y + 1, port := pNORTH }
  else { p with y := p.y - 1, port := pSOUTH }

/-- One grant of the lattice: a packet goes on to the next router, or its records reach the quad of their queue. -/
def State.hop (s : State) (k : Nat) : State :=
  match s.fab.packets[k]? with
  | none => s
  | some p =>
    if !s.granted k then s
    else if s.wants p = pLOCAL then
      s.updFab fun f => { f with packets := f.packets.eraseIdx k, flight := f.flight ++ p.recs.map fun r => (p.dst, r) }
    else s.updFab fun f => { f with packets := f.packets.set k (p.moved (s.wants p)) }

/-- Records set out for a queue: through the routers, where both ends lie on the felt. A die of another partition refuses them (21
R386). -/
def State.inject (s : State) (src dst : Qid) (rs : List Record) : State :=
  match s.routerOf src, s.routerOf dst with
  | some (y, x), some (ty, tx) =>
    if s.refuses (quadAt y x).1 (quadAt ty tx).1 then s.refuse (quadAt ty tx).1
    else s.updFab fun f => { f with packets := f.packets ++ [⟨dst, rs, s.clk.tick, y, x, pLOCAL⟩] }
  | _, _ => s.updFab fun f => { f with flight := f.flight ++ rs.map fun r => (dst, r) }

/-! ### Sends and arrivals (10 R197, R202, R208) -/

/-- A queue's region is held in an image: queues outside that feed it hold their records (21 R371). -/
def State.queueImaged (s : State) (q : Qid) : Bool :=
  let rid := match q with
    | .mu r _ _ _ _ | .port r _ _ _ _ _ | .node r _ _ _ _ => some r
    | _ => none
  match rid.bind (Tab.get? s.sched.launches) with
  | some l => l.state == .imaged || l.state == .exported
  | none => false

/-- The run of CFG records at the head of a queue (21 R380). -/
def State.cfgRun (s : State) (q : Qid) : List Record := match s.queue? q with
  | some x => (x.ready.takeWhile fun h => h.r.kind == kCFG).map (·.r)
  | none => []

/-- A DRAIN at an exit is removed there; a drain in progress has then come to that exit (21 R369). -/
def State.removeDrain (s : State) (q : Qid) : State :=
  let s := s.dequeue q 1
  match q.rid? with
  | some rid => s.updRegion rid fun r => { r with exited := addOnce r.exited q }
  | none => s

/-- RECORD_SEND (10 R197): the head of a source-side queue sets out for its sink-side queue. A queue whose consumer is gone
discards what it holds, counted in `nlost` (21 R383). A DRAIN does not leave its region (21 R369); a CFG record that would is
discarded, and a run of them moves as one (log 33). The queues of streams that leave a region stop at a freeze wave; the others send on
(R371). -/
def execRecordSend (q : Qid) (s : State) : Host.Outcome State Fault Refusal :=
  .next (match Tab.get? s.fab.streams q with
    | none => s
    | some dst =>
      let leaves := s.fab.exits.contains dst || s.fab.texts.contains dst || q.rid? != dst.rid?
      let run := s.cfgRun q
      if !s.queueOpen q || (leaves && !s.queueAlive q) || s.queueImaged dst then s
      else if leaves && (s.head? q).map (·.kind) == some kDRAIN then s.removeDrain q
      else if leaves && !run.isEmpty then s.dequeue q run.length
      else if (s.queue? dst).isNone then
        if (s.head? q).isNone then s
        else (s.dequeue q 1).updQueue q fun x => { x with nlost := min (x.nlost + 1) 0xFFFFFFFF }
      else if !run.isEmpty then
        (s.dequeue q run.length).inject q dst run
      else
        match s.takeHead q with
        | (s, some r) => s.inject q dst [r]
        | (s, none) => s)

/-- The first record in flight to a queue. -/
def takeFlight (q : Qid) : List (Qid × Record) → Option (Record × List (Qid × Record))
  | [] => none
  | (p, r) :: rest =>
    if p = q then some (r, rest)
    else (takeFlight q rest).map fun x => (x.1, (p, r) :: x.2)

/-- The sink that stands at an exit's queue. -/
def State.sinkAt (s : State) (q : Qid) : Option (Nid × Sink) := s.fab.sinks.find? fun e => e.2.exit == q

/-- The CFG records that reach a queue next, as one (log 33). -/
def State.arriveRun (s : State) (q : Qid) : Nat → State
  | 0 => s
  | n + 1 => match takeFlight q s.fab.flight with
    | some (r, rest) =>
      if r.kind = kCFG then (((s.updFab fun f => { f with flight := rest }).arriveAt q r).1).arriveRun q n else s
    | none => s

/-- RECORD_ARRIVAL (10 R202): the shear of a queue judges the next record that reaches it. One that a sink stands before goes
through the sink. -/
def execRecordArrival (q : Qid) (s : State) : Host.Outcome State Fault Refusal :=
  .next (if (s.sinkAt q).isSome || !s.queueOpen q then s
    else
      match takeFlight q s.fab.flight with
      | some (r, rest) =>
        if r.kind = kCFG then s.arriveRun q (s.fab.flight.length) else ((s.updFab fun f => { f with flight := rest }).arriveAt q r).1
      | none => s)

/-- SPILL_REFILL (10 R208): the oldest ring record moves into free storage. -/
def execSpillRefill (q : Qid) (s : State) : Host.Outcome State Fault Refusal :=
  .next (if !s.queueOpen q then s
    else
      match s.queue? q with
      | some x => let (s, x) := s.refill q x; s.setQueue q x
      | none => s)

/-! ### Links and joins (09 R191 to R193) -/

/-- One record reaches a link. A CFG record waits behind what stands in the link's registers. -/
def State.linkArrive (s : State) (q : Qid) : State :=
  match takeFlight q s.fab.linkFlight, Tab.get? s.fab.links q with
  | some (r, rest), some l =>
    if r.kind = kCFG ∧ (l.token.isSome ∨ l.gap.isSome) then s
    else
      let l' := l.arrive r
      let lost : Link → Nat := fun x => match x.gap with
        | some g => (Gap.ofRecord g).lost
        | none => 0
      let s := s.updFab fun f => { f with linkFlight := rest, links := Tab.set f.links q l' }
      if lost l' > lost l then s.count (bitsAt l.qid 26 6) (some (bitsAt l.qid 17 9)) 0x29 else s
  | _, _ => s

/-- The CFG records that reach a link next, as one (log 33). -/
def State.linkRun (s : State) (q : Qid) : Nat → State
  | 0 => s
  | n + 1 => match takeFlight q s.fab.linkFlight with
    | some (r, _) => if r.kind = kCFG then (s.linkArrive q).linkRun q n else s
    | none => s

/-- LINK_ARRIVAL (09 R191): a record reaches a link; a loss counts at its producing port (R192). -/
def execLinkArrival (q : Qid) (s : State) : Host.Outcome State Fault Refusal :=
  .next (if !s.queueOpen q then s
    else
      match takeFlight q s.fab.linkFlight with
      | some (r, _) => if r.kind = kCFG then s.linkRun q s.fab.linkFlight.length else s.linkArrive q
      | none => s)

/-- The first record in flight to an arc of a join. -/
def takeArc (n : Nid) (arc : Nat) : List (Nid × Nat × Record) → Option (Record × List (Nid × Nat × Record))
  | [] => none
  | (m, k, r) :: rest =>
    if m = n ∧ k = arc then some (r, rest) else (takeArc n arc rest).map fun x => (x.1, (m, k, r) :: x.2)

/-- JOIN_ARC_ARRIVAL (09 R193): an arc counts an arrival, to at most 65,535; one past it counts JOIN_OVERFLOW. What is in flight when a
freeze passes arrives before the capture closes (21 R371). -/
def execJoinArcArrival (n : Nid) (arc : Nat) (s : State) : Host.Outcome State Fault Refusal :=
  .next (if !s.running n.rid then s
    else
      match takeArc n arc s.fab.arcFlight, Tab.get? s.fab.joins n with
      | some (r, rest), some j =>
        let s := s.updFab fun f => { f with arcFlight := rest }
        let c := j.counts.getD arc 0
        if c ≥ 65535 then s.countNode n 0x40
        else s.updFab fun f => { f with
          joins := Tab.set f.joins n { j with counts := j.counts.set arc (c + 1), sr := unionDep j.sr r.sr } }
      | _, _ => s)

/-- JOIN_FIRE (09 R193): with every count at least 1, each falls by one and each release arc gets a NULL record, which carries
the `sr` of what the join counted (15 R307). -/
def execJoinFire (n : Nid) (s : State) : Host.Outcome State Fault Refusal :=
  .next (match Tab.get? s.fab.joins n with
    | none => s
    | some j =>
      if !s.nodeAlive n || j.counts.isEmpty || j.counts.any (· == 0) then s
      else
        let counts := j.counts.map (· - 1)
        let s := s.updFab fun f => { f with
          joins := Tab.set f.joins n { j with counts := counts, sr := if counts.all (· == 0) then [] else j.sr } }
        j.release.foldl (fun s d => s.putOn d { Record.null with sr := j.sr }) s)

/-! ### Generators (04 R66, R67) -/

/-- A generator puts while fewer tokens than the smaller threshold of its stream's two queues are outstanding (04 R67). -/
def State.genLimit (s : State) (g : Gen) : Nat :=
  let thr := fun q => ((s.queue? q).map (·.desc.thr)).getD 0
  match g.out with
  | .stream src dst => min (thr src) (thr dst)
  | _ => 0

/-- The RAND tokens of a generator's stream that stand in its queues, and those between them. -/
def State.randIn (s : State) (p : Held → Bool) (q : Qid) : Nat := ((s.queue? q).map fun x => (x.items.filter fun h => h.r.kind == kRAND && p h).length).getD 0
def State.randFlying (s : State) (dst : Qid) : Nat :=
  (s.fab.flight.filter fun e => e.1 == dst && e.2.kind == kRAND).length +
    sumNat (s.fab.packets.map fun p => if p.dst = dst then p.recs.countP fun r => r.kind == kRAND else 0)

/-- The tokens that a generator has put and nothing has consumed are counted anew, as an image leaves them (23 R416). -/
def State.recountGen (s : State) (g : Gen) : Gen := match g.out with
  | .stream src dst => { g with
    outstanding := s.randIn (fun _ => true) src + (if src = dst then 0 else s.randIn (fun _ => true) dst) + s.randFlying dst }
  | _ => { g with outstanding := 0 }

/-- GENERATOR_PUT (04 R66, R67): a RAND token, whose `time` is the low word of the counter. -/
def execGeneratorPut (n : Nid) (s : State) : Host.Outcome State Fault Refusal :=
  .next (match Tab.get? s.fab.gens n with
    | none => s
    | some g =>
      if !s.nodeAlive n || g.outstanding ≥ s.genLimit g then s
      else
        let s := s.updFab fun f => { f with
          gens := Tab.set f.gens n { g with ctr := g.ctr + 1, outstanding := g.outstanding + 1 } }
        s.putOn g.out { Record.token kRAND with
          payload := randPayload g.key g.ctr, time := g.ctr.toNat % 2 ^ 32 })

/-- The serials of the entries of a queue that firings in progress have been delivered. -/
def State.deliveredOf (s : State) (q : Qid) : List Nat :=
  s.agents.flatMap fun e =>
    let ports := (e.2.ins.filter fun p => p.src == .queue q).map (·.n)
    (e.2.firing.toList ++ e.2.older.map Prod.fst ++ e.2.younger.map Prod.fst).flatMap fun f =>
      (f.delivered.filter fun d => ports.contains d.port).flatMap (·.serials)

/-- `genk` at commit (14 R299): the new key and counter; `.flush` discards the tokens that no firing has been delivered. -/
def State.applyGenk (s : State) (a : Aid) (sel : Nat) (key ctr : Dword) (flush : Bool) : State × Nat :=
  match s.selectGroup a sel .gen with
  | .error e => (s, failToken cENGINE e 0)
  | .ok n =>
    match Tab.get? s.fab.gens n with
    | none => (s, failToken cENGINE eNOGROUP 0)
    | some g =>
      let s := s.updFab fun f => { f with gens := Tab.set f.gens n { g with key := key, ctr := ctr } }
      if !flush then (s, 0)
      else
        match g.out with
        | .stream src dst =>
          let held := s.deliveredOf dst
          let rand := fun (h : Held) => h.r.kind == kRAND && !held.contains h.serial
          let n' := s.randIn rand src + s.randIn rand dst + s.randFlying dst
          let drop := fun (x : Queue) => { x with items := x.items.filter fun h => !rand h }
          let s := (s.updQueue src drop).updQueue dst drop
          (s.updFab fun f => { f with
            flight := f.flight.filter fun e => !(e.1 == dst && e.2.kind == kRAND)
            packets := (f.packets.map fun p =>
              if p.dst = dst then { p with recs := p.recs.filter fun r => r.kind != kRAND } else p).filter fun p => !p.recs.isEmpty
            gens := Tab.modify f.gens n fun g => { g with outstanding := g.outstanding - n' } }, 0)
        | _ => (s, 0)

/-! ### Windows (10 R213 to R217) -/

def State.updWindow (s : State) (n : Nid) (f : Window → Window) : State :=
  s.updFab fun x => { x with windows := Tab.modify x.windows n f }

/-- A window node puts a record; the next one after a late arrival carries `exc`. -/
def State.winPut (s : State) (n : Nid) (r : Record) : State :=
  match Tab.get? s.fab.windows n with
  | none => s
  | some w => (s.updWindow n fun w => { w with excNext := false }).putOn? w.out { r with exc := r.exc || w.excNext }

/-- The storage a window node uses: keyed slots or records. -/
def Window.used (w : Window) : Nat := sumNat (w.opens.map fun o => o.slots.length + o.recs.length)

/-- Its capacity: 256 keyed slots or 170 record slots a bank. -/
def Window.cap (w : Window) : Nat := match w.fn with
  | .agg _ _ _ => 256 * w.banks
  | .join _ => 170 * w.banks

/-- A result with nothing in it: min +Inf, max −Inf. -/
def AggSlot.empty (key : Option Nat) : AggSlot := ⟨key, 0, 0, 0x7F800000, 0xFF800000, 0, false, []⟩

/-- One record added to a result (10 R215). -/
def AggSlot.add (g : AggSlot) (lane : Nat) (total : Bool) (r : Record) : AggSlot :=
  let x := lane32 r.payload lane
  let wx := if total then x else (fmtF32.ofVal 0 ((wt16Value r.weight).mul (fmtF32.value x)).1).1
  { g with
    swx := f32Add g.swx wx
    sw := f32Add g.sw (wt16ToF32 r.weight)
    mn := (fmtF32.pick false g.mn x).1
    mx := (fmtF32.pick true g.mx x).1
    n := (g.n + 1) % 2 ^ 32
    exc := g.exc || r.exc
    sr := unionDep g.sr r.sr }

/-- A gap counts into the windows its times touch; one that touches only closed windows is late. -/
def State.winGap (s : State) (n : Nid) (g : WinGap) : State :=
  match Tab.get? s.fab.windows n with
  | none => s
  | some w =>
    if g.tmax / w.W < w.closed then (s.countNode n 0x41).updWindow n fun w => { w with excNext := true }
    else s.updWindow n fun w => { w with gaps := w.gaps ++ [g] }

/-- A DATA record reaches a window node (10 R214). -/
def State.winData (s : State) (n : Nid) (side : Nat) (r : Record) : State :=
  match Tab.get? s.fab.windows n with
  | none => s
  | some w =>
    let i := r.time / w.W
    let full := fun (s : State) => (s.countNode n 0x42).winGap n
      ⟨side, r.time, r.time, r.kv, if r.kv then r.key else 0, if r.kv then r.key else 0, wt16ToF32 r.weight, r.exc, r.sr⟩
    if i < w.closed then (s.countNode n 0x41).updWindow n fun w => { w with excNext := true }
    else
      match w.fn with
      | .join _ =>
        if w.used ≥ w.cap then full s
        else s.updWindow n fun w => w.setOpen { w.openOf i with recs := (w.openOf i).recs ++ [⟨side, r⟩] }
      | .agg lane bykey total =>
        let key := if bykey && r.kv then some r.key else none
        let o := w.openOf i
        if o.slots.any fun g => g.key == key then
          s.updWindow n fun w => w.setOpen { o with
            slots := o.slots.map fun g => if g.key = key then g.add lane total r else g }
        else if w.used ≥ w.cap then full s
        else s.updWindow n fun w => w.setOpen { o with slots := o.slots ++ [(AggSlot.empty key).add lane total r] }

/-- A gap overlaps window `i`. -/
def WinGap.overlaps (g : WinGap) (W i : Nat) : Bool := g.tmin < (i + 1) * W && g.tmax ≥ i * W

/-- A gap covers a key, or the records without one. -/
def WinGap.covers (g : WinGap) : Option Nat → Bool
  | some k => !g.kr || (g.kmin ≤ k && k ≤ g.kmax)
  | none => !g.kr

/-- The sum of lost weights, rounded at each step. -/
def lostSum (gs : List WinGap) : Nat := gs.foldl (fun t g => f32Add t g.lostw) 0

/-- The coverage: 1.0 when both are zero. -/
def coverage (sw lost : Nat) : Nat :=
  match fmtF32.value sw, (sumVals 0 [fmtF32.value sw, fmtF32.value lost]).1 with
  | .fin neg a e, .fin neg' b f =>
    if b = 0 then 0x3F800000
    else
      let (p, q) := scaleQ a b (e - f)
      (fmtF32.round 0 (neg != neg') p q).1
  | .fin _ _ _, .inf _ => 0
  | _, _ => fmtF32.canonNaN

/-- Ascending order of keys, without a key last. -/
def keyBefore : Option Nat → Option Nat → Bool
  | some a, some b => decide (a < b)
  | some _, none => true
  | none, _ => false

/-- Inserts a result by key. -/
def insertSlot (g : AggSlot) : List AggSlot → List AggSlot
  | [] => [g]
  | h :: hs => if keyBefore g.key h.key then g :: h :: hs else h :: insertSlot g hs

/-- The records of a closing window of an aggregate (10 R215). -/
def aggOutputs (bykey : Bool) (W : Nat) (o : OpenWindow) (gaps : List WinGap) : List Record :=
  let slots := if o.slots.isEmpty && !bykey then [AggSlot.empty none] else o.slots.foldl (fun l g => insertSlot g l) []
  let exc := o.slots.any (·.exc) || gaps.any (·.exc)
  slots.map fun g =>
    let gs := if bykey then gaps.filter fun x => x.covers g.key else gaps
    let lost := lostSum gs
    { Record.data (packE 32 [g.swx, g.sw, g.mn, g.mx, lost, coverage g.sw lost, g.n,
          (if gs.isEmpty then 0 else 1) + (if g.n = 0 then 2 else 0), o.id % 2 ^ 32]) (((o.id + 1) * W - 1) % 2 ^ 32)
        exc (gs.foldl (fun l x => unionDep l x.sr) g.sr) with
      key := g.key.getD 0, kv := g.key.isSome }

/-- Sorted keys without repeats. -/
def insertKey (k : Nat) : List Nat → List Nat
  | [] => [k]
  | h :: hs => if k < h then k :: h :: hs else if k = h then h :: hs else h :: insertKey k hs

/-- The records of a closing window of a join (10 R216, R217). -/
def joinOutputs (unknowns : Bool) (o : OpenWindow) (gaps : List WinGap) : List Record :=
  let side := fun (k : Nat) (x : Nat) => (o.recs.filter fun w => w.side == k && w.r.kv && w.r.key == x).map (·.r)
  let keys := (o.recs.filter fun w => w.r.kv).foldl (fun l w => insertKey w.r.key l) []
  let partial_ := if gaps.isEmpty then 0 else 2 ^ 31
  let id := o.id % 2 ^ 29
  let pairs := keys.flatMap fun k => (side 0 k).flatMap fun l => (side 1 k).map fun r =>
    let (w, sat) := wt16Mul l.weight r.weight
    { Record.data (packE 32 (((List.range 8).map (lane32 l.payload)) ++ ((List.range 7).map (lane32 r.payload)) ++
          [partial_ + id])) (max l.time r.time) (l.exc || r.exc) (unionDep l.sr r.sr) with
      weight := w, wsat := sat, key := k, kv := true }
  let unknown := keys.flatMap fun k =>
    let s := if (side 0 k).isEmpty then 1 else 0
    if !(side 0 k).isEmpty && !(side 1 k).isEmpty then []
    else
      let cover := gaps.filter fun g => g.side != s && g.covers (some k)
      if cover.isEmpty then []
      else (side s k).map fun r =>
        let lost := lostSum cover
        let own := (List.range (if s = 0 then 8 else 7)).map (lane32 r.payload)
        let lanes := if s = 0 then own ++ [lost] ++ List.replicate 6 0 else [lost] ++ List.replicate 7 0 ++ own
        { Record.data (packE 32 (lanes ++ [2 ^ 31 + 2 ^ 30 + s * 2 ^ 29 + id])) r.time (r.exc || cover.any (·.exc))
            (cover.foldl (fun l x => unionDep l x.sr) r.sr) with
          weight := r.weight, wsat := r.wsat, key := k, kv := true }
  pairs ++ (if unknowns then unknown else [])

/-- The bound below which windows close: that of the smallest watermark, or, once every input has ended, behind the last window that
holds something (10 R213, R214; log 56). -/
def Window.bound (w : Window) : Nat :=
  if w.ended.all id then
    w.gaps.foldl (fun m g => max m (g.tmax / w.W + 1)) (w.opens.foldl (fun m o => max m (o.id + 1)) w.closed)
  else max w.closed (w.marks.foldl min (w.marks.headD 0) / w.W)

/-- One window closes. -/
def State.closeWindow (s : State) (n : Nid) (i : Nat) : State :=
  match Tab.get? s.fab.windows n with
  | none => s
  | some w =>
    let gaps := w.gaps.filter fun g => g.overlaps w.W i
    let outs := match w.fn with
      | .agg _ bykey _ => aggOutputs bykey w.W (w.openOf i) gaps
      | .join unknowns => joinOutputs unknowns (w.openOf i) gaps
    outs.foldl (fun s r => s.winPut n r) (s.updWindow n fun w => { w with opens := w.opens.filter fun o => o.id != i })

/-- Closes the windows that every input's watermark has passed, or all that are open once every input has ended, in ascending id, each
with its outputs and a WCLOSE of the smallest watermark; then the END (10 R213, R214). -/
def State.closeWindows (s : State) (n : Nid) : State :=
  match Tab.get? s.fab.windows n with
  | none => s
  | some w =>
    let done := w.ended.all id
    let mark := w.marks.foldl min (w.marks.headD 0)
    let s := (List.range (w.bound - w.closed)).foldl (fun s j =>
      (s.closeWindow n (w.closed + j)).winPut n { Record.token kWCLOSE with time := mark }) s
    let s := s.updWindow n fun v => { v with
      closed := w.bound, gaps := v.gaps.filter fun g => g.tmax / v.W ≥ w.bound, finished := done }
    if done then s.winPut n (Record.token kEND) else s

/-- WINDOW_INPUT (10 R214): a window node takes the head of an input. A DRAIN holds its input until every input has one, and so
do CFG records, which the node forwards (21 R380). -/
def execWindowInput (n : Nid) (input : Nat) (s : State) : Host.Outcome State Fault Refusal :=
  .next (match Tab.get? s.fab.windows n with
    | none => s
    | some w =>
      match if s.nodeAlive n then w.ins[input]? else none with
      | none => s
      | some q =>
        match s.head? q with
        | none => s
        | some r =>
          if r.kind = kDRAIN then
            if w.ins.all fun p => (s.head? p).map (·.kind) == some kDRAIN then
              (w.ins.foldl (fun s p => s.dequeue p 1) s).winPut n r
            else s
          else if r.kind = kCFG then
            if w.ins.all fun p => (s.head? p).map (·.kind) == some kCFG then
              w.ins.foldl (fun s p =>
                let run := s.cfgRun p
                (Nid.forwards n run).foldl (fun s r => s.winPut n r) ((s.dequeue p run.length).nodeBanks n run)) s
            else s
          else
            let s := (s.dequeue q 1).progress n.rid
            if r.kind = kDATA then s.winData n input r
            else if r.kind = kGAP then
              let g := Gap.ofRecord r
              s.winGap n ⟨input, g.tmin, g.tmax, g.kr, g.kmin, g.kmax, g.lostw, r.exc, r.sr⟩
            else if r.kind = kWCLOSE then
              (s.updWindow n fun w => { w with marks := w.marks.mapIdx fun j m => if j = input then max m r.time else m }).closeWindows n
            else if r.kind = kEND then
              if w.finished then s
              else (s.updWindow n fun w => { w with ended := w.ended.set input true }).closeWindows n
            else if r.kind = kEOF ∨ r.kind = kSWAP then s.winPut n r
            else s)

/-! ### Sinks (10 R221, R222) -/

/-- The bytes of a log entry. -/
def sinkEntry (qid seq : Nat) (r : Record) : List Byte :=
  natBytes 4 qid ++ natBytes 8 seq ++ natBytes 4 r.key ++ natBytes 4 r.time ++ natBytes 4 (r.sideband % 2 ^ 32) ++
    natBytes 4 (lane32 r.payload 0) ++ natBytes 4 0

/-- A failure of a log access: one record until a later access succeeds; the entry is dropped. -/
def State.sinkFails (s : State) (n : Nid) (k : Sink) (cause va : Nat) : State :=
  let (die, vq) := s.nodeQuad n
  let s := if k.reported then s else s.asyncRecord cause k.ctx (s.queueInc k.exit) die vq (n.unit % 4) va
  (s.updFab fun f => { f with sinks := Tab.modify f.sinks n fun k => { k with reported := true } }).countNode n 0x43

/-- Logs a record (10 R221). -/
def State.sinkLog (s : State) (n : Nid) (k : Sink) (r : Record) : State :=
  let (die, vq) := s.nodeQuad n
  let qid := ((s.queue? k.exit).map (·.qid)).getD 0
  match s.muRead die vq k.ctx (wrap 64 ((k.log : Int) - 8)) 8 with
  | (s, .error (cause, va)) => s.sinkFails n k cause va
  | (s, .ok bs) =>
    let clear := fun (s : State) (f : Sink → Sink) => s.updFab fun x => { x with sinks := Tab.modify x.sinks n f }
    let s := clear s fun k => { k with reported := false }
    if k.wr - bytesNat bs ≥ k.size then s.countNode n 0x43
    else
      match s.muWrite die vq k.ctx (wrap 64 (k.log + 32 * (k.wr % k.size) : Nat)) (sinkEntry qid k.seq r) with
      | (s, .error (cause, va)) => s.sinkFails n { k with reported := false } cause va
      | (s, .ok _) => clear s fun k => { k with wr := k.wr + 1 }

/-- SINK_RECORD (10 R221): a record passes a sink, logged when its `exc` or `wsat` is set, when it is DATA of zero weight (03
R42), or when its kind is reserved (R48). -/
def execSinkRecord (n : Nid) (s : State) : Host.Outcome State Fault Refusal :=
  .next (match Tab.get? s.fab.sinks n with
    | none => s
    | some k =>
      match if s.nodeAlive n then takeFlight k.exit s.fab.flight else none with
      | none => s
      | some (r, rest) =>
        let s := s.updFab fun f => { f with flight := rest }
        let flagged := r.exc || r.wsat || (r.kind == kDATA && (wt16Value r.weight).isZero) || r.kind ≥ 10
        let s := if flagged then s.sinkLog n k r else s
        let s := s.updFab fun f => { f with sinks := Tab.modify f.sinks n fun k => { k with seq := k.seq + 1 } }
        (s.arriveAt k.exit r).1)

/-- ME_STREAM_RECORD (14 R291). -/
def execMeStreamRecord (n : Nid) (s : State) : Host.Outcome State Fault Refusal :=
  .next (if s.nodeAlive n then s.meStream n else s)

end Sys2Proof.Machine
end

