-- ==== Sys2Proof/Machine/Requests.lean ====
section
/-! DEFINITION. The performance of memory requests and the return of their answers, locks, barriers, the start and completion
of engine commands, and the timestamps of leases (spec 12 R244 to R256; 13 R262 to R276; 14 R277, R278, R296 to R298; 22
R394). -/
namespace Sys2Proof.Machine

/-! ### Small parts -/

/-- An agent has a block in progress that it entered in a cycle. -/
def State.hasBlock (s : State) (b : Aid × Nat) : Bool := match s.agent? b.1 with
  | some g => g.inFlight.any fun x => x.2.entered == b.2
  | none => false

/-- A shoot-down is complete. What was cached of a context under its old root goes with it (log 35). -/
def State.endShot (s : State) (w : SysWait) : State := match w.ends with
  | .token a reg => s.arrive a reg w.id 0 [w.id]
  | .root c v => (s.shootDown c none none).updContext c fun x => { x with root := bitsAt v 12 40, rootV := bitsAt v 0 1 == 1 }
  | .answer pkg id => s.send (.shootDone pkg id)

/-- Shoot-downs end for which everything has been performed, and every other package has answered (22 R395). -/
def State.settleSys (s : State) : State :=
  let ready := s.sched.sysWaits.filter fun w => w.on.all s.performed && !(w.blocks.any s.hasBlock) && w.sent.isEmpty &&
    (Tab.getD s.out.shots w.id []).isEmpty
  let s := s.updSched fun x => { x with sysWaits := x.sysWaits.filter fun w => !ready.contains w }
  ready.foldl (fun s w => (s.updOut fun o => { o with shots := Tab.erase o.shots w.id }).endShot w) s

/-- A block has an access, checked and not yet committed, that a shoot-down concerns. -/
def Block.shot (hits : Nat → Bool) (b : Block) : Bool := b.effects.any fun e => match e.2 with
  | .mem _ _ _ acc _ _ _ _ => acc.any fun x => x.1.mt != 3 && hits x.1.va
  | _ => false

/-- What a shoot-down waits for, judged before the entries are dropped: requests that they translated, posted writes of the context,
accesses of blocks that have not committed (13 R262), and line writes that requesters have sent. -/
def State.shotWaits (s : State) (x : Shot) (id : Nat) (ends : ShotEnd) : SysWait :=
  let hits := s.shotHits x
  let here := fun (b : Aid) => match s.agent? b with
    | some g => g.ctx == x.ctx && x.on g.die
    | none => false
  let reqs := (s.ms.reqs.filter fun r => r.ctx == x.ctx && r.kind != .engine && here r.aid && hits r.acc.va).map (·.id)
  let posted := (s.ms.ioWrites.filter fun w => w.ctx == x.ctx).map (·.id)
  let blocks := (s.agents.filter fun e => e.2.ctx == x.ctx && x.on e.2.die).flatMap fun e =>
    (e.2.inFlight.filter fun f => f.2.shot hits).map fun f => (e.1, f.2.entered)
  let sent := (s.out.requesters.map fun e => (e.1, (e.2.items.filter fun i => match i with
    | .write _ c _ _ sent => sent && c == x.ctx
    | _ => false).length)).filter fun e => e.2 != 0 && x.on (s.iopDie x.ctx)
  ⟨id, ends, reqs ++ posted, blocks, sent⟩

/-- Line writes of a context that have been translated and not sent are translated anew. -/
def IopItem.untranslate (ctx : Nat) : IopItem → IopItem
  | .write x c bytes route false => if c = ctx then .raw none c x.va bytes else .write x c bytes route false
  | i => i

/-- A shoot-down begins: the entries are dropped, and what they translated is waited for (22 R395). -/
def State.beginShot (s : State) (x : Shot) (id : Nat) (ends : ShotEnd) : State :=
  let w := s.shotWaits x id ends
  let s := s.shootDown x.ctx x.va x.die
  let anew := fun (r : Requester) => { r with items := r.items.map (IopItem.untranslate x.ctx) }
  let s := if x.on (s.iopDie x.ctx) then s.updOut fun y => { y with requesters := y.requesters.map fun e => (e.1, anew e.2) } else s
  (s.updSched fun y => { y with sysWaits := y.sysWaits ++ [w] }).settleSys

/-- A shoot-down of the pod scope asks every other package for its own (22 R395). -/
def State.askPod (s : State) (id ctx : Nat) (va : Option Nat) : State :=
  let others := (List.range s.out.pod.count).filter (· != s.out.pod.index)
  if others.isEmpty then s else (s.updOut fun o => { o with shots := Tab.set o.shots id others }).send (.shoot id ctx va)

/-- A shoot-down of the pod scope reaches this package from another (22 R395): it drops what the same context number has here, and answers
when that is complete. -/
def State.podShoot (s : State) (pkg id ctx : Nat) (va : Option Nat) : State :=
  let (n, s) := s.takeId
  s.beginShot ⟨ctx, va, none⟩ n (.answer pkg id)

/-- Another package has completed its part of a shoot-down. -/
def State.podShootDone (s : State) (pkg id : Nat) : State :=
  (s.updOut fun o => { o with shots := Tab.modify o.shots id fun ps => ps.filter (· != pkg) }).settleSys

/-- Removes a request, and stamps it with the timestamp at which it was performed (12 R245). -/
def State.retire (s : State) (r : Req) : State :=
  let t := s.ptsOf (.agent r.aid)
  ((s.updMs fun m => { m with reqs := m.reqs.filter fun q => q.id != r.id }).setStamp r.id t (s.context r.ctx).part).settleSys

/-- A package has refused a write that a copy sent it: the copy ends with the cause (24 R431; log 43). Its progress is what it has written,
which that write is not part of; the rest of it is not performed, and the groups of its round stand at their boundaries. -/
def State.podRefused (s : State) (a : Aid) (id cause : Nat) : State :=
  match s.cmd? a .copy id, s.ms.reqs.find? fun r => r.id == id with
  | some c, some r =>
    let own := s.ms.ioWrites.filter fun w => r.after.contains w.id && w.aid == some a
    if c.result.isSome || !(own.any (·.sent)) then s
    else
      let written := c.progress - sumNat (own.map IoWrite.size)
      let s := s.updMs fun m => { m with
        reqs := m.reqs.filter fun q => q.id != id
        ioWrites := m.ioWrites.filter fun w => !own.contains w }
      let s := ((s.releaseRound id).setStamp id (s.ptsOf (.engine a .copy)) (s.context r.ctx).part).settleSys
      s.cmdFault a .copy id cause written
  | _, _ => s

/-- An access of a vector atomic has been performed: the last one writes the group's register, with the count of the elements
performed, or with the failure if an uncorrectable error stopped one (13 R271, R272). -/
def State.answerGroup (s : State) (grp : Nat) (failed : Bool) : State :=
  match s.ms.groups.find? fun g => g.1 == grp with
  | none => s
  | some (_, g) =>
    let g := { g with left := g.left - 1, failed := g.failed || failed }
    if g.left = 0 then
      (s.updMs fun m => { m with groups := m.groups.filter fun h => h.1 != grp }).arrive g.aid g.reg grp
        (if g.failed then failToken cMEMORY_UE 0 0 else g.value) [grp]
    else s.updMs fun m => { m with groups := m.groups.map fun h => if h.1 = grp then (grp, g) else h }

/-- The register or group of a request receives a value. -/
def State.answer (s : State) (r : Req) (v : Nat) : State :=
  match r.dst with
  | .reg a code _ _ => s.arrive a code r.id v [r.id]
  | .group _ grp => s.answerGroup grp r.failed.isSome
  | _ => s

/-- Everything a request must follow has been performed. -/
def State.mayPerform (s : State) (r : Req) : Bool := r.after.all s.performed

/-- What an atomic answers that an uncorrectable error stopped (13 R271), and the token of such a `stsys` (R264; log 22). -/
def ueToken : Nat := failToken cMEMORY_UE 0 0

/-! ### The tags of an MU (12 R252, R253) -/

/-- The MU whose tags an agent's accesses take: that of its CU. A service thread has none. -/
def State.muOf (s : State) (a : Aid) : Option Nat :=
  if a.isThread then none else (s.agent? a).map fun g => muNumber g.die g.vq g.cu

/-- The tags that an MU has out, oldest first. One whose access has gone, with its region, has retired. -/
def State.tagsOf (s : State) (mu : Nat) : List MuTag :=
  (Tab.getD s.ms.tags mu []).dropWhile fun t => t.replied || !(s.ms.reqs.any fun r => r.id == t.id) && !(s.ms.replies.any fun r => r.id == t.id)

/-- An MU has a tag to give. -/
def State.tagRoom (s : State) (mu : Option Nat) : Bool := match mu with
  | some m => decide ((s.tagsOf m).length < 256)
  | none => true

/-- An access is sent on the lattice: it takes a tag. -/
def State.takeTag (s : State) (mu : Option Nat) (id inc : Nat) : State := match mu with
  | some m => s.updMs fun x => { x with tags := Tab.set x.tags m (s.tagsOf m ++ [⟨id, inc, false⟩]) }
  | none => s

/-- A tag's reply has arrived: it retires once every older tag has. -/
def State.tagReplied (s : State) (mu : Option Nat) (id : Nat) : State := match mu with
  | some m =>
    let tags := ((s.tagsOf m).map fun t => if t.id = id then { t with replied := true } else t).dropWhile MuTag.replied
    s.updMs fun x => { x with tags := Tab.set x.tags m tags }
  | none => s

/-- A tag is allocated to an access of an incarnation. -/
def State.tagHeld (s : State) (mu : Option Nat) (id inc : Nat) : Bool := match mu with
  | some m => (s.tagsOf m).any fun t => t.id == id && t.inc == inc
  | none => true

/-- A copy in a stash serves an access (12 R244). -/
def State.stashServes (s : State) (i : Issuer) (a : Aid) (va : Nat) (x : Access) (write : Bool) : Bool :=
  x.mt == 0 && match s.stashFor a va with
    | some (_, st) => st.lines.any fun l => l.holds x.pa && (if write then l.owned else decide (s.ptsOf i ≤ l.lease))
    | none => false

/-- A place in the banks of an agent's own quad. -/
def State.ownBank (s : State) (a : Aid) (x : Access) : Bool :=
  x.mt == 3 && match s.agent? a with
    | some g => (x.pa - 2 ^ 55) / 2 ^ 17 / 4 == muNumber g.die g.vq 0 / 4
    | none => false

/-- An access crosses the lattice, unless it is made in the banks of the agent's quad or served by a copy in a stash. -/
def State.crosses (s : State) (r : Req) : Bool :=
  let va := r.acc.va + (match r.elems with
    | e :: _ => e.off
    | [] => 0)
  !s.ownBank r.aid r.acc && !(match r.kind with
    | .read false => s.stashServes (.agent r.aid) r.aid va r.acc false
    | .write false => s.stashServes (.agent r.aid) r.aid va r.acc true
    | _ => false)

/-- The MU whose tag a request needs or holds. -/
def State.reqMu (s : State) (r : Req) : Option Nat := match r.kind with
  | .engine => none
  | _ => if s.crosses r then s.muOf r.aid else none

/-- The accesses of an MU take their tags in the order of their issue (12 R252): those before a request do, and then the request, while
there are tags. One that waits for what it follows holds its tag meanwhile (log 53). -/
def State.tagUpTo (s : State) (r : Req) : State :=
  let mu := s.reqMu r
  if mu.isNone then s
  else ((s.ms.reqs.takeWhile fun q => q.id != r.id) ++ [r]).foldl (fun s q =>
    if s.reqMu q != mu || s.tagHeld mu q.id q.inc || !s.tagRoom mu then s else s.takeTag mu q.id q.inc) s

/-! ### Lines that move (22 R397) -/

/-- What a page migration in progress makes of an access: nothing, or it goes to the old page, whose home refuses it, or to the new one,
where it is held. -/
inductive Moving where
  | still | moving | arriving
  deriving DecidableEq, Repr

/-- Where an access stands to a migration of its partition. -/
def State.movingAt (s : State) (x : Access) : Moving :=
  if x.mt ≥ 2 then .still
  else match (s.partition (memPart x.pa)).migrun with
    | none => .still
    | some (_, old, new) =>
      let page := (x.pa - memBase (memPart x.pa)) / 2 ^ 16
      if page = old / 2 ^ 16 then .moving else if page = new / 2 ^ 16 then .arriving else .still

/-- An access that the old home of its page refuses: its requester drops the page's translation from both levels of caches and walks
again (12 R253, 22 R397). Where the walk fails, it stays as it was, and is refused again. -/
def State.retried (s : State) (die vq ctx : Nat) (x : Access) : State × Access :=
  let drops := fun (c : Cached) => (⟨ctx, some x.va, some die⟩ : Shot).drops c
  let s := (s.count (s.homeDie x) none 0x36).updMs fun m => { m with
    tlbDie := m.tlbDie.map fun e => if e.1 = die then (e.1, e.2.filter fun c => !drops c) else e
    tlbQuad := m.tlbQuad.map fun e => if e.1 = (die, vq) then (e.1, e.2.filter fun c => !drops c) else e }
  match s.translate die vq ctx x.va x.len ⟨false, false, false, false⟩ with
  | (s, .ok y) => (s, y)
  | (s, .error _) => (s, x)

/-- A refused request is retried. -/
def State.retryReq (s : State) (r : Req) : State :=
  match s.agent? r.aid with
  | none => s
  | some g =>
    let (s, x) := s.retried g.die g.vq r.ctx r.acc
    s.updMs fun m => { m with reqs := m.reqs.map fun q => if q.id = r.id then { q with acc := x } else q }

/-! ### Performing (12 R246, R247, R249, R254) -/

/-- The part of a request's access that an element is. -/
def Req.part (r : Req) (off len : Nat) : Access := r.acc.part off len

/-- An element that an uncorrectable error stopped is noted, and reported (13 R264, R271). -/
def State.elementFails (s : State) (r : Req) (va : Nat) : State × Req :=
  (s.agentRecord r.aid r.origin cMEMORY_UE va, { r with failed := r.failed <|> some (0, va) })

/-- An element of a store is performed: its enabled bytes, as one event. One to an IO page becomes a posted write, whose acknowledgement
completes it (24 R426). -/
def State.storeElement (s : State) (r : Req) (e : Elem) (sys : Bool) : State × Req :=
  let bytes := natBytes 64 e.x
  let x := r.part e.off 64
  if r.acc.mt = 2 then
    let reg : Option (Aid × Nat × Nat) := match r.dst with
      | .reg a code _ _ => some (a, code, r.id)
      | _ => none
    (s.updMs fun m => { m with ioWrites := m.ioWrites ++ s.posted r.aid r.ctx r.id x bytes e.y reg }, r)
  else match s.writeEnabled (.agent r.aid) r.ctx x bytes e.y sys with
    | (s, true) => (s, r)
    | (s, false) => s.elementFails r (r.acc.va + e.off)

/-- A lock's holder is dead (13 R274): its context is not live, or no live region and no held image of it bears the incarnation. -/
def State.holderDead (s : State) (w : Nat) : Bool :=
  let ctx := bitsAt w 0 10
  !(s.context ctx).live || !(s.sched.regions.any fun e => e.2.ctx == ctx && e.2.inc == bitsAt w 16 16)

/-- A released lock word gives back the priority that its waiters lent (21 R384). -/
def State.endDonation (s : State) (r : Req) (op : MemOp) (old : Nat) : State :=
  match r.aid.rid, op with
  | some rid, .lkrel =>
    if old = holderForm r.ctx r.inc then
      s.updLaunch rid fun l => { l with donated := l.donated.filter fun d => d.2 != r.acc.pa }
    else s
  | _, _ => s

/-- An element of a read is performed. -/
def State.readElement (s : State) (r : Req) (e : Elem) (sys : Bool) : State × Req :=
  let (s, bs, ue) := s.readAccess (.agent r.aid) r.ctx (r.part e.off e.x) sys
  (s, { r with
    got := r.got ++ [(e.y, bs)]
    failed := if ue then r.failed <|> some (e.y, r.acc.va + e.off) else r.failed })

/-- An element of an atomic is performed; a vector one counts it. -/
def State.atomicElement (s : State) (r : Req) (e : Elem) (op : MemOp) (ty W : Nat) : State × Req :=
  let holder := holderForm r.ctx r.inc
  match s.rmwAccess (.agent r.aid) r.ctx (r.part e.off (W / 8)) fun old => rmwNew op W e.x e.y holder old with
  | (s, some old) =>
    let s := s.endDonation r op old
    match r.dst with
    | .group _ grp => (s.updMs fun m => { m with
        groups := m.groups.map fun h => if h.1 = grp then (grp, { h.2 with value := h.2.value + 1 }) else h }, r)
    | _ => (s, { r with got := [(rmwResult op ty W holder old, [])] })
  | (s, none) => s.elementFails r (r.acc.va + e.off)

/-- Every element of a request has been performed: the answer sets out, or a register or group gets it. -/
def State.finishRequest (s : State) (r : Req) : State :=
  let mu := if s.tagHeld (s.muOf r.aid) r.id r.inc then s.muOf r.aid else none
  match r.kind with
  | .read _ =>
    let (die, vq) := match s.agent? r.aid with
      | some g => (g.die, g.vq)
      | none => (0, 0)
    (s.updMs fun m => { m with replies := m.replies ++ [⟨r.id, r.aid, r.inc, r.dst, r.got, r.failed, mu, die, vq⟩] }).retire r
  | .write _ =>
    let s := (s.tagReplied mu r.id).retire r
    if r.acc.mt = 2 then s else s.answer r (if r.failed.isSome then ueToken else 0)
  | .rmw _ _ _ =>
    let value := (r.got.head?.map Prod.fst).getD 0
    ((s.tagReplied mu r.id).retire r).answer r (if r.failed.isSome then ueToken else value)
  | .engine => s

/-- The next element of a request is performed, as one event (15 R301); after the last one the request is done. -/
def State.perform (s : State) (r : Req) : State :=
  let s := s.raisePts (.agent r.aid) (s.stampMax r.after)
  match r.elems with
  | [] => s.finishRequest r
  | e :: rest =>
    let r := { r with elems := rest }
    let (s, r) := match r.kind with
      | .read sys => s.readElement r e sys
      | .write sys => s.storeElement r e sys
      | .rmw op ty W => s.atomicElement r e op ty W
      | .engine => (s, r)
    if rest.isEmpty then s.finishRequest r
    else s.updMs fun m => { m with reqs := m.reqs.map fun q => if q.id = r.id then r else q }

/-- The partition of an agent's context. -/
def State.aidPart (s : State) (a : Aid) : Nat := match s.agent? a with
  | some g => (s.context g.ctx).part
  | none => 0

/-- One unit of an engine command's work; its request stays until the command has its result, or holds or waits. -/
def State.engineUnit (s : State) (a : Aid) (e : EngineKind) (id : Nat) : State :=
  match s.cmd? a e id with
  | none => s.updMs fun m => { m with reqs := m.reqs.filter fun q => q.id != id }
  | some c =>
    let s := s.raisePts (.engine a e) (s.stampMax c.after)
    let s := match e, c.args.op with
      | .copy, 0xB2 => s.cpytUnit a c
      | .copy, _ => s.copyUnit a c
      | .matrix, 0xB3 => s.mldUnit a c
      | .matrix, _ => s.mmulUnit a c
      | .needle, 0xC7 => s.walkUnit a c
      | .needle, _ => s.wruleUnit a c
      | .fuller, _ => if c.args.op < 0xCA then s.fullerUnit a c else s.haccUnit a c
    let done := match s.cmd? a e id with
      | some c => c.result.isSome
      | none => true
    let holds := match s.meOf a with
      | some (_, m) => e == .matrix && (match m.pass with | some p => p.cmd == id && p.held | none => false)
      | none => false
    let waits := e == .needle && s.ms.walks.any fun w => w.cmd == id && w.waiting
    if done || holds || waits then
      let s := s.updMs fun m => { m with reqs := m.reqs.filter fun q => q.id != id }
      if done then s.setStamp id (s.ptsOf (.engine a e)) (s.aidPart a) else s
    else s

/-- Whether a request waits for a lock; its turn comes through LKWAIT_ACQUIRE. -/
def Req.isLkwait (r : Req) : Bool := match r.kind with
  | .rmw .lkwait _ _ => true
  | _ => false

/-- While a freeze waits to close, a fuller command in progress goes to its end, and a pass in memory mode to the end of the row that it
reads (14 R300, 16 R340). -/
def State.finishing (s : State) (a : Aid) (e : EngineKind) (id : Nat) : Bool :=
  (match a.rid with
   | some rid => s.running rid
   | none => false) &&
  (match e, s.cmd? a e id with
   | .fuller, some _ => true
   | .matrix, some c => c.args.op == 0xB4 && (match s.meOf a with
     | some (_, m) => c.buf.length % m.rowSize c != 0
     | none => false)
   | _, _ => false)

/-- A request may leave: a read of an IO page waits for its VF's bucket (24 R434). -/
def State.maySend (s : State) (r : Req) : Bool :=
  let isRead := match r.kind with
    | .read _ => true
    | _ => false
  !(isRead && r.acc.mt == 2 && s.limited (s.vfOf r.ctx))

/-- The die that refuses a request's packet: a home in another partition than its agent's die (21 R386). -/
def State.refusedBy (s : State) (r : Req) : Option Nat := match s.agent? r.aid with
  | some g => if r.acc.mt < 2 && s.refuses g.die (s.homeDie r.acc) then some (s.homeDie r.acc) else none
  | none => none

/-- A refused request is gone: nothing performs it, and what waits for it waits on (log 57). It follows itself from now on. -/
def State.loseRequest (s : State) (r : Req) (die : Nat) : State :=
  (s.refuse die).updMs fun m => { m with reqs := m.reqs.map fun q => if q.id = r.id then { q with after := addOnce q.after r.id } else q }

/-- A request that may leave, and has its tag if it needs one, is sent, and its next element performed. -/
def State.sendRequest (s : State) (r : Req) : State :=
  if !s.maySend r then s
  else
    let s := s.tagUpTo r
    if !s.tagHeld (s.reqMu r) r.id r.inc then s
    else match s.refusedBy r with
      | some d => s.loseRequest r d
      | none => s.perform r

/-- The address of an engine command's next access, where it has one. -/
def State.engineVa (s : State) (a : Aid) (e : EngineKind) (c : Cmd) : Option Nat := match e with
  | .copy => if c.args.op = 0xB2 then s.cpytVa a c else c.copyVa
  | .matrix => s.matrixVa a c
  | .needle => s.needleVa c
  | .fuller => if c.args.op < 0xCA then s.fullerVa a c else none

/-- A unit of an engine's work, once its access may be made (12 R252): it has a tag of its MU, which it gives back at once; a walk runs
beside the homes of its nodes and takes none (16 R330). One to a page that moves is refused and retried, and one to a page that
arrives waits (22 R397). -/
def State.serveEngine (s : State) (a : Aid) (e : EngineKind) (c : Cmd) (r : Req) : State :=
  let target := (s.engineVa a e c).bind fun va => match (s.access a va 1 ⟨false, false, false, false⟩).2 with
    | .ok x => some (va, x)
    | .error _ => none
  match target with
  | none => s.engineUnit a e c.id
  | some (va, x) =>
    match s.movingAt x, s.agent? a with
    | .moving, some g => (s.retried g.die g.vq g.ctx x).1
    | .arriving, _ => s
    | _, _ =>
      let mu := if e == .needle || s.ownBank a x || s.stashServes (.engine a e) a va x false then none else s.muOf a
      if !s.tagRoom mu then s else ((s.takeTag mu r.id r.inc).tagReplied mu r.id).engineUnit a e c.id

/-- MEMORY_REQUEST (12 R247): a request whose predecessors have been performed is performed at its home, an element at a time. An
`lkwait` joins the waiters of its word (13 R274). An engine's work goes on only while its region runs (14 R300). A home that gives up its
page refuses the request, which is retried (22 R397). -/
def execMemoryRequest (id : Nat) (s : State) : Host.Outcome State Fault Refusal :=
  .next (match s.ms.reqs.find? fun r => r.id == id with
    | none => s
    | some r =>
      if !s.mayPerform r then s
      else
        match r.kind, r.dst with
        | .engine, .cmd a e c =>
          (match s.cmd? a e c with
           | some d => if s.agentAlive a || s.finishing a e c then s.serveEngine a e d r else s
           | none => s.engineUnit a e c)
        | _, _ =>
          match s.movingAt r.acc with
          | .moving => s.retryReq r
          | .arriving => s
          | .still =>
          if r.isLkwait then
            if r.waitOrder.isSome || !s.agentAlive r.aid then s
            else
              let s := s.tagUpTo r
              if !s.tagHeld (s.reqMu r) r.id r.inc then s
              else match s.refusedBy r with
                | some d => s.loseRequest r d
                | none =>
                  let (n, s) := s.takeId
                  s.updMs fun m => { m with reqs := m.reqs.map fun q => if q.id = id then { q with waitOrder := some n } else q }
          else s.sendRequest r)

/-- A wait ends with ORPHAN: the word is written unchanged, as one event (13 R274, 15 R301). -/
def State.orphan (s : State) (r : Req) : State :=
  let mu := if s.tagHeld (s.muOf r.aid) r.id r.inc then s.muOf r.aid else none
  let s := s.raisePts (.agent r.aid) (s.stampMax r.after)
  (((s.rmwAccess (.agent r.aid) r.ctx r.acc id).1.tagReplied mu r.id).retire r).answer r 3

/-- LKWAIT_ACQUIRE (13 R274): the first waiter takes a word that is zero; a waiter of a dead holder ends with ORPHAN. -/
def execLkwaitAcquire (id : Nat) (s : State) : Host.Outcome State Fault Refusal :=
  .next (match s.ms.reqs.find? fun r => r.id == id && r.isLkwait with
    | none => s
    | some r =>
      match r.waitOrder with
      | none => s
      | some n =>
        let first := !(s.ms.reqs.any fun q => q.isLkwait && q.acc.pa == r.acc.pa && (match q.waitOrder with
          | some k => decide (k < n)
          | none => false))
        let w := s.peekWord r.acc.pa
        if s.movingAt r.acc != .still then (if s.movingAt r.acc = .moving then s.retryReq r else s)
        else if s.accessUe r.acc then s.perform r
        else if w = 0 then (if first then s.perform r else s)
        else if w.testBit 63 && s.holderDead w then s.orphan r
        else s)

/-! ### Replies (12 R253, 13 R263) -/

/-- A load whose answers are complete: its value goes to its targets, or the record of `ldsh` waits for commit. -/
def State.loadComplete (s : State) (l : LoadOp) : State :=
  let s := s.updMs fun m => { m with loads := m.loads.filter fun k => k.id != l.id }
  match l.ins.op, l.base with
  | 0xAB, [bank, mu] => s.updBlock l.aid fun b => (b.setStat l.idx .fired).effect l.idx
      (.shape bank mu l.buffer l.ids l.ins.tokenReg)
  | _, _ => s.finishLoad l

/-- The lower of two failing elements. -/
def lowerFailure : Option (Nat × Nat) → Option (Nat × Nat) → Option (Nat × Nat)
  | none, y => y
  | x, none => x
  | some x, some y => if y.1 < x.1 then some y else some x

/-- The load with an answer put in. -/
def LoadOp.take (l : LoadOp) (r : Reply) : LoadOp := { l with
  buffer := r.got.foldl (fun b p => spliceBytes b p.1 p.2) l.buffer
  waiting := l.waiting.erase r.id
  failed := lowerFailure l.failed r.failed }

/-- LOAD_REPLY (12 R253): an answer returns, and its tag retires. One whose tag is not allocated, or whose incarnation is not its
requester's, is stale. An uncorrectable error ends the block once every answer is in, at the lowest element that met one (13 R262). -/
def execLoadReply (id : Nat) (s : State) : Host.Outcome State Fault Refusal :=
  .next (match s.ms.replies.find? fun r => r.id == id with
    | none => s
    | some r =>
      let held := s.tagHeld r.mu id r.inc
      let s := (s.updMs fun m => { m with replies := m.replies.filter fun q => q.id != id }).tagReplied r.mu id
      let stale := s.count r.die (some r.vq) 0x31
      match s.agent? r.aid, r.dst with
      | some g, .load a n =>
        if !held || s.incOf a g != r.inc then stale
        else
          match if s.agentAlive a then s.ms.loads.find? (fun l => l.id == n) else none with
          | none => s
          | some l =>
            let l := l.take r
            if !l.waiting.isEmpty then s.updMs fun m => { m with loads := m.loads.map fun k => if k.id = n then l else k }
            else match l.failed with
              | some (_, va) => s.takeTrap a cMEMORY_UE l.idx ((g.block.map (·.addr)).getD 0) va 0
              | none => s.loadComplete l
      | _, _ => stale)

/-! ### Barriers (14 R295 to R298) -/

/-- The network instance of the pod's barriers. -/
def podInstance : Nat := 4 * 2 ^ 20

/-- The network instance that a barrier word names for an agent: quad, die, package or pod. -/
def barInstance (g : Agent) (scope : Nat) : Nat :=
  match scope with
  | 1 => 2 ^ 20 + g.die * 320 + g.vq
  | 2 => 2 * 2 ^ 20 + g.die
  | 3 => 3 * 2 ^ 20
  | _ => podInstance

def State.barrier (s : State) (k : Nat × Nat) : Barrier := Tab.getD s.fab.barriers k ⟨0, 0, 0, none, 0, 0⟩

def State.dropWait (s : State) (id : Nat) : State :=
  s.updFab fun f => { f with waits := f.waits.filter fun w => w.id != id }

/-- A token of a barrier; what follows it follows every arrival (14 R297). -/
def State.barToken (s : State) (w : BarWait) (v ts : Nat) : State :=
  ((s.setStamp w.id ts (s.aidPart w.aid)).dropWait w.id).arrive w.aid w.reg w.id v [w.id]

/-- A generation that `barw` waits for has completed. -/
def genDone (g a : Nat) : Bool := let d := wrap 16 ((g : Int) - a); 1 ≤ d && d ≤ 2 ^ 15

/-- The key of the entry that a wait names. -/
def State.barKey (s : State) (w : BarWait) : Nat × Nat :=
  match s.agent? w.aid with
  | some g => (barInstance g (bitsAt w.word 12 3), bitsAt w.word 0 12)
  | none => (0, 0)

/-- Barriers of the pod scope are counted at the package that their number names (24 R432). -/
def State.barHome (s : State) (id : Nat) : Nat := id % max 1 s.out.pod.count

/-- A generation completes: its waiters get their tokens, those on other packages by its release. -/
def State.barRelease (s : State) (k : Nat × Nat) (gen ts : Nat) : State :=
  let ws := s.fab.waits.filter fun w => s.barKey w == k && w.kind != 2 && w.gen == some gen
  let s := ws.foldl (fun s w => s.barToken w gen ts) s
  if k.1 = podInstance && s.out.pod.count > 1 then s.send (.barrierRelease k.2 gen) else s

/-- The entry of a barrier after an arrival of a context, of `n` arrivals in its generation, at timestamp `ts` (14 R296, R298); none where the
entry is bound to another context. -/
def Barrier.counted (e : Barrier) (ctx n ts part : Nat) : Option Barrier :=
  if e.count > 0 && e.ctx != some ctx then none
  else
    let fixed := if e.count = 0 then n else e.n
    some (if e.count + 1 ≥ fixed then ⟨0, (e.gen + 1) % 2 ^ 16, 0, none, max e.ts ts, part⟩
      else ⟨e.count + 1, e.gen, fixed, some ctx, max e.ts ts, part⟩)

/-- An arrival names another number of arrivals than its generation's first. -/
def Barrier.mismatch (e : Barrier) (n : Nat) : Bool := e.count > 0 && e.n != n

/-- An arrival is counted (14 R296, R298). -/
def State.barCount (s : State) (w : BarWait) (g : Agent) (k : Nat × Nat) : State :=
  let e := s.barrier k
  let n := bitsAt w.word 16 16
  let ts := max (s.ptsOf (.agent w.aid)) (s.stampMax w.after)
  match e.counted g.ctx n ts (s.context g.ctx).part with
  | none => s.barToken w (failToken cENGINE eBUSY 0) 0
  | some e' =>
    let s := if e.mismatch n then s.countAt g 0x46 else s
    let s := s.updFab fun f => { f with
      barriers := Tab.set f.barriers k e'
      waits := f.waits.map fun x => if x.id = w.id then { x with gen := some e.gen } else x }
    let s := if w.kind = 1 then s.barToken w e.gen e'.ts else s
    if e'.count = 0 then s.barRelease k e.gen e'.ts else s

/-- An arrival at a pod barrier of another package leaves on the pod network (24 R432); the entry here keeps its timestamp for the
release. -/
def State.barSend (s : State) (w : BarWait) (g : Agent) (k : Nat × Nat) (home : Nat) : State :=
  let e := s.barrier k
  let ts := max e.ts (max (s.ptsOf (.agent w.aid)) (s.stampMax w.after))
  (s.updFab fun f => { f with
    barriers := Tab.set f.barriers k { e with ts := ts, part := (s.context g.ctx).part }
    waits := f.waits.map fun x => if x.id = w.id then { x with sent := true } else x }).send (.barrier home w.word w.kind g.ctx w.id)

/-- BARRIER_ARRIVAL (14 R296): an arrival is counted once the agent's accesses have been performed; a `barw` ends once its
generation has completed, as far as this package knows. -/
def execBarrierArrival (id : Nat) (s : State) : Host.Outcome State Fault Refusal :=
  .next (match s.fab.waits.find? fun w => w.id == id with
    | none => s
    | some w =>
      match s.agent? w.aid with
      | none => s
      | some g =>
        let k := s.barKey w
        let home := if k.1 = podInstance then s.barHome k.2 else s.out.pod.index
        if w.kind = 2 then
          if genDone (s.barrier k).gen (w.gen.getD 0) then s.barToken w (w.gen.getD 0) (s.barrier k).ts else s
        else if w.gen.isSome || w.sent || !(w.after.all s.performed) then s
        else if home != s.out.pod.index then s.barSend w g k home
        else s.barCount w g k)

/-- The largest timestamp that remote packages' writes here have been acknowledged at: what a package wrote before its arrival is before
what follows the release (14 R297, 24 R432). -/
def State.podActs (s : State) : Nat :=
  (s.out.requesters.filter fun e => isPod e.1).foldl (fun m e => e.2.acks.foldl (fun m t => max m t.2) m) 0

/-- An arrival from another package at a barrier that is counted here (24 R432): it is counted as one of this package, with the context of
its number, and answered: with the generation that it arrived into, or with BUSY. -/
def State.podArrival (s : State) (pkg word kind ctx id : Nat) : State :=
  let k := (podInstance, bitsAt word 0 12)
  let e := s.barrier k
  let n := bitsAt word 16 16
  if kind ≥ 2 ∨ s.barHome k.2 ≠ s.out.pod.index then s
  else
    match e.counted ctx n s.podActs (s.context ctx).part with
    | none => s.send (.barrierAnswer pkg id (failToken cENGINE eBUSY 0))
    | some e' =>
      let s := if e.mismatch n then s.count (s.iopDie ctx) none 0x46 else s
      let s := (s.updFab fun f => { f with barriers := Tab.set f.barriers k e' }).send (.barrierAnswer pkg id e.gen)
      if e'.count = 0 then s.barRelease k e.gen e'.ts else s

/-- The answer to an arrival sent to another package: BUSY, or the generation, which a `bara` is done with, and a `bar` whose release has
come already. -/
def State.podAnswer (s : State) (id value : Nat) : State :=
  match s.fab.waits.find? fun w => w.id == id && w.sent with
  | none => s
  | some w =>
    let e := s.barrier (s.barKey w)
    if value.testBit 63 then s.barToken w value 0
    else if w.kind = 1 ∨ genDone e.gen (value % 2 ^ 16) then s.barToken w (value % 2 ^ 16) e.ts
    else s.updFab fun f => { f with
      waits := f.waits.map fun x => if x.id = id then { x with gen := some (value % 2 ^ 16), sent := false } else x }

/-- POD_BARRIER_RELEASE (24 R432): the release of a generation of a pod barrier comes back: every arrival has been counted, and its
waiters complete. -/
def execPodBarrierRelease (bid gen : Nat) (s : State) : Host.Outcome State Fault Refusal :=
  .next (
    let k := (podInstance, bid % 2 ^ 12)
    let gen := gen % 2 ^ 16
    let e := s.barrier k
    let ts := max e.ts s.podActs
    let s := s.updFab fun f => { f with barriers := Tab.set f.barriers k ⟨0, (gen + 1) % 2 ^ 16, 0, none, ts, e.part⟩ }
    (s.fab.waits.filter fun w => s.barKey w == k).foldl (fun s w =>
      if w.kind = 2 then (if genDone ((gen + 1) % 2 ^ 16) (w.gen.getD 0) then s.barToken w (w.gen.getD 0) ts else s)
      else if w.gen = some gen then s.barToken w gen ts else s) s)

/-! ### Engine commands (14 R277, R278; 16 R318) -/

/-- ENGINE_COMMAND_START (14 R277): the next command of a queue starts. -/
def execEngineCommandStart (a : Aid) (e : EngineKind) (s : State) : Host.Outcome State Fault Refusal :=
  .next (match s.agent? a with
    | none => s
    | some g =>
      match s.nextStart a g e with
      | none => s
      | some c =>
        if !s.agentAlive a then s
        else
          let s := s.updCmd a e c.id fun c => { c with started := true }
          match e with
          | .copy => s.startCopy a c
          | .matrix => s.startMatrix a c
          | .needle => s.startNeedle a c
          | .fuller => s.startFuller a c)

/-- ENGINE_COMPLETION (14 R278): the first command with a result writes its token register, and leaves its queue. `mrd` reads the
accumulators and the flags in this act (R293); a walk writes two registers (16 R334); a copy that failed cancels the command
linked to it (R282). -/
def execEngineCompletion (a : Aid) (e : EngineKind) (s : State) : Host.Outcome State Fault Refusal :=
  .next (match s.agent? a with
    | none => s
    | some g =>
      match (g.engineQ e).find? fun c => c.result.isSome with
      | none => s
      | some c =>
        let v := c.result.getD 0
        let s := (s.raisePts (.agent a) (s.ptsOf (.engine a e))).setStamp c.id (s.ptsOf (.engine a e)) (s.aidPart a)
        let s := s.updAgent a fun g => g.setEngineQ e ((g.engineQ e).filter fun d => d.id != c.id)
        let s := s.agentProgress a
        match c.args.op with
        | 0xB5 =>
          if v != 0 then s.arriveVal a c.reg c.id ⟨v, [c.id]⟩
          else
            let (x, fl) := s.mrdValue a c.args.a
            (s.arriveVal a c.reg c.id ⟨x, [c.id]⟩).updAgent a fun g => { g with flags := g.flags ||| fl }
        | 0xC7 =>
          let s := s.arrive a c.reg c.id (scalNat v) [c.id]
          s.arrive a (c.reg + 1) c.id (bitsAt v.toNat 64 64) [c.id]
        | _ =>
          let s := s.arrive a c.reg c.id (scalNat v) [c.id]
          let failed := (lowScal v).getLsbD 63
          let unlink := fun (d : Cmd) =>
            if d.link == some c.id then { d with link := none, cancelled := failed, after := d.after ++ [c.id] } else d
          s.updAgent a fun g => { g with matrixQ := g.matrixQ.map unlink })

/-! ### Timestamps and leases (12 R244, R248, R250) -/

/-- The lease of a stash line has expired: its holder's timestamp has passed it (12 R244). -/
def State.leasePassed (s : State) (l : StashLine) : Bool := match l.holder with
  | some h => decide (s.ptsOf (holderIssuer h) > l.lease)
  | none => false

/-- LEASE_EXPIRY_WRITEBACK (12 R244): a dirty line whose lease has expired is written back. -/
def execLeaseExpiryWriteback (rid row col mu bank line : Nat) (s : State) : Host.Outcome State Fault Refusal :=
  .next (
    let n : Nid := ⟨rid, row, col, mu, bank⟩
    match (Tab.get? s.fab.stashes n).bind fun st => st.lines.find? fun l => l.pa == line && l.dirty with
    | none => s
    | some l =>
      if !s.leasePassed l then s
      else
        let s := s.putLine l
        s.updFab fun f => { f with stashes := Tab.modify f.stashes n fun st =>
          { st with lines := st.lines.map fun m => if m.pa = line then { m with dirty := false, owned := false } else m } })

/-- The timestamps of an agent, advanced or lowered. -/
def Agent.mapTs (f : Nat → Nat) (g : Agent) : Agent := { g with pts := f g.pts, epts := g.epts.map fun t => (t.1, f t.2) }

/-- The timestamps of the agents of some dies advance by 1, those of agents that have never acted too; a route counts with the die that it
leads to, a hart with die 0 (12 R248; log 4). -/
def State.ptsAdvance (s : State) (on : Nat → Bool) : State :=
  let up := fun (d t : Nat) => if on d then t + 1 else t
  { s with
    agents := s.agents.map fun e => (e.1, e.2.mapTs (up e.2.die))
    ms := { s.ms with floors := (List.range 64).map fun k => (k, up k (s.floorTs k)) }
    out := { s.out with
      iopPts := s.out.iopPts.map fun e => (e.1, up e.1.2 e.2)
      harts := s.out.harts.map fun e => (e.1, up 0 e.2) } }

/-- PTS_ADVANCE (12 R248): every agent's timestamp advances by 1. -/
def execPtsAdvance (s : State) : Host.Outcome State Fault Refusal := .next (s.ptsAdvance fun _ => true)

/-- A context or agent belongs to a partition. -/
def State.inPartition (s : State) (p ctx : Nat) : Bool := (s.context ctx).part == p

/-- An agent belongs to a partition: an actor by its context, a thread by its die. -/
def State.agentIn (s : State) (p : Nat) (e : Aid × Agent) : Bool := match e.1 with
  | .thread d _ => (s.partition p).hasDie d
  | .actor .. => s.inPartition p e.2.ctx

/-- A line belongs to a partition: of device memory by its address, of an MU bank by its die (12 R239, R240). -/
def State.lineIn (s : State) (p line : Nat) : Bool :=
  if line * 64 < 2 ^ 55 then memPart (line * 64) == p else s.dieOf ((line * 64 - 2 ^ 55) / 2 ^ 17 / 1280) == p

/-- Copies with their timestamps lowered; one whose lease ends before the value has expired. -/
def rebaseCopies (p delta : Nat) (ls : List StashLine) : List StashLine :=
  (ls.filter fun l => memPart (l.pa * 64) != p || l.owned || l.lease ≥ delta).map fun l =>
    if memPart (l.pa * 64) = p then { l with wts := l.wts - delta, lease := l.lease - delta } else l

/-- TIMESTAMP_REBASE (12 R250): one value is subtracted from every timestamp of a partition. The timestamps of an IOP's routes, and those
acknowledged to a requester, are those of the partition's dies; harts belong to the partition of die row 0 (24 R429). -/
def execTimestampRebase (p delta : Nat) (s : State) : Host.Outcome State Fault Refusal :=
  .next (
    let sub := fun (t : Nat) => t - delta
    let part := s.partition p
    let apc := part.hasDie 0
    let route := fun (t : Nat × Nat) => if part.hasDie t.1 then (t.1, sub t.2) else t
    { s with
      agents := s.agents.map fun e => if s.agentIn p e then (e.1, e.2.mapTs sub) else e
      fab := { s.fab with
        stashes := s.fab.stashes.map fun e => (e.1, { e.2 with lines := rebaseCopies p delta e.2.lines })
        barriers := s.fab.barriers.map fun e => if e.2.part = p then (e.1, { e.2 with ts := sub e.2.ts }) else e }
      ms := { s.ms with
        lines := s.ms.lines.map fun e => if s.lineIn p e.1 then (e.1, ⟨sub e.2.wts, sub e.2.rts, e.2.slice⟩) else e
        sliceTs := s.ms.sliceTs.map fun e => if part.hasDie (e.1 / 320) then (e.1, sub e.2) else e
        scratchTs := s.ms.scratchTs.map fun e => if s.dieOf (e.1 / 8 / 1280) = p then (e.1, sub e.2) else e
        stamps := s.ms.stamps.map fun e => if e.2.2 = p then (e.1, (sub e.2.1, p)) else e
        svpCache := s.ms.svpCache.map fun e => (e.1, rebaseCopies p delta e.2)
        floors := s.ms.floors.map fun e => if part.hasDie e.1 then (e.1, sub e.2) else e }
      out := { s.out with
        iopPts := s.out.iopPts.map fun e => if part.hasDie e.1.2 then (e.1, sub e.2) else e
        requesters := s.out.requesters.map fun e => (e.1, { e.2 with acks := e.2.acks.map route })
        harts := if apc then s.out.harts.map fun e => (e.1, sub e.2) else s.out.harts
        apcCache := rebaseCopies p delta s.out.apcCache } })

/-- The largest timestamp of a partition's agents and lines. -/
def State.largestTs (s : State) (p : Nat) : Nat :=
  let agents := s.agents.foldl (fun m e => if s.agentIn p e then e.2.epts.foldl (fun m t => max m t.2) (max m e.2.pts) else m) 0
  s.ms.lines.foldl (fun m e => if s.lineIn p e.1 then max m e.2.rts else m) agents

/-- A partition is rebased long before a timestamp of it reaches 2^48 - 2^40 (12 R250): by 2^46 once one reaches 2^47 (log 53). -/
def State.rebaseDue (s : State) : List (Nat × Nat) :=
  ((List.range 8).filter fun p => s.largestTs p ≥ 2 ^ 47).map fun p => (p, 2 ^ 46)

/-- TRANSLATION_WALK (22 R394): a walker completes the walk of a translation miss and fills the caches. -/
def execTranslationWalk (die quad ctx : Nat) (va : BitVec 64) (s : State) : Host.Outcome State Fault Refusal :=
  .next (if (lookupCache (Tab.getD s.ms.tlbDie die []) ctx va.toNat).isSome then s
    else (s.leafFor die quad ctx va.toNat).1)

end Sys2Proof.Machine
end

