-- ==== Sys2Proof/Machine/Lifecycle.lean ====
section
/-! DEFINITION. The end of launches, regions, images and contexts: completion words, freeing, killing, the capture of a frozen
or drained region, and bank tags (spec 20 R353, R355, R356; 21 R369 to R371, R376 to R383; 13 R276; 14 R298, R300; 16 R340). -/
namespace Sys2Proof.Machine

/-! ### Launch queues -/

/-- The partition of a context, and that of a launch queue: its owner's. -/
def State.partOf (s : State) (ctx : Nat) : Nat := (s.context ctx).part
def State.lqPart (s : State) (n : Nat) : Nat := s.partOf (s.lq n).ctx

/-- A sequence number is later than another (20 R351). -/
def seqLater (a b : Nat) : Bool := let d := wrap 32 ((a : Int) - b); 0 < d && d < 2 ^ 31

def State.launch? (s : State) (rid : Nat) : Option Launch := Tab.get? s.sched.launches rid
def State.region? (s : State) (rid : Nat) : Option Region := Tab.get? s.sched.regions rid

/-- `LQDONE` passes every launch that has completed, in order; a passed launch is retired once its region is gone (20 R353,
R355). A killed launch is remembered, since a `frz` that names it gives STATE (23 R417; log 33). -/
def State.retireLq (s : State) (n : Nat) : Nat → State
  | 0 => s
  | fuel + 1 =>
    let q := s.lq n
    let rid := ridOf n q.done
    match s.launch? rid with
    | some l =>
      if l.state = .completed then
        let s := s.updLq n fun q => { q with done := (q.done + 1) % 2 ^ 32 }
        let s := if (s.region? rid).isNone && l.status != 5 then s.updSched fun x => { x with launches := Tab.erase x.launches rid } else s
        s.retireLq n fuel
      else s
    | none => s

/-! ### Completion words (20 R355, R356) -/

/-- Status codes of a completion word. -/
def stOK : Nat := 0
def stBADDESC : Nat := 1
def stNOREGION : Nat := 2
def stCONFIG : Nat := 3
def stFREED : Nat := 4
def stKILLED : Nat := 5

/-- The largest timestamp of a region's agents and engine queues: every event of its launch has one no larger. -/
def State.regionTs (s : State) (rid : Nat) : Nat :=
  (s.agents.filter fun e => e.1.rid == some rid).foldl (fun m e => e.2.epts.foldl (fun m t => max m t.2) (max m e.2.pts)) 0

/-- The events of a launch precede what the device writes for its context from now on (20 R355). -/
def State.orderLaunch (s : State) (rid ctx : Nat) : State := s.raisePts (s.deviceRoute ctx) (s.regionTs rid)

/-- A write that the device makes on behalf of a context at one VA: the word of a completion or a ring. Needs `W`; an IO page
takes it as a posted write of the function bound to the context. -/
def State.deviceWrite (s : State) (die ctx va : Nat) (bytes : List Byte) : State × Except Nat Unit :=
  if inScratch va then (s, .error cNOT_PRESENT)
  else
    match s.translate die 0x1FF ctx va bytes.length ⟨false, true, false, false⟩ with
    | (s, .error c) => (s, .error c)
    | (s, .ok x) =>
      if x.mt = 2 then
        let (n, s) := s.takeId
        (s.updMs fun m => { m with
          ioWrites := m.ioWrites ++ [⟨n, none, ctx, s.vfOf ctx, x.pa, bytes, false, none, [], none, allEnabled bytes.length⟩] }, .ok ())
      else
        match s.writeAccess (s.deviceRoute ctx) ctx x bytes true with
        | (s, true) => (s, .ok ())
        | (s, false) => (s, .error cMEMORY_UE)

/-- Writes a launch's completion word, after every event of the launch (`bs`); where that fails, a record goes to the context's fault
thread. -/
def State.writeCompletion (s : State) (rid : Nat) (l : Launch) (status cause : Nat) : State :=
  if l.cva = 0 then s
  else
    let b := fun (x : Bool) (n : Nat) => if x then 2 ^ n else 0
    let s := s.orderLaunch rid l.ctx
    let word := b (status != stOK) 63 + b l.late 62 + b l.reduced 61 + cause * 2 ^ 40 + status * 2 ^ 32 + ridSeq rid
    let (die, inc) := match s.region? rid with
      | some r => ((r.quad 0 0).1, r.inc)
      | none => (8 * (s.partition (s.partOf l.ctx)).first, 0)
    if l.cva % 8 != 0 then s.asyncRecord cALIGN l.ctx inc die 0x1FF 0 l.cva
    else
      match s.deviceWrite die l.ctx l.cva (natBytes 8 word) with
      | (s, .ok _) => s
      | (s, .error c) => s.asyncRecord c l.ctx inc die 0x1FF 0 l.cva

/-- A launch completes once: its word is written and its queue retires what it can. -/
def State.completeLaunch (s : State) (rid status cause : Nat) : State :=
  match s.launch? rid with
  | none => s
  | some l =>
    if l.state = .completed then s
    else
      let s := s.writeCompletion rid l status cause
      let s := s.updLaunch rid fun l => { l with state := .completed, status := status, cause := cause, donated := [] }
      s.retireLq (ridLq rid) (s.sched.launches.length + 1)

/-! ### What a region holds -/

/-- An agent belongs to a launch. -/
def inRid (rid : Nat) (a : Aid) : Bool := a.rid == some rid

/-- A queue belongs to a launch's region. -/
def qInRid (rid : Nat) (q : Qid) : Bool := q.rid? == some rid

/-- The banks of a region's groups: their linear numbers with their region-relative MU number and bank. -/
def Region.bankList (r : Region) : List (Nat × Nat × Nat) :=
  r.banks.flatMap fun e =>
    let (row, col, mu, g) := e
    let (die, vq) := r.quad row col
    (List.range g.count).map fun j => (muNumber die vq mu * 8 + g.first + j, (row * r.width + col) * 4 + mu, g.first + j)

/-- Every line a region's stashes hold dirty is written back, and its stashes emptied. -/
def State.flushRegionStashes (s : State) (rid : Nat) : State :=
  s.fab.stashes.foldl (fun s e =>
    if e.1.rid != rid then s
    else
      let s := e.2.lines.foldl (fun s l => if l.dirty then s.putLine l else s) s
      s.updFab fun f => { f with stashes := Tab.modify f.stashes e.1 fun st => { st with lines := [] } }) s

/-- The record sets out no more: the source queue of a region that a kill ends loses its DATA records, and the exit's queue gets
one GAP with cause KILL and `pol` 7 (21 R383, R472). -/
def State.killMarker (s : State) (src dst : Qid) : State :=
  match s.queue? src with
  | none => s
  | some q =>
    let lost := q.items.filter fun h => h.r.kind == kDATA || h.r.kind ≥ 10
    let onTheWay := (s.fab.flight.filter fun e => e.1 == dst).map Prod.snd ++
      (s.fab.packets.filter fun p => p.dst == dst).flatMap Packet.recs
    let s := onTheWay.foldl (fun s r => (s.arriveAt dst r).1) s
    let s := s.updFab fun f => { f with
      flight := f.flight.filter fun e => e.1 != dst
      packets := f.packets.filter fun p => p.dst != dst }
    match lost with
    | [] => s
    | h :: rest =>
      let g := rest.foldl (fun g k => Gap.join g (Gap.one k.r 7 8 q.qid)) (Gap.one h.r 7 8 q.qid)
      (s.arriveAt dst g.record).1

/-- The MUs of a region. -/
def Region.mus (r : Region) : List Nat := r.cells.flatMap fun p =>
  (List.range 4).map fun mu => muNumber (r.quad p.1 p.2).1 (r.quad p.1 p.2).2 mu

/-- Removes everything of a region from the machine; the queues of its exits stay where `keepExits` says. A fuller command in progress
is cut (16 R340). Committed accesses that have not been performed are discarded, and reads on their way come back as stale replies (13
R276, 12 R253). -/
def State.dropRegion (s : State) (rid : Nat) (keepExits : Bool) : State :=
  let mine := fun (a : Aid) => inRid rid a
  let s := ((s.agents.filter fun e => mine e.1).map Prod.fst).foldl State.cutFuller s
  let s := s.flushRegionStashes rid
  let mus := ((s.region? rid).map Region.mus).getD []
  let stays := fun (q : Qid) => !qInRid rid q || (keepExits && (s.fab.exits.contains q || s.fab.texts.contains q))
  let late := s.ms.reqs.filterMap fun r => match r.kind, r.dst with
    | .read _, .load _ _ =>
      if mine r.aid then
        let (die, vq) := match s.agent? r.aid with
          | some g => (g.die, g.vq)
          | none => (0, 0)
        some (⟨r.id, r.aid, r.inc, r.dst, [], none, none, die, vq⟩ : Reply)
      else none
    | _, _ => none
  State.settleSys { s with
    agents := s.agents.filter fun e => !mine e.1
    fab := { s.fab with
      queues := s.fab.queues.filter fun e => stays e.1
      streams := s.fab.streams.filter fun e => !qInRid rid e.1
      exits := s.fab.exits.filter stays
      texts := s.fab.texts.filter stays
      links := s.fab.links.filter fun e => !qInRid rid e.1
      joins := s.fab.joins.filter fun e => e.1.rid != rid
      gens := s.fab.gens.filter fun e => e.1.rid != rid
      windows := s.fab.windows.filter fun e => e.1.rid != rid
      haccs := s.fab.haccs.filter fun e => e.1.rid != rid
      sinks := s.fab.sinks.filter fun e => e.1.rid != rid
      mes := s.fab.mes.filter fun e => e.1.rid != rid
      agens := s.fab.agens.filter fun e => e.1.rid != rid
      stashes := s.fab.stashes.filter fun e => e.1.rid != rid
      flight := s.fab.flight.filter fun e => stays e.1
      packets := s.fab.packets.filter fun p => stays p.dst
      linkFlight := s.fab.linkFlight.filter fun e => !qInRid rid e.1
      arcFlight := s.fab.arcFlight.filter fun e => e.1.rid != rid
      waits := s.fab.waits.filter fun w => !mine w.aid
      waves := s.fab.waves.filter fun e => !mine e.1 }
    ms := { s.ms with
      reqs := s.ms.reqs.filter fun r => !mine r.aid
      replies := s.ms.replies ++ late
      loads := s.ms.loads.filter fun l => !mine l.aid
      groups := s.ms.groups.filter fun g => !mine g.2.aid
      walks := s.ms.walks.filter fun w => !mine w.aid
      tags := s.ms.tags.filter fun e => !mus.contains e.1
      ioWrites := s.ms.ioWrites.filter fun w => w.sent || (match w.aid with
        | some a => !mine a
        | none => true) }
    sched := { s.sched with
      traps := s.sched.traps.filter fun t => match t.who with
        | some w => !mine w
        | none => true
      sysWaits := s.sched.sysWaits.filter fun w => !(w.ends.aid?.any mine)
      imageReads := s.sched.imageReads.filter fun i => !mine i.aid
      regions := Tab.erase s.sched.regions rid } }

/-- An incarnation goes out of use (21 R382). -/
def State.retireInc (s : State) (ctx inc : Nat) : State :=
  s.updSched fun x => { x with
    retired := (x.retired.filter fun e => e.2.2 + 43200 > s.clk.tick) ++ [(ctx, inc, s.clk.tick)] }

/-- An incarnation may be given: it was not retired in the last 43,200 ticks. -/
def State.incFree (s : State) (ctx inc : Nat) : Bool :=
  !(s.sched.retired.any fun e => e.1 == ctx && e.2.1 == inc && e.2.2 + 43200 > s.clk.tick)

/-- Takes a context's next incarnation. -/
def State.takeInc (s : State) (ctx : Nat) : Nat × State :=
  let n := (s.context ctx).incnext
  (n, s.updContext ctx fun c => { c with incnext := (n + 1) % 2 ^ 16 })

/-- Clears the tags that a context's incarnation holds for an image (21 R378). -/
def State.clearTags (s : State) (ctx inc : Nat) : State :=
  s.updSched fun x => { x with tags := x.tags.filter fun e => !(e.2.ctx == ctx && e.2.inc == inc) }

/-- A launch whose region is gone and which `LQDONE` has passed leaves the table. -/
def State.forgetLaunch (s : State) (rid : Nat) : State :=
  match s.launch? rid with
  | some l =>
    if l.state = .completed && l.status != stKILLED && !(seqLater (ridSeq rid) (s.lq (ridLq rid)).done || ridSeq rid == (s.lq (ridLq rid)).done) then
      s.updSched fun x => { x with launches := Tab.erase x.launches rid }
    else s
  | none => s

/-- A region is freed: its quads, banks and incarnation go out of use (20 R355). -/
def State.freeRegion (s : State) (rid : Nat) : State :=
  match s.region? rid with
  | none => s
  | some r =>
    (((s.dropRegion rid false).clearTags r.ctx r.inc).retireInc r.ctx r.inc).forgetLaunch rid

/-- An operation on a region that its agent waits for ends with a status (23 R416, R417). -/
def State.answerRegionOp (s : State) (r : Region) (status : Nat) : State :=
  match r.op with
  | .drain _ _ (some (a, code, id)) => s.arrive a code id status []
  | .freeze _ (some (a, code, id)) _ => s.arrive a code id status []
  | _ => s

/-- A kill ends what is under way in a region: a drain gives STATE, and a freeze whose capture is open has frozen it (21 R371, 23 R417). -/
def State.endRegionOp (s : State) (r : Region) : State := s.answerRegionOp r (match r.op with
  | .freeze .. => 0
  | _ => sSTATE)

/-- A kill of a region waits for an incarnation to give it (21 R382). -/
def State.killWaits (s : State) (rid : Nat) : Bool := match s.launch? rid, s.region? rid with
  | some l, some r => (l.state == .running || l.state == .completed) && !s.incFree r.ctx (s.context r.ctx).incnext
  | _, _ => false

/-- A kill (21 R382, R383): a running region ends with markers on its exits and two steps of its context's incarnation; an image
is discarded. The launch completes KILLED. A drain or freeze in progress ends. -/
def State.killNow (s : State) (rid : Nat) : State :=
  match s.launch? rid with
  | none => s
  | some l =>
    match s.region? rid with
    | none => s.completeLaunch rid stKILLED 0
    | some r =>
      let s := (s.endRegionOp r).orderLaunch rid l.ctx
      let s :=
        if l.state = .running ∨ l.state = .completed then
          let outs := s.fab.streams.filter fun e => qInRid rid e.1 && (s.fab.exits.contains e.2 || s.fab.texts.contains e.2)
          let s := outs.foldl (fun s e => s.killMarker e.1 e.2) s
          let (inc, s) := s.takeInc r.ctx
          let s := s.updSched fun x => { x with tags := x.tags.map fun (e : Nat × BankTag) =>
            if e.2.ctx == r.ctx && e.2.inc == r.inc then (e.1, ⟨false, r.ctx, inc⟩) else e }
          ((s.dropRegion rid true).retireInc r.ctx r.inc).retireInc r.ctx inc
        else ((s.dropRegion rid false).clearTags r.ctx r.inc).retireInc r.ctx r.inc
      let s := s.updSched fun x => { x with exported := x.exported.filter fun e => e.rid != rid }
      ((s.completeLaunch rid stKILLED 0).forgetLaunch rid)

/-- A kill, at once or once the incarnation it needs may be given (21 R382). -/
def State.killLaunch (s : State) (rid : Nat) : State :=
  if s.killWaits rid then s.updSched fun x => { x with kills := addOnce x.kills rid }
  else (s.updSched fun x => { x with kills := x.kills.erase rid }).killNow rid

/-- The launches of a context with a region or an image. -/
def State.heldLaunches (s : State) (ctx : Nat) : List Nat :=
  (s.sched.regions.filter fun e => e.2.ctx == ctx).map Prod.fst

/-- Live regions and images of a context (21 R381 `CTXLIVE`). -/
def State.liveCount (s : State) (ctx : Nat) : Nat × Nat :=
  let held := s.heldLaunches ctx
  let isImage := fun (rid : Nat) => match s.launch? rid with
    | some l => l.state == .imaged || l.state == .exported
    | none => false
  ((held.filter fun r => !isImage r).length, (held.filter isImage).length)

/-- A call completes: its caller's register gets the status (23 R407). -/
def State.completeCall (s : State) (c : Call) (status : Nat) (dep : List Nat) : State :=
  (s.updSched fun x => { x with calls := x.calls.filter fun d => d.id != c.id }).arrive c.caller c.reg c.id status dep

/-- A call's entry is held in its thread's queue, or a run of the thread has it (23 R407). -/
def State.callHeld (s : State) (c : Call) : Bool :=
  match c.thread with
  | .thread d t =>
    (match s.queue? (.call d t) with
     | some q => q.items.any fun h => h.serial == c.serial
     | none => false)
  | _ => false

/-- The regions and images of a context are gone: `LIVE` clears, and calls that its threads hold or run complete with DEAD. -/
def State.finishContext (s : State) (ctx : Nat) : State :=
  let s := s.updContext ctx fun c => { c with live := false }
  (s.sched.calls.filter fun c => s.callHeld c && (match c.thread with
    | .thread d t =>
      (match s.agent? (.thread d t) with
       | some g => if g.call = some c.id then g.ctx else (s.threadCtl d t).ctx
       | none => 0) == ctx
    | _ => false)).foldl (fun s c => s.completeCall c sDEAD []) s

/-- A context has no region whose kill waits. -/
def State.killsDone (s : State) (ctx : Nat) : Bool := !((s.heldLaunches ctx).any s.sched.kills.contains)

/-- Ends a context (21 R381 `CTXKILL`): every region and image is killed, and then `LIVE` clears unless it is told to stay (24 R427). -/
def State.endContext (s : State) (ctx : Nat) (clear : Bool) : State :=
  let s := (s.heldLaunches ctx).foldl (fun s r => s.killLaunch r) s
  if !clear then s
  else if s.killsDone ctx then s.finishContext ctx
  else s.updSched fun x => { x with ending := addOnce x.ending ctx }

/-- The kills that wait are tried again, and the contexts whose last one is done end. -/
def State.retryKills (s : State) : State :=
  let s := s.sched.kills.foldl State.killLaunch s
  (s.sched.ending.filter s.killsDone).foldl (fun s c =>
    (s.updSched fun x => { x with ending := x.ending.erase c }).finishContext c) s

/-! ### Captures (21 R369, R371, R376, R377) -/

/-- What an agent does next once its region is captured: a firing in progress starts again at its block (08 R157). Only `eret` has a
trap decline (08 R166): a suspended firing faults anew (22 R402). Of the firings in a pipe the oldest starts again, and then the
others with it (09 R184). -/
def Agent.captured (g : Agent) : Agent :=
  let g := g.rewind
  let phase := match g.phase, g.block with
    | .running, some b => .resuming b.addr b.noTrap
    | .entering addr, _ => .resuming addr false
    | .suspended addr _, _ => .resuming addr false
    | p, _ => p
  { g with phase := phase, block := none, deadline := [], waitSince := none, readySince := none }

/-- Everything on its way inside a region has arrived, and its MUs have no tag out: the capture may close (21 R371). A pending
`lkwait`, a queued command and a walk are captured as they stand. A join's arcs still count what reaches them after the wave (log 33). -/
def State.settled (s : State) (rid : Nat) : Bool :=
  let inside := fun (q : Qid) => qInRid rid q && !(s.fab.exits.contains q || s.fab.texts.contains q)
  !(s.fab.flight.any fun e => inside e.1) && !(s.fab.packets.any fun p => inside p.dst) && !(s.fab.linkFlight.any fun e => qInRid rid e.1) &&
  !(s.fab.arcFlight.any fun e => e.1.rid == rid) &&
  !(s.ms.replies.any fun r => inRid rid r.aid) && !(s.sched.imageReads.any fun i => inRid rid i.aid) &&
  !(s.ms.ioWrites.any fun w => match w.aid with
    | some a => inRid rid a
    | none => false) &&
  !(s.fab.waits.any fun w => inRid rid w.aid && w.kind != 2 && w.gen.isNone) &&
  !(s.ms.reqs.any fun r => inRid rid r.aid && (match r.kind, r.dst with
    | .rmw .lkwait _ _, _ => false
    | .engine, .cmd a e c => s.finishing a e c
    | _, _ => true))

/-- Every quad of a region has been passed by its freeze wave. -/
def State.wavePassed (s : State) (r : Region) : Bool := match r.op with
  | .freeze start _ _ => decide (start + (r.height - 1) + (r.width - 1) ≤ s.clk.dieCycle (r.quad 0 0).1)
  | _ => false

/-- Closes a capture: the region's agents stand at their block starts, its waiters leave their lock words, its quads are free and
its banks tagged for the image. Records raised since the freeze began are withdrawn too (22 R402). -/
def State.closeCapture (s : State) (rid : Nat) (kind : Nat) (drnp preempted : Bool) : State :=
  match s.region? rid with
  | none => s
  | some r =>
    let s := (s.flushRegionStashes rid).withdraw rid
    let seize := fun (e : Aid × Agent) => if inRid rid e.1 then (e.1, e.2.captured) else e
    let leave := fun (q : Req) => if inRid rid q.aid then { q with waitOrder := none } else q
    let s := { s with agents := s.agents.map seize }
    let s := s.updMs fun m => { m with
      loads := m.loads.filter fun l => !inRid rid l.aid
      reqs := m.reqs.map leave }
    let s := s.updRegion rid fun r => { r with op := .none, drnp := drnp, ctick := s.clk.tick, kind := kind }
    let tagged := r.bankList.foldl (fun (t : Tab Nat BankTag) b => Tab.set t b.1 ⟨true, r.ctx, r.inc⟩) s.sched.tags
    let s := s.updSched fun x => { x with tags := tagged }
    s.updLaunch rid fun l => { l with state := .imaged, preempted := preempted, since := s.clk.tick }

/-- A notice of the ladder to the management thread (26 R455): a record that passes the shear. -/
def State.ladderNotice (s : State) (lq step what : Nat) : State :=
  let p := s.partition (s.lqPart lq)
  let v := step * 2 ^ 60 + what * 2 ^ 57 + lq * 2 ^ 32 + s.clk.tick % 2 ^ 32
  s.updQueue (.call p.mfdie p.mfthr) fun q => q.bypass (Record.data (scal v) (s.clk.tick % 2 ^ 32) false [])

/-- A region is under a freeze whose capture has not closed. -/
def State.frozen (s : State) (rid : Nat) : Bool := match (s.region? rid).map Region.op with
  | some (.freeze _ _ _) => true
  | _ => false

/-- The launches of a queue that run (23 R416). -/
def State.runningOf (s : State) (lq : Nat) : List Nat :=
  (s.sched.launches.filter fun e => ridLq e.1 == lq && e.2.state == .running).map Prod.fst

/-- The ladder of a queue returns to idle. -/
def State.ladderIdle (s : State) (lq : Nat) : State := s.updLadder lq fun _ => ⟨0, 0, 0⟩

/-- A region of a queue is being drained by the ladder. -/
def State.ladderDrains (s : State) (lq : Nat) : List Nat :=
  (s.runningOf lq).filter fun r => match (s.region? r).map Region.op with
    | some (.drain _ .ladder _) => true
    | _ => false

/-- The ladder's L3 kills a launch, whether or not its capture has closed (27 R471). L3 ends with the last kill of its queue (26 R455). -/
def State.ladderKill (s : State) (rid : Nat) : State :=
  let lq := ridLq rid
  let s := if (s.region? rid).isSome then s.killLaunch rid else s
  if s.sched.kills.contains rid then s
  else
    let s := s.updSched fun x => { x with ladderKills := Tab.erase x.ladderKills rid }
    if s.sched.ladderKills.any fun e => ridLq e.1 == lq then s else (s.ladderNotice lq 3 1).ladderIdle lq

/-- The kills of L3 that are due: those of launches frozen in an earlier tick. -/
def State.ladderKillsDue (s : State) : State :=
  (s.sched.ladderKills.filter fun e => e.2 < s.clk.tick).foldl (fun s e => s.ladderKill e.1) s

/-- FREEZE_CAPTURE_CLOSE (21 R371): the capture closes once every quad has been passed and everything has arrived. -/
def execFreezeCaptureClose (rid : Nat) (s : State) : Host.Outcome State Fault Refusal :=
  .next (match s.region? rid, s.running rid with
    | some r, true =>
      match r.op with
      | .freeze _ who drnp =>
        if s.wavePassed r && s.settled rid then
          let s := s.closeCapture rid 1 drnp (((s.launch? rid).map (·.preempted)).getD false)
          match who with
          | some (a, code, id) => s.arrive a code id 0 []
          | none => s
        else s
      | _ => s
    | _, _ => s)

/-! ### Drains (21 R369, R370) -/

/-- The sink-side queues that a region's actors and nodes read. -/
def State.readQueues (s : State) (rid : Nat) : List Qid :=
  let actors := (s.agents.filter fun e => inRid rid e.1).flatMap fun e => e.2.ins.filterMap fun p => match p.src with
    | .queue q => some q
    | .link _ => none
  actors ++ (s.fab.windows.filter fun e => e.1.rid == rid).flatMap (·.2.ins) ++
    (s.fab.mes.filter fun e => e.1.rid == rid).filterMap (·.2.inn) ++ (s.fab.agens.filter fun e => e.1.rid == rid).filterMap (·.2.port)

/-- Those that no stream of the region feeds: they are fed from outside it. -/
def State.fedFromOutside (s : State) (rid : Nat) : List Qid :=
  (s.readQueues rid).filter fun q => !(s.fab.streams.any fun e => e.2 == q && qInRid rid e.1)

/-- An actor puts DRAIN on every outbound port. -/
def State.putDrains (s : State) (g : Agent) : State := g.outs.foldl (fun s p => s.putOn p.dst (Record.token kDRAIN)) s

/-- A drain starts: a DRAIN token goes to every queue fed from outside, and every source that is not in a firing puts DRAIN. -/
def State.startDrain (s : State) (rid deadline : Nat) (by_ : Asker) (who : Option (Aid × Nat × Nat)) : State :=
  let s := s.updRegion rid fun r => { r with op := .drain deadline by_ who, exited := [] }
  let s := (s.fedFromOutside rid).foldl (fun s q => (s.arriveAt q (Record.token kDRAIN)).1) s
  (s.agents.filter fun e => inRid rid e.1 && e.2.ins.isEmpty && e.2.firing.isNone).foldl (fun s e => s.putDrains e.2) s

/-- A drain is in progress in an agent's region. -/
def State.draining (s : State) (rid : Nat) : Bool := match s.region? rid with
  | some r => match r.op with
    | .drain _ _ _ => true
    | _ => false
  | none => false

/-- The source-side queues of streams that leave a region. -/
def State.exitSources (s : State) (rid : Nat) : List Qid :=
  s.fab.streams.filterMap fun e =>
    if qInRid rid e.1 && (!qInRid rid e.2 || s.fab.exits.contains e.2 || s.fab.texts.contains e.2) then some e.1 else none

/-- A DRAIN has been removed at every exit, or is at its head, and the engines have met the drain's rules (21 R369): copies, fuller
commands and passes in memory mode that have started are at their end. -/
def State.drained (s : State) (rid : Nat) (r : Region) : Bool :=
  (s.exitSources rid).all (fun q => r.exited.contains q || (s.head? q).map (·.kind) == some kDRAIN) &&
  !(s.agents.any fun e => inRid rid e.1 && (
    (e.2.copyQ ++ e.2.fullerQ).any (fun c => c.started && c.result.isNone) ||
    e.2.matrixQ.any fun c => c.started && c.result.isNone && !(c.args.op == 0xB4 && c.args.b.getLsbD 49)))

/-- DRAIN_COMPLETE (21 R369): the DRAIN at each exit is removed and the region captured. -/
def execDrainComplete (rid : Nat) (s : State) : Host.Outcome State Fault Refusal :=
  .next (match s.region? rid, s.running rid with
    | some r, true =>
      match r.op with
      | .drain _ by_ who =>
        if s.drained rid r && s.settled rid then
          let at_ := (s.exitSources rid).filter fun q => (s.head? q).map (·.kind) == some kDRAIN
          let s := at_.foldl State.removeDrain s
          let s := s.closeCapture rid 0 false (by_ == .allocator)
          let s := match who with
            | some (a, code, id) => s.arrive a code id 0 []
            | none => s
          let lq := ridLq rid
          if by_ = .ladder && (s.ladderDrains lq).isEmpty then (s.ladderNotice lq 2 1).ladderIdle lq else s
        else s
      | _ => s
    | _, _ => s)

/-- The DRAIN tokens of a region are taken out of its queues, of its links, whose registers enter the slots that this frees, and of its
firings in progress, which go on with a NULL head there, so that the region does not go on draining (21 R370; log 33). -/
def State.dropDrains (s : State) (rid : Nat) : State :=
  let clean := fun (q : Queue) => { q with items := q.items.filter fun h => h.r.kind != kDRAIN }
  let tidy := fun (l : Link) => ({ l with
    slots := l.slots.filter fun h => h.r.kind != kDRAIN
    token := l.token.filter fun r => r.kind != kDRAIN } : Link).settle 4
  let relieve := fun (f : Firing) => { f with delivered := f.delivered.filter fun d => !(d.entries.any fun r => r.kind == kDRAIN) }
  { s with
    agents := s.agents.map fun e => if inRid rid e.1 then (e.1, { e.2 with firing := e.2.firing.map relieve }) else e
    fab := { s.fab with
      queues := s.fab.queues.map fun e => if qInRid rid e.1 then (e.1, clean e.2) else e
      links := s.fab.links.map fun e => if qInRid rid e.1 then (e.1, tidy e.2) else e } }

end Sys2Proof.Machine
end

