-- ==== Sys2Proof/Machine/Changes.lean ====
section
/-! DEFINITION. Changes of the machine as a whole: what a change or reset of a partition does to its memory, the sparing maps,
the change of partitions, page migration, and the partition reset (spec 21 R385 to R388; 22 R395 to R397; 26 R449, R451 to R453,
R456). -/
namespace Sys2Proof.Machine

/-! ### Slices and sparing maps -/

/-- Every slice of a partition is emptied with no write-back, and its timestamps restart at zero (21 R387; 26 R456). No byte of its C and
MS lines is preserved: each reads as a free value from here on (R388; log 25). -/
def State.flushSlices (s : State) (p : Nat) : State :=
  let inLine := fun (l : Nat) => memPart (l * 64) == p
  let part := s.partition p
  { s with
    fresh := s.fresh + 2 ^ 52
    ms := { s.ms with
      mem := s.ms.mem.filter fun c => memPart c.1 != p
      blank := Tab.set s.ms.blank p s.fresh
      lines := s.ms.lines.filter fun e => !inLine e.1
      writers := s.ms.writers.filter fun e => !inLine e.1
      sliceTs := s.ms.sliceTs.filter fun e => !part.hasDie (e.1 / 320)
      svpCache := s.ms.svpCache.map fun e => (e.1, e.2.filter fun l => !inLine l.pa) }
    out := { s.out with apcCache := s.out.apcCache.filter fun l => !inLine l.pa } }

/-- The VPT of a die from its repair map (26 R453): virtual quads in ascending order on the physical quads that are not defective.
A die with more than 10 defective quads fails repair, and the package goes no further than S1. -/
def State.rewriteVpt (s : State) (d : Nat) : State :=
  let r := s.ras d
  let good := (List.range 330).filter fun q => !r.repair.contains q
  let t : Tab Nat (Option Nat) := ((List.range 320).map fun v => (v, good[v]?)).filter fun e => e.2 != some e.1
  let s := s.updRas d fun r => { r with vpt := t }
  if r.repair.length > 10 then s.updOut fun o => { o with rfail := true, stage := 1 } else s

/-- The dies of a partition. -/
def Partition.dies (p : Partition) : List Nat := (List.range 64).filter p.hasDie

/-- A package-scope shoot-down of every context (22 R395). -/
def State.shootAll (s : State) : State :=
  let s := s.flushStash (fun _ => true) fun _ => true
  s.updMs fun m => { m with tlbDie := [], tlbQuad := [] }

/-! ### Change of partitions (21 R387) -/

/-- The rows that a `PCHG` value gives a partition. -/
def pchgRows (v p : Nat) : List Nat := (List.range 8).filter fun r => bitsAt v (8 * r) 3 == p

/-- The rows of a partition now. -/
def Partition.rows (p : Partition) : List Nat := if p.v then (List.range 8).filter fun r => p.first ≤ r && r ≤ p.last else []

/-- Rows stand side by side. -/
def contiguous (rows : List Nat) : Bool := match rows.head?, rows.getLast? with
  | some a, some b => rows.length == b - a + 1
  | _, _ => true

/-- Whether a queue of an affected partition is not idle, the lowest first; or a service thread of an affected die. -/
def State.notIdle (s : State) (affected : List Nat) (dies : List Nat) : Option Nat :=
  let lqs := (s.sched.lqs.filter fun e => affected.contains (s.lqPart e.1) && (e.2.en || e.2.done != e.2.tail)).map Prod.fst
  let calls := s.fab.queues.any fun e => match e.1 with
    | .call d _ => dies.contains d && !e.2.items.isEmpty
    | _ => false
  let runs := s.agents.any fun e => match e.1 with
    | .thread d _ => dies.contains d && e.2.firing.isSome
    | _ => false
  match lqs with
  | n :: rest => some (rest.foldl min n)
  | [] => if calls || runs then some 0xFFFF else none

/-- The partitions whose rows a value of `PCHG` changes. -/
def State.pchgAffects (s : State) (v : Nat) : List Nat := (List.range 8).filter fun p => pchgRows v p != (s.partition p).rows

/-- A change in progress affects a partition. -/
def State.changing (s : State) (p : Nat) : Bool := match s.sched.pchgRun with
  | some v => (s.pchgAffects v).contains p
  | none => false

/-- A write of `PCHG`: a change begins, if its rows are legal and what it affects is idle. -/
def State.pchg (s : State) (v : Nat) : State :=
  let answer := fun (who st : Nat) => s.updSched fun x => { x with pchg := ⟨true, who, st⟩ }
  let affected := s.pchgAffects v
  if !s.sched.pchg.done then s
  else if !((List.range 8).all fun p => contiguous (pchgRows v p)) then answer 0 2
  else match s.notIdle affected (affected.flatMap fun p => (s.partition p).dies) with
    | some who => answer who 1
    | none => s.updSched fun x => { x with pchg := ⟨false, 0, 3⟩, pchgRun := some v }

/-- The flush, rewrite and shoot-down of a change that has begun, in one step. Lines keep the marks of their errors, which only a write
ends (26 R447; log 25). -/
def State.pchgRest (s : State) : State :=
  match s.sched.pchgRun with
  | none => s
  | some v =>
    let affected := s.pchgAffects v
    let dies := affected.flatMap fun p => (s.partition p).dies
    let s := affected.foldl (fun s p => s.flushSlices p) s
    let s := affected.foldl (fun s p => s.updPartition p fun x =>
      let rows := pchgRows v p
      { x with v := !rows.isEmpty, first := rows.head?.getD 0, last := rows.getLast?.getD 0 }) s
    let s := s.updSched fun x => { x with
      nbr := (List.range 64).map fun d => (d, bitsAt v (8 * (d / 8)) 3) }
    let s := dies.foldl (fun s d => s.rewriteVpt d) s
    s.shootAll.updSched fun x => { x with pchg := ⟨true, 0, 0⟩, pchgRun := none }

/-- PCHG_WRITE (21 R387). -/
def execPchgWrite (v : BitVec 64) (s : State) : Host.Outcome State Fault Refusal := .next (s.pchg v.toNat)

/-! ### Page migration (22 R396, R397) -/

/-- A change of each thing in a list that may change the state too. -/
def mapState {α : Type} (f : State → α → State × α) (s : State) (xs : List α) : State × List α :=
  xs.foldl (fun (acc : State × List α) x => let (s, y) := f acc.1 x; (s, acc.2 ++ [y])) (s, [])

/-- An access that a dropped leaf translated to the old page is retried. -/
def State.retriedOld (s : State) (old die vq ctx : Nat) (x : Access) : State × Access :=
  if x.mt ≥ 2 || x.pa / 2 ^ 16 != old / 2 ^ 16 then (s, x) else s.retried die vq ctx x

/-- An outstanding request to the old page. -/
def State.retryMoved (s : State) (old : Nat) (r : Req) : State :=
  if r.acc.mt ≥ 2 || r.acc.pa / 2 ^ 16 != old / 2 ^ 16 then s else s.retryReq r

/-- The accesses that a firing's block has checked and not committed. -/
def State.retryBlock (old : Nat) (g : Agent) (s : State) (e : Firing × Block) : State × (Firing × Block) :=
  let access := fun (s : State) (x : Access × List Elem) => let (s, y) := s.retriedOld old g.die g.vq g.ctx x.1; (s, (y, x.2))
  let effect := fun (s : State) (f : Nat × Effect) => match f.2 with
    | .mem op ty W acc vector after reg reg1 =>
      let (s, acc) := mapState access s acc
      (s, (f.1, Effect.mem op ty W acc vector after reg reg1))
    | _ => (s, f)
  let (s, es) := mapState effect s e.2.effects
  (s, (e.1, { e.2 with effects := es }))

/-- The blocks of an agent. -/
def State.retryAgent (s : State) (old : Nat) (a : Aid) (g : Agent) : State :=
  let (s, older) := mapState (State.retryBlock old g) s g.older
  let (s, younger) := mapState (State.retryBlock old g) s g.younger
  let (s, own) := match g.firing, g.block with
    | some f, some b => let (s, e) := State.retryBlock old g s (f, b); (s, some e.2)
    | _, b => (s, b)
  s.updAgent a fun g => { g with older := older, younger := younger, block := own }

/-- A line write that a requester has under way. -/
def State.retryItem (s : State) (old : Nat) (i : IopItem) : State × IopItem :=
  match i with
  | .write x ctx bytes route sent =>
    let (s, y) := s.retriedOld old (s.iopDie ctx) 0x1FF ctx x
    (s, .write y ctx bytes (if y.pa = x.pa then route else s.homeDie y) sent)
  | i => (s, i)

/-- Everything under way to the old page. -/
def State.retryAll (s : State) (old : Nat) : State :=
  let s := s.ms.reqs.foldl (fun s r => s.retryMoved old r) s
  let s := s.agents.foldl (fun s e => s.retryAgent old e.1 e.2) s
  s.out.requesters.foldl (fun s e =>
    let (s, items) := mapState (fun s i => s.retryItem old i) s e.2.items
    s.updRequester e.1 fun r => { r with items := items }) s

/-- The lines of a page move with their data, timestamps and errors. -/
def State.copyPage (s : State) (old new : Nat) : State :=
  let s := s.recallRange old (2 ^ 16)
  let s := s.recallRange new (2 ^ 16)
  let s := (s.ms.ce.filter fun l => l / 1024 == old / 2 ^ 16).foldl (fun s l => s.corrected (l * 64)) s
  let inOld := fun (l : Nat) => l / 1024 == old / 2 ^ 16
  let inNew := fun (l : Nat) => l / 1024 == new / 2 ^ 16
  let newLine := fun (l : Nat) => new / 2 ^ 16 * 1024 + l % 1024
  let moved {α : Type} : Tab Nat α → Tab Nat α := fun t =>
    (t.filter fun e => !inNew e.1) ++ (t.filter fun e => inOld e.1).map fun e => (newLine e.1, e.2)
  s.updMs fun m => { m with
    mem := Mem.writeBytes m.mem new (s.masked new (s.homeBytes old (2 ^ 16)))
    lines := moved (m.lines.map fun e => if inOld e.1 then (e.1, { e.2 with slice := none }) else e)
    writers := moved m.writers
    ue := (m.ue.filter fun l => !inNew l) ++ (m.ue.filter inOld).map newLine
    ce := m.ce.filter fun l => !inNew l }

/-- The memory of a partition: 128 GiB for each die row (02 R28; log 25). -/
def Partition.memory (p : Partition) : Nat := p.rows.length * 2 ^ 37

/-- A write of `MIGCTL`: with `GO` set, a migration begins, if its pages are legal. -/
def State.migrate (s : State) (p v : Nat) : State :=
  let x := s.partition p
  if bitsAt v 63 1 = 0 then s
  else if !x.migdone then s.updPartition p fun x => { x with migst := 1 }
  else if x.migva % 2 ^ 16 != 0 || x.migold % 2 ^ 16 != 0 || x.mignew % 2 ^ 16 != 0 || x.migold == x.mignew ||
      x.migold ≥ x.memory || x.mignew ≥ x.memory then s.updPartition p fun x => { x with migst := 2, migdone := true }
  else s.updPartition p fun x => { x with
    migctx := bitsAt v 0 10, migst := 3, migdone := false, migrun := some (x.migva, x.migold, x.mignew) }

/-- Shoot-down, recall, copy and release of a migration that has begun, in one step. Until then the homes of its old page refuse requests and
those of the new one hold them. -/
def State.migrateRest (s : State) (p : Nat) : State :=
  let x := s.partition p
  match x.migrun with
  | none => s
  | some (va, old, new) =>
    let old := memBase p + old
    let s := (s.shootDown x.migctx (some va) none).copyPage old (memBase p + new)
    (s.retryAll old).updPartition p fun x => { x with migst := 0, migdone := true, migrun := none }

/-- MIGRATION_GO (22 R397). -/
def execMigrationGo (p : Nat) (v : BitVec 64) (s : State) : Host.Outcome State Fault Refusal := .next (s.migrate p v.toNat)

/-! ### Ends of contexts and partitions (26 R449, R456) -/

/-- A dirty line that could not be written back goes onward with its check bits wrong and ends its context (26 R449). -/
def State.leaseLost (s : State) (ctx : Nat) : State := (s.endContext ctx true).managementRecord cLEASE_LOST ctx (s.partOf ctx) ctx

/-- The contexts that lost a line since the last step end. -/
def State.settleLost (s : State) : State :=
  match s.ms.lost with
  | [] => s
  | xs => ((xs.foldl (fun l e => addOnce l e.1) []).filter (· < noCtx)).foldl (fun s c => s.leaseLost c) (s.updMs fun m => { m with lost := [] })

/-- Everything a service thread has in progress is abandoned, and its call queue is emptied. -/
def State.abandonThread (s : State) (d t : Nat) : State :=
  let a := Aid.thread d t
  let s := s.updAgent a fun g => { g with
    phase := .idle, firing := none, block := none, deadline := [], pending := [], call := none, copyQ := [], needleQ := [],
    fullerQ := [] }
  let s := s.updQueue (.call d t) fun q => { q with items := [], index := [] }
  { s with
    fab := { s.fab with waits := s.fab.waits.filter fun w => w.aid != a }
    ms := { s.ms with
      reqs := s.ms.reqs.filter fun r => r.aid != a
      loads := s.ms.loads.filter fun l => l.aid != a
      groups := s.ms.groups.filter fun g => g.2.aid != a
      walks := s.ms.walks.filter fun w => w.aid != a }
    sched := { s.sched with
      traps := s.sched.traps.filter fun e => e.who != some a
      calls := s.sched.calls.filter fun c => c.caller != a && c.thread != a
      sysWaits := s.sched.sysWaits.filter fun w => w.ends.aid? != some a } }

/-- A partition reset (26 R456). -/
def State.resetPartition (s : State) (p : Nat) : State :=
  let x := s.partition p
  let stop := fun (e : Nat × Lq) => if s.lqPart e.1 = p then (e.1, { e.2 with en := false }) else e
  let s := s.updSched fun y => { y with lqs := y.lqs.map stop }
  let ctxs := (s.sched.contexts.filter fun e => e.2.part == p && e.2.live).map Prod.fst
  let s := ctxs.foldl (fun s c => s.endContext c true) s
  let running := s.agents.filterMap fun e => match e.1 with
    | .thread d t => if x.hasDie d then some (d, t) else none
    | .actor .. => none
  let called := s.fab.queues.filterMap fun e => match e.1 with
    | .call d t => if x.hasDie d then some (d, t) else none
    | _ => none
  let threads := running ++ called
  let s := threads.foldl (fun s e => s.abandonThread e.1 e.2) s
  let s := s.flushSlices p
  let s := x.dies.foldl (fun s d => s.rewriteVpt d) s
  let s := ((s.sched.contexts.filter fun e => e.2.part == p).map Prod.fst).foldl (fun s c => s.shootDown c none none) s
  s.updSched fun y => { y with ladders := y.ladders.filter fun e => s.lqPart e.1 != p }

end Sys2Proof.Machine
end

