-- ==== Sys2Proof/Machine/Crypto.lean ====
section
/-! DEFINITION. The two standard functions that the check of a firmware image names: SHA-384 (FIPS 180-4) and the verification of an
ECDSA signature over the curve P-384 (FIPS 186-4) (spec 26 R460; log 3). -/
namespace Sys2Proof.Machine

/-! ### SHA-384 -/

/-- The number that big-endian bytes hold. -/
def bigEndian (bs : List Byte) : Nat := bytesNat bs.reverse

def shaConstantsA : List (BitVec 64) :=
  [0x428a2f98d728ae22, 0x7137449123ef65cd, 0xb5c0fbcfec4d3b2f, 0xe9b5dba58189dbbc,
   0x3956c25bf348b538, 0x59f111f1b605d019, 0x923f82a4af194f9b, 0xab1c5ed5da6d8118,
   0xd807aa98a3030242, 0x12835b0145706fbe, 0x243185be4ee4b28c, 0x550c7dc3d5ffb4e2,
   0x72be5d74f27b896f, 0x80deb1fe3b1696b1, 0x9bdc06a725c71235, 0xc19bf174cf692694,
   0xe49b69c19ef14ad2, 0xefbe4786384f25e3, 0x0fc19dc68b8cd5b5, 0x240ca1cc77ac9c65,
   0x2de92c6f592b0275, 0x4a7484aa6ea6e483, 0x5cb0a9dcbd41fbd4, 0x76f988da831153b5,
   0x983e5152ee66dfab, 0xa831c66d2db43210, 0xb00327c898fb213f, 0xbf597fc7beef0ee4,
   0xc6e00bf33da88fc2, 0xd5a79147930aa725, 0x06ca6351e003826f, 0x142929670a0e6e70,
   0x27b70a8546d22ffc, 0x2e1b21385c26c926, 0x4d2c6dfc5ac42aed, 0x53380d139d95b3df,
   0x650a73548baf63de, 0x766a0abb3c77b2a8, 0x81c2c92e47edaee6, 0x92722c851482353b]

def shaConstantsB : List (BitVec 64) :=
  [0xa2bfe8a14cf10364, 0xa81a664bbc423001, 0xc24b8b70d0f89791, 0xc76c51a30654be30,
   0xd192e819d6ef5218, 0xd69906245565a910, 0xf40e35855771202a, 0x106aa07032bbd1b8,
   0x19a4c116b8d2d0c8, 0x1e376c085141ab53, 0x2748774cdf8eeb99, 0x34b0bcb5e19b48a8,
   0x391c0cb3c5c95a63, 0x4ed8aa4ae3418acb, 0x5b9cca4f7763e373, 0x682e6ff3d6b2b8a3,
   0x748f82ee5defb2fc, 0x78a5636f43172f60, 0x84c87814a1f0ab72, 0x8cc702081a6439ec,
   0x90befffa23631e28, 0xa4506cebde82bde9, 0xbef9a3f7b2c67915, 0xc67178f2e372532b,
   0xca273eceea26619c, 0xd186b8c721c0c207, 0xeada7dd6cde0eb1e, 0xf57d4f7fee6ed178,
   0x06f067aa72176fba, 0x0a637dc5a2c898a6, 0x113f9804bef90dae, 0x1b710b35131c471b,
   0x28db77f523047d84, 0x32caab7b40c72493, 0x3c9ebe0a15c9bebc, 0x431d67c49c100d4c,
   0x4cc5d4becb3e42b6, 0x597f299cfc657e2a, 0x5fcb6fab3ad6faec, 0x6c44198c4a475817]

/-- The constants of the 80 rounds: the first 64 bits of the fractional parts of the cube roots of the first 80 primes. -/
def shaConstants : List (BitVec 64) := shaConstantsA ++ shaConstantsB

/-- The hash value before the first block. -/
def shaStart : List (BitVec 64) :=
  [0xcbbb9d5dc1059ed8, 0x629a292a367cd507, 0x9159015a3070dd17, 0x152fecd8f70e5939,
   0x67332667ffc00b31, 0x8eb44a8768581511, 0xdb0c2e0d64f98fa7, 0x47b5481dbefa4fa4]

/-- The functions that mix one word: three rotations, or two and a shift. -/
def shaRotate (a b c : Nat) (x : BitVec 64) : BitVec 64 := x.rotateRight a ^^^ x.rotateRight b ^^^ x.rotateRight c
def shaShift (a b c : Nat) (x : BitVec 64) : BitVec 64 := x.rotateRight a ^^^ x.rotateRight b ^^^ (x >>> c)

/-- The message schedule, newest word first: `n` words after those of the block. -/
def shaSchedule : Nat → List (BitVec 64) → List (BitVec 64)
  | 0, w => w
  | n + 1, w =>
    shaSchedule n ((shaShift 19 61 6 (w.getD 1 0) + w.getD 6 0 + shaShift 1 8 7 (w.getD 14 0) + w.getD 15 0) :: w)

/-- One round, over the eight working words. -/
def shaRound (v : List (BitVec 64)) (k w : BitVec 64) : List (BitVec 64) :=
  match v with
  | [a, b, c, d, e, f, g, h] =>
    let t := h + shaRotate 14 18 41 e + ((e &&& f) ^^^ (~~~e &&& g)) + k + w
    let u := shaRotate 28 34 39 a + ((a &&& b) ^^^ (a &&& c) ^^^ (b &&& c))
    [t + u, a, b, c, d + t, e, f, g]
  | v => v

/-- The big-endian words of a block, first word first. -/
def shaWords (block : List Byte) : List (BitVec 64) :=
  (List.range 16).map fun i => BitVec.ofNat 64 (bigEndian ((block.drop (8 * i)).take 8))

/-- The hash value after one block. -/
def shaBlock (v : List (BitVec 64)) (block : List Byte) : List (BitVec 64) :=
  let w := (shaSchedule 64 (shaWords block).reverse).reverse
  let u := (List.zip shaConstants w).foldl (fun v kw => shaRound v kw.1 kw.2) v
  List.zipWith (· + ·) v u

/-- The hash value after `n` blocks of 128 bytes. -/
def shaBlocks : Nat → List (BitVec 64) → List Byte → List (BitVec 64)
  | 0, v, _ => v
  | n + 1, v, bs => shaBlocks n (shaBlock v (bs.take 128)) (bs.drop 128)

/-- A message with its padding: a one bit, zero bits, and its length in bits as 16 bytes. -/
def shaPad (bs : List Byte) : List Byte :=
  bs ++ 0x80 :: List.replicate ((239 - bs.length % 128) % 128) 0 ++ (natBytes 16 (8 * bs.length)).reverse

/-- The SHA-384 of a byte string: 48 bytes, in the standard's order. -/
def sha384 (bs : List Byte) : List Byte :=
  let m := shaPad bs
  ((shaBlocks (m.length / 128) shaStart m).take 6).flatMap fun w => (natBytes 8 w.toNat).reverse

/-! ### ECDSA over P-384 -/

/-- The prime of the field, the order of the group, the constant of the curve `y^2 = x^3 - 3x + b`, and the base point. -/
def p384Prime : Nat := 2 ^ 384 - 2 ^ 128 - 2 ^ 96 + 2 ^ 32 - 1
def p384Order : Nat := 0xffffffffffffffffffffffffffffffffffffffffffffffffc7634d81f4372ddf581a0db248b0a77aecec196accc52973
def p384B : Nat := 0xb3312fa7e23ee7e4988e056be3f82d19181d9c6efe8141120314088f5013875ac656398d8a2ed19d2a85c8edd3ec2aef
def p384Gx : Nat := 0xaa87ca22be8b05378eb1c71ef320ad746e1d3b628ba79b9859f741e082542a385502f25dbf55296c3a545e3872760ab7
def p384Gy : Nat := 0x3617de4a96262c6f5d9e98bf9292dc29f8f41dbd289a147ce9da3113b5f0b8c00a60b1ce1d7e819d7a431d7c90ea0e5f

/-- `a ^ e` modulo `m`, over the low `n` bits of `e`. -/
def powMod (m a e : Nat) : Nat → Nat
  | 0 => 1
  | n + 1 =>
    let r := powMod m (a * a % m) (e / 2) n
    if e % 2 = 1 then a * r % m else r

/-- The inverse modulo a prime of 384 bits. -/
def invMod (m a : Nat) : Nat := powMod m (a % m) (m - 2) 384

/-- A point of the curve; none is the point at infinity. -/
abbrev Point := Option (Nat × Nat)

/-- The difference of two numbers modulo the prime. -/
def subP (a b : Nat) : Nat := (a % p384Prime + p384Prime - b % p384Prime) % p384Prime

/-- The third point of a line with slope `l` through two points, mirrored. -/
def chord (l x₁ y₁ x₂ : Nat) : Point :=
  let x := subP (l * l) (x₁ + x₂)
  some (x, subP (l * subP x₁ x) y₁)

/-- The sum of two points. -/
def addPoints : Point → Point → Point
  | none, q => q
  | p, none => p
  | some (x₁, y₁), some (x₂, y₂) =>
    if x₁ = x₂ then
      if y₁ = y₂ && y₁ != 0 then chord (subP (3 * x₁ * x₁) 3 * invMod p384Prime (2 * y₁) % p384Prime) x₁ y₁ x₂ else none
    else chord (subP y₂ y₁ * invMod p384Prime (subP x₂ x₁) % p384Prime) x₁ y₁ x₂

/-- A multiple of a point, over the low `n` bits of the factor. -/
def mulPoint (p : Point) (k : Nat) : Nat → Point
  | 0 => none
  | n + 1 =>
    let q := mulPoint (addPoints p p) (k / 2) n
    if k % 2 = 1 then addPoints p q else q

/-- Whether a pair of coordinates is a point of the curve. -/
def onCurve (x y : Nat) : Bool :=
  x < p384Prime && y < p384Prime && y * y % p384Prime = subP (x * x * x + p384B) (3 * x)

/-- Whether `r` and `s` sign a digest under a key. -/
def ecdsaVerify (x y r s digest : Nat) : Bool :=
  let n := p384Order
  let w := invMod n s
  onCurve x y && 0 < r && r < n && 0 < s && s < n &&
    match addPoints (mulPoint (some (p384Gx, p384Gy)) (digest * w % n) 384) (mulPoint (some (x, y)) (r * w % n) 384) with
    | none => false
    | some (u, _) => u % n = r

end Sys2Proof.Machine
end

