-- ==== Sys2Proof/Machine/Firmware.lean ====
section
/-! DEFINITION. The command processors and their firmware: images and their verification, staging, swaps, boot selection, the
security floor and the core watchdogs (spec 26 R459 to R462). -/
namespace Sys2Proof.Machine

/-! ### Cores -/

def State.cp (s : State) (c : Nat) : CpCore := Tab.getD s.out.fw.cores c (.reset c)
def State.updFw (s : State) (f : Firmware → Firmware) : State := s.updOut fun o => { o with fw := f o.fw }
def State.updCp (s : State) (c : Nat) (f : CpCore → CpCore) : State :=
  s.updFw fun w => { w with cores := Tab.set w.cores c (f (s.cp c)) }

/-- Changes every core of the four I/O dies. -/
def State.updCps (s : State) (f : CpCore → CpCore) : State := (List.range 8).foldl (fun s c => s.updCp c f) s

/-! ### Images (26 R460) -/

/-- The bytes of a PA of the partition that holds the command processors' die row. An uncorrectable line is counted, and its bytes are free
values (26 R446). -/
def State.cpRead (s : State) (pa n : Nat) : State × List Byte :=
  let a := memBase (s.dieOf 0) + pa
  let s := s.recallRange a n
  let bytes := s.homeBytes a n
  if !s.hasUe a n then (s, bytes)
  else
    let free := fun (j : Nat) => (Config.freeValue (s.fresh + j / 64)).extractLsb' (8 * (j % 64)) 8
    ({ s.count (s.storeDie a) none 0x61 with fresh := s.fresh + n / 64 + 1 },
      (List.range n).map fun j => if s.ms.ue.contains (lineOf (a + j)) then free j else bytes.getD j 0)

/-- The largest body. -/
def maxBody : Nat := 16 * 2 ^ 20 - 256

/-- The checks of an image, in the order of the codes of `FWST`; 0 where it is accepted. The coordinates of the key and the two numbers
of the signature are little-endian (00 R5); digests are strings of bytes in the standard's order (log 3). -/
def verifyImage (floor : Nat) (bs : List Byte) : Nat :=
  let len := fieldAt bs 12 4
  let key := (bs.drop 160).take 96
  if bs.length < 256 || fieldAt bs 0 4 != 0x57465A4C || len > maxBody || bs.length != 256 + len then 1
  else if sha384 (bs.drop 256) != (bs.drop 16).take 48 then 2
  else if sha384 key != Config.keyHash then 3
  else if !ecdsaVerify (fieldAt bs 160 48) (fieldAt bs 208 48) (fieldAt bs 64 48) (fieldAt bs 112 48)
      (bigEndian (sha384 (bs.take 64 ++ key))) then 4
  else if fieldAt bs 8 4 < floor then 5
  else 0

/-- The image in a slot. -/
def Firmware.image (w : Firmware) (slot : Nat) : List Byte := Tab.getD w.slots slot []

/-! ### Commands (26 R461, R462) -/

/-- A command ends with a status. -/
def State.fwDone (s : State) (cmd st : Nat) : State := s.updFw fun w => { w with done := true, cmd := cmd, st := st }

/-- A command is taken unless one is in progress or it names the running slot. -/
def State.fwCommand (s : State) (cmd slot : Nat) (act : State → State) : State :=
  let w := s.out.fw
  if !w.done then s.updFw fun w => { w with st := 6 }
  else if slot = w.act then s.fwDone cmd 6
  else act s

/-- STAGE: the image at `FWSRC` goes into the slot that is not running and is verified. -/
def State.fwStage (s : State) (slot : Nat) : State :=
  s.fwCommand 1 slot fun s =>
    let src := s.out.fw.src
    let (s, hdr) := s.cpRead src 256
    let len := fieldAt hdr 12 4
    let (s, body) := if len > maxBody then (s, []) else s.cpRead (src + 256) len
    let bs := hdr ++ body
    let st := verifyImage s.out.fw.floor bs
    (s.updFw fun w => { w with
      slots := Tab.set w.slots slot bs
      verified := if st = 0 then addOnce w.verified slot else w.verified.filter (· != slot) }).fwDone 1 st

/-- The status of a command that needs a verified slot. -/
def State.slotStatus (s : State) (slot : Nat) : Nat :=
  if s.out.fw.verified.contains slot then 0 else verifyImage s.out.fw.floor (s.out.fw.image slot)

/-- SWAP: the standby set starts the staged image. -/
def State.fwSwap (s : State) (slot : Nat) : State :=
  s.fwCommand 2 slot fun s =>
    let st := s.slotStatus slot
    if st != 0 then s.fwDone 2 st
    else (s.updCps fun c => { c with ready := false, release := false }).updFw fun w =>
      { w with done := false, cmd := 2, swap := .starting }

/-- BOOTSEL: the boot slot becomes a verified slot. -/
def State.fwBootsel (s : State) (slot : Nat) : State :=
  s.fwCommand 3 slot fun s =>
    let st := s.slotStatus slot
    (if st = 0 then s.updFw fun w => { w with boot := slot } else s).fwDone 3 st

/-- SVNLOCK: the fused floor rises to the running image's security version. -/
def State.fwSvnlock (s : State) (slot : Nat) : State :=
  s.fwCommand 4 slot fun s =>
    (s.updFw fun w => { w with floor := max w.floor (fieldAt (w.image w.act) 8 4) }).fwDone 4 0

/-- A write of `FWCTL`. -/
def State.fwctl (s : State) (v : Nat) : State :=
  match bitsAt v 56 8 with
  | 1 => s.fwStage (v % 2)
  | 2 => s.fwSwap (v % 2)
  | 3 => s.fwBootsel (v % 2)
  | 4 => s.fwSvnlock (v % 2)
  | _ => s

/-- STAGE (26 R461). -/
def execStage (slot : Nat) (s : State) : Host.Outcome State Fault Refusal := .next (s.fwStage (slot % 2))

/-- SWAP_FIRMWARE (26 R462). -/
def execSwapFirmware (slot : Nat) (s : State) : Host.Outcome State Fault Refusal := .next (s.fwSwap (slot % 2))

/-- BOOTSEL (26 R461). -/
def execBootsel (slot : Nat) (s : State) : Host.Outcome State Fault Refusal := .next (s.fwBootsel (slot % 2))

/-- SVNLOCK (26 R461). -/
def execSvnlock (slot : Nat) (s : State) : Host.Outcome State Fault Refusal := .next (s.fwSvnlock (slot % 2))

/-! ### The swap window and the core watchdogs (26 R459, R462) -/

/-- Every core of a role has set a bit. -/
def State.everyCp (s : State) (role : Nat) (p : CpCore → Bool) : Bool :=
  (List.range 8).all fun c => (s.cp c).role != role || p (s.cp c)

/-- The record that the active set leaves (26 R462). -/
def State.swapRecord (s : State) : SwapRecord :=
  ⟨s.sched.partitions.map fun e => (e.1, e.2.hawr), s.sched.assists, s.out.vocabs⟩

/-- A set goes on with a record. -/
def State.resumeRecord (s : State) (r : SwapRecord) : State :=
  let s := r.rings.foldl (fun s e => s.updPartition e.1 fun x => { x with hawr := e.2 }) s
  (s.updSched fun x => { x with assists := r.inHand }).updOut fun o => { o with vocabs := r.vocabs }

/-- BVSWAP_WRITE (26 R462): once the active set has set `RELEASE`, it yields and the swap window opens; once the standby set has set `READY`
in it, the sets exchange roles. -/
def execBvswapWrite (core : Nat) (v : BitVec 64) (s : State) : Host.Outcome State Fault Refusal :=
  .next (
    if core ≥ 8 then s
    else
      let s := s.updCp core fun c => { c with ready := v.getLsbD 0, release := v.getLsbD 1 }
      match s.out.fw.swap with
      | .starting =>
        if s.everyCp 0 CpCore.release then
          (s.updCps fun c => if c.role = 0 then { c with role := 2 } else c).updFw fun w =>
            { w with swap := .released s.clk.tick s.swapRecord }
        else s
      | .released _ record =>
        if s.everyCp 1 CpCore.ready then
          let s := s.updCps fun c => { c with role := if c.role = 1 then 0 else 1, release := false }
          let slot := 1 - s.out.fw.act
          (((s.resumeRecord record).updFw fun w => { w with act := slot, boot := slot, swap := .none })).fwDone 2 0
        else s
      | .none => s)

/-- TAKEOVER (26 R462): without `READY` within 2 ms the old set resumes with its record. -/
def execTakeover (s : State) : Host.Outcome State Fault Refusal :=
  .next (match s.out.fw.swap with
    | .released t record =>
      if s.clk.tick < t + 1350000 then s
      else
        let s := s.updCps fun c => if c.role = 2 then { c with role := 0, release := false } else c
        ((s.resumeRecord record).updFw fun w => { w with swap := .none }).fwDone 2 7
    | _ => s)

/-- BVCPWD_WRITE (26 R459): the core's watchdog starts again at 2^24 ticks. -/
def execBvcpwdWrite (core : Nat) (s : State) : Host.Outcome State Fault Refusal :=
  .next (if core < 8 then s.updCp core fun c => { c with wdog := s.clk.tick + 2 ^ 24 } else s)

/-- CP_WATCHDOG_EXPIRY (26 R459): the standby partner of an active core restarts the firmware from the boot slot. -/
def execCpWatchdogExpiry (core : Nat) (s : State) : Host.Outcome State Fault Refusal :=
  .next (
    let c := s.cp core
    if core ≥ 8 || c.role = 1 || s.clk.tick < c.wdog then s
    else
      let partner := if core % 2 = 0 then core + 1 else core - 1
      let s := s.updCp core fun c => { c with role := 1 }
      let s := s.updCp partner fun c => { c with role := 0, wdog := s.clk.tick + 2 ^ 24 }
      s.updFw fun w => { w with act := w.boot })

/-- What a core reads from one of its CSRs (26 R459). -/
def State.readCsr (s : State) (core addr : Nat) : Nat :=
  let c := s.cp core
  match addr with
  | 0xFC0 => core
  | 0xFC1 => c.role
  | 0xFC2 => s.clk.tick
  | 0xFC3 => Config.crBase.toNat
  | 0x7C0 => c.handoff
  | 0x7C1 => c.ready.toNat + 2 * c.release.toNat
  | 0x7C2 => c.wdog - s.clk.tick
  | _ => 0

/-- A core's access of one of its CSRs. -/
def State.csrAccess (s : State) (core addr : Nat) (write : Option Nat) : State :=
  if core ≥ 8 then s
  else match write with
    | none => s.send (.csr core (s.readCsr core addr))
    | some v => match addr with
      | 0x7C0 => s.updCp core fun c => { c with handoff := v % 2 ^ 64 }
      | 0x7C1 => match execBvswapWrite core (BitVec.ofNat 64 v) s with
        | .next t => t
        | _ => s
      | 0x7C2 => s.updCp core fun c => { c with wdog := s.clk.tick + 2 ^ 24 }
      | _ => s

/-- A swap window is open: requests to the host-assisted functions wait (20 R366). -/
def State.swapping (s : State) : Bool := match s.out.fw.swap with
  | .released _ _ => true
  | _ => false

end Sys2Proof.Machine
end

