-- ==== Sys2Proof/Machine/Registers.lean ====
section
/-! DEFINITION. The control registers: their fields, their reads and writes, who reaches them, and the local blocks of the virtual
functions (spec 00 R8, R9; 20 R350, R351, R358, R361, R364, R366; 21 R381, R385 to R387; 22 R389, R396; 23 R410 to R412; 24 R420
to R422; 26 R452, R457, R461, R463, R466, R468; 27 R470). -/
namespace Sys2Proof.Machine

/-! ### The map (23 R410) -/

/-- A control register. -/
inductive Reg where
  | lqBase (n : Nat) | lqCtl (n : Nat) | lqDies (n : Nat) | lqTail (n : Nat) | lqHead (n : Nat) | lqDone (n : Nat)
  | ctxCtl (c : Nat) | ctxPt (c : Nat) | ctxSched (c : Nat) | ctxLive (c : Nat) | ctxKill (c : Nat) | ctxAux (c : Nat)
  | cqCtl (d t : Nat) | cqDesc (d t : Nat) | cqNotify (d t : Nat) | cqStat (d t : Nat) | cqEntry (d t : Nat)
  | pir (p : Nat) | fnmode (p : Nat) | pfault (p : Nat) | phfring (p : Nat) | pharing (p : Nat)
  | migVa (p : Nat) | migOld (p : Nat) | migNew (p : Nat) | migCtl (p : Nat) | migSt (p : Nat)
  | nbr (d : Nat) | schedcfg (d : Nat)
  | pchg | pchgSt
  | wdta (p : Nat) | wdtb (p : Nat) | wdtc (p : Nat) | wdtLq (n : Nat)
  | fwSrc | fwCtl | fwSt
  | svcStage | podSt | pwrCfg | pwrSt (d : Nat)
  | rasLog (d : Nat) | vptIdx (d : Nat) | vptData (d : Nat)
  deriving DecidableEq, Repr

/-- The register at an address; `none` where it is reserved. -/
def Reg.at (a : Nat) : Option Reg :=
  if a < 0x40000 then
    let n := a / 64
    match a % 64 with
    | 0x00 => some (.lqBase n)
    | 0x08 => some (.lqCtl n)
    | 0x10 => some (.lqDies n)
    | 0x18 => some (.lqTail n)
    | 0x20 => some (.lqHead n)
    | 0x28 => some (.lqDone n)
    | _ => none
  else if a < 0x80000 then
    let c := (a - 0x40000) / 256
    match a % 256 with
    | 0x00 => some (.ctxCtl c)
    | 0x08 => some (.ctxPt c)
    | 0x10 => some (.ctxSched c)
    | 0x18 => some (.ctxLive c)
    | 0x20 => some (.ctxKill c)
    | 0x28 => some (.ctxAux c)
    | _ => none
  else if a < 0xC0000 then
    let d := (a - 0x80000) / 4096
    let t := a % 4096 / 64
    match a % 64 with
    | 0x00 => some (.cqCtl d t)
    | 0x08 => some (.cqDesc d t)
    | 0x10 => some (.cqNotify d t)
    | 0x18 => some (.cqStat d t)
    | 0x20 => some (.cqEntry d t)
    | _ => none
  else if a < 0xC0800 then
    let p := (a - 0xC0000) / 256
    match a % 256 with
    | 0x00 => some (.pir p)
    | 0x08 => some (.fnmode p)
    | 0x10 => some (.pfault p)
    | 0x18 => some (.phfring p)
    | 0x20 => some (.pharing p)
    | 0x40 => some (.migVa p)
    | 0x48 => some (.migOld p)
    | 0x50 => some (.migNew p)
    | 0x58 => some (.migCtl p)
    | 0x60 => some (.migSt p)
    | _ => none
  else if 0xD0000 ≤ a ∧ a < 0xD4000 then
    let d := (a - 0xD0000) / 256
    match a % 256 with
    | 0x00 => some (.nbr d)
    | 0x08 => some (.schedcfg d)
    | _ => none
  else if 0xE0100 ≤ a ∧ a < 0xE0300 then
    let p := (a - 0xE0100) / 64
    match a % 64 with
    | 0x00 => some (.wdta p)
    | 0x08 => some (.wdtb p)
    | 0x10 => some (.wdtc p)
    | _ => none
  else if 0xE1000 ≤ a ∧ a < 0xE1200 then (if a % 8 = 0 then some (.pwrSt ((a - 0xE1000) / 8)) else none)
  else if 0xE2000 ≤ a ∧ a < 0xE3000 then
    let d := (a - 0xE2000) / 64
    match a % 64 with
    | 0x00 => some (.rasLog d)
    | 0x10 => some (.vptIdx d)
    | 0x18 => some (.vptData d)
    | _ => none
  else if 0xE8000 ≤ a ∧ a < 0xF0000 then (if a % 8 = 0 then some (.wdtLq ((a - 0xE8000) / 8)) else none)
  else
    match a with
    | 0xE0000 => some .pchg
    | 0xE0008 => some .pchgSt
    | 0xE0400 => some .fwSrc
    | 0xE0408 => some .fwCtl
    | 0xE0410 => some .fwSt
    | 0xE0500 => some .svcStage
    | 0xE0508 => some .podSt
    | 0xE0600 => some .pwrCfg
    | _ => none

/-! ### Reads -/

/-- The dies of a launch queue's partition, as a mask. -/
def State.lqDieMask (s : State) (n : Nat) : Dword :=
  BitVec.ofNat 64 (sumNat (((s.partition (s.lqPart n)).dies).map fun d => 2 ^ d))

/-- The dies a queue may place regions on (20 R350). -/
def State.lqDies (s : State) (n : Nat) : Dword := (s.lq n).dies &&& s.lqDieMask n

/-- The call queue of a thread. -/
def State.callQueue (s : State) (d t : Nat) : Queue := (s.queue? (.call d t)).getD (.empty .default 0 0)

/-- The value a register reads as; a register that is written only reads as zero (00 R8). -/
def State.readReg (s : State) (r : Reg) : Nat :=
  match r with
  | .lqBase n => (s.lq n).base
  | .lqCtl n => let q := s.lq n; bitAt q.en 19 + q.depth * 2 ^ 15 + q.lsize * 2 ^ 10 + q.ctx
  | .lqDies n => (s.lqDies n).toNat
  | .lqTail n => (s.lq n).tail
  | .lqHead n => (s.lq n).head
  | .lqDone n => (s.lq n).done
  | .ctxCtl c =>
    let x := s.context c
    bitAt x.live 41 + x.incnext * 2 ^ 25 + x.fthr * 2 ^ 19 + x.fdie * 2 ^ 13 + bitAt x.vfv 12 + x.vf * 2 ^ 4 + x.part
  | .ctxPt c => let x := s.context c; x.root * 2 ^ 12 + bitAt x.rootV 0
  | .ctxSched c => let x := s.context c; x.priomax * 2 ^ 19 + x.sharemin * 2 ^ 8 + x.share
  | .ctxLive c => let n := s.liveCount c; n.1 % 2 ^ 16 + n.2 % 2 ^ 16 * 2 ^ 16
  | .ctxKill _ => 0
  | .ctxAux c => let x := s.context c; x.svctab * 2 ^ 12 + x.lease
  | .cqCtl d t =>
    let x := s.threadCtl d t
    bitAt x.en 13 + bitAt x.fault 12 + (if x.level = .M then 3 else 1) * 2 ^ 10 + x.ctx
  | .cqDesc d t => (s.callQueue d t).desc.word0
  | .cqNotify _ _ => 0
  | .cqStat d t => let q := s.callQueue d t; min q.items.length 0x1FF + q.nlost % 2 ^ 32 * 2 ^ 32
  | .cqEntry d t => (s.threadCtl d t).entry
  | .pir p => let x := s.partition p; bitAt x.v 15 + x.last * 2 ^ 3 + x.first
  | .fnmode p => (s.partition p).fnmode
  | .pfault p => let x := s.partition p; x.hfvec * 2 ^ 12 + x.mfthr * 2 ^ 6 + x.mfdie
  | .phfring p => let x := s.partition p; x.phfbase + x.phfslots
  | .pharing p => let x := s.partition p; x.phabase + x.phaslots
  | .migVa p => (s.partition p).migva
  | .migOld p => (s.partition p).migold
  | .migNew p => (s.partition p).mignew
  | .migCtl _ => 0
  | .migSt p => let x := s.partition p; bitAt x.migdone 8 + x.migst
  | .nbr d => s.dieOf d
  | .schedcfg d => let x := Tab.getD s.sched.schedcfg d (13500, 6750); x.1 * 2 ^ 32 + x.2
  | .pchg => 0
  | .pchgSt => let x := s.sched.pchg; bitAt x.done 24 + x.who * 2 ^ 8 + x.st
  | .wdta p => let b := s.budgets p; b.b2 * 2 ^ 32 + b.b1
  | .wdtb p => let b := s.budgets p; b.t2 * 2 ^ 32 + b.b3
  | .wdtc p => (s.budgets p).b4
  | .wdtLq n => let l := s.ladder n; min l.idle (2 ^ 32 - 1) * 2 ^ 32 + l.step
  | .fwSrc => s.out.fw.src
  | .fwCtl => 0
  | .fwSt => let w := s.out.fw; bitAt w.done 63 + w.boot * 2 ^ 17 + w.act * 2 ^ 16 + w.cmd * 2 ^ 8 + w.st
  | .svcStage => bitAt s.out.rfail 2 + s.out.stage
  | .podSt =>
    let p := s.out.pod
    (p.count - 1) % 256 * 2 ^ 8 + p.index % 256 + bitAt (p.role == .leader) 16 + bitAt p.joined 17
  | .pwrCfg => s.out.power.mbudget * 2 ^ 16 + s.out.power.dshare
  | .pwrSt d => let x := Tab.getD s.out.power.dies d ⟨0, 0, 0, none, 0⟩; x.pwr * 2 ^ 16 + x.tj * 2 ^ 8 + x.step
  | .rasLog d => let r := s.ras d; r.failedLinks * 2 ^ 48 + r.repair.length * 2 ^ 32 + r.eccUncorr
  | .vptIdx d => (s.ras d).vptidx
  | .vptData d =>
    let r := s.ras d
    match Tab.getD r.vpt r.vptidx (some r.vptidx) with
    | some q => 2 ^ 15 + min ((r.ueTicks.filter fun e => e.1 == q).length) 63 * 2 ^ 9 + q
    | none => 0

/-! ### Writes -/

/-- LQTAIL (20 R351): a write that would overrun the ring is ignored and counted. -/
def State.writeLqTail (s : State) (n v : Nat) : State :=
  let q := s.lq n
  let tail : Nat := v % 2 ^ 32
  if wrap 32 (Int.ofNat tail - q.done) > 2 ^ q.lsize then s.count (8 * (s.partition (s.lqPart n)).first) none 0x52
  else s.updLq n fun q => { q with tail := tail }

/-- CQNOTIFY (20 R364): one DATA record enters the call queue through its shear; a REJECT is counted. `sr` is what the record
carries. -/
def State.notify (s : State) (d t v : Nat) (sr : List Nat) : State × Judged :=
  match s.arriveAt (.call d t) (Record.data (scal v) (s.clk.tick % 2 ^ 32) false sr) with
  | (s, .rejected) => (s.count d none 0x50, .rejected)
  | r => r

/-- A notify that comes from a partition, as the packet that brings it says: a die of another refuses it (21 R386). -/
def State.notifyFrom (s : State) (part d t v : Nat) (sr : List Nat) : State :=
  if part != s.dieOf d then s.refuse d else (s.notify d t v sr).1

/-- CTXPT (22 R389): a package-scope shoot-down of the context, and, once it is complete, the root. -/
def State.writeCtxpt (s : State) (c v : Nat) : State :=
  let (id, s) := s.takeId
  s.beginShot ⟨c, none, none⟩ id (.root c v)

/-- CTXKILL (21 R381). -/
def State.writeCtxkill (s : State) (c v : Nat) : State := if bitsAt v 0 1 = 1 then s.endContext c true else s

/-- CTXCTL (21 R381). -/
def State.writeCtxctl (s : State) (c v : Nat) : State :=
  let old := s.context c
  let live := bitsAt v 41 1 == 1 || (old.live && s.liveCount c != (0, 0))
  let vfv := bitsAt v 12 1 == 1
  let vf := bitsAt v 4 8
  let taken := vfv && s.sched.contexts.any fun e => e.1 != c && e.2.vfv && e.2.vf == vf
  s.updContext c fun x => { x with
    live := live
    fthr := bitsAt v 19 6
    fdie := bitsAt v 13 6
    vfv := if taken then old.vfv else vfv
    vf := if taken then old.vf else vf
    part := bitsAt v 0 3 }

/-- CTXSCHED (20 R358): below level M only `SHARE` is written. A write that raises the sum of the partition's floors above 1,024 leaves
its own. -/
def State.writeCtxsched (s : State) (c v : Nat) (atM : Bool) : State :=
  let share := if bitsAt v 0 8 = 0 then 1 else bitsAt v 0 8
  let s := s.updContext c fun x => { x with share := share }
  if !atM then s
  else
    let want := min (bitsAt v 8 11) 1024
    let others := sumNat ((s.sched.contexts.filter fun e => e.1 != c && e.2.part == (s.context c).part).map fun e => e.2.sharemin)
    s.updContext c fun x => { x with
      priomax := bitsAt v 19 3
      sharemin := if want > x.sharemin && want + others > 1024 then x.sharemin else want }

/-- CQDESC (20 R364): word 0 of the call queue's descriptor; a refused one changes nothing. -/
def State.writeCqdesc (s : State) (d t v : Nat) : State :=
  s.updQueue (.call d t) fun q =>
    let n := QDesc.ofWords v 0 0
    if n.cap > 256 || n.pol = 4 || n.pol = 5 then q
    else
      let (x, st) := ({ q with desc := { q.desc with cap := n.cap } } : Queue).repolicy true true (scal v)
      if st = 0 then x else q

/-- CQCTL (20 R364). -/
def State.writeCqctl (s : State) (d t v : Nat) : State :=
  s.updThreadCtl d t fun x => { x with
    en := bitsAt v 13 1 == 1
    fault := bitsAt v 12 1 == 1
    level := if bitsAt v 10 2 = 3 then .M else .S
    ctx := bitsAt v 0 10 }

/-- LQCTL (20 R350). -/
def State.writeLqctl (s : State) (n v : Nat) : State :=
  let old := s.lq n
  let held := old.en || old.done != old.tail
  s.updLq n fun q => { q with
    en := bitsAt v 19 1 == 1
    depth := bitsAt v 15 4
    lsize := if held then q.lsize else min (bitsAt v 10 5) 12
    ctx := if held then q.ctx else bitsAt v 0 10 }

def State.updBudgets (s : State) (p : Nat) (f : Budgets → Budgets) : State :=
  s.updSched fun x => { x with budgets := Tab.set x.budgets p (f (s.budgets p)) }

/-- A write of a register takes effect. `atM` says that its writer stands at level M. -/
def State.writeReg (s : State) (r : Reg) (v : Nat) (atM : Bool) : State :=
  match r with
  | .lqBase n => s.updLq n fun q => { q with base := v / 2 ^ 8 * 2 ^ 8 }
  | .lqCtl n => s.writeLqctl n v
  | .lqDies n => s.updLq n fun q => { q with dies := BitVec.ofNat 64 v }
  | .lqTail n => s.writeLqTail n v
  | .ctxCtl c => s.writeCtxctl c v
  | .ctxPt c => s.writeCtxpt c v
  | .ctxSched c => s.writeCtxsched c v atM
  | .ctxKill c => s.writeCtxkill c v
  | .ctxAux c => s.updContext c fun x => { x with svctab := bitsAt v 12 52, lease := bitsAt v 0 12 }
  | .cqCtl d t => s.writeCqctl d t v
  | .cqDesc d t => s.writeCqdesc d t v
  | .cqNotify d t => (s.notify d t v []).1
  | .cqEntry d t => if atM then s.updThreadCtl d t fun x => { x with entry := v / 16 * 16 } else s
  | .fnmode p => s.updPartition p fun x => { x with fnmode := v % 32 }
  | .pfault p => s.updPartition p fun x => { x with hfvec := bitsAt v 12 11, mfthr := bitsAt v 6 6, mfdie := bitsAt v 0 6 }
  | .phfring p => s.updPartition p fun x => { x with phfbase := v / 2 ^ 12 * 2 ^ 12, phfslots := min (v % 32) 16 }
  | .pharing p => s.updPartition p fun x => { x with phabase := v / 2 ^ 12 * 2 ^ 12, phaslots := min (v % 32) 16 }
  | .migVa p => s.updPartition p fun x => { x with migva := v }
  | .migOld p => s.updPartition p fun x => { x with migold := v }
  | .migNew p => s.updPartition p fun x => { x with mignew := v }
  | .migCtl p => s.migrate p v
  | .schedcfg d => s.updSched fun x => { x with schedcfg := Tab.set x.schedcfg d (bitsAt v 32 32, bitsAt v 0 32) }
  | .pchg => s.pchg v
  | .wdta p => s.updBudgets p fun b => { b with b2 := bitsAt v 32 32, b1 := bitsAt v 0 32 }
  | .wdtb p => s.updBudgets p fun b => { b with t2 := bitsAt v 32 32, b3 := bitsAt v 0 32 }
  | .wdtc p => s.updBudgets p fun b => { b with b4 := bitsAt v 0 32 }
  | .fwSrc => s.updFw fun w => { w with src := v }
  | .fwCtl => s.fwctl v
  | .pwrCfg => s.updOut fun o => { o with power := { o.power with mbudget := bitsAt v 16 16, dshare := bitsAt v 0 16 } }
  | .vptIdx d => s.updRas d fun r => { r with vptidx := min (v % 512) 319 }
  | .lqHead _ | .lqDone _ | .ctxLive _ | .cqStat _ _ | .pir _ | .migSt _ | .nbr _ | .pchgSt | .wdtLq _ | .fwSt | .svcStage
  | .podSt | .pwrSt _ | .rasLog _ | .vptData _ => s

/-! ### Reach below level M (23 R412) -/

/-- The blocks an issuer of a context reaches below M. -/
def State.reaches (s : State) (ctx a : Nat) : Bool :=
  (a / 256 == 0x400 + ctx && a / 256 < 0x800) || (a < 0x40000 && (s.lq (a / 64)).ctx == ctx) ||
  (match Reg.at a with
   | some (.cqDesc d t) => (s.threadCtl d t).ctx == ctx
   | _ => false)

/-- The registers it reaches for reading only. -/
def State.readsOnly (s : State) (ctx : Nat) : Option Reg → Bool
  | some (.wdtLq n) => (s.lq n).ctx == ctx
  | some .svcStage => true
  | some .podSt => true
  | _ => false

/-- The registers written at level M as a whole. -/
def Reg.wholeM : Option Reg → Bool
  | some (.ctxCtl _) => true
  | some (.ctxPt _) => true
  | some (.ctxAux _) => true
  | some (.ctxKill _) => true
  | _ => false

def State.mayRead (s : State) (atM : Bool) (ctx a : Nat) : Bool := atM || s.reaches ctx a || s.readsOnly ctx (Reg.at a)
def State.mayWrite (s : State) (atM : Bool) (ctx a : Nat) : Bool := atM || (s.reaches ctx a && !Reg.wholeM (Reg.at a))

/-- A read of the control space. -/
def State.readCr (s : State) (a : Nat) : Nat := match Reg.at a with
  | some r => s.readReg r % 2 ^ 64
  | none => 0

/-- A write of the control space. -/
def State.writeCr (s : State) (a v : Nat) (atM : Bool) : State := match Reg.at a with
  | some r => s.writeReg r v atM
  | none => s

/-- A write of the control space that an instruction makes, whose notify carries the partition of its die (21 R386). -/
def State.writeCrFrom (s : State) (part a v : Nat) (atM : Bool) : State := match Reg.at a with
  | some (.cqNotify d t) => s.notifyFrom part d t v []
  | _ => s.writeCr a v atM

/-! ### Functions of the host (24 R420 to R422, R428) -/

/-- Functions are named by a number: a VF by its own, a PF by 256 and the number of its port; none is PF 0, that of port 0 of the north-west I/O
die (24 R420, R485; log 63). -/
def pfNumber : Nat := 256

/-- The number of a function, and the VF that it is, if it is one. -/
def functionNumber (who : Option Nat) : Nat := who.getD pfNumber
def vfOnly (who : Option Nat) : Option Nat := who.filter (· < pfNumber)

/-- The requester of a function. -/
def requesterOf (who : Option Nat) : Nat :=
  let f := functionNumber who
  if f ≤ pfNumber then f + 1 else f + 2

/-- The requester of a VF. -/
def vfRequester (v : Nat) : Nat := requesterOf (some v)

/-- The largest timestamp acknowledged to a requester, and that for its writes to other routes than one (25 R442). -/
def Requester.acked (r : Requester) : Nat := r.acks.foldl (fun m e => max m e.2) 0
def Requester.ackedElse (r : Requester) (route : Nat) : Nat := (r.acks.filter fun e => e.1 != route).foldl (fun m e => max m e.2) 0

/-- The context a VF is bound to, if it is live (24 R422). -/
def State.boundCtx (s : State) (v : Nat) : Option Nat :=
  (s.sched.contexts.find? fun e => e.2.vfv && e.2.vf == v && e.2.live).map Prod.fst

/-- A write of the control space by a function takes effect. The run that a notify begins follows every write that has been acknowledged to
the function (24 R425); its packet carries the partition of the context bound to a VF (21 R386). -/
def State.functionWrite (s : State) (who : Option Nat) (a v : Nat) (atM : Bool) : State :=
  match Reg.at a with
  | some (.cqNotify d t) =>
    let (id, s) := s.takeStamp (s.requester (requesterOf who)).acked (s.dieOf d)
    let part := match (vfOnly who).bind s.boundCtx with
      | some c => (s.context c).part
      | none => s.dieOf d
    s.notifyFrom part d t v [id]
  | _ => s.writeCr a v atM

/-- The MSI-X message of a vector, as the function's table gives it. -/
def State.vectorMessage (s : State) (who : Option Nat) (vec : Nat) : Out :=
  let e := Tab.getD (s.vf (functionNumber who)).msixTab vec (0, 0)
  .msix who vec e.1 e.2

/-- An MSI-X message of a function, or its pending bit where the vector is masked. -/
def State.raiseVector (s : State) (who : Option Nat) (vec : Nat) : State :=
  if (s.vf (functionNumber who)).msixMask.testBit vec then
    s.updVf (functionNumber who) fun x => { x with msixPend := Nat.lor x.msixPend (2 ^ vec) }
  else s.send (s.vectorMessage who vec)

/-- A write of a function's MSI-X table (log 26): the address of a vector's message in word 0 of its entry; in word 1 the data, and bit 32,
which masks the vector. Unmasking sends what is pending. -/
def State.writeMsix (s : State) (who : Option Nat) (off v : Nat) : State :=
  let f := functionNumber who
  let vec := off / 16
  let bit := 2 ^ vec
  let x := s.vf f
  let e := Tab.getD x.msixTab vec (0, 0)
  if off % 16 = 0 then s.updVf f fun x => { x with msixTab := Tab.set x.msixTab vec (v, e.2) }
  else if off % 16 != 8 then s
  else
    let s := s.updVf f fun x => { x with msixTab := Tab.set x.msixTab vec (e.1, v % 2 ^ 32) }
    if bitsAt v 32 1 = 1 then s.updVf f fun x => { x with msixMask := Nat.lor x.msixMask bit }
    else
      let s := s.updVf f fun x => { x with
        msixMask := if x.msixMask.testBit vec then x.msixMask - bit else x.msixMask
        msixPend := if x.msixPend.testBit vec then x.msixPend - bit else x.msixPend }
      if x.msixPend.testBit vec then s.send (s.vectorMessage who vec) else s

/-- A write of a VF's local block, from the PF or from the VF itself. -/
def State.writeLocal (s : State) (v off x : Nat) (pf : Bool) : State :=
  match off with
  | 0x00 => s.updVf v fun f => { f with aperBase := x / 2 ^ 36 * 2 ^ 36, aperEn := bitsAt x 0 1 == 1 }
  | 0x08 => s.updVf v fun f => { f with hcrb := x / 2 ^ 12 * 2 ^ 12, lslots := min (x % 32) 12 }
  | 0x18 => s.updVf v fun f => { f with hcrh := x % 2 ^ 32 }
  | 0x20 => if pf then s.updVf v fun f => { f with burst := max 1 (bitsAt x 32 16), rate := bitsAt x 0 32 } else s
  | _ => s

/-- A function of the host exists: a VF, or the PF of one of the eight ports (24 R420; log 63). -/
def functionExists (who : Option Nat) : Bool := functionNumber who < pfNumber + 8

/-- A register write through BAR 0 of a function takes effect (24 R421): one the function cannot reach is ignored. -/
def State.hostRegWrite (s : State) (who : Option Nat) (a v : Nat) : State :=
  if !functionExists who then s
  else match vfOnly who with
  | none =>
    if a < 0x100000 then s.functionWrite who a v true
    else if a < 0x200000 then s.writeLocal ((a - 0x100000) / 4096) (a % 4096) v true
    else if a < 0x202000 then s.writeMsix who (a - 0x200000) v
    else s
  | some f =>
    if a < 0x100000 then
      match s.boundCtx f with
      | some ctx => if s.mayWrite false ctx a then s.functionWrite who a v false else s
      | none => s
    else if a < 0x101000 then s.writeLocal f (a % 4096) v false
    else if 0x180000 ≤ a ∧ a < 0x180200 then s.writeMsix who (a - 0x180000) v
    else s

/-- A read of a VF's local block, from the PF or from the VF itself (24 R422): reserved bits and offsets read as zero (00 R9). -/
def State.readLocal (s : State) (v off : Nat) : Nat :=
  let f := s.vf v
  match off with
  | 0x00 => f.aperBase + bitAt f.aperEn 0
  | 0x08 => f.hcrb + f.lslots
  | 0x10 => f.hcrt % 2 ^ 32
  | 0x18 => f.hcrh
  | 0x20 => f.burst * 2 ^ 32 + f.rate
  | _ => if 0x40 ≤ off ∧ off < 0x80 ∧ off % 8 = 0 then bytesNat ((f.rst.drop (off - 0x40)).take 8) else 0

/-- A read of a function's MSI-X table (log 26). -/
def State.readMsix (s : State) (who : Option Nat) (off : Nat) : Nat :=
  let x := s.vf (functionNumber who)
  let e := Tab.getD x.msixTab (off / 16) (0, 0)
  if off % 16 = 0 then e.1 else if off % 16 = 8 then e.2 + bitAt (x.msixMask.testBit (off / 16)) 32 else 0

/-- A read of a function's pending-bit array. -/
def State.readPending (s : State) (who : Option Nat) (off : Nat) : Nat := bitsAt (s.vf (functionNumber who)).msixPend (8 * off) 64

/-- What a register read through BAR 0 of a function answers (24 R421): one that the function cannot reach reads as zero. -/
def State.hostRegRead (s : State) (who : Option Nat) (a : Nat) : Nat :=
  if !functionExists who then 0
  else match vfOnly who with
  | none =>
    if a < 0x100000 then s.readCr a
    else if a < 0x200000 then s.readLocal ((a - 0x100000) / 4096) (a % 4096)
    else if a < 0x300000 then (if a < 0x202000 then s.readMsix who (a - 0x200000) else 0)
    else if a < 0x300040 then s.readPending who (a - 0x300000) else 0
  | some f =>
    if a < 0x100000 then
      match s.boundCtx f with
      | some ctx => if s.mayRead false ctx a then s.readCr a else 0
      | none => 0
    else if a < 0x101000 then s.readLocal f (a % 4096)
    else if 0x180000 ≤ a ∧ a < 0x180200 then s.readMsix who (a - 0x180000)
    else if 0x1C0000 ≤ a ∧ a < 0x1C0008 then s.readPending who (a - 0x1C0000)
    else 0

/-! ### Rows of the table -/

/-- LQ_TAIL_WRITE (20 R351). -/
def execLqTailWrite (lq : Nat) (v : BitVec 64) (s : State) : Host.Outcome State Fault Refusal := .next (s.writeLqTail lq v.toNat)

/-- CQNOTIFY_WRITE (20 R364). -/
def execCqnotifyWrite (die t : Nat) (v : BitVec 64) (s : State) : Host.Outcome State Fault Refusal :=
  .next (s.notify die t v.toNat []).1

/-- CTXKILL_WRITE (21 R381). -/
def execCtxkillWrite (ctx : Nat) (v : BitVec 64) (s : State) : Host.Outcome State Fault Refusal := .next (s.writeCtxkill ctx v.toNat)

/-- CTXPT_WRITE (22 R389). -/
def execCtxptWrite (ctx : Nat) (v : BitVec 64) (s : State) : Host.Outcome State Fault Refusal := .next (s.writeCtxpt ctx v.toNat)

end Sys2Proof.Machine
end

