-- ==== Sys2Proof/Machine/Firing.lean ====
section
/-! DEFINITION. When firings and runs begin, how their blocks are entered and checked, and how trap records reach the threads that
handle them (spec 01 R15, R20; 05 R99 to R101; 08 R158; 09 R177 to R186; 20 R362, R365; 21 R369; 22 R400, R401; 23 R409; 27
R470). -/
namespace Sys2Proof.Machine

/-! ### The firing rule (09 R177 to R179) -/

/-- What an inbound port holds that can be delivered, in order, with what each is delivered as. -/
def State.portItems (s : State) (p : InPort) : List (Nat × Record) :=
  match p.src with
  | .queue q => match s.queue? q with
    | some x => x.ready.map fun h => (h.serial, x.deliver h)
    | none => []
  | .link q => match Tab.get? s.fab.links q with
    | some l => l.slots.map fun h => (h.serial, l.deliver h)
    | none => []

/-- An agent's ports with what each holds behind the entries of its firings in progress. -/
def State.portsOf (s : State) (g : Agent) : List (InPort × List (Nat × Record)) :=
  let firings := g.older.map Prod.fst ++ g.firing.toList ++ g.younger.map Prod.fst
  g.ins.map fun p =>
    let taken := (firings.flatMap Firing.delivered).flatMap fun d => if d.port == p.n then d.serials else []
    (p, (s.portItems p).filter fun e => !taken.contains e.1)

/-- A port holds its count of entries ahead of any control token or CFG record. -/
def portReady (e : InPort × List (Nat × Record)) : Bool :=
  let xs := e.2.take e.1.count
  xs.length == e.1.count && xs.all fun x => !isControlKind x.2.kind && x.2.kind != kCFG

/-- The control token at a port's head, which takes part in a control firing; a DRAIN only where every head is DRAIN. -/
def controlHead (allDrain : Bool) (e : InPort × List (Nat × Record)) : Option (Nat × Record) :=
  match e.2.head? with
  | some x => if isControlKind x.2.kind && (x.2.kind != kDRAIN || allDrain) then some x else none
  | none => none

/-- Every port has DRAIN at its head. -/
def allDrain (ps : List (InPort × List (Nat × Record))) : Bool :=
  !ps.isEmpty && ps.all fun e => match e.2.head? with
    | some x => x.2.kind == kDRAIN
    | none => false

/-- What a control firing would deliver. -/
def controlHeads (ps : List (InPort × List (Nat × Record))) : List Delivered :=
  ps.filterMap fun e => (controlHead (allDrain ps) e).map fun x => ⟨e.1.n, [x.2], [x.1], true⟩

/-- What a data firing would deliver. -/
def dataEntries (ps : List (InPort × List (Nat × Record))) : List Delivered :=
  ps.map fun e => let xs := e.2.take e.1.count; ⟨e.1.n, xs.map Prod.snd, xs.map Prod.fst, false⟩

/-- A control firing is possible; else a data firing (09 R178). An actor with no inbound port has the rule always. -/
def State.canControl (s : State) (g : Agent) : Bool := !(controlHeads (s.portsOf g)).isEmpty
def State.canData (s : State) (g : Agent) : Bool := !s.canControl g && (s.portsOf g).all portReady

/-- A pipe actor whose block has been entered may overlap a further firing, unless the block holds `skip` (09 R180). -/
def Agent.overlaps (g : Agent) : Bool := g.mode == .pipe && g.phase == .running && (match g.block with
  | some b => !(b.code.any fun ws => (Ins.ofWords ws).any fun i => i.op == 0x87)
  | none => false)

/-- What may hold an actor back beside its entries: its region, a firing in progress, its pace, the one firing of an actor with no
inbound port, a drain (21 R369), a CFG run that waits for it (21 R380), and a step of its die's clock (26 R467). -/
def State.mayFire (s : State) (a : Aid) (g : Agent) : Bool :=
  s.agentAlive a && !a.isThread && (g.firing.isNone || g.overlaps) && (Tab.get? s.fab.waves a).isNone && (g.pace.isNone || g.paceDue) &&
  (!g.ins.isEmpty || ((g.pace.isSome || !g.firedOnce) && !(match a.rid with
    | some rid => s.draining rid
    | none => false))) &&
  (Tab.getD s.out.power.dies g.die ⟨0, 0, 0, none, 0⟩).pauseUntil ≤ s.clk.tick

/-- An actor is ready: its firing rule holds and nothing holds it back. -/
def State.ready (s : State) (a : Aid) (g : Agent) : Bool := s.mayFire a g && (s.canControl g || s.canData g)

/-- Actors of the same CU. -/
def cuMates (a : Aid) (g : Agent) (b : Aid) (k : Agent) : Bool :=
  a != b && a.rid == b.rid && k.row == g.row && k.col == g.col && k.cu == g.cu

/-- Of two ready actors of one CU, the one whose rule has held longer starts first, and then the lower slot (20 R362). Actors of one CU
have one launch, and so one priority. -/
def Agent.firesBefore (k g : Agent) : Bool := match k.readySince, g.readySince with
  | some x, some y => x < y || (x == y && k.slot < g.slot)
  | some _, none => true
  | none, some _ => false
  | none, none => k.slot < g.slot

/-- A CU chooses an actor for its next firing (09 R186, 20 R362). -/
def State.chosen (s : State) (a : Aid) (g : Agent) : Bool :=
  !(s.agents.any fun e => cuMates a g e.1 e.2 && s.ready e.1 e.2 && e.2.firesBefore g)

/-- Notes since which cycle of its die each actor's firing rule has held (20 R362). What else holds a firing back does not matter to that. -/
def State.noteReady (s : State) : State :=
  let note := fun (e : Aid × Agent) =>
    let now := if !e.1.isThread && (s.canControl e.2 || s.canData e.2) then some (e.2.readySince.getD (s.clk.dieCycle e.2.die)) else none
    if now = e.2.readySince then e else (e.1, { e.2 with readySince := now })
  { s with agents := s.agents.map note }

/-! ### Starting a firing (09 R177, R178, R180, R186) -/

/-- A firing begins with what it is delivered. -/
def State.beginFiring (s : State) (a : Aid) (control : Bool) (ds : List Delivered) : State :=
  let follows := ds.foldl (fun xs d => d.entries.foldl (fun ys r => unionDep ys r.sr) xs) []
  let s := (s.updAgent a Agent.makeRoom).updAgent a fun g => { g with
    readySince := none
    firing := some ⟨control, ds, [], s.clk.tick, false, [], [], follows, []⟩
    phase := .entering g.entry
    paceDue := false
    firedOnce := true }
  match s.agent? a with
  | some g => let s := s.countAt g 0x10; if control then s.countAt g 0x11 else s
  | none => s

/-- FIRING_START (09 R177): a data firing of a ready actor. -/
def execFiringStart (a : Aid) (s : State) : Host.Outcome State Fault Refusal :=
  .next (match s.agent? a with
    | some g => if s.mayFire a g && s.canData g && s.chosen a g then s.beginFiring a false (dataEntries (s.portsOf g)) else s
    | none => s)

/-- CONTROL_FIRING (09 R178): the control tokens at the heads are delivered. -/
def execControlFiring (a : Aid) (s : State) : Host.Outcome State Fault Refusal :=
  .next (match s.agent? a with
    | some g => if s.mayFire a g && s.canControl g && s.chosen a g then s.beginFiring a true (controlHeads (s.portsOf g)) else s
    | none => s)

/-- The first pace point after a tick. -/
def nextPacePoint (next period now : Nat) : Nat := if next > now then next else next + (now - next) / period * period + period

/-- PACE_POINT (09 R181): a pace point has come; a firing is due if the rule holds or there is no inbound port. -/
def execPacePoint (a : Aid) (s : State) : Host.Outcome State Fault Refusal :=
  .next (match s.agent? a with
    | some g =>
      match g.pace with
      | some p =>
        if !s.agentAlive a || s.clk.tick < g.nextPace || p = 0 then s
        else
          let holds := g.ins.isEmpty || s.canControl g || s.canData g
          s.updAgent a fun g => { g with
            nextPace := nextPacePoint g.nextPace p s.clk.tick
            paceDue := g.paceDue || holds }
      | none => s
    | none => s)

/-! ### Runs of service threads (01 R20, 27 R470) -/

/-- The call that a queue's entry belongs to. -/
def State.callAt (s : State) (d t serial : Nat) : Option Call :=
  s.sched.calls.find? fun c => c.thread == .thread d t && c.serial == serial

/-- RUN_BEGIN (01 R20): an idle thread with an entry in its call queue begins a run at the block of `CQENTRY`, as the thread its
`CQCTL` describes now. A trap record that the run takes is unhandled no longer (22 R401). -/
def execRunBegin (die t : Nat) (s : State) : Host.Outcome State Fault Refusal :=
  .next (
    let a := Aid.thread die t
    let k := s.threadCtl die t
    match s.agent? a, (s.callQueue die t).ready with
    | some g, h :: _ =>
      if g.firing.isSome || !k.en || !(s.context k.ctx).live || !s.dieServes die then s
      else
        let q := s.callQueue die t
        let r := q.deliver h
        let call := (s.callAt die t h.serial).map (·.id)
        let s := s.updAgent a fun g => { g with
          mode := .seq
          level := k.level
          ctx := k.ctx
          runInc := (s.context k.ctx).incnext
          call := call
          firing := some ⟨false, [⟨0, [r], [h.serial], false⟩], [], s.clk.tick, false, [], [], r.sr, []⟩
          phase := .entering k.entry }
        let takes := fun (e : TrapEntry) => if e.at_ == some (.call die t, h.serial) then { e with taken := true } else e
        s.updSched fun x => { x with traps := x.traps.map takes }
    | _, _ => s)

/-- SWAIT_WAKE (23 R409): a waiting `swait` fires once the call queue holds two entries or its deadline has come. -/
def execSwaitWake (a : Aid) (s : State) : Host.Outcome State Fault Refusal :=
  .next (match a with
    | .thread d t =>
      let held := (s.callQueue d t).items.length
      (s.due a 0xD2 (decide (held ≥ 2))).foldl (fun s e => s.wake a held e) s
    | .actor .. => s)

/-! ### Entering a block (05 R99 to R101; 08 R158; 09 R185) -/

/-- The words of an actor's code image from an address. -/
def Agent.codeWords (g : Agent) (addr n : Nat) : Option (List Word) :=
  (List.range n).mapM fun j => Tab.get? g.code (addr + 4 * j)

/-- Bytes fetched for execution: each piece is translated and read at its home; the first failure gives its cause and VA. -/
def State.fetch (s : State) (a : Aid) (va n : Nat) : State × Except (Nat × Nat) (List Byte) :=
  match s.accesses a needFetch (linePieces 24 va n) with
  | (s, .error e) => (s, .error e)
  | (s, .ok xs) => xs.foldl (fun (acc : State × Except (Nat × Nat) (List Byte)) x =>
      match acc with
      | (s, .error e) => (s, .error e)
      | (s, .ok bs) =>
        if x.mt = 2 then let (v, s) := s.free; (s, .ok (bs ++ natBytes x.len v.toNat))
        else if s.accessUe x then (s.ueMet x, .error (cMEMORY_UE, x.va))
        else let s := (s.recallRange x.pa x.len).corrected x.pa; (s, .ok (bs ++ s.homeBytes x.pa x.len))) (s, .ok [])

/-- Little-endian words of a byte string. -/
def wordsOf : Nat → List Byte → List Word
  | 0, _ => []
  | n + 1, bs => BitVec.ofNat 32 (bytesNat (bs.take 4)) :: wordsOf n (bs.drop 4)

/-- The four words of a header. -/
def headerOf (ws : List Word) : BitVec 128 := BitVec.ofNat 128 (sumNat ((ws.take 4).zipIdx.map fun e => e.1.toNat * 2 ^ (32 * e.2)))

/-- What a block's entry reads: its header and its words, or the cause and VA of a fault. A thread's words are fetched before the header
is judged (log 55). -/
def State.blockWords (s : State) (a : Aid) (g : Agent) (addr : Nat) : State × Except (Nat × Nat) (BitVec 128 × List Word) :=
  if addr % 16 != 0 then (s, .error (cHEADER, 0))
  else
    match a with
    | .thread _ _ =>
      match s.fetch a addr 16 with
      | (s, .error e) => (s, .error e)
      | (s, .ok bs) =>
        let h := headerOf (wordsOf 4 bs)
        let n := hdrField h 13 8
        match s.fetch a (wrap 64 (addr + 16 : Nat)) (4 * n) with
        | (s, .error e) => (s, .error e)
        | (s, .ok bs) => (s, .ok (h, wordsOf n bs))
    | .actor .. =>
      if !g.starts.contains addr then (s, .error (cHEADER, 0))
      else
        match g.codeWords addr 4 with
        | none => (s, .error (cHEADER, 0))
        | some hs =>
          let h := headerOf hs
          match g.codeWords (addr + 16) (hdrField h 13 8) with
          | some ws => (s, .ok (h, ws))
          | none => (s, .error (cHEADER, 0))

/-- The block in progress of an agent: a fresh one. -/
def Block.enter (addr : Nat) (h : BitVec 128) (code : List (List Word)) (noTrap : Bool) (before : List Nat) (cycle : Nat) : Block :=
  ⟨addr, h, code, [], [], [], [], fNone, [], noTrap, false, [], if h.getLsbD 47 then before else [], cycle⟩

/-- The block enters its CU's window of 128 entries now: it fits, and no block has waited longer (09 R185). -/
def State.windowAdmits (s : State) (a : Aid) (g : Agent) (n : Nat) : Bool :=
  let others := s.agents.filter fun e => cuMates a g e.1 e.2 && e.2.mode == .win
  let used := sumNat (others.map fun e => match e.2.block with
    | some b => b.code.length
    | none => 0)
  let earlier := others.any fun e => match e.2.waitSince, g.waitSince with
    | some x, some y => decide (x < y)
    | some _, none => true
    | none, _ => false
  g.mode != .win || (used + n ≤ 128 && !earlier)

/-- BLOCK_ENTRY (09 R185): a block that has room in the window is checked and entered; a fault there is precise at the block (05
R100). -/
def execBlockEntry (a : Aid) (s : State) : Host.Outcome State Fault Refusal :=
  .next (match s.agent? a with
    | none => s
    | some g =>
      let go : Option (Nat × Bool) := match g.phase with
        | .entering addr => some (addr, false)
        | .resuming addr noTrap => some (addr, noTrap)
        | _ => none
      match go with
      | none => s
      | some (addr, noTrap) =>
        if !s.agentAlive a || !s.threadReady a g then s
        else
          match s.blockWords a g addr with
          | (s, .error (cause, va)) => s.takeTrap a cause 0xFFFF addr va 0
          | (s, .ok (h, words)) =>
            if !s.windowAdmits a g (hdrField h 6 7 + 1) then
              s.updAgent a fun g => { g with waitSince := g.waitSince.orElse fun _ => some (s.clk.dieCycle g.die) }
            else
              let before := (g.firing.map (·.lastBlock)).getD []
              match checkBlock (s.nodeOf a g) h words with
              | .ok code =>
                s.updAgent a fun g => { g with
                  block := some (Block.enter addr h code noTrap before (s.clk.dieCycle g.die))
                  phase := .running
                  waitSince := none }
              | .error (cause, idx) =>
                let code := (splitWords (words.length + 1) words).getD []
                let b := Block.enter addr h code noTrap before (s.clk.dieCycle g.die)
                let s := s.updAgent a fun g => { g with block := some b, phase := .running, waitSince := none }
                s.takeTrap a cause idx addr 0 (if idx = 0xFFFF then 0 else b.word0 idx))

/-! ### Delivery of trap records (22 R400) -/

/-- The owning context of a partition's management fault thread, whose tables translate the partition's rings (log 27). -/
def State.managementCtx (s : State) (p : Nat) : Nat := (s.threadCtl (s.partition p).mfdie (s.partition p).mfthr).ctx

/-- A record in the host fault ring, with its vector (23 R411). -/
def State.hostFault (s : State) (p : Nat) (payload : Vec) : State :=
  let x := s.partition p
  let va := x.phfbase + 64 * (x.hfwr % 2 ^ x.phfslots)
  let (s, _) := s.deviceWrite (8 * x.first) (s.managementCtx p) va (natBytes 64 payload.toNat)
  (s.updPartition p fun x => { x with hfwr := x.hfwr + 1 }).raiseVector none x.hfvec

/-- The record leaves the list once delivered, unless its firing waits for `eret`: then it is known by the entry that holds it. -/
def State.markDelivered (s : State) (e : TrapEntry) (at_ : Option (Qid × Nat) := none) : State :=
  let mark := fun (f : TrapEntry) => if f.id = e.id then { f with delivered := true, at_ := at_ } else f
  s.updSched fun x => { x with
    traps := if e.who.isSome then x.traps.map mark else x.traps.filter fun f => f.id != e.id }

/-- TRAP_DELIVERY (22 R400): a record is put into its fault thread's call queue, or the host fault ring. A synchronous,
configuration or management record passes the shear and waits until the queue has room; an asynchronous one is judged. A die of another
partition refuses it (21 R386). -/
def execTrapDelivery (i : Nat) (s : State) : Host.Outcome State Fault Refusal :=
  .next (match s.sched.traps.find? fun e => e.id == i && !e.delivered with
    | none => s
    | some e =>
      let p := s.partOf e.trap.ctx
      let x := s.partition p
      let c := s.context e.trap.ctx
      if e.host || x.fnmode.testBit 3 then (s.hostFault p e.trap.payload).markDelivered e
      else
        let (d, t) := if e.management then (x.mfdie, x.mfthr) else (c.fdie, c.fthr)
        let r := Record.data e.trap.payload (s.clk.tick % 2 ^ 32) false []
        if s.refuses e.trap.die d then (s.refuse d).markDelivered e
        else if e.trap.tflags % 2 = 1 && !e.management then
          match s.arriveAt (.call d t) r with
          | (s, .kept) => s.markDelivered e
          | (s, _) => (s.count d none 0x51).markDelivered e
        else if (s.callQueue d t).free ≥ 8 then
          (s.updQueue (.call d t) fun q => q.bypass r).markDelivered e (some (.call d t, (s.callQueue d t).nextSerial))
        else s)

end Sys2Proof.Machine
end

