-- ==== Sys2Proof/Machine/Place.lean ====
section
/-! DEFINITION. The configuration of a graph on a region: its checks, its installation, bank tags and lazy saves, and the
resumption of an image (spec 05 R95, R100; 09 R173 to R176, R182, R187, R191 to R195, R486; 10 R198 to R200, R213; 14 R286; 20 R357;
21 R376 to R378, R382; 24 R436). -/
namespace Sys2Proof

/-- A queue of a graph under the launch that it is placed for; the text request queue is that of the context. -/
def Qid.at (rid ctx : Nat) : Qid → Qid
  | .mu _ a b c d => .mu rid a b c d
  | .port _ a b c d e => .port rid a b c d e
  | .node _ a b c d => .node rid a b c d
  | .text _ => .text ctx
  | .call d t => .call d t

/-- The MU that a queue lives in, by row, column and number. -/
def Qid.mu? : Qid → Option (Nat × Nat × Nat)
  | .mu _ y x m _ => some (y, x, m)
  | _ => none

/-- A node of a graph under a launch. -/
def Nid.at (rid : Nat) (n : Nid) : Nid := { n with rid := rid }

/-- An actor of a graph under a launch. -/
def Aid.at (rid : Nat) : Aid → Aid
  | .actor _ a b c d => .actor rid a b c d
  | .thread d t => .thread d t

end Sys2Proof

namespace Sys2Proof.Machine

/-! ### Renaming -/

def InSource.at (rid ctx : Nat) : InSource → InSource
  | .queue q => .queue (q.at rid ctx)
  | .link q => .link (q.at rid ctx)

def OutDest.at (rid ctx : Nat) : OutDest → OutDest
  | .stream p q => .stream (p.at rid ctx) (q.at rid ctx)
  | .link q => .link (q.at rid ctx)
  | .join n arc => .join (n.at rid) arc

def InPort.at (rid ctx : Nat) (p : InPort) : InPort := { p with src := p.src.at rid ctx }
def OutPort.at (rid ctx : Nat) (p : OutPort) : OutPort := { p with dst := p.dst.at rid ctx }

/-- The queue id of a queue of a placed region (03 R53). The source-side queue of a node that is no actor has the number of the node's
unit, modulo 4, and its index (log 55). -/
def Region.queueId (r : Region) : Qid → Nat
  | .mu _ row col mu idx => let (d, v) := r.quad row col; d * 2 ^ 26 + v * 2 ^ 17 + mu * 2 ^ 14 + idx
  | .port _ row col cu _ port => let (d, v) := r.quad row col; d * 2 ^ 26 + v * 2 ^ 17 + (4 + cu) * 2 ^ 14 + port
  | .node _ row col unit idx => let (d, v) := r.quad row col; d * 2 ^ 26 + v * 2 ^ 17 + unit % 4 * 2 ^ 14 + idx
  | .call d t => d * 2 ^ 26 + 0x1FF * 2 ^ 17 + t
  | .text ctx => 0x1FF * 2 ^ 17 + 2 ^ 14 + ctx

/-! ### The checks of a configuration (09 R174) -/

/-- A node that fails: its cause and place, and of a pipe block its id, the instruction with its first word, and its address. -/
structure ConfigFault where
  cause : Nat
  row : Nat
  col : Nat
  cu : Nat
  slot : Nat
  bid : Nat
  iidx : Nat
  word : Nat
  baddr : Nat
  deriving DecidableEq, Repr

/-- A failure that names no instruction, at a place: row, column, unit and slot. -/
def failureAt (cause row col cu slot : Nat) : ConfigFault := ⟨cause, row, col, cu, slot, 0, 0xFFFF, 0, 0⟩

/-- A failure of placement of a graph as a whole. -/
def placementFault : ConfigFault := failureAt cPLACEMENT 0 0 0 0

/-- A failure of placement of an actor, of a queue or of another node. -/
def GActor.failure (a : GActor) : ConfigFault := failureAt cPLACEMENT a.row a.col a.cu a.slot
def Qid.failure : Qid → ConfigFault
  | .mu _ y x u _ | .node _ y x u _ => failureAt cPLACEMENT y x u 0
  | .port _ y x cu slot _ => failureAt cPLACEMENT y x cu slot
  | .call _ _ | .text _ => placementFault
def Nid.failure (n : Nid) : ConfigFault := failureAt cPLACEMENT n.row n.col n.unit 0

/-- Every element of a list differs from the others. -/
def distinct {α : Type} [DecidableEq α] : List α → Bool
  | [] => true
  | x :: xs => !xs.contains x && distinct xs

/-- A queue lies inside a region's shape. -/
def Qid.inShape (h w : Nat) : Qid → Bool
  | .mu _ y x mu _ => y < h && x < w && mu < 4
  | .port _ y x cu slot _ => y < h && x < w && cu < 4 && slot < 4
  | .node _ y x _ _ => y < h && x < w
  | .text _ => true
  | .call _ _ => false

/-- A node lies inside a region's shape. -/
def Nid.inShape (h w : Nat) (n : Nid) : Bool := n.row < h && n.col < w && n.unit < 6

/-- Every node lies in the region (09 R486). -/
def Graph.inShape (g : Graph) (h w : Nat) : Bool :=
  g.actors.all (fun a => a.row < h && a.col < w && a.cu < 4 && a.slot < 4) &&
  (Tab.keys g.queues).all (Qid.inShape h w) && (Tab.keys g.links).all (Qid.inShape h w) &&
  g.banks.all (fun b => b.1 < h && b.2.1 < w && b.2.2.1 < 4) &&
  (Tab.keys g.joins ++ Tab.keys g.gens ++ Tab.keys g.windows ++ Tab.keys g.haccs ++ Tab.keys g.sinks ++ Tab.keys g.mes ++
    Tab.keys g.agens).all (Nid.inShape h w)

/-- The actors of the CU that an actor stands on. -/
def Graph.onCu (g : Graph) (a : GActor) : List GActor := g.actors.filter fun b => b.row == a.row && b.col == a.col && b.cu == a.cu

/-- One pipe actor or up to four win actors a CU (09 R173); code, delay lines and pace (R181, R187); port numbers and counts
(R176). -/
def Graph.actorOk (g : Graph) (a : GActor) : Bool :=
  let cu := g.onCu a
  let depth := fun (b : GActor) => sumNat (b.delay.map fun d => d.2.length)
  distinct (cu.map (·.slot)) &&
  (match a.mode with
   | .pipe => cu.length == 1
   | .win => cu.length ≤ 4 && cu.all fun b => b.mode == .win
   | .seq => false) &&
  sumNat (cu.map fun b => 4 * b.code.length) ≤ 16384 && sumNat (cu.map depth) ≤ 128 &&
  a.delay.all (fun d => 64 ≤ d.1 && d.1 < 72 && 1 ≤ d.2.length && d.2.length ≤ 16) && distinct (Tab.keys a.delay) &&
  (match a.pace with
   | some p => 1 ≤ p && p < 2 ^ 32
   | none => true) &&
  distinct (a.ins.map (·.n)) && distinct (a.outs.map (·.n)) &&
  a.ins.all (fun p => p.n < 8 && 1 ≤ p.count && p.count ≤ (match p.src with
    | .queue _ => 16
    | .link _ => 2)) &&
  a.outs.all fun p => 8 ≤ p.n && p.n < 16 && (match p.time with
    | .tick s => decide (s ≤ 32)
    | _ => true)

/-- The bank groups of one MU (09 R175). -/
def groupsOk (gs : List BankGroup) : Bool :=
  let banks := gs.flatMap fun b => (List.range b.count).map (b.first + ·)
  distinct banks && gs.all (fun b => 1 ≤ b.count && b.first + b.count ≤ 8 && (match b.mode with
    | .hacc => (b.first == 0 || b.first == 4) && b.count == 4
    | .gen => b.count == 1
    | .stash | .window => b.count ≥ 2
    | _ => true)) && gs.countP (fun b => b.mode == .hacc) ≤ 1

/-- The groups of the MU that an entry names. -/
def Graph.groupsOf (g : Graph) (b : Nat × Nat × Nat × BankGroup) : List BankGroup :=
  (g.banks.filter fun c => c.1 == b.1 && c.2.1 == b.2.1 && c.2.2.1 == b.2.2.1).map (·.2.2.2)

/-- A node stands in a group of a mode (09 R173). -/
def Graph.hasGroup (g : Graph) (n : Nid) (m : BankMode) : Bool :=
  g.banks.any fun b => b.1 == n.row && b.2.1 == n.col && b.2.2.1 == n.unit && b.2.2.2.first == n.idx && b.2.2.2.mode == m

/-- The storage of a queue in bytes (10 R198). -/
def QDesc.bytes (d : QDesc) : Nat := (80 * d.cap + 720 + (if d.pol = 3 then 2 * 2 ^ d.khash else 0) + 63) / 64 * 64

/-- The MUs in whose groups a sink-side queue with a consumer may live: the paired MU of an actor's CU, the MU that holds a node, and any
MU of an ME's quad, for which the spec names none (10 R198). -/
def Graph.consumerMus (g : Graph) (q : Qid) : List (Nat × Nat × Nat) :=
  let at_ := fun (n : Nid) => if n.unit < 4 then [(n.row, n.col, n.unit)] else (List.range 4).map fun k => (n.row, n.col, k)
  (g.actors.filter fun a => a.ins.any fun p => p.src == .queue q).map (fun a => (a.row, a.col, a.cu)) ++
    (g.windows.filter fun e => e.2.ins.contains q).flatMap (fun e => at_ e.1) ++
    (g.mes.filter fun e => e.2.inn == some q).flatMap (fun e => at_ e.1) ++
    (g.agens.filter fun e => e.2.port == some q).flatMap (fun e => at_ e.1)

/-- The nodes that are no actors and put into a stream, with what they put into. -/
def Graph.nodeOuts (g : Graph) : List (Nid × OutDest) :=
  g.gens.map (fun e => (e.1, e.2.out)) ++ g.windows.filterMap (fun e => e.2.out.map fun d => (e.1, d)) ++
    g.haccs.filterMap (fun e => e.2.out.map fun d => (e.1, d)) ++ g.mes.filterMap (fun e => e.2.out.map fun d => (e.1, d)) ++
    g.joins.flatMap fun e => e.2.release.map fun d => (e.1, d)

/-- The MUs of what puts into a stream (10 R198), by a test for its destination. -/
def Graph.producerMus (g : Graph) (feeds : OutDest → Bool) : List (Nat × Nat × Nat) :=
  (g.actors.filter fun a => a.outs.any fun p => feeds p.dst).map (fun a => (a.row, a.col, a.cu)) ++
    (g.nodeOuts.filter fun e => feeds e.2).flatMap fun e =>
      if e.1.unit < 4 then [(e.1.row, e.1.col, e.1.unit)] else (List.range 4).map fun k => (e.1.row, e.1.col, k)

/-- A queue in an MU lives in the right one: that of its stream's consumer, or of its producer where it is a source-side queue or its
stream leaves the region. -/
def Graph.rightMu (g : Graph) (q : Qid) : Bool := match q.mu? with
  | none => true
  | some m =>
    let sinkSide := (g.streams.filter fun e => e.2 == q).isEmpty == false
    let leaves := g.exits.contains q || g.texts.contains q
    if (Tab.get? g.streams q).isSome then (g.producerMus fun d => match d with
      | .stream a _ => a == q
      | _ => false).contains m
    else if sinkSide && leaves then (g.producerMus fun d => match d with
      | .stream _ b => b == q
      | _ => false).contains m
    else (g.consumerMus q).contains m

/-- A source-side queue that lives in a port lives in the one that feeds it. -/
def Graph.rightPort (g : Graph) (q : Qid) : Bool := match q with
  | .port _ y x cu slot n => g.actors.any fun a => a.row == y && a.col == x && a.cu == cu && a.slot == slot && a.outs.any fun p =>
      p.n == n && (match p.dst with
        | .stream a _ => a == q
        | _ => false)
  | .node _ y x u i => g.nodeOuts.any fun e => e.1.row == y && e.1.col == x && e.1.unit == u && e.1.idx == i && (match e.2 with
      | .stream a _ => a == q
      | _ => false)
  | _ => true

/-- The descriptor is accepted, and its queue has a home that holds it with those that share it (10 R198, R200): a group of the same
banks in the MUs of its span, which no queue of another span shares. -/
def Graph.queueOk (g : Graph) (q : Qid) (d : QDesc) : Bool :=
  d.ok q.rejectOk && d.cap ≤ 4096 && g.rightMu q && g.rightPort q &&
  match q with
  | .mu _ y x mu _ =>
    (match Tab.get? g.homes q with
     | none => false
     | some (first, span) =>
       let base := mu - mu % span
       let shares := fun (e : Qid × QDesc) => match e.1 with
         | .mu _ y' x' mu' _ => y' == y && x' == x && mu' - mu' % span == base && Tab.get? g.homes e.1 == some (first, span)
         | _ => false
       let clashes := fun (e : Qid × QDesc) => match e.1, Tab.get? g.homes e.1 with
         | .mu _ y' x' mu' _, some (first', span') =>
           y' == y && x' == x && first' == first && span' != span && mu' - mu' % max span span' == mu - mu % max span span'
         | _, _ => false
       let counts := (List.range span).map fun j =>
         ((g.banks.find? fun b => b.1 == y && b.2.1 == x && b.2.2.1 == base + j && b.2.2.2.first == first &&
           b.2.2.2.mode == .queue).map fun b => b.2.2.2.count).getD 0
       (span == 1 || span == 2 || span == 4) && counts.all (fun n => n != 0 && n == counts.headD 0) && !(g.queues.any clashes) &&
       sumNat ((g.queues.filter shares).map fun e => e.2.bytes) ≤ sumNat counts * 2 ^ 14)
  | .port .. | .node .. => d.cap ≤ 16
  | .text _ => d.pol != 4 && d.pol != 5 && d.cap ≤ 256
  | .call _ _ => false

/-- The cell of a CU in the region's felt: column and row (02 R25). -/
def cuCell (row col cu : Nat) : Nat × Nat := (2 * col + cu % 2, 4 * row + cu)

/-- Two cells differ by at most one column and one row. -/
def adjacent (a b : Nat × Nat) : Bool := a.1 ≤ b.1 + 1 && b.1 ≤ a.1 + 1 && a.2 ≤ b.2 + 1 && b.2 ≤ a.2 + 1 && a != b

/-- The outbound port that feeds a link. -/
def Graph.linkFrom (g : Graph) (q : Qid) : Option (GActor × OutPort) :=
  g.actors.findSome? fun a => (a.outs.find? fun p => p.dst == .link q).map fun p => (a, p)

/-- A link's policy, and the places of its two ends, of which it has one each (09 R191). -/
def Graph.linkOk (g : Graph) (q : Qid) (policy : Nat) : Bool :=
  policy < 3 && sumNat (g.actors.map fun a => a.outs.countP fun p => p.dst == .link q) == 1 &&
  sumNat (g.actors.map fun a => a.ins.countP fun p => p.src == .link q) == 1 &&
  match g.linkFrom q, g.actors.find? fun a => a.ins.any fun p => p.src == .link q with
  | some (a, _), some b => adjacent (cuCell a.row a.col a.cu) (cuCell b.row b.col b.cu)
  | _, _ => false

/-- The sink-side queues that the inbound ports of actors read. -/
def Graph.actorReads (g : Graph) : List Qid := g.actors.flatMap fun a => a.ins.filterMap fun p => match p.src with
  | .queue q => some q
  | .link _ => none

/-- The sink-side queues that other nodes read. -/
def Graph.nodeReads (g : Graph) : List Qid :=
  g.windows.flatMap (·.2.ins) ++ g.mes.filterMap (·.2.inn) ++ g.agens.filterMap (·.2.port)

/-- What actors and other nodes put into. -/
def Graph.puts (g : Graph) : List OutDest := g.actors.flatMap (fun a => a.outs.map (·.dst)) ++ g.nodeOuts.map Prod.snd

/-- A queue that a port or a node's input reads: one stream feeds it, and nothing else reads it (09 R176). -/
def Graph.inputOk (g : Graph) (q : Qid) : Bool :=
  (g.actorReads ++ g.nodeReads).countP (· == q) == 1 && (match q with
    | .text _ => g.fromText
    | q => (Tab.get? g.queues q).isSome && (g.streams.countP fun e => e.2 == q) == 1)

/-- What an outbound port or a node's output puts into: one stream, link or arc that nothing else feeds (09 R176, R191, R193). -/
def Graph.outputOk (g : Graph) (d : OutDest) : Bool :=
  g.puts.countP (· == d) == 1 && (match d with
    | .stream src dst => Tab.get? g.streams src == some dst && (Tab.get? g.queues src).isSome && (Tab.get? g.queues dst).isSome
    | .link q => (Tab.get? g.links q).isSome
    | .join n arc => match Tab.get? g.joins n with
      | some j => arc < j.counts.length
      | none => false)

/-- Every inbound port of an actor is fed, and every outbound port feeds something, each by itself. -/
def Graph.portsOk (g : Graph) (a : GActor) : Bool :=
  a.ins.all (fun p => match p.src with
    | .queue q => g.inputOk q
    | .link q => (Tab.get? g.links q).isSome) &&
  a.outs.all fun p => g.outputOk p.dst

/-- The nodes that are no actors read and feed what they alone do. -/
def Graph.nodesFed (g : Graph) : Bool := g.nodeReads.all g.inputOk && g.nodeOuts.all fun e => g.outputOk e.2

/-- A join: in its quad's router, which holds up to four. An outbound port feeds each control arc, and each release arc leads to an inbound
port (09 R173, R193). -/
def Graph.joinOk (g : Graph) (n : Nid) (j : Join) : Bool :=
  2 ≤ j.counts.length && j.counts.length ≤ 16 && j.release.length == j.counts.length && n.unit == 5 && n.idx < 4 &&
  (g.joins.countP fun e => e.1.row == n.row && e.1.col == n.col) ≤ 4 &&
  (List.range j.counts.length).all (fun k => g.actors.any fun a => a.outs.any fun p => p.dst == .join n k) &&
  j.release.all fun d => match d with
    | .stream _ q => g.actorReads.contains q
    | .link _ | .join _ _ => false

/-- A window node: in a group of as many banks as it says, from 2 to 8 (10 R213). -/
def Graph.windowOk (g : Graph) (n : Nid) (w : Window) : Bool :=
  w.W ≥ 1 && w.W < 2 ^ 32 && g.hasGroup n .window && 2 ≤ w.banks && w.banks ≤ 8 &&
  g.banks.any (fun b => b.1 == n.row && b.2.1 == n.col && b.2.2.1 == n.unit && b.2.2.2.first == n.idx && b.2.2.2.count == w.banks) &&
  (match w.fn with
   | .agg _ _ _ => 1 ≤ w.ins.length && w.ins.length ≤ 8
   | .join _ => w.ins.length == 2)

/-- An ME: one in its quad, owned by an actor of the quad (14 R286). -/
def Graph.meOk (g : Graph) (n : Nid) (m : Me) : Bool :=
  n.unit == 4 && (g.mes.countP fun f => f.1.row == n.row && f.1.col == n.col) == 1 && (match m.owner with
    | .actor _ y x cu slot => y == n.row && x == n.col && g.actors.any fun a => a.row == y && a.col == x && a.cu == cu && a.slot == slot
    | .thread _ _ => false)

/-- The first entry of a table that fails a check. -/
def failing {α : Type} (t : Tab Nid α) (ok : Nid → α → Bool) : Option ConfigFault :=
  (t.find? fun e => !ok e.1 e.2).map fun e => Nid.failure e.1

/-- The first of the nodes that are not actors to fail (09 R173, R193; 10 R213, R221; 14 R286). -/
def Graph.nodeFault (g : Graph) : Option ConfigFault :=
  [failing g.joins g.joinOk, failing g.windows g.windowOk, failing g.gens fun n _ => g.hasGroup n .gen,
   (if g.nodesFed then none else some placementFault), failing g.haccs fun n _ => g.hasGroup n .hacc, failing g.agens fun n _ => g.hasGroup n .agen,
   failing g.sinks fun n k => g.exits.contains k.exit && g.hasGroup n .sink, failing g.mes g.meOk].findSome? id

/-- A binding of a launch argument (09 R195). -/
def argOk (nargs : Nat) (b : Nat × Nat) : Bool := b.1 < nargs && 1 ≤ b.2 && b.2 ≤ 31

/-- The node of an actor for the checks of its blocks. -/
def Graph.node (g : Graph) (a : GActor) : Node :=
  ⟨a.mode, .U, false, g.mes.any (fun e => match e.2.owner with
    | .actor _ y x cu slot => y == a.row && x == a.col && cu == a.cu && slot == a.slot
    | .thread _ _ => false), a.ins, a.outs.map (·.n), Tab.keys a.delay⟩

/-- The words of an actor's image from an address. -/
def GActor.words (a : GActor) (addr n : Nat) : Option (List Word) := (List.range n).mapM fun j => Tab.get? a.code (addr + 4 * j)

/-- A pipe actor's block is checked at configuration, with its placement (05 R78, R95, R100; 09 R182). A system instruction has no place in it,
whatever its level (23 R404). DESIGN CHOICE (log 55): the checks of R99 come before that of R95. -/
def Graph.pipeFault (g : Graph) (a : GActor) : Option ConfigFault :=
  if a.mode != .pipe then none
  else
    a.starts.findSome? fun addr =>
      let fail := fun (cause bid idx word : Nat) => some (⟨cause, a.row, a.col, a.cu, a.slot, bid, idx, word, addr⟩ : ConfigFault)
      match if addr % 16 = 0 then a.words addr 4 else none with
      | none => fail cHEADER 0 0xFFFF 0
      | some hs =>
        let h := headerOf hs
        match a.words (addr + 16) (hdrField h 13 8) with
        | none => fail cHEADER 0 0xFFFF 0
        | some ws =>
          match checkBlock { g.node a with level := .M } h ws with
          | .error (cause, idx) =>
            let code := (splitWords (ws.length + 1) ws).getD []
            let word : Nat := match code[idx]? with
              | some (w :: _) => w.toNat
              | _ => 0
            fail cause (if idx = 0xFFFF then 0 else hdrId h) idx word
          | .ok code => if pipeOk a.stmap code then none else fail cPLACEMENT (hdrId h) 0xFFFF 0

/-- The first failure of a configuration, with its place (09 R174); `secondText` that a live launch of the context already holds
`from=text` (24 R436). -/
def Graph.fault (g : Graph) (h w nargs : Nat) (secondText : Bool) : Option ConfigFault :=
  if !g.inShape h w || (g.fromText && secondText) then some placementFault
  else
    [(g.actors.find? fun a => !g.actorOk a).map GActor.failure,
     (g.banks.find? fun b => !groupsOk (g.groupsOf b)).map fun b => failureAt cPLACEMENT b.1 b.2.1 b.2.2.1 0,
     (g.queues.find? fun e => !g.queueOk e.1 e.2).map fun e => Qid.failure e.1,
     (g.links.find? fun e => !g.linkOk e.1 e.2).map fun e => Qid.failure e.1,
     (g.actors.find? fun a => !g.portsOk a).map GActor.failure,
     g.nodeFault,
     (g.actors.find? fun a => a.args.any fun b => !argOk nargs b).map fun a => failureAt cTARGET a.row a.col a.cu a.slot,
     g.actors.findSome? g.pipeFault].findSome? id

/-! ### Banks (21 R377, R378) -/

/-- The written bytes of a bank of the machine. -/
def State.bankCells (s : State) (key : Nat) : List Host.Cell := s.ms.scratch.filter fun c => c.1 / 2 ^ 14 == key

/-- The offset in an image's saved banks of bank `bank` of region-relative MU `mu`. -/
def savedAt (mu bank : Nat) : Nat := mu * 2 ^ 17 + bank * 2 ^ 14

/-- A bank of an image moves into what the device holds of it. -/
def State.keepBank (s : State) (rid key mu bank : Nat) : State :=
  let put := fun (m : List Host.Cell) (c : Host.Cell) => Mem.write m (savedAt mu bank + c.1 % 2 ^ 14) c.2
  s.updRegion rid fun r => { r with saved := (s.bankCells key).foldl put r.saved }

/-- A line is one of a bank. -/
def inBank (key line : Nat) : Bool := line * 64 ≥ 2 ^ 55 && (line * 64 - 2 ^ 55) / 2 ^ 14 == key

/-- The cause of a save write that fails, if a value that the spec leaves open says that it does: the spec does not say where the device
keeps the image that it writes (log 28). -/
def saveCause (x : Nat) : Option Nat := [none, some cNOT_PRESENT, some cPERMISSION, some cMEMORY_UE].getD (x % 4) none

/-- A bank that an image left resident is saved with it before another configuration takes it. A save that fails spoils the bank, and the
cause goes to the owner context's fault thread; an uncorrectable error is counted against the quad too (26 R446, R453). -/
def State.saveBank (s : State) (key : Nat) : State :=
  match Tab.get? s.sched.tags key with
  | none => s
  | some t =>
    if !t.img then s
    else
      match s.sched.regions.find? fun e => e.2.ctx == t.ctx && e.2.inc == t.inc with
      | none => s
      | some (rid, r) =>
        match r.bankList.find? fun b => b.1 == key with
        | none => s
        | some (_, mu, bank) =>
          let (v, s) := s.free
          let bad := s.ms.ue.any (inBank key)
          match if bad then some cMEMORY_UE else saveCause v.toNat with
          | some cause =>
            let va := bitsAt v.toNat 64 64
            let (die, vq) := r.quad (mu / 4 / r.width) (mu / 4 % r.width)
            let s := if bad then s.quadUe die vq else s
            (s.updRegion rid fun r => { r with spoiled := r.spoiled ++ [(mu, bank, cause, va)] }).asyncRecord
              cause r.ctx r.inc die vq (mu % 4) va
          | none => s.keepBank rid key mu bank

/-- A configuration claims a bank for an owner: what an image left there is saved, and the bank's scratch is empty (log 28), with good
check bits. -/
def State.claimBank (s : State) (ctx inc key : Nat) : State :=
  let s := s.saveBank key
  let s := s.updMs fun m => { m with
    scratch := m.scratch.filter fun c => c.1 / 2 ^ 14 != key
    ue := m.ue.filter fun l => !inBank key l
    ce := m.ce.filter fun l => !inBank key l }
  s.updSched fun x => { x with tags := Tab.set x.tags key ⟨false, ctx, inc⟩ }

/-! ### Installing a graph (09 R173, R195, R196) -/

/-- An actor as it is configured: its arguments bound, its delay lines preloaded, its timestamps no earlier than `ts`. -/
def GActor.agent (a : GActor) (rid ctx inc : Nat) (r : Region) (args : List Nat) (ts : Nat) : Aid × Agent :=
  let (die, vq) := r.quad a.row a.col
  (.actor rid a.row a.col a.cu a.slot, { Agent.blank with
    mode := a.mode
    ctx := ctx
    inc := inc
    die := die
    vq := vq
    cu := a.cu
    slot := a.slot
    row := a.row
    col := a.col
    regs := a.args.map fun b => (b.2, ⟨scal (args.getD b.1 0), []⟩)
    delay := a.delay.map fun d => (d.1, d.2.map fun v => ⟨v, []⟩)
    ins := a.ins.map (InPort.at rid ctx)
    outs := a.outs.map (OutPort.at rid ctx)
    code := a.code
    starts := a.starts
    entry := a.starts.headD 0
    stmap := a.stmap
    pace := a.pace
    pts := ts
    epts := engineKinds.map fun e => (e, ts) })

/-- The stash groups of a graph. -/
def Graph.stashes (g : Graph) (rid : Nat) : Tab Nid Stash :=
  (g.banks.filter fun b => b.2.2.2.mode == .stash).map fun b => (⟨rid, b.1, b.2.1, b.2.2.1, b.2.2.2.first⟩, ⟨0, 0, false, []⟩)

/-- Nodes as they are configured, with nothing in them (04 R67; 09 R193, R194; 10 R213 to R222; 14 R285, R286). -/
def Join.fresh (j : Join) : Join := { j with counts := j.counts.map fun _ => 0, sr := [] }
def Gen.fresh (g : Gen) : Gen := { g with outstanding := 0 }
def Window.fresh (w : Window) : Window := { w with
  marks := List.replicate w.ins.length 0, ended := List.replicate w.ins.length false, opens := [], gaps := [], closed := 0,
  excNext := false, finished := false }
def Hacc.fresh (h : Hacc) : Hacc := { h with entries := [], ring := .empty, lost := .empty, faulted := false, flushing := none }
def Sink.fresh (k : Sink) : Sink := { k with wr := 0, seq := 0, reported := false }
def Agen.fresh (x : Agen) : Agen := { x with shape := none, next := [], busy := none }
def Me.fresh (m : Me) : Me := { m with
  wa := .zero, wl := .zero, full := false, acc := [], flags := fNone, slots := [11, 11, 11, 11], outRow := 0, pass := none }

/-- Places every node of a graph on its region. The events of the launches that the new one depends on precede its own (20 R355): its
agents start no earlier than what the device has written for its context. -/
def State.install (s : State) (rid : Nat) (r : Region) (g : Graph) (args : List Nat) : State :=
  let ctx := r.ctx
  let at_ := Qid.at rid ctx
  let nodeAt {α : Type} (f : α → α) : Tab Nid α → Tab Nid α := fun t => t.map fun e => (e.1.at rid, f e.2)
  let id := fun (q : Qid) => match q with
    | .text c => 0x1FF * 2 ^ 17 + 2 ^ 14 + (s.context c).vf
    | q => r.queueId q
  let queue := fun (e : Qid × QDesc) => (at_ e.1, Queue.empty e.2 ctx (id (at_ e.1)))
  let kept := s.fab.queues.filter fun e => !(g.queues.any fun x => at_ x.1 == e.1)
  let link := fun (e : Qid × Nat) =>
    let id := match g.linkFrom e.1 with
      | some (a, p) => r.queueId (.port rid a.row a.col a.cu a.slot p.n)
      | none => 0
    (at_ e.1, (⟨e.2, [], none, none, false, id, 0⟩ : Link))
  let out := OutDest.at rid ctx
  let hacc := fun (e : Nid × Hacc) =>
    let (d, v) := r.quad e.1.row e.1.col
    (e.1.at rid, { e.2.fresh with out := e.2.out.map out, ctx := ctx, die := d, vq := v })
  let me := fun (e : Nid × Me) =>
    let m := e.2.fresh
    (e.1.at rid, { m with owner := m.owner.at rid, inn := m.inn.map at_, out := m.out.map out, vq := (r.quad e.1.row e.1.col).2, ctx := ctx })
  let ts := max (s.floorTs (r.quad 0 0).1) (s.ptsOf (s.deviceRoute ctx))
  let s := { s with
    agents := s.agents ++ g.actors.map fun a => a.agent rid ctx r.inc r args ts
    fab := { s.fab with
      queues := kept ++ g.queues.map queue
      streams := s.fab.streams ++ g.streams.map fun e => (at_ e.1, at_ e.2)
      exits := s.fab.exits ++ g.exits.map at_
      texts := s.fab.texts ++ g.texts.map at_
      links := s.fab.links ++ g.links.map link
      joins := s.fab.joins ++ nodeAt (fun (j : Join) => { j.fresh with release := j.release.map out }) g.joins
      gens := s.fab.gens ++ nodeAt (fun (x : Gen) => { x.fresh with out := out x.out }) g.gens
      windows := s.fab.windows ++ nodeAt (fun (w : Window) => { w.fresh with ins := w.ins.map at_, out := w.out.map out }) g.windows
      haccs := s.fab.haccs ++ g.haccs.map hacc
      sinks := s.fab.sinks ++ nodeAt (fun (k : Sink) => { k.fresh with exit := at_ k.exit, ctx := ctx }) g.sinks
      mes := s.fab.mes ++ g.mes.map me
      agens := s.fab.agens ++ nodeAt (fun (x : Agen) => { x.fresh with port := x.port.map at_ }) g.agens
      stashes := s.fab.stashes ++ g.stashes rid } }
  r.bankList.foldl (fun s b => s.claimBank ctx r.inc b.1) s

/-- The launch whose actor or node reads a context's text request queue (24 R436). -/
def State.textReader (s : State) (ctx : Nat) : Option Nat := (Tab.keys s.sched.regions).find? fun rid =>
  (s.readQueues rid).contains (.text ctx)

/-- A live launch of a context holds `from=text` beside one launch. -/
def State.textHeld (s : State) (ctx rid : Nat) : Bool := (Tab.keys s.sched.regions).any fun r =>
  r != rid && (s.readQueues r).contains (.text ctx)

/-- The record of a failed configuration (05 R100, 22 R399). -/
def State.configRecord (s : State) (r : Region) (f : ConfigFault) : State :=
  let (die, vq) := r.quad f.row f.col
  s.postTrap ⟨f.cause, 8, r.ctx, r.inc, vq, f.cu, f.slot, die, f.bid, f.iidx, f.baddr, 0, s.clk.tick, f.word, 0⟩ none false

/-- The event counters of a region's quads are cleared, with no event selected (26 R464). -/
def State.clearCounters (s : State) (r : Region) : State :=
  let quads := r.cells.map fun c => r.quad c.1 c.2
  s.updSched fun x => { x with counters := x.counters.filter fun e => !quads.contains (e.1.1, e.1.2.1) }

/-- A launch takes a region at an origin, with its context's next incarnation, and is configured there; a configuration that fails
completes the launch (20 R354, R355; 21 R382). -/
def State.placeNew (s : State) (rid y x : Nat) : State :=
  match s.launch? rid with
  | none => s
  | some l =>
    let (inc, s) := s.takeInc l.ctx
    let g := Tab.get? s.sched.graphs (l.ctx, l.image)
    let r : Region := ⟨y, x, l.height, l.width, l.ctx, inc, l.prio, .none, (g.map (·.banks)).getD [], false, 0, 0, [], [], []⟩
    let s := (s.updSched fun z => { z with regions := Tab.set z.regions rid r }).clearCounters r
    let failed := match g with
      | none => some placementFault
      | some g => g.fault l.height l.width l.args.length (s.textHeld l.ctx rid)
    match failed, g with
    | none, some g =>
      (s.install rid r g l.args).updLaunch rid fun l => { l with state := .running, late := match l.startTick with
        | some t => decide (s.clk.tick > t)
        | none => false }
    | some f, _ => ((s.configRecord r f).completeLaunch rid stCONFIG f.cause).freeRegion rid
    | none, none => s

/-! ### Resuming an image (21 R376) -/

/-- The held bytes of a bank of an image: where it stands, if it is still tagged for the image, or what was saved. -/
def State.imageBank (s : State) (r : Region) (b : Nat × Nat × Nat) : List (Nat × Byte) :=
  if Tab.get? s.sched.tags b.1 = some ⟨true, r.ctx, r.inc⟩ then (s.bankCells b.1).map fun c => (c.1 % 2 ^ 14, c.2)
  else (r.saved.filter fun c => c.1 / 2 ^ 14 == savedAt b.2.1 b.2.2 / 2 ^ 14).map fun c => (c.1 % 2 ^ 14, c.2)

/-- What of an image names its place takes the new one. -/
def State.relocate (s : State) (rid : Nat) (r : Region) : State :=
  let agent := fun (e : Aid × Agent) =>
    if inRid rid e.1 then let (d, v) := r.quad e.2.row e.2.col; (e.1, { e.2 with die := d, vq := v, inc := r.inc }) else e
  let queue := fun (e : Qid × Queue) => if qInRid rid e.1 then (e.1, { e.2 with qid := r.queueId e.1 }) else e
  let link := fun (e : Qid × Link) =>
    if qInRid rid e.1 then
      match s.agents.findSome? fun a => if inRid rid a.1 then (a.2.outs.find? fun p => p.dst == .link e.1).map fun p => (a.2, p) else none with
      | some (a, p) => (e.1, { e.2 with qid := r.queueId (.port rid a.row a.col a.cu a.slot p.n) })
      | none => e
    else e
  let hacc := fun (e : Nid × Hacc) =>
    if e.1.rid = rid then let (d, v) := r.quad e.1.row e.1.col; (e.1, { e.2 with die := d, vq := v }) else e
  let me := fun (e : Nid × Me) => if e.1.rid = rid then (e.1, { e.2 with vq := (r.quad e.1.row e.1.col).2 }) else e
  { s with
    agents := s.agents.map agent
    fab := { s.fab with
      queues := s.fab.queues.map queue
      links := s.fab.links.map link
      haccs := s.fab.haccs.map hacc
      mes := s.fab.mes.map me } }

/-- A walk that waits for service retries its LOAD, under a new handle (16 R340). -/
def State.renewWalks (s : State) (rid : Nat) : State :=
  (s.ms.walks.filter fun w => inRid rid w.aid && w.waiting).foldl (fun s w =>
    let (h, s) := s.takeId
    let again := fun (v : Walk) => if v.handle = w.handle then { v with handle := h, waiting := false } else v
    let s := s.updMs fun m => { m with walks := m.walks.map again }
    match s.cmd? w.aid .needle w.cmd with
    | some c => s.askEngine w.aid .needle c
    | none => s) s

/-- Before an image resumes on other quads, every bank that it left resident is saved (21 R378). -/
def State.saveResidents (s : State) (r : Region) : State :=
  (r.bankList.filter fun b => Tab.get? s.sched.tags b.1 = some ⟨true, r.ctx, r.inc⟩).foldl (fun s b => s.saveBank b.1) s

/-- The resumption of an image that has lost a bank fails, with the cause of the save that failed (21 R378). -/
def State.failResume (s : State) (rid cause : Nat) : State := (s.completeLaunch rid stCONFIG cause).freeRegion rid

/-- An image resumes at an origin: its banks are where they were, or are brought there first; no DRAIN is left in it (R370). -/
def State.resumeImage (s : State) (rid y x : Nat) : State :=
  match s.region? rid with
  | none => s
  | some old =>
    let held := old.bankList.map fun b => s.imageBank old b
    let r := { old with y := y, x := x, op := RegionOp.none, saved := [] }
    let mine := old.bankList.filter fun b => Tab.get? s.sched.tags b.1 = some ⟨true, old.ctx, old.inc⟩
    let s := s.updSched fun z => { z with tags := z.tags.filter fun e => !(mine.any fun b => b.1 == e.1) }
    let s := s.updMs fun m => { m with scratch := m.scratch.filter fun c => !(mine.any fun b => b.1 == c.1 / 2 ^ 14) }
    let s := r.bankList.foldl (fun s b => s.claimBank r.ctx r.inc b.1) s
    let s := (r.bankList.zip held).foldl (fun (s : State) e => s.updMs fun m => { m with
      scratch := e.2.foldl (fun c p => Mem.write c (e.1.1 * 2 ^ 14 + p.1) p.2) m.scratch }) s
    let s := s.updSched fun z => { z with regions := Tab.set z.regions rid r }
    let s := (((s.relocate rid r).dropDrains rid).clearCounters r).renewWalks rid
    s.updLaunch rid fun l => { l with state := .running, preempted := false }

/-- An image resumes at an origin, or fails to. -/
def State.resumeAt (s : State) (rid y x : Nat) : State :=
  match s.region? rid with
  | none => s
  | some r =>
    let s := if r.y = y ∧ r.x = x then s else s.saveResidents r
    match (s.region? rid).bind fun r => r.spoiled.head? with
    | some (_, _, cause, _) => s.failResume rid cause
    | none => s.resumeImage rid y x

/-- Places a launch: a first placement, or the resumption of its image. -/
def State.placeLaunch (s : State) (rid y x : Nat) : State :=
  match s.launch? rid with
  | some l => if l.state = .imaged then s.resumeAt rid y x else s.placeNew rid y x
  | none => s

/-! ### Free quads (20 R357) -/

/-- Rows and columns of two rectangles meet. -/
def meets (a la b lb : Nat) : Bool := a < b + lb && b < a + la

/-- A rectangle of quads meets no region that stands on the felt. -/
def State.rectFree (s : State) (h w y x : Nat) : Bool :=
  !(s.sched.regions.any fun e =>
    (match s.launch? e.1 with
     | some l => l.state == .running || l.state == .completed
     | none => true) && meets y h e.2.y e.2.height && meets x w e.2.x e.2.width)

/-- The dies that a rectangle covers. -/
def diesUnder (h w y x : Nat) : List Nat :=
  let rows := (List.range 8).filter fun r => meets y h (16 * r) 16
  let cols := (List.range 8).filter fun c => meets x w (20 * c) 20
  rows.flatMap fun r => cols.map fun c => 8 * r + c

/-- The quads of a rectangle on a die. -/
def quadsOn (d h w y x : Nat) : Nat :=
  let wide := fun (a la b lb : Nat) => min (a + la) (b + lb) - max a b
  wide y h (16 * (d / 8)) 16 * wide x w (20 * (d % 8)) 20

/-- An origin is in the package, and every die under it is allowed. In service stage S1 only die row 0 serves (26 R463). -/
def State.originIn (s : State) (allowed : Dword) (h w y x : Nat) : Bool :=
  y + h ≤ 128 && x + w ≤ 160 && (diesUnder h w y x).all fun d => allowed.getLsbD d && (s.out.stage ≥ 2 || d / 8 == 0)

/-- The first origin that fits, Y before X, scanning in ascending order. -/
def State.firstFit (s : State) (allowed : Dword) (h w : Nat) : Option (Nat × Nat) :=
  (List.range (129 - h)).findSome? fun y => (List.range (161 - w)).findSome? fun x =>
    if s.originIn allowed h w y x && s.rectFree h w y x then some (y, x) else none

/-- Some rectangle of allowed dies holds the shape (20 R352): the first die of one that does lies at its origin. -/
def shapeFits (allowed : Dword) (h w : Nat) : Bool :=
  (List.range 64).any fun d =>
    let y := 16 * (d / 8)
    let x := 20 * (d % 8)
    y + h ≤ 128 && x + w ≤ 160 && (diesUnder h w y x).all fun e => allowed.getLsbD e

/-! ### Quiescence (20 R355) -/

/-- A queue of the stream of one of the region's generators. -/
def State.generates (s : State) (rid : Nat) (q : Qid) : Bool :=
  s.fab.gens.any fun e => e.1.rid == rid && (match e.2.out with
    | .stream a b => a == q || b == q
    | _ => false)

/-- A queue of a region that may hold records while the region is quiet: an exit's, or a generator stream's RAND tokens. -/
def State.queueQuiet (s : State) (rid : Nat) (q : Qid) (x : Queue) : Bool :=
  x.items.isEmpty || s.fab.exits.contains q || s.fab.texts.contains q ||
    (s.generates rid q && x.items.all fun h => h.r.kind == kRAND)

/-- A region is quiescent. -/
def State.quiescent (s : State) (rid : Nat) : Bool :=
  let mine := s.agents.filter fun e => inRid rid e.1
  mine.all (fun e =>
    e.2.firing.isNone && e.2.pace.isNone && !(e.2.ins.isEmpty && !e.2.firedOnce) && !s.canControl e.2 &&
    !(!e.2.ins.isEmpty && s.canData e.2) &&
    e.2.copyQ.isEmpty && e.2.matrixQ.isEmpty && e.2.needleQ.isEmpty && e.2.fullerQ.isEmpty) &&
  s.fab.queues.all (fun e => !qInRid rid e.1 || s.queueQuiet rid e.1 e.2) &&
  s.fab.links.all (fun e => !qInRid rid e.1 || (e.2.slots.isEmpty && e.2.token.isNone && e.2.gap.isNone)) &&
  !(s.fab.flight.any fun e => qInRid rid e.1 && !(s.generates rid e.1 && e.2.kind == kRAND)) &&
  !(s.fab.packets.any fun p => qInRid rid p.dst && !(s.generates rid p.dst && p.recs.all fun r => r.kind == kRAND)) && !(s.fab.linkFlight.any fun e => qInRid rid e.1) &&
  !(s.fab.arcFlight.any fun e => e.1.rid == rid) &&
  !(s.fab.joins.any fun e => e.1.rid == rid && !e.2.counts.isEmpty && e.2.counts.all (· != 0)) &&
  !(s.ms.reqs.any fun r => inRid rid r.aid) && !(s.ms.replies.any fun r => inRid rid r.aid) &&
  !(s.ms.ioWrites.any fun w => match w.aid with
    | some a => inRid rid a
    | none => false) &&
  !(s.fab.waits.any fun w => inRid rid w.aid && w.kind != 2 && w.gen.isNone)

/-- The exits of a region hold records. -/
def State.exitHolds (s : State) (rid : Nat) : Bool :=
  s.fab.queues.any fun e => qInRid rid e.1 && (s.fab.exits.contains e.1 || s.fab.texts.contains e.1) && !e.2.items.isEmpty

/-- LAUNCH_COMPLETE (20 R355): a launch found quiescent completes OK. A region whose exits hold records stays until it is freed. -/
def execLaunchComplete (rid : Nat) (s : State) : Host.Outcome State Fault Refusal :=
  .next (match s.launch? rid, s.region? rid with
    | some l, some r =>
      if l.state != .running || !l.started || r.op != .none || !s.quiescent rid then s
      else
        let s := s.completeLaunch rid stOK 0
        if s.exitHolds rid then s else s.freeRegion rid
    | _, _ => s)

end Sys2Proof.Machine
end

