-- ==== Sys2Proof/Machine/Ladder.lean ====
section
/-! DEFINITION. The actions of the watchdog ladder's steps L2 to L4, which a step takes at once or after the host's answer (spec 26
R454 to R458). -/
namespace Sys2Proof.Machine

/-- The value of a notice (26 R455). -/
def noticeValue (lq step what tick : Nat) : Nat := step * 2 ^ 60 + what * 2 ^ 57 + lq * 2 ^ 32 + tick % 2 ^ 32

/-- The timers of the queues with a RUNNING launch count ticks (26 R454). -/
def State.ladderTick (s : State) (ticks : Nat) : State :=
  let lqs := (s.sched.launches.filter fun e => e.2.state == .running).foldl (fun l e => addOnce l (ridLq e.1)) []
  lqs.foldl (fun s n => s.updLadder n fun l => { l with idle := l.idle + ticks }) s

/-- The ladder of a queue's partition is disabled (26 R457). -/
def State.ladderOff (s : State) (lq : Nat) : Bool := (s.budgets (s.lqPart lq)).b1 == 0

/-- A step that comes due once the ladder is disabled is not taken. -/
def State.ladderStop (s : State) (lq : Nat) : State := s.updLadder lq fun l => { l with step := 0 }

/-- L3 is due and finds no launch whose drain timed out: the ladder is idle (26 R458). -/
def State.ladderVoid (s : State) (lq : Nat) : State :=
  let l := s.ladder lq
  if l.step = 2 ∧ l.since + (s.budgets (s.lqPart lq)).t2 ≤ s.clk.tick ∧ (s.ladderDrains lq).isEmpty then s.ladderIdle lq else s

/-- A step is taken: it is counted, and its time noted. -/
def State.ladderStep (s : State) (lq step : Nat) : State :=
  (s.count (8 * (s.partition (s.lqPart lq)).first) none 0x65).updLadder lq fun l => { l with step := step, since := s.clk.tick }

/-- L2: the queue is disabled and its running launches are drained. One that software drains is drained anew for the ladder. -/
def State.ladderL2 (s : State) (lq : Nat) : State :=
  match s.runningOf lq with
  | [] => s.ladderIdle lq
  | rids =>
    let s := s.ladderStep lq 2
    let s := (s.updLq lq fun q => { q with en := false }).ladderNotice lq 2 0
    let t2 := (s.budgets (s.lqPart lq)).t2
    rids.foldl (fun s r => match s.region? r with
      | some x => if s.frozen r then s else (s.answerRegionOp x sSTATE).startDrain r (s.clk.tick + t2) .ladder none
      | none => s) s

/-- L3: the launches whose drain timed out are frozen; each is killed in the next tick (27 R471). -/
def State.ladderL3 (s : State) (lq : Nat) : State :=
  match s.ladderDrains lq with
  | [] => if (s.runningOf lq).isEmpty then s.ladderIdle lq else s
  | rids =>
    let s := (((rids.foldl (fun s r => s.startFreeze r none) s).ladderStep lq 3).ladderNotice lq 3 0)
    s.updSched fun x => { x with ladderKills := x.ladderKills ++ rids.map fun r => (r, s.clk.tick) }

/-- L4: the partition is reset, and the host is told. The ladder is idle unless a launch of the queue is not gone. -/
def State.ladderL4 (s : State) (lq : Nat) : State :=
  if (s.runningOf lq).isEmpty then s.ladderIdle lq
  else
    let p := s.lqPart lq
    let ctx := (s.lq lq).ctx
    let s := (s.ladderStep lq 4)
    let t : Trap := ⟨cWATCHDOG, 1, ctx, 0, 0x1FF, 0, 0, 8 * (s.partition p).first, 0, 0xFFFF, 0, 0, s.clk.tick,
      noticeValue lq 4 0 s.clk.tick, 0⟩
    let l := s.ladder lq
    let s := (s.resetPartition p).hostFault p t.payload
    if (s.runningOf lq).isEmpty then s.ladderIdle lq else s.updLadder lq fun _ => l

/-- The step that an accepting answer of the host lets run (26 R458). -/
def State.ladderNext (s : State) (lq : Nat) : State :=
  match (s.ladder lq).step with
  | 1 => s.ladderL2 lq
  | 2 => s.ladderL3 lq
  | 3 => s.ladderL4 lq
  | _ => s

/-- Any other answer restarts the budget of the step that was asked for. -/
def State.ladderAgain (s : State) (lq : Nat) : State :=
  match (s.ladder lq).step with
  | 2 =>
    let t2 := (s.budgets (s.lqPart lq)).t2
    (s.ladderDrains lq).foldl (fun s r => s.updRegion r fun x => match x.op with
      | .drain _ b w => { x with op := .drain (s.clk.tick + t2) b w }
      | _ => x) s
  | 1 | 3 => s.updLadder lq fun l => { l with since := s.clk.tick }
  | _ => s

end Sys2Proof.Machine
end

