-- ==== Sys2Proof/Machine/Alloc.lean ====
section
/-! DEFINITION. The admission of launches, the allocators of the dies, pre-emption for floors, lock donation, the start of a
launch, and the answers of the host-assist ring (spec 20 R351 to R361, R366; 21 R384; 26 R463). -/
namespace Sys2Proof.Machine

/-! ### Admission (20 R352, R353) -/

/-- A launch descriptor. -/
structure Descriptor where
  image : Nat
  height : Nat
  width : Nat
  flags : Nat
  ndep : Nat
  narg : Nat
  zero : Nat
  start : Nat
  deps : List Nat
  cva : Nat
  args : List Nat
  deriving DecidableEq, Repr

/-- The descriptor of 192 bytes. -/
def Descriptor.of (bs : List Byte) : Descriptor :=
  ⟨fieldAt bs 0 8, fieldAt bs 8 2, fieldAt bs 10 2, fieldAt bs 12 1, fieldAt bs 13 1, fieldAt bs 14 1, fieldAt bs 15 1, fieldAt bs 16 8,
   (List.range 4).map fun j => fieldAt bs (24 + 8 * j) 8, fieldAt bs 56 8, (List.range 16).map fun j => fieldAt bs (64 + 8 * j) 8⟩

/-- The dependences that count. -/
def Descriptor.needs (d : Descriptor) : List Nat := d.deps.take (min d.ndep 4)

/-- Its shape, counts, reserved bits and completion address are in range; `part` is the partition of its queue. -/
def Descriptor.ok (d : Descriptor) (s : State) (part : Nat) : Bool :=
  1 ≤ d.height && d.height ≤ 128 && 1 ≤ d.width && d.width ≤ 160 && d.flags < 32 && d.ndep ≤ 4 && d.narg ≤ 16 && d.zero == 0 &&
  d.cva % 8 == 0 && d.deps.all (· < 2 ^ 44) &&
  d.needs.all fun x => x / 2 ^ 32 < 4096 && s.lqPart (x / 2 ^ 32) == part

/-- A dependence is met. -/
def State.depMet (s : State) (x : Nat) : Bool := seqLater (s.lq (x / 2 ^ 32)).done (x % 2 ^ 32)

/-- The launch that a descriptor asks for. -/
def State.launchOf (s : State) (ctx : Nat) (d : Descriptor) : Launch :=
  { state := .waiting
    image := d.image
    height := d.height
    width := d.width
    prio := min (d.flags % 8) (s.context ctx).priomax
    reduced := s.out.stage < 3
    startTick := if d.flags.testBit 4 then some d.start else none
    cva := d.cva
    args := d.args.take d.narg
    ctx := ctx
    late := false
    order := s.sched.admitted
    since := s.clk.tick
    donated := []
    preempted := false
    status := 0
    cause := 0
    started := false }

/-- A launch enters the table, and `LQHEAD` passes it. -/
def State.admits (s : State) (lq : Nat) (l : Launch) : State :=
  let rid := ridOf lq (s.lq lq).head
  let s := s.updSched fun x => { x with launches := Tab.set x.launches rid l, admitted := x.admitted + 1 }
  s.updLq lq fun q => { q with head := (q.head + 1) % 2 ^ 32 }

/-- Launches admitted and not retired. -/
def Lq.depthUsed (q : Lq) : Nat := wrap 32 (Int.ofNat q.head - q.done)

/-- The decision on the launch at the head of a queue, whose descriptor is read once. -/
def State.admitHead (s : State) (lq : Nat) : State :=
  let q := s.lq lq
  let p := s.lqPart lq
  let rid := ridOf lq q.head
  let die := 8 * (s.partition p).first
  match s.muRead die 0x1FF q.ctx (wrap 64 (q.base + 256 * (q.head % 2 ^ q.lsize) : Nat)) 192 with
  | (s, .error (cause, va)) =>
    let l := s.launchOf q.ctx (Descriptor.of [])
    ((s.admits lq l).completeLaunch rid stBADDESC 0).asyncRecord cause q.ctx 0 die 0x1FF 0 va
  | (s', .ok bs) =>
    let d := Descriptor.of bs
    let l := s'.launchOf q.ctx d
    if !d.ok s' p then (s'.admits lq l).completeLaunch rid stBADDESC 0
    else if !(d.needs.all s.depMet) || (s.out.stage < 3 && !d.flags.testBit 3) || s.rowZeroFails then s
    else if !shapeFits (s'.lqDies lq) d.height d.width then (s'.admits lq l).completeLaunch rid stNOREGION 0
    else s'.admits lq l

/-- A queue may admits its next launch. -/
def State.mayAdmit (s : State) (lq : Nat) : Bool :=
  let q := s.lq lq
  q.en && q.head != q.tail && q.depthUsed < q.depth + 1 && (s.launch? (ridOf lq q.head)).isNone

/-! ### The host-assist ring (20 R366) -/

/-- The bits of `FNMODE`. -/
def fnADMIT : Nat := 0
def fnPLACE : Nat := 1
def fnVICTIM : Nat := 2
def fnWDOG : Nat := 4

/-- A function of a partition is host-assisted. -/
def State.assisted (s : State) (p fn : Nat) : Bool := (s.partition p).fnmode.testBit fn

/-- A request for a function and a launch is in flight. -/
def State.asked (s : State) (fn lq seq : Nat) : Bool := s.sched.assists.any fun a => a.fn == fn && a.lq == lq && a.seq == seq

/-- The 32 bytes of a request; the candidate's two numbers stand in bytes 8 to 11 (log 29). -/
def Assist.bytes (a : Assist) : List Byte :=
  natBytes 1 a.fn ++ natBytes 1 a.die ++ natBytes 2 a.lq ++ natBytes 4 a.seq ++ a.cand.flatMap (natBytes 2) ++
    List.replicate (24 - 2 * a.cand.length) 0

/-- Posts a request, once for each launch and function. -/
def State.postAssist (s : State) (p fn die rid : Nat) (cand : List Nat) : State :=
  if s.asked fn (ridLq rid) (ridSeq rid) || s.swapping then s
  else
    let x := s.partition p
    let slot := x.hawr % 2 ^ x.phaslots
    let a : Assist := ⟨p, slot, fn, die, ridLq rid, ridSeq rid, cand⟩
    let (s, _) := s.deviceWrite (8 * x.first) (s.managementCtx p) (x.phabase + 32 * slot) a.bytes
    let s := s.updPartition p fun x => { x with hawr := x.hawr + 1 }
    s.updSched fun y => { y with assists := y.assists ++ [a] }

/-- LAUNCH_ADMIT (20 R353): a queue admits the launch at its head, or asks the host. A request in flight finishes in its old mode (20
R366). -/
def execLaunchAdmit (lq : Nat) (s : State) : Host.Outcome State Fault Refusal :=
  .next (
    let p := s.lqPart lq
    if !s.mayAdmit lq then s
    else if s.asked fnADMIT lq (s.lq lq).head then s
    else if s.assisted p fnADMIT then s.postAssist p fnADMIT (8 * (s.partition p).first) (ridOf lq (s.lq lq).head) []
    else s.admitHead lq)

/-! ### What the allocators look at (20 R358 to R360) -/

/-- The regions that stand on the felt. -/
def State.placed (s : State) : List (Nat × Region) := s.sched.regions.filter fun e => match s.launch? e.1 with
  | some l => l.state == .running || l.state == .completed
  | none => false

/-- The quads that a context holds on a die. -/
def State.heldOn (s : State) (d ctx : Nat) : Nat :=
  sumNat ((s.placed.filter fun e => e.2.ctx == ctx).map fun e => quadsOn d e.2.height e.2.width e.2.y e.2.x)

/-- A context's floor on a die. -/
def State.floorOf (s : State) (ctx : Nat) : Nat := (s.context ctx).sharemin * 320 / 1024

/-- The priority that placement uses (21 R384). -/
def Launch.effective (l : Launch) : Nat := l.donated.foldl (fun m d => max m d.1) l.prio

/-- A waiter has lent it its priority. -/
def Launch.lent (l : Launch) : Bool := !l.donated.isEmpty

/-- A launch waits for a region: not placed yet, or pre-empted. -/
def Launch.waits (l : Launch) : Bool := l.state == .waiting || (l.state == .imaged && l.preempted)

/-- The first origin of a waiting launch, if its incarnation may be given (21 R382). -/
def State.originFor (s : State) (rid : Nat) (l : Launch) : Option (Nat × Nat) :=
  if l.state = .waiting && !s.incFree l.ctx (s.context l.ctx).incnext then none
  else s.firstFit (s.lqDies (ridLq rid)) l.height l.width

/-- A launch that an allocator may place: its launch, and its first origin. -/
structure Candidate where
  rid : Nat
  l : Launch
  y : Nat
  x : Nat
  deriving DecidableEq, Repr

/-- The die of an origin. -/
def Candidate.die (c : Candidate) : Nat := (quadAt c.y c.x).1

/-- The launches that die `d` may place now. -/
def State.candidates (s : State) (d : Nat) (skip : List Nat) : List Candidate :=
  s.sched.launches.filterMap fun e =>
    if !e.2.waits || skip.contains e.1 || s.asked fnPLACE (ridLq e.1) (ridSeq e.1) then none
    else match s.originFor e.1 e.2 with
      | some (y, x) => if (quadAt y x).1 = d then some ⟨e.1, e.2, y, x⟩ else none
      | none => none

/-- The element of a list that comes first under an order. -/
def firstBy {α : Type} (before : α → α → Bool) : List α → Option α
  | [] => none
  | x :: xs => some (xs.foldl (fun b y => if before y b then y else b) x)

/-- A number's place in a round robin that starts after another. -/
def after (last n size : Nat) : Nat := (n + size - 1 - last % size) % size

def State.credit (s : State) (d ctx : Nat) : Credit := Tab.getD s.sched.credits (d, ctx) ⟨0, 0, none, none⟩
def State.updCredit (s : State) (d ctx : Nat) (f : Credit → Credit) : State :=
  s.updSched fun x => { x with credits := Tab.set x.credits (d, ctx) (f (s.credit d ctx)) }

/-- The cost of a placement on a die. -/
def Candidate.cost (c : Candidate) (d : Nat) : Nat := quadsOn d c.l.height c.l.width c.y c.x

/-- The order of a context's launches: the highest priority, donated ones first among equals, then its queues in turn, and in a
queue its pre-empted launches first, by sequence. -/
def Candidate.before (last : Nat) (a b : Candidate) : Bool :=
  let turn := fun (c : Candidate) => after last (ridLq c.rid) 4096
  let flag := fun (x : Bool) => if x then 0 else 1
  let key := fun (c : Candidate) => [7 - c.l.effective, flag c.l.lent, turn c, flag c.l.preempted]
  decide (key a < key b) || (key a == key b && seqLater (ridSeq b.rid) (ridSeq a.rid))

/-- The next launch of a context. -/
def State.nextOf (s : State) (d ctx : Nat) (cs : List Candidate) : Option Candidate :=
  firstBy (Candidate.before (s.credit d ctx).lastLq) (cs.filter fun c => c.l.ctx == ctx)

/-- Deficit round robin (20 R359): the first context in turn whose credit pays for its next launch; where none has it, every waiting
context gains 64 · `SHARE`. `fuel` bounds the gains that one placement can need. -/
def State.robin (s : State) (d : Nat) (cs : List Candidate) : Nat → State × Option Candidate
  | 0 => (s, none)
  | fuel + 1 =>
    let last := Tab.getD s.sched.lastCtx d 0
    let ctxs := (cs.map (·.l.ctx)).foldl addOnce []
    let pays := (ctxs.filterMap fun c => s.nextOf d c cs).filter fun c => (s.credit d c.l.ctx).credit ≥ Int.ofNat (c.cost d)
    match firstBy (fun a b => after last a.l.ctx 1024 < after last b.l.ctx 1024) pays with
    | some c => (s, some c)
    | none =>
      if cs.isEmpty then (s, none)
      else (ctxs.foldl (fun s c => s.updCredit d c fun x => { x with credit := x.credit + 64 * Int.ofNat (s.context c).share }) s).robin d cs fuel

/-- The launch that a round places next: floors, then priority, then contexts and queues in turn. -/
def State.choose (s : State) (d : Nat) (cs : List Candidate) : State × Option Candidate :=
  let poor := cs.filter fun c => s.heldOn d c.l.ctx < s.floorOf c.l.ctx
  if !poor.isEmpty then
    let ctx := firstBy (fun a b =>
      let l := s.heldOn d a * s.floorOf b
      let r := s.heldOn d b * s.floorOf a
      l < r || (l == r && a < b)) (poor.map (·.l.ctx))
    (s, ctx.bind fun c => s.nextOf d c poor)
  else
    let top := cs.foldl (fun m c => max m c.l.effective) 0
    let ofTop := cs.filter fun c => c.l.effective == top
    let given := ofTop.filter fun c => c.l.lent
    s.robin d (if given.isEmpty then ofTop else given) 8

/-- A placement costs its context the region's quads on the die, but for one that its floor gives. -/
def State.pay (s : State) (d : Nat) (c : Candidate) : State :=
  if s.heldOn d c.l.ctx < s.floorOf c.l.ctx then s
  else s.updCredit d c.l.ctx fun x => { x with credit := x.credit - c.cost d }

/-- A launch is placed: the turns of its context and queue pass to it. -/
def State.grant (s : State) (d : Nat) (c : Candidate) : State :=
  let s := (s.pay d c).updCredit d c.l.ctx fun x => { x with lastLq := ridLq c.rid, floorSince := none }
  let s := s.updSched fun x => { x with lastCtx := Tab.set x.lastCtx d c.l.ctx }
  s.placeLaunch c.rid c.y c.x

/-- A launch that the allocator of a lower die may place claims a quad of a candidate: the lower die's claim wins (20 R357). One that the
host places makes no claim here. -/
def State.outclaimed (s : State) (d : Nat) (c : Candidate) : Bool :=
  d != 0 && s.sched.launches.any fun e => e.2.waits && e.1 != c.rid && !s.asked fnPLACE (ridLq e.1) (ridSeq e.1) &&
    !s.assisted (s.partOf e.2.ctx) fnPLACE && (match s.originFor e.1 e.2 with
    | some (y, x) => (quadAt y x).1 < d && meets y e.2.height c.y c.l.height && meets x e.2.width c.x c.l.width
    | none => false)

/-- Places launches until none fits; one that the host must place is asked for instead. -/
def State.placeRound (s : State) (d : Nat) (skip : List Nat) : Nat → State
  | 0 => s
  | fuel + 1 =>
    match s.choose d (s.candidates d skip) with
    | (s, none) => s
    | (s, some c) =>
      let p := s.partOf c.l.ctx
      if s.outclaimed d c then s.placeRound d (c.rid :: skip) fuel
      else if s.assisted p fnPLACE then (s.postAssist p fnPLACE d c.rid [c.y, c.x]).placeRound d (c.rid :: skip) fuel
      else (s.grant d c).placeRound d skip fuel

/-! ### Lock donation (21 R384) -/

/-- The launch whose region holds a lock word, by the word. -/
def State.holderOf (s : State) (w : Nat) : Option Nat :=
  if !w.testBit 63 then none
  else (s.sched.regions.find? fun e => e.2.ctx == bitsAt w 0 10 && e.2.inc == bitsAt w 16 16).map Prod.fst

/-- The waits of launches on words that pre-empted launches hold: waiter, holder, word. -/
def State.lockWaits (s : State) : List (Nat × Nat × Nat) :=
  s.ms.reqs.filterMap fun r =>
    if !r.isLkwait then none
    else match r.aid.rid, s.holderOf (s.peekWord r.acc.pa) with
      | some w, some h => match s.launch? h with
        | some l => if l.state = .imaged && l.preempted && w != h then some (w, h, r.acc.pa) else none
        | none => none
      | _, _ => none

/-- A waiter lends its priority on a word to a launch of lower priority. -/
def Launch.lend (l : Launch) (prio word : Nat) : Launch :=
  if prio ≤ l.prio || l.donated.any fun d => d.2 == word && d.1 ≥ prio then l
  else { l with donated := (l.donated.filter fun d => d.2 != word) ++ [(prio, word)] }

/-- A waiter's priority passes along the chain of holders that begins with a wait, to so many of them. -/
def State.donateAlong (s : State) (prio : Nat) : Nat → Nat × Nat × Nat → State
  | 0, _ => s
  | n + 1, e =>
    let s := s.updLaunch e.2.1 fun h => h.lend prio e.2.2
    (s.lockWaits.filter fun f => f.1 == e.2.1).foldl (fun s f => s.donateAlong prio n f) s

/-- A holder of lower priority that no free region holds takes the place of its waiter's region, which is frozen for it. -/
def State.donateRoom (s : State) (e : Nat × Nat × Nat) : State :=
  match s.launch? e.1, s.launch? e.2.1, s.region? e.1 with
  | some w, some h, some r =>
    if w.effective ≤ h.prio || !h.lent || h.state != .imaged || h.height > r.height || h.width > r.width then s
    else if w.state = .imaged && w.preempted then
      if s.rectFree h.height h.width r.y r.x && s.originIn (s.lqDies (ridLq e.2.1)) h.height h.width r.y r.x then
        s.placeLaunch e.2.1 r.y r.x
      else s
    else if w.state = .running && r.op == .none && (s.originFor e.2.1 h).isNone &&
        s.originIn (s.lqDies (ridLq e.2.1)) h.height h.width r.y r.x then
      (s.updLaunch e.1 fun l => { l with preempted := true }).startFreeze e.1 none
    else s
  | _, _, _ => s

/-- Donation: each waiter's own priority, along a chain of at most four holders. -/
def State.donate (s : State) : State :=
  let s := s.lockWaits.foldl (fun s e => s.donateAlong (((s.launch? e.1).map (·.prio)).getD 0) 4 e) s
  s.lockWaits.foldl (fun s e => s.donateRoom e) s

/-! ### Floors (20 R360) -/

/-- A context below its floor on a die has a launch waiting that may use the die and finds no room. -/
def State.starves (s : State) (d ctx : Nat) : Bool :=
  s.heldOn d ctx < s.floorOf ctx &&
  s.sched.launches.any fun e => e.2.ctx == ctx && e.2.waits && (s.lqDies (ridLq e.1)).getLsbD d &&
    (s.firstFit (s.lqDies (ridLq e.1)) e.2.height e.2.width).isNone

/-- A victim is still on its way out: it is drained or frozen. -/
def State.leaving (s : State) (v : Option Nat) : Bool := match v.bind s.region? with
  | some r => r.op != .none
  | none => false

/-- The floor waits of a die begin and end. A context has one victim at a time: it waits anew once that has left. -/
def State.markFloors (s : State) (d : Nat) : State :=
  let ctxs := (s.sched.launches.filter fun e => e.2.waits).foldl (fun l e => addOnce l e.2.ctx) []
  let known := (s.sched.credits.filter fun e => e.1.1 == d).map fun e => e.1.2
  (unionDep known ctxs).foldl (fun s c => s.updCredit d c fun x => { x with
    floorSince := if s.starves d c && !s.leaving x.victim then some (x.floorSince.getD s.clk.tick) else none
    victim := if s.leaving x.victim then x.victim else none }) s

/-- ALLOCATOR_ROUND (20 R359). -/
def execAllocatorRound (die : Nat) (s : State) : Host.Outcome State Fault Refusal :=
  .next (
    let s := s.donate
    (s.placeRound die [] (s.sched.launches.length + 1)).markFloors die)

/-- The victim for a floor: the lowest priority, the largest excess, the last admitted, the higher queue. -/
def State.victim (s : State) (d ctx : Nat) : Option (Nat × Region) :=
  let excess := fun (c : Nat) => s.heldOn d c - s.floorOf c
  let of := s.sched.regions.filter fun e => e.2.ctx != ctx && e.2.op == .none && s.running e.1 && excess e.2.ctx > 0 &&
    quadsOn d e.2.height e.2.width e.2.y e.2.x > 0
  let key := fun (e : Nat × Region) =>
    let l := s.launch? e.1
    ((l.map (·.effective)).getD 0, excess e.2.ctx, (l.map (·.order)).getD 0, ridLq e.1)
  firstBy (fun a b =>
    let (pa, xa, oa, qa) := key a
    let (pb, xb, ob, qb) := key b
    pa < pb || (pa == pb && (xa > xb || (xa == xb && (oa > ob || (oa == ob && qa > qb)))))) of

/-- The scheduling register of a die: `VICTIMTO` and `FLOORWAIT` (20 R361). -/
def State.schedcfg (s : State) (d : Nat) : Nat × Nat := Tab.getD s.sched.schedcfg d (13500, 6750)

/-- The victim of a floor is drained. -/
def State.drainVictim (s : State) (d ctx rid : Nat) : State :=
  (s.startDrain rid (s.clk.tick + (s.schedcfg d).1) .allocator none).updCredit d ctx fun x =>
    { x with floorSince := none, victim := some rid }

/-- FLOOR_PREEMPT (20 R360). -/
def execFloorPreempt (die ctx : Nat) (s : State) : Host.Outcome State Fault Refusal :=
  .next (
    let wait := (s.schedcfg die).2
    match (s.credit die ctx).floorSince with
    | none => s
    | some t =>
      let asked := s.sched.assists.any fun a => a.fn == fnVICTIM && a.die == die && a.cand.headD 0 == ctx
      if wait = 0 || s.clk.tick < t + wait || !s.starves die ctx || asked then s
      else
        match s.victim die ctx with
        | none => s
        | some (rid, r) =>
          let p := s.partOf r.ctx
          if s.assisted p fnVICTIM then s.postAssist p fnVICTIM die rid [ctx] else s.drainVictim die ctx rid)

/-! ### Start (20 R354; 09 R181) -/

/-- LAUNCH_START (20 R354): a configured launch starts at once, or at its start tick; the pace of its actors begins there. -/
def execLaunchStart (rid : Nat) (s : State) : Host.Outcome State Fault Refusal :=
  .next (match s.launch? rid with
    | none => s
    | some l =>
      let t0 := l.startTick.getD s.clk.tick
      if l.state != .running || l.started || s.clk.tick < t0 then s
      else
        let first := fun (p : Nat) => if s.clk.tick ≤ t0 || p = 0 then t0 else nextPacePoint t0 p (s.clk.tick - 1)
        let pace := fun (e : Aid × Agent) => if inRid rid e.1 then (e.1, { e.2 with nextPace := match e.2.pace with
          | some p => first p
          | none => e.2.nextPace }) else e
        ({ s with agents := s.agents.map pace } : State).updLaunch rid fun l => { l with started := true })

/-! ### The host's answers (20 R366) -/

/-- HOST_ASSIST_ANSWER (20 R366): the answer to a request is applied; one that cannot be is refused, and its function asks again.
For a placement `y` and `x` name the origin, for a victim the launch queue and sequence number of its region (log 29). -/
def execHostAssistAnswer (p slot : Nat) (ok : Bool) (y x : Nat) (s : State) : Host.Outcome State Fault Refusal :=
  .next (match s.sched.assists.find? fun a => a.p == p && a.slot == slot with
    | none => s
    | some a =>
      if s.swapping then s
      else
        let s := s.updSched fun z => { z with assists := z.assists.filter fun b => !(b.p == p && b.slot == slot) }
        let rid := ridOf a.lq a.seq
        if !ok then (if a.fn = fnWDOG then s.ladderAgain a.lq else s)
        else
          match a.fn with
          | 0 => if s.mayAdmit a.lq && (s.lq a.lq).head == a.seq then s.admitHead a.lq else s
          | 1 =>
            match s.launch? rid with
            | none => s
            | some l =>
              if l.waits && s.originIn (s.lqDies a.lq) l.height l.width y x && s.rectFree l.height l.width y x &&
                  (l.state != .waiting || s.incFree l.ctx (s.context l.ctx).incnext) then
                s.grant a.die ⟨rid, l, y, x⟩
              else s
          | 2 =>
            let v := ridOf y x
            match s.region? v with
            | some r => if s.running v && r.op == .none && s.partOf r.ctx == p then s.drainVictim a.die (a.cand.headD 0) v else s
            | none => s
          | _ => if s.lqPart a.lq = p then s.ladderNext a.lq else s)

end Sys2Proof.Machine
end

