-- ==== Sys2Proof/Machine/Image.lean ====
section
/-! DEFINITION. The image of a region: its header and sections as bytes, what a section's bytes say, its save and its load (spec 21
R371 to R378; 23 R416). -/
namespace Sys2Proof.Machine

/-! ### Bytes -/

/-- Fills a byte string up to a multiple of 64. -/
def pad64 (bs : List Byte) : List Byte := padTo ((bs.length + 63) / 64 * 64) bs

/-- One bit of CRC-32C, reflected. -/
def crcBit (c : Nat) : Nat := if c % 2 = 1 then Nat.xor (c / 2) 0x82F63B78 else c / 2

/-- One byte of CRC-32C. -/
def crcByte (c : Nat) (b : Byte) : Nat := (List.range 8).foldl (fun c _ => crcBit c) (Nat.xor c b.toNat)

/-- CRC-32C (21 R372). -/
def crc32c (bs : List Byte) : Nat := Nat.xor (bs.foldl crcByte 0xFFFFFFFF) 0xFFFFFFFF

/-- Bytes of 0 and 1 for a list of bits, eight to a byte. -/
def bitBytes (bs : List Bool) : List Byte :=
  natBytes ((bs.length + 7) / 8) (sumNat (bs.zipIdx.map fun e => if e.1 then 2 ^ e.2 else 0))

/-! ### Sections (21 R373) -/

/-- A section: its type, unit and index, its quad, its body, and its state: 0 saved, 1 resident, 2 lost. -/
structure Section where
  type : Nat
  unit : Nat
  index : Nat
  row : Nat
  col : Nat
  body : List Byte
  state : Nat
  deriving DecidableEq, Repr

/-- The header and body, padded to the next section. -/
def Section.bytes (x : Section) : List Byte :=
  pad64 (natBytes 2 x.type ++ natBytes 1 x.unit ++ natBytes 1 x.index ++ natBytes 2 x.row ++ natBytes 2 x.col ++
    natBytes 4 x.body.length ++ natBytes 1 x.state ++ zeros 3 ++ x.body)

/-- The sections of a byte string. -/
def Section.parse : Nat → List Byte → List Section
  | 0, _ => []
  | n + 1, bs =>
    let len := fieldAt bs 8 4
    ⟨fieldAt bs 0 2, fieldAt bs 2 1, fieldAt bs 3 1, fieldAt bs 4 2, fieldAt bs 6 2, (bs.drop 16).take len, fieldAt bs 12 1⟩ ::
      Section.parse n (bs.drop ((16 + len + 63) / 64 * 64))

/-! ### Code (21 R373) -/

/-- The bytes of an actor's code image: to the end of its last word. -/
def Agent.codeBytes (g : Agent) : List Byte :=
  let n := g.code.foldl (fun m e => max m (e.1 + 4)) 0
  (List.range (n / 4)).flatMap fun j => natBytes 4 (Tab.getD g.code (4 * j) 0).toNat

/-- The starts of the blocks of a code image: the first at 0, and each at the next boundary after the one before (08 R158). -/
def blockStarts (code : Tab Nat Word) : Nat → Nat → List Nat
  | 0, _ => []
  | fuel + 1, addr =>
    match Tab.get? code addr with
    | none => []
    | some w => addr :: blockStarts code fuel (addr + (16 + 4 * bitsAt w.toNat 13 8 + 15) / 16 * 16)

/-- The agents of a CU, by slot. -/
def State.cuAgents (s : State) (rid row col cu : Nat) : List (Aid × Agent) :=
  (List.range 4).filterMap fun k => s.agents.find? fun e => e.1 == .actor rid row col cu k

/-- Each actor's slot with the offset of its image in the store, one image after another. -/
def codeOffsets : Nat → List (Aid × Agent) → List (Nat × Nat × Aid × Agent)
  | _, [] => []
  | off, e :: es => (e.2.slot, off, e.1, e.2) :: codeOffsets ((off + e.2.codeBytes.length + 15) / 16 * 16) es

def codeBody (es : List (Aid × Agent)) : List Byte :=
  let at_ := codeOffsets 0 es
  let map := match es with
    | [(_, g)] => if g.mode = .pipe then g.stmap else 0x3FFFF
    | _ => 0x3FFFF
  let offs := (List.range 4).flatMap fun k => natBytes 4 (((at_.find? fun e => e.1 == k).map fun e => e.2.1).getD 0)
  at_.foldl (fun bs e => padTo (64 + e.2.1) bs ++ e.2.2.2.codeBytes) (padTo 64 (natBytes 4 map ++ offs))

/-- The words of a byte string, by byte address. -/
def codeOf (bs : List Byte) : Tab Nat Word := (wordsOf (bs.length / 4) bs).zipIdx.map fun e => (4 * e.2, e.1)

/-- A CODE body is written into the actors of its CU. -/
def State.putCode (s : State) (rid row col cu : Nat) (body : List Byte) : State :=
  let at_ := codeOffsets 0 (s.cuAgents rid row col cu)
  at_.foldl (fun s e =>
    let off := fieldAt body (4 + 4 * e.1) 4
    let next := at_.foldl (fun m f => let o := fieldAt body (4 + 4 * f.1) 4; if o > off then min m o else m) (body.length - 64)
    let code := codeOf ((body.drop (64 + off)).take (next - off))
    s.updAgent e.2.2.1 fun g => { g with
      code := code
      starts := blockStarts code (code.length + 1) 0
      stmap := if g.mode = .pipe then fieldAt body 0 4 % 2 ^ 18 else g.stmap }) s

/-! ### Actors (21 R374) -/

/-- The id of the block at an address of an actor's image, and the address of an id. -/
def Agent.bidAt (g : Agent) (addr : Nat) : Nat := bitsAt (Tab.getD g.code (addr + 4) 0).toNat 16 8
def Agent.blockOf (g : Agent) (bid : Nat) : Nat := ((g.starts.find? fun a => g.bidAt a == bid)).getD 0

/-- The address that an agent's firing resumes at, and whether it then declines traps. -/
def Agent.resumeAddr (g : Agent) : Option (Nat × Bool) := match g.phase, g.block with
  | .resuming a n, _ | .suspended a n, _ => some (a, n)
  | .entering a, _ => some (a, false)
  | .running, some b => some (b.addr, b.noTrap)
  | _, _ => none

def actorBody (g : Agent) : List Byte :=
  let reg := fun (n c : Nat) => natBytes n (g.reg c).bits.toNat
  let f := g.firing
  let lines := (List.range 8).filterMap fun k => (Tab.get? g.delay (64 + k)).map fun d => (k, d)
  let wrote := fun (k : Nat) => (f.bind fun x => Tab.get? x.dWritten (64 + k))
  let flags := bitAt ((f.map (·.control)).getD false) 0 + bitAt ((g.resumeAddr.map (·.2)).getD false) 1 +
    sumNat ((List.range 8).map fun k => bitAt (wrote k).isSome (2 + k))
  (List.range 32).flatMap (reg 8) ++ (List.range 16).flatMap (fun k => reg 64 (32 + k)) ++
    (List.range 8).flatMap (fun k => reg 8 (48 + k)) ++ natBytes 8 (flagsScalar g.flags) ++ natBytes 8 g.fidx ++
    natBytes 8 (if g.pace.isSome then g.nextPace else 0) ++
    natBytes 4 ((g.resumeAddr.map (·.1)).getD 0xFFFFFFFF) ++ natBytes 4 flags ++
    (List.range 8).flatMap (fun k => natBytes 1 ((f.bind fun x => Tab.get? x.skips k).getD 0xFF)) ++
    natBytes 4 (sumNat ((List.range 32).map fun k => bitAt (g.isPending k) k)) ++
    (List.range 8).flatMap (fun k => natBytes 1 (((Tab.get? g.delay (64 + k)).map (·.length)).getD 0)) ++
    natBytes 4 g.resident.length ++
    lines.flatMap (fun e => e.2.flatMap fun v => natBytes 64 v.bits.toNat) ++
    lines.flatMap (fun e => natBytes 64 ((wrote e.1).getD .zero).bits.toNat) ++
    g.resident.flatMap fun r =>
      natBytes 1 (g.bidAt r.block) ++ natBytes 1 r.idx ++ natBytes 1 r.slot ++ natBytes 1 (r.left.getD 255) ++ zeros 4 ++
        natBytes 64 r.val.bits.toNat

/-- The stages of the declared delay lines that stand at an offset of a body: line and depth, and what follows. -/
def readLines (b : List Byte) : List (Nat × Nat) → Nat → Tab Nat (List Vec)
  | [], _ => []
  | (k, n) :: ls, off =>
    (64 + k, (List.range n).map fun j => BitVec.ofNat 512 (fieldAt b (off + 64 * j) 64)) :: readLines b ls (off + 64 * n)

/-- A value with new bits; one that keeps its bits keeps what it depends on. -/
def Val.patch (v : Val) (x : Vec) : Val := if v.bits = x then v else ⟨x, []⟩

/-- The firing in progress that an ACTOR body tells of: what it was delivered stays as held where it is of the same kind. -/
def Agent.loadedFiring (g : Agent) (b : List Byte) (wrote : Tab Nat Val) : Option Firing :=
  if fieldAt b 1368 4 = 0xFFFFFFFF then none
  else
    let control := bitsAt (fieldAt b 1372 4) 0 1 == 1
    let f := (g.firing.filter fun f => f.control == control).getD ⟨control, [], [], 0, false, [], [], [], []⟩
    let skips := (List.range 8).filterMap fun k => let n := fieldAt b (1376 + k) 1; if n = 0xFF then none else some (k, n)
    some { f with dWritten := wrote, skips := skips }

/-- An ACTOR body is written into an agent (log 30). The commands and waits that its pending registers wait for stand in other
sections. -/
def Agent.putActor (g : Agent) (b : List Byte) : Agent :=
  let reg := fun (c off n : Nat) => (c, (g.reg c).patch (BitVec.ofNat 512 (fieldAt b off n)))
  let depth := (List.range 8).filterMap fun k => let n := fieldAt b (1388 + k) 1; if n = 0 then none else some (k, n)
  let lines := readLines b depth 1400
  let old := fun (k j : Nat) => ((Tab.get? g.delay k).bind fun d => d[j]?).getD .zero
  let after := 1400 + 64 * sumNat (depth.map Prod.snd)
  let wrote := depth.zipIdx.filterMap fun e =>
    if bitsAt (fieldAt b 1372 4) (2 + e.1.1) 1 = 0 then none
    else
      let was := match g.firing with
        | some f => Tab.getD f.dWritten (64 + e.1.1) .zero
        | none => .zero
      some (64 + e.1.1, was.patch (BitVec.ofNat 512 (fieldAt b (after + 64 * e.2) 64)))
  let base := after + 64 * depth.length
  let resident := (List.range (fieldAt b 1396 4)).map fun j =>
    let o := base + 72 * j
    let left := fieldAt b (o + 3) 1
    (⟨g.blockOf (fieldAt b o 1), fieldAt b (o + 1) 1, fieldAt b (o + 2) 1, if left = 255 then none else some left,
      ⟨BitVec.ofNat 512 (fieldAt b (o + 8) 64), []⟩⟩ : Resident)
  { g with
    regs := (List.range 31).map (fun k => reg (k + 1) (8 * k + 8) 8) ++ (List.range 16).map (fun k => reg (32 + k) (256 + 64 * k) 64) ++
      (List.range 7).map (fun k => reg (49 + k) (1288 + 8 * k) 8)
    flags := BitVec.ofNat 5 (fieldAt b 1344 8)
    fidx := fieldAt b 1352 8
    nextPace := if g.pace.isSome then fieldAt b 1360 8 else g.nextPace
    delay := lines.map fun e => (e.1, e.2.zipIdx.map fun v => (old e.1 v.2).patch v.1)
    firing := g.loadedFiring b wrote
    phase := if fieldAt b 1368 4 = 0xFFFFFFFF then .idle
      else .resuming (fieldAt b 1368 4) (bitsAt (fieldAt b 1372 4) 1 1 == 1)
    pending := g.pending.filter fun p => p.code ≥ 32 || bitsAt (fieldAt b 1384 4) p.code 1 == 1
    resident := resident }

/-- The firings in progress that a loaded image tells of are delivered what stands at their ports (21 R376). -/
def State.redeliver (s : State) (rid : Nat) : State :=
  (s.agents.filter fun e => inRid rid e.1).foldl (fun s e =>
    match e.2.firing with
    | some f =>
      let ports := s.portsOf { e.2 with firing := none }
      let ds := if f.control then controlHeads ports else dataEntries ports
      s.updAgent e.1 fun g => { g with firing := some { f with
        delivered := ds, startTick := if f.delivered.isEmpty then s.clk.tick else f.startTick } }
    | none => s) s

/-! ### Queues (21 R375) -/

/-- A held thing was narrowed here: it takes fewer units than a whole record (10 R207). -/
def Held.narrowed (h : Held) : Bool := h.place == .storage && !h.isControl && h.units < 8

/-- A held record as it is stored, a payload narrowed here in its leading bytes (03 R49). -/
def storedBytes (nfmt : Nat) (h : Held) : List Byte :=
  (if h.narrowed then { h.r with payload := storedPayload nfmt h.r.payload } else h.r).bytes

/-- A stored record, of which `here` says that it was narrowed in this queue. -/
def storedRecord (nfmt : Nat) (here : Bool) (bs : List Byte) : Record :=
  let r := Record.ofBytes bs
  if here then { r with payload := widenPayload nfmt r.payload } else r

/-- The bytes of a record that an image brings show whether this queue may have narrowed it: its primary is NARROW, `nar` is set, and
nothing lies beyond the packed payload (log 30). -/
def seemsNarrowed (d : QDesc) (bs : List Byte) : Bool :=
  let r := Record.ofBytes bs
  d.pol == 4 && r.nar && !isControlKind r.kind && r.payload.toNat < 2 ^ (if d.nfmt = 0 then 256 else if d.nfmt = 1 then 128
    else if d.nfmt = 2 then 256 else if d.nfmt = 3 then 128 else 64)

def queueBody (q : Queue) : List Byte :=
  let held := q.items.filter fun h => !h.inRing
  let m := q.summary
  let index := if q.desc.pol != 3 then [] else (List.range (2 ^ q.desc.khash)).flatMap fun b =>
    natBytes 2 (((Tab.get? q.index b).bind fun n => findIdx? (fun h : Held => h.serial == n) held).getD 0xFFFF)
  q.descBytes ++ natBytes 4 held.length ++ natBytes 4 q.rd ++ natBytes 4 q.wr ++ natBytes 1 (bitAt q.failed 0 + bitAt q.sexc 1) ++
    zeros 3 ++ natBytes 4 q.sc ++ natBytes 4 q.scell ++
    ([m.count, m.weight, m.kmin, m.kmax, m.tmin, m.tmax].flatMap (natBytes 4)) ++ natBytes 1 (bitAt m.kr 0) ++ zeros 15 ++
    held.flatMap (storedBytes q.desc.nfmt) ++ bitBytes (held.map (·.merged)) ++ index

/-- A QUEUE body is written into a queue. -/
def Queue.putQueue (q : Queue) (b : List Byte) : Queue :=
  let n := fieldAt b 32 4
  let held := q.items.filter fun h => !h.inRing
  let d := QDesc.ofWords (fieldAt b 0 8) (fieldAt b 8 8) (fieldAt b 16 8)
  let bits := 96 + 80 * n
  let item := fun (j : Nat) =>
    let bs := (b.drop (96 + 80 * j)).take 80
    match held[j]? with
    | some h => if storedBytes d.nfmt h = bs then h else { h with r := { storedRecord d.nfmt h.narrowed bs with sr := h.r.sr } }
    | none =>
      let here := seemsNarrowed d bs
      let r := storedRecord d.nfmt here bs
      let c := isControlKind r.kind
      ⟨r, if c then 0 else if here then narrowUnits d.nfmt else 8, if c then .reserve else .storage, false, false, q.nextSerial + j, false⟩
  let items := ((List.range n).map item).zipIdx.map fun e =>
    { e.1 with merged := bitsAt (fieldAt b (bits + e.2 / 8) 1) (e.2 % 8) 1 == 1 }
  let at_ := fun (k : Nat) => fieldAt b (bits + (n + 7) / 8 + 2 * k) 2
  let index := (List.range (2 ^ d.khash)).filterMap fun k => (items[at_ k]?).map fun h => (k, h.serial)
  let count := fieldAt b 56 4
  let rd := if q.rd % 2 ^ 32 = fieldAt b 36 4 then q.rd else fieldAt b 36 4
  let ring := q.items.filter Held.inRing
  let more := (List.range (count - ring.length)).map fun k =>
    (⟨Record.token kDATA, 8, .ring (rd + ring.length + k), false, false, q.nextSerial + n + k, false⟩ : Held)
  { q with
    desc := d
    nlost := fieldAt b 24 4
    nabs := fieldAt b 28 4
    items := items ++ ring.take count ++ more
    index := if d.pol = 3 then index else []
    nextSerial := q.nextSerial + n + count
    rd := rd
    wr := if q.wr % 2 ^ 32 = fieldAt b 40 4 then q.wr else fieldAt b 40 4
    failed := bitsAt (fieldAt b 44 1) 0 1 == 1
    sexc := bitsAt (fieldAt b 44 1) 1 1 == 1
    sc := fieldAt b 48 4
    scell := fieldAt b 52 4
    summary := { q.summary with
      count := count, weight := fieldAt b 60 4, kmin := fieldAt b 64 4, kmax := fieldAt b 68 4, tmin := fieldAt b 72 4,
      tmax := fieldAt b 76 4, kr := bitsAt (fieldAt b 80 1) 0 1 == 1 } }

/-! ### Banks, links and nodes (21 R373) -/

/-- The 16 KiB of a bank of an image. -/
def State.bankBytes (s : State) (r : Region) (b : Nat × Nat × Nat) : List Byte := Mem.readBytes (s.imageBank r b) 0 (2 ^ 14)

/-- A BANKS body: the group's mode, first bank and count, and the contents of its banks: what its node holds, or the scratch bytes. -/
def State.banksBody (s : State) (rid : Nat) (r : Region) (e : Nat × Nat × Nat × BankGroup) : List Byte :=
  let (row, col, mu, g) := e
  let (die, vq) := r.quad row col
  match s.groupData (bankNode rid e) g with
  | some bs => bs
  | none => padTo 64 (natBytes 1 g.mode.code ++ natBytes 1 g.first ++ natBytes 1 g.count) ++ (List.range g.count).flatMap fun j =>
    s.bankBytes r (muNumber die vq mu * 8 + g.first + j, (row * r.width + col) * 4 + mu, g.first + j)

/-- A save of one of a group's banks failed (21 R378). -/
def Region.lostGroup (r : Region) (e : Nat × Nat × Nat × BankGroup) : Bool :=
  r.spoiled.any fun b => b.1 == (e.1 * r.width + e.2.1) * 4 + e.2.2.1 && e.2.2.2.first ≤ b.2.1 && b.2.1 < e.2.2.2.first + e.2.2.2.count

/-- A record of 80 bytes, or zeros. -/
def recordOr (r : Option Record) : List Byte := match r with
  | some r => r.bytes
  | none => zeros 80

def linkBody (l : Link) : List Byte :=
  padTo 64 (natBytes 1 l.policy ++ natBytes 1 l.slots.length) ++ recordOr (l.slots[0]?.map (·.r)) ++ recordOr (l.slots[1]?.map (·.r)) ++
    recordOr l.token ++ recordOr l.gap

def joinBody (j : Join) : List Byte := padTo 2 (natBytes 1 j.counts.length) ++ j.counts.flatMap (natBytes 2)
def genBody (g : Gen) : List Byte := natBytes 8 g.key.toNat ++ natBytes 8 g.ctr.toNat
def sinkBody (k : Sink) : List Byte := natBytes 8 k.log ++ natBytes 8 k.size ++ natBytes 8 k.wr ++ natBytes 8 k.seq

/-- A tile image padded to 2,176 bytes. -/
def tileBytes (t : Tile) : List Byte := padTo 2176 (t.weights ++ t.scales ++ t.table)

/-- The 32 bytes of a command (log 30). -/
def Cmd.bytes (c : Cmd) : List Byte :=
  natBytes 1 c.args.op ++ natBytes 1 c.args.rm ++ natBytes 1 c.args.ty ++ natBytes 1 c.reg ++ natBytes 4 c.args.lit ++
    natBytes 8 c.args.a ++ natBytes 8 (scalNat c.args.b) ++ natBytes 8 c.args.c

/-- Its progress: what it has done, its link as a position in the copy queue, all of operand B, its result, and what it has read (14
R300, 16 R340; log 30). -/
def Cmd.more (c : Cmd) (copies : List Cmd) : List Byte :=
  let link := c.link.bind fun n => findIdx? (fun d : Cmd => d.id == n) copies
  natBytes 8 c.progress ++ natBytes 8 c.got ++ natBytes 8 c.rnd ++ natBytes 4 c.lines ++
    natBytes 1 (bitAt c.started 0 + bitAt c.linked 1 + bitAt c.cancelled 2 + bitAt c.result.isSome 3 + bitAt link.isSome 4) ++
    natBytes 1 (link.getD 0) ++ natBytes 2 0 ++ natBytes 4 c.buf.length ++ natBytes 4 0 ++ natBytes 64 c.args.b.toNat ++
    natBytes 64 (c.result.getD 0).toNat ++ c.buf

/-- The size of a command's progress. -/
def moreSize (b : List Byte) : Nat := 168 + fieldAt b 32 4

/-- A command read back, under a new number. -/
def Cmd.ofBytes (id : Nat) (b m : List Byte) (copies : List Cmd) : Cmd :=
  let fl := fieldAt m 28 1
  { Cmd.new id ⟨fieldAt b 0 1, fieldAt b 1 1, fieldAt b 2 1, fieldAt b 8 8, BitVec.ofNat 512 (fieldAt m 40 64), fieldAt b 24 8, fieldAt b 4 4⟩ []
      (fieldAt b 3 1) with
    progress := fieldAt m 0 8
    got := fieldAt m 8 8
    rnd := fieldAt m 16 8
    lines := fieldAt m 24 4
    started := fl.testBit 0
    linked := fl.testBit 1
    cancelled := fl.testBit 2
    result := if fl.testBit 3 then some (BitVec.ofNat 512 (fieldAt m 104 64)) else none
    link := if fl.testBit 4 then (copies[fieldAt m 29 1]?).map (·.id) else none
    buf := m.drop 168 }

/-- A program slot: 16 rules of 8 bytes. -/
def programBytes (p : List Nat) : List Byte := padTo 128 (p.flatMap (natBytes 8))

/-- A walk in progress, in 256 bytes, under its command's position (16 R340; log 30). -/
def Walk.bytes (w : Walk) (cs : List Cmd) : List Byte :=
  let order := match w.flags with
    | none => 0
    | some .lt => 1
    | some .eq => 2
    | some .gt => 3
  padTo 64 (natBytes 1 ((findIdx? (fun c : Cmd => c.id == w.cmd) cs).getD 0) ++ natBytes 1 order ++ natBytes 1 w.policy ++
    natBytes 1 (bitAt w.due 0 + bitAt w.waiting 1) ++ natBytes 1 w.pc ++ natBytes 1 w.cause ++ natBytes 2 0 ++ natBytes 4 w.steps ++
    natBytes 4 w.limit ++ natBytes 8 w.node ++ natBytes 8 w.key ++ natBytes 8 w.va) ++ padTo 64 w.buf ++ programBytes w.program

def Walk.ofBytes (handle : Nat) (aid : Aid) (b : List Byte) (cs : List Cmd) : Walk :=
  let rules := fun (off : Nat) => (List.range 16).map fun j => fieldAt b (off + 8 * j) 8
  { handle := handle
    aid := aid
    cmd := ((cs[fieldAt b 0 1]?).map (·.id)).getD 0
    node := fieldAt b 16 8
    pc := fieldAt b 4 1
    steps := fieldAt b 8 4
    limit := fieldAt b 12 4
    key := fieldAt b 24 8
    flags := [none, some .lt, some .eq, some .gt].getD (fieldAt b 1 1) none
    buf := (b.drop 64).take 64
    program := rules 128
    policy := fieldAt b 2 1
    due := bitsAt (fieldAt b 3 1) 0 1 == 1
    waiting := bitsAt (fieldAt b 3 1) 1 1 == 1
    va := fieldAt b 32 8
    cause := fieldAt b 5 1 }

/-- An ENGQ body: kind and count, the commands, the progress of each, and of the needle the four program slots and the walks. -/
def State.engqBody (s : State) (a : Aid) (g : Agent) (kind : Nat) : List Byte :=
  let e := engineKinds.getD kind .copy
  let cs := g.engineQ e
  let walks := s.ms.walks.filter fun w => w.aid == a
  natBytes 1 kind ++ natBytes 1 cs.length ++ cs.flatMap Cmd.bytes ++ cs.flatMap (fun c => c.more g.copyQ) ++
    (if e = .needle then (List.range 4).flatMap (fun k => programBytes (Tab.getD g.programs k [])) ++ natBytes 1 walks.length ++
      walks.flatMap fun w => w.bytes cs
    else [])

/-- The progress parts of so many commands. -/
def moreParts : Nat → List Byte → List (List Byte) × List Byte
  | 0, b => ([], b)
  | n + 1, b => let (xs, rest) := moreParts n (b.drop (moreSize b)); (b.take (moreSize b) :: xs, rest)

/-- An agent has a command, walk or program of a kind. -/
def State.engqHolds (s : State) (a : Aid) (g : Agent) (e : EngineKind) : Bool :=
  !(g.engineQ e).isEmpty || (e == .needle && (!g.programs.isEmpty || s.ms.walks.any fun w => w.aid == a))

/-- An ENGQ body is written into an agent: a command that it does not change stays as held; one that it does is a new one, whose
register waits for it. -/
def State.putEngq (s : State) (a : Aid) (b : List Byte) : State :=
  match s.agent? a with
  | none => s
  | some g =>
    let e := engineKinds.getD (fieldAt b 0 1) .copy
    let n := fieldAt b 1 1
    let held := g.engineQ e
    let (mores, rest) := moreParts n (b.drop (2 + 32 * n))
    let make := fun (x : State × List Cmd) (j : Nat) =>
      let main := (b.drop (2 + 32 * j)).take 32
      let more := mores.getD j []
      match held[j]? with
      | some c =>
        if c.bytes = main ∧ c.more g.copyQ = more then (x.1, x.2 ++ [c])
        else let (id, s) := x.1.takeId; (s, x.2 ++ [Cmd.ofBytes id main more g.copyQ])
      | none => let (id, s) := x.1.takeId; (s, x.2 ++ [Cmd.ofBytes id main more g.copyQ])
    let (s, cs) := (List.range n).foldl make (s, [])
    let gone := (held.filter fun c => !cs.contains c).map (·.id)
    let fresh := cs.filter fun c => !held.contains c
    let s := s.updAgent a fun g => { g.setEngineQ e cs with
      pending := (g.pending.filter fun p => !gone.contains p.id) ++ (fresh.filter fun c => c.reg != 0).map fun c => ⟨c.reg, c.id, []⟩ }
    let s := s.updMs fun m => { m with reqs := m.reqs.filter fun r => !(r.aid == a && gone.contains r.id) }
    let s := (fresh.filter fun c => c.started && c.result.isNone).foldl (fun s c => s.askEngine a e c) s
    if e != .needle then s
    else
      let programs := (List.range 4).map fun k => (k, (List.range 16).map fun j => fieldAt rest (128 * k + 8 * j) 8)
      let walks := (List.range (fieldAt rest 512 1)).map fun k => (rest.drop (513 + 256 * k)).take 256
      let old := s.ms.walks.filter fun w => w.aid == a
      let (s, ws) := walks.foldl (fun (x : State × List Walk) wb =>
        match old.find? fun w => w.bytes cs == wb with
        | some w => (x.1, x.2 ++ [w])
        | none => let (h, s) := x.1.takeId; (s, x.2 ++ [Walk.ofBytes h a wb cs])) (s, [])
      (s.updMs fun m => { m with walks := (m.walks.filter fun w => w.aid != a) ++ ws }).updAgent a fun g => { g with
        programs := programs }

/-- An ME body, with the types of its tiles and what its pass has beside its descriptor, row and rows held (14 R290, R291; log 30). -/
def meBody (m : Me) (pass : Option Cmd) : List Byte :=
  let buffer := (m.pass.map (·.buffer)).getD []
  tileBytes m.wa ++ tileBytes m.wl ++ natBytes 1 (bitAt m.full 0) ++
    ((List.range 64).flatMap fun r => (List.range 32).flatMap fun c => natBytes 4 (Tab.getD m.acc (r, c) 0)) ++
    natBytes 1 (flagsScalar m.flags) ++ m.slots.flatMap (natBytes 1) ++ natBytes 4 m.outRow ++
    natBytes 8 ((pass.map fun c => scalNat c.args.b).getD 0) ++ natBytes 8 ((pass.map (·.args.a)).getD 0) ++
    natBytes 4 ((pass.map (·.progress)).getD 0) ++ natBytes 4 buffer.length ++ buffer.flatMap Record.bytes ++
    natBytes 1 m.wa.ty ++ natBytes 1 m.wl.ty ++ (match m.pass with
      | some p => natBytes 1 (1 + bitAt p.swapped 1 + bitAt p.held 2 + bitAt p.ending.isSome 3) ++ natBytes 4 p.swaps ++
        natBytes 4 p.pending.length ++ p.pending.flatMap Record.bytes ++ recordOr p.ending
      | none => zeros 9)

/-- Records of 80 bytes one after another. -/
def recordsAt (b : List Byte) (off n : Nat) : List Record := (List.range n).map fun j => Record.ofBytes ((b.drop (off + 80 * j)).take 80)

/-- An ME body is written into an element: the pass in hand stays that of its command. -/
def Me.putMe (m : Me) (b : List Byte) : Me :=
  let rows := fieldAt b 12574 4
  let o := 12578 + 80 * rows
  let fl := fieldAt b (o + 2) 1
  let n := fieldAt b (o + 7) 4
  { m with
    wa := Tile.ofBytes (fieldAt b o 1) (b.take (imageSize (fieldAt b o 1)))
    wl := Tile.ofBytes (fieldAt b (o + 1) 1) ((b.drop 2176).take (imageSize (fieldAt b (o + 1) 1)))
    full := fieldAt b 4352 1 == 1
    acc := (List.range 2048).filterMap fun k =>
      let v := fieldAt b (4353 + 4 * k) 4
      if v = 0 then none else some ((k / 32, k % 32), v)
    flags := BitVec.ofNat 5 (fieldAt b 12545 1)
    slots := (List.range 4).map fun k => fieldAt b (12546 + k) 1
    outRow := fieldAt b 12550 4
    pass := m.pass.map fun p => { p with
      buffer := recordsAt b 12578 rows
      swapped := fl.testBit 1
      held := fl.testBit 2
      swaps := fieldAt b (o + 3) 4
      pending := recordsAt b (o + 11) n
      ending := if fl.testBit 3 then some (Record.ofBytes ((b.drop (o + 11 + 80 * n)).take 80)) else none } }

/-- A LINK body is written into a link; a record that it does not change stays as held. -/
def Link.putLink (l : Link) (b : List Byte) : Link :=
  let at_ := fun (k : Nat) => (b.drop (64 + 80 * k)).take 80
  let slot := fun (k : Nat) => match l.slots[k]? with
    | some h => if h.r.bytes = at_ k then h else { h with r := Record.ofBytes (at_ k) }
    | none => ⟨Record.ofBytes (at_ k), 8, .storage, false, false, l.nextSerial + k, false⟩
  let reg := fun (k : Nat) (old : Option Record) =>
    if recordOr old = at_ k then old else if at_ k = zeros 80 then none else some (Record.ofBytes (at_ k))
  { l with
    policy := fieldAt b 0 1
    slots := (List.range (min (fieldAt b 1 1) 2)).map slot
    token := reg 2 l.token
    gap := reg 3 l.gap
    nextSerial := l.nextSerial + 2 }

/-- An operation that an agent waits in, in 16 bytes: address or barrier word, generation, token register, and its kind: 1 to 3 of a
barrier, with its generation known or not, 8 of an `lkwait` (log 30). -/
def Req.waitBytes (r : Req) : List Byte :=
  let reg := match r.dst with
    | .reg _ code _ _ => code
    | _ => 0
  natBytes 8 r.acc.va ++ zeros 4 ++ natBytes 1 reg ++ natBytes 1 8 ++ zeros 2

def BarWait.waitBytes (w : BarWait) : List Byte :=
  natBytes 8 w.word ++ natBytes 4 (w.gen.getD 0) ++ natBytes 1 w.reg ++ natBytes 1 (1 + w.kind + bitAt w.gen.isSome 2) ++ zeros 2

def State.waitBody (s : State) (a : Aid) : List Byte :=
  ((s.ms.reqs.filter fun r => r.aid == a && r.isLkwait).flatMap Req.waitBytes) ++
  ((s.fab.waits.filter fun w => w.aid == a).flatMap BarWait.waitBytes)

/-- One operation of a WAIT body, which is not one held: an `lkwait` is asked for anew, a barrier's wait stands as it says. -/
def State.addWait (s : State) (a : Aid) (g : Agent) (b : List Byte) : State :=
  let (id, s) := s.takeId
  let reg := fieldAt b 12 1
  let kind := fieldAt b 13 1
  let pend := fun (s : State) => if reg = 0 then s else s.updAgent a fun g => { g with pending := g.pending ++ [⟨reg, id, []⟩] }
  if kind = 8 then
    match s.access a (fieldAt b 0 8) 8 needBoth with
    | (s, .ok x) => (pend s).updMs fun m => { m with
        reqs := m.reqs ++ [⟨id, a, g.ctx, s.incOf a g, .rmw .lkwait 6 64, x, [⟨0, 0, 0⟩], [], .reg a reg 6 64, none, none, [], none, .none⟩] }
    | (s, .error _) => s
  else
    (pend s).updFab fun f => { f with
      waits := f.waits ++ [⟨id, a, kind % 4 - 1, fieldAt b 0 8, if kind.testBit 2 then some (fieldAt b 8 4) else none, [], reg, false⟩] }

/-- A WAIT body is written into an agent: the operations that it does not name end, and those that are new begin. -/
def State.putWait (s : State) (a : Aid) (b : List Byte) : State :=
  match s.agent? a with
  | none => s
  | some g =>
    let new := (List.range (b.length / 16)).map fun j => (b.drop (16 * j)).take 16
    let locks := s.ms.reqs.filter fun r => r.aid == a && r.isLkwait
    let bars := s.fab.waits.filter fun w => w.aid == a
    let gone := ((locks.filter fun r => !new.contains r.waitBytes).map (·.id)) ++ (bars.filter fun w => !new.contains w.waitBytes).map (·.id)
    let known := locks.map Req.waitBytes ++ bars.map BarWait.waitBytes
    let s := s.updMs fun m => { m with reqs := m.reqs.filter fun r => !gone.contains r.id }
    let s := s.updFab fun f => { f with waits := f.waits.filter fun w => !gone.contains w.id }
    let s := s.updAgent a fun g => { g with pending := g.pending.filter fun p => !gone.contains p.id }
    (new.filter fun x => !known.contains x).foldl (fun s x => s.addWait a g x) s

/-! ### The image (21 R372) -/

/-- A section at the place of a queue. -/
def queueSection (type : Nat) (body : List Byte) : Qid → Option Section
  | .mu _ y x mu idx => some ⟨type, mu, idx, y, x, body, 0⟩
  | .port _ y x cu _ port => some ⟨type, cu, port, y, x, body, 0⟩
  | .node _ y x unit idx => some ⟨type, unit, idx, y, x, body, 0⟩
  | .call _ _ | .text _ => none

/-- A section at the place of a node. -/
def nodeSection (n : Nid) (type : Nat) (body : List Byte) : Section := ⟨type, n.unit, n.idx, n.row, n.col, body, 0⟩

/-- A section at the place of an agent. -/
def agentSection (g : Agent) (type : Nat) (body : List Byte) : Section := ⟨type, g.cu, g.slot, g.row, g.col, body, 0⟩

/-- The nodes of a launch in a table. -/
def ofRid {α : Type} (rid : Nat) (t : Tab Nid α) : Tab Nid α := t.filter fun e => e.1.rid == rid

/-- The sections of a launch's image, type by type (log 30). -/
def State.sections (s : State) (rid : Nat) (r : Region) (l : Launch) : List Section :=
  let agents := s.agents.filter fun e => inRid rid e.1
  let cus := agents.foldl (fun c e => addOnce c (e.2.row, e.2.col, e.2.cu)) []
  let queues := s.fab.queues.filter fun e => qInRid rid e.1
  let pass := fun (m : Me) => m.pass.bind fun p => s.cmd? m.owner .matrix p.cmd
  cus.map (fun c => ⟨1, c.2.2, 0, c.1, c.2.1, codeBody (s.cuAgents rid c.1 c.2.1 c.2.2), 0⟩) ++
  agents.map (fun e => agentSection e.2 2 (actorBody e.2)) ++
  queues.filterMap (fun e => queueSection 3 (queueBody e.2) e.1) ++
  r.banks.map (fun b => ⟨4, b.2.2.1, b.2.2.2.first, b.1, b.2.1, s.banksBody rid r b, if r.lostGroup b then 2 else 0⟩) ++
  (s.fab.links.filter fun e => qInRid rid e.1).filterMap (fun e => queueSection 5 (linkBody e.2) e.1) ++
  (ofRid rid s.fab.joins).map (fun e => nodeSection e.1 6 (joinBody e.2)) ++
  (ofRid rid s.fab.gens).map (fun e => nodeSection e.1 7 (genBody e.2)) ++
  (ofRid rid s.fab.mes).map (fun e => nodeSection e.1 8 (meBody e.2 (pass e.2))) ++
  agents.flatMap (fun e => engineKinds.zipIdx.filterMap fun k =>
    if s.engqHolds e.1 e.2 k.1 then some (agentSection e.2 9 (s.engqBody e.1 e.2 k.2)) else none) ++
  agents.filterMap (fun e => let b := s.waitBody e.1; if b.isEmpty then none else some (agentSection e.2 10 b)) ++
  (ofRid rid s.fab.sinks).map (fun e => nodeSection e.1 11 (sinkBody e.2)) ++
  [⟨12, 6, 0, 0, 0, (List.range 16).flatMap fun j => natBytes 8 (l.args.getD j 0), 0⟩]

/-- The header of 128 bytes. -/
def imageHeader (rid : Nat) (r : Region) (l : Launch) (nsec size crc : Nat) : List Byte :=
  padTo 128 (natBytes 4 0x4D495A49 ++ natBytes 2 1 ++ natBytes 2 (r.kind + bitAt r.drnp 1 + bitAt l.reduced 2) ++
    natBytes 2 r.height ++ natBytes 2 r.width ++ natBytes 2 r.ctx ++ natBytes 2 r.inc ++ natBytes 2 (ridLq rid) ++ natBytes 1 r.prio ++
    zeros 1 ++ natBytes 4 (ridSeq rid) ++ natBytes 8 size ++ natBytes 4 nsec ++ natBytes 4 crc ++ natBytes 8 r.ctick)

/-- The bytes of a launch's image. -/
def State.imageBytes (s : State) (rid : Nat) (r : Region) (l : Launch) : List Byte :=
  let secs := s.sections rid r l
  let body := secs.flatMap Section.bytes
  let size := 128 + body.length
  imageHeader rid r l secs.length size (crc32c (imageHeader rid r l secs.length size 0 ++ body)) ++ body

/-! ### Loading (21 R373; 23 R416) -/

/-- The checks of an image against its launch's shape. -/
def imageOk (r : Region) (bs : List Byte) : Bool :=
  let crc := crc32c (bs.take 36 ++ zeros 4 ++ bs.drop 40)
  bs.length ≥ 128 && fieldAt bs 0 4 == 0x4D495A49 && fieldAt bs 4 2 == 1 && fieldAt bs 24 8 == bs.length && fieldAt bs 36 4 == crc &&
  fieldAt bs 8 2 == r.height && fieldAt bs 10 2 == r.width &&
  (Section.parse (min (fieldAt bs 32 4) bs.length) (bs.drop 128)).all fun x => 1 ≤ x.type && x.type ≤ 12

/-- An image names a launch. -/
def imageNames (rid : Nat) (bs : List Byte) : Bool := fieldAt bs 16 2 == ridLq rid && fieldAt bs 20 4 == ridSeq rid

/-- The queue that a section stands for: an outbound port's or link's before an MU's of the same number. -/
def State.queueAt (s : State) (rid : Nat) (x : Section) : Option Qid :=
  let is := fun (q : Qid) => qInRid rid q && (match q with
    | .port _ y c cu _ p => y == x.row && c == x.col && cu == x.unit && p == x.index
    | _ => false)
  match s.fab.queues.find? fun e => is e.1 with
  | some e => some e.1
  | none => (s.fab.queues.find? fun e => qInRid rid e.1 && (match e.1 with
    | .mu _ y c u i => y == x.row && c == x.col && u == x.unit && i == x.index
    | .node _ y c u i => y == x.row && c == x.col && u == x.unit && i == x.index
    | _ => false)).map Prod.fst

/-- The link that a section stands for. -/
def State.linkAt (s : State) (rid : Nat) (x : Section) : Option Qid :=
  (s.fab.links.find? fun e => qInRid rid e.1 && queueSection 5 [] e.1 == some ⟨5, x.unit, x.index, x.row, x.col, [], 0⟩).map Prod.fst

/-- A BANKS body is written into its group. A saved one replaces what the device holds of its banks; a resident one has no body; a lost
one spoils them, with a cause that the image does not give (log 28). -/
def State.putBanks (s : State) (rid : Nat) (r : Region) (x : Section) : State :=
  let mu := (x.row * r.width + x.col) * 4 + x.unit
  let first := fieldAt x.body 1 1
  let banks := (List.range (fieldAt x.body 2 1)).map (first + ·)
  let n : Nid := ⟨rid, x.row, x.col, x.unit, x.index⟩
  let others := fun (r : Region) => r.spoiled.filter fun b => !(b.1 == mu && banks.contains b.2.1)
  if x.state = 1 then s
  else if x.state = 2 then s.updRegion rid fun r => { r with
    spoiled := r.spoiled ++ (banks.filter fun b => !(r.spoiled.any fun c => c.1 == mu && c.2.1 == b)).map fun b => (mu, b, cMEMORY_UE, 0) }
  else match s.putGroupData n x.body with
    | some s => s
    | none => s.updRegion rid fun r => { r with
      saved := Mem.writeBytes r.saved (savedAt mu first) ((x.body.drop 64).take (banks.length * 2 ^ 14))
      spoiled := others r }

/-- A section's body is written into what it describes. -/
def State.putSection (s : State) (rid : Nat) (r : Region) (x : Section) : State :=
  let n : Nid := ⟨rid, x.row, x.col, x.unit, x.index⟩
  match x.type with
  | 1 => s.putCode rid x.row x.col x.unit x.body
  | 2 => s.updAgent (.actor rid x.row x.col x.unit x.index) fun g => g.putActor x.body
  | 3 => match s.queueAt rid x with
    | some q => s.updQueue q fun y => y.putQueue x.body
    | none => s
  | 4 => s.putBanks rid r x
  | 5 => match s.linkAt rid x with
    | some q => s.updFab fun f => { f with links := Tab.modify f.links q fun l => l.putLink x.body }
    | none => s
  | 6 => s.updFab fun f => { f with joins := Tab.modify f.joins n fun j => { j with
      counts := (List.range j.counts.length).map fun k => fieldAt x.body (2 + 2 * k) 2 } }
  | 7 => s.updFab fun f => { f with gens := Tab.modify f.gens n fun g => { g with
      key := BitVec.ofNat 64 (fieldAt x.body 0 8), ctr := BitVec.ofNat 64 (fieldAt x.body 8 8) } }
  | 8 =>
    let s := s.updFab fun f => { f with mes := Tab.modify f.mes n fun m => m.putMe x.body }
    (match Tab.get? s.fab.mes n with
     | some m => match m.pass with
       | some p => s.updCmd m.owner .matrix p.cmd fun c => { c with progress := fieldAt x.body 12570 4 }
       | none => s
     | none => s)
  | 9 => s.putEngq (.actor rid x.row x.col x.unit x.index) x.body
  | 10 => s.putWait (.actor rid x.row x.col x.unit x.index) x.body
  | 11 => s.updFab fun f => { f with sinks := Tab.modify f.sinks n fun k => { k with
      log := fieldAt x.body 0 8, size := fieldAt x.body 8 8, wr := fieldAt x.body 16 8, seq := fieldAt x.body 24 8 } }
  | 12 => s.updLaunch rid fun l => { l with args := (List.range l.args.length).map fun j => fieldAt x.body (8 * j) 8 }
  | _ => s

/-- Two sections describe the same thing; an agent's engine queues differ by their kinds. -/
def Section.sameAs (x y : Section) : Bool :=
  x.type == y.type && x.unit == y.unit && x.index == y.index && x.row == y.row && x.col == y.col &&
    (x.type != 9 || fieldAt x.body 0 1 == fieldAt y.body 0 1)

/-- An engine queue or a wait that an image does not have is empty. -/
def State.dropSection (s : State) (rid : Nat) (x : Section) : State :=
  let a := Aid.actor rid x.row x.col x.unit x.index
  match x.type with
  | 9 => s.putEngq a (natBytes 1 (fieldAt x.body 0 1) ++ zeros 514)
  | 10 => s.putWait a []
  | _ => s

/-- An image is loaded, and the launch's image is wholly that: each section that differs from what was held is written in, and engine
queues and waits that it lacks are emptied; resident banks move into it first (log 30). Firings in progress are delivered what the image has
at their ports. -/
def State.loadImage (s : State) (rid : Nat) (r : Region) (l : Launch) (bs : List Byte) : State :=
  let held := s.sections rid r l
  let new := Section.parse (fieldAt bs 32 4) (bs.drop 128)
  let changed := new.filter fun x => !held.contains x
  let gone := held.filter fun x => (x.type == 9 || x.type == 10) && !(new.any fun y => x.sameAs y)
  if changed.isEmpty && gone.isEmpty then s
  else
    let s := gone.foldl (fun s x => s.dropSection rid x) s
    let s := (changed.foldl (fun s x => s.putSection rid r x) s).redeliver rid
    s.updFab fun f => { f with gens := f.gens.map fun e => if e.1.rid = rid then (e.1, s.recountGen e.2) else e }

end Sys2Proof.Machine
end

