-- ==== Sys2Proof/Machine/System.lean ====
section
/-! DEFINITION. The system instructions: what they check and send at issue, and what they do at their block's commit (spec 23 R403
to R419; 22 R395; 24 R428, R438). -/
namespace Sys2Proof.Machine

/-! ### Issue (23 R403, R404) -/

/-- A system instruction whose effect comes at commit; an operand that its entry refuses raises ILLEGAL_TARGET. -/
def sysBody (ok : Nat → Vec → Bool) (i : Issue) (o : Operands) (s : State) : State :=
  let a := scalNat o.a.bits
  if !ok a o.b.bits then s.faultAt i cTARGET 0
  else s.updBlock i.aid fun b => (b.setStat i.idx .fired).effect i.idx
    (.sys ⟨i.ins.op, i.ins.rm, a, o.b.bits, i.ins.tokenReg⟩ (i.follows o))

/-- SCALL (23 R406). -/
def execScall (f : FX) (s : State) : Host.Outcome State Fault Refusal :=
  .next (s.issue (f.ins 0xD0) (sysBody fun a _ => a < 256))

/-- SNOTIFY (23 R408). -/
def execSnotify (f : FX) (s : State) : Host.Outcome State Fault Refusal :=
  .next (s.issue (f.ins 0xD1) (sysBody fun a _ => if f.rm = 1 then a == 0 else decide (a < 2 ^ 12)))

/-- SWAIT_F0 (23 R409). -/
def execSwaitF0 (f : F0) (s : State) : Host.Outcome State Fault Refusal :=
  .next (s.issue (f.ins 0xD2) fun i o s => s.awaitDeadline i (scalNat o.a.bits) o.dep)

/-- SWAIT_F1 (23 R409). -/
def execSwaitF1 (f : FX) (s : State) : Host.Outcome State Fault Refusal :=
  .next (s.issue (f.ins 0xD2) fun i o s => s.awaitDeadline i (scalNat o.a.bits) o.dep)

/-- The address of a control register that an instruction may name (23 R412). -/
def crAddress (a : Nat) : Bool := a % 8 == 0 && a < 2 ^ 20

/-- MFCR (23 R412): the value is read at issue. -/
def execMfcr (f : FX) (s : State) : Host.Outcome State Fault Refusal :=
  .next (s.issue (f.ins 0xD3) fun i o s =>
    let a := scalNat o.a.bits
    if !crAddress a then s.faultAt i cTARGET 0
    else if !s.mayRead (i.g.level == .M) i.g.ctx a then s.faultAt i cPRIVILEGED 0
    else
      let v : Val := ⟨scal (s.readCr a), o.dep⟩
      s.deliver i v v 0)

/-- MTCR (23 R412): its address and level are checked at issue. -/
def execMtcr (f : FX) (s : State) : Host.Outcome State Fault Refusal :=
  .next (s.issue (f.ins 0xD4) fun i o s =>
    let a := scalNat o.a.bits
    if crAddress a && !s.mayWrite (i.g.level == .M) i.g.ctx a then s.faultAt i cPRIVILEGED 0
    else sysBody (fun a _ => crAddress a) i o s)

/-- ERET (23 R413): the record is operand A; the run ends. -/
def execEret (f : F0) (s : State) : Host.Outcome State Fault Refusal :=
  .next (s.issue (f.ins 0xD5) fun i o s =>
    (s.updBlock i.aid fun b => b.effect i.idx
      (.sys ⟨0xD5, 0, bitsAt o.a.bits.toNat 384 64, 0, i.ins.tokenReg⟩ (i.follows o))).exitTo i .done)

/-- TLBI (23 R415). -/
def execTlbi (f : FX) (s : State) : Host.Outcome State Fault Refusal :=
  .next (s.issue (f.ins 0xD6) (sysBody fun _ b => decide (scalNat b < 2 ^ 11)))

/-- The operand of a region op names a launch (23 R416). -/
def namesLaunch (a : Nat) (_ : Vec) : Bool := a < 2 ^ 44

/-- FRZ (23 R416). -/
def execFrz (f : FX) (s : State) : Host.Outcome State Fault Refusal := .next (s.issue (f.ins 0xD7) (sysBody namesLaunch))
/-- DRN (23 R416). -/
def execDrn (f : FX) (s : State) : Host.Outcome State Fault Refusal := .next (s.issue (f.ins 0xD8) (sysBody namesLaunch))
/-- IMGSV (23 R416). -/
def execImgsv (f : FX) (s : State) : Host.Outcome State Fault Refusal := .next (s.issue (f.ins 0xD9) (sysBody namesLaunch))
/-- IMGSV_DROP (23 R416). -/
def execImgsvDrop (f : FX) (s : State) : Host.Outcome State Fault Refusal := .next (s.issue (f.ins 0xD9) (sysBody namesLaunch))
/-- IMGLD (23 R416). -/
def execImgld (f : FX) (s : State) : Host.Outcome State Fault Refusal := .next (s.issue (f.ins 0xDA) (sysBody namesLaunch))
/-- RGRANT (23 R416). -/
def execRgrant (f : FX) (s : State) : Host.Outcome State Fault Refusal := .next (s.issue (f.ins 0xDB) (sysBody namesLaunch))
/-- RFREE_FREE (23 R416). -/
def execRfreeFree (f : FX) (s : State) : Host.Outcome State Fault Refusal := .next (s.issue (f.ins 0xDC) (sysBody namesLaunch))
/-- RFREE_KILL (23 R416). -/
def execRfreeKill (f : FX) (s : State) : Host.Outcome State Fault Refusal := .next (s.issue (f.ins 0xDC) (sysBody namesLaunch))

/-- WDPET_F0 (23 R418). -/
def execWdpetF0 (f : F0) (s : State) : Host.Outcome State Fault Refusal :=
  .next (s.issue (f.ins 0xDD) (sysBody fun a _ => a < 4096))
/-- WDPET_F1 (23 R418). -/
def execWdpetF1 (f : FX) (s : State) : Host.Outcome State Fault Refusal :=
  .next (s.issue (f.ins 0xDD) (sysBody fun a _ => a < 4096))

/-- The counter that `ecnt` names: its die, quad (`0x1FF` for a die counter) and index. -/
def counterOf (a : Nat) : Option (Nat × Nat × Nat) :=
  let k := (bitsAt a 14 6, bitsAt a 0 9, bitsAt a 9 5)
  if a ≥ 2 ^ 20 then none
  else if k.2.1 = 0x1FF ∨ (k.2.1 < 320 ∧ k.2.2 < 8) then some k
  else none

/-- The issuer reaches a counter: at level M, or one of a quad that its context holds (23 R419). -/
def State.mayCount (s : State) (g : Agent) (k : Nat × Nat × Nat) : Bool :=
  g.level == .M || (k.2.1 != 0x1FF && s.placed.any fun e => e.2.ctx == g.ctx && e.2.cells.any fun c =>
    e.2.quad c.1 c.2 == (k.1, k.2.1))

/-- ECNT_RD (23 R419): the count, read at issue. -/
def execEcntRd (f : FX) (s : State) : Host.Outcome State Fault Refusal :=
  .next (s.issue (f.ins 0xDE) fun i o s =>
    match counterOf (scalNat o.a.bits) with
    | none => s.faultAt i cTARGET 0
    | some k =>
      let n := if s.mayCount i.g k then (Tab.getD s.sched.counters k ⟨0, 0⟩).count else sNOTOWNER
      s.deliver i ⟨scal n, o.dep⟩ ⟨scal n, o.dep⟩ 0)

/-- ECNT_SEL (23 R419). -/
def execEcntSel (f : FX) (s : State) : Host.Outcome State Fault Refusal :=
  .next (s.issue (f.ins 0xDE) (sysBody fun a _ => (counterOf a).isSome))
/-- ECNT_CLR (23 R419). -/
def execEcntClr (f : FX) (s : State) : Host.Outcome State Fault Refusal :=
  .next (s.issue (f.ins 0xDE) (sysBody fun a _ => (counterOf a).isSome))

/-- HALT (23 R414). -/
def execHalt (f : F0) (s : State) : Host.Outcome State Fault Refusal :=
  .next (s.issue (f.ins 0xDF) fun i _ s => s.exitTo i .halt)

/-! ### What waits before a commit -/

/-- An agent's requests, IO writes and commands that have not been performed (15 R301). -/
def State.outstanding (s : State) (a : Aid) : List Nat :=
  let own := (s.ms.reqs.filter fun r => r.aid == a).map (·.id)
  let io := (s.ms.ioWrites.filter fun w => w.aid == some a).map (·.id)
  let cmds := match s.agent? a with
    | some g => ((g.copyQ ++ g.matrixQ ++ g.needleQ ++ g.fullerQ).filter fun c =>
        c.result.isNone && !(c.args.op == 0xB4 && c.args.b.getLsbD 49)).map (·.id)
    | none => []
  unionDep (unionDep own io) cmds

/-- A system effect that its block cannot commit yet: `tlbi` and `mtcr` behind the accesses they follow (23 R412, R415), an image or
grant behind a capture that has not closed, and a placement or kill behind a retired incarnation (21 R382). -/
def State.sysHolds (s : State) (a : Aid) (o : SysOp) (after : List Nat) : Bool :=
  let l := s.launch? o.a
  let inc := match l with
    | some l => !s.incFree l.ctx (s.context l.ctx).incnext
    | none => false
  match o.op with
  | 0xD6 => !(after.all s.performed)
  | 0xD4 => !(after.all s.performed) || !(s.outstanding a).isEmpty
  | 0xD9 => s.frozen o.a
  | 0xDB => s.frozen o.a || (inc && l.any fun l => l.state == .waiting)
  | 0xDC => o.rm == 1 && inc && l.any fun l => l.state == .running || l.state == .completed
  | _ => false

/-! ### Calls (23 R406 to R408; 24 R428, R438) -/

/-- The record of a call. -/
def callRecord (g : Agent) (tick : Nat) (b : Vec) (sr : List Nat) : Record :=
  { Record.data b (tick % 2 ^ 32) false sr with key := g.ctx, kv := true }

/-- A call of a host vector: the ring slot is written, and its vector raised, once the write is sent. -/
def State.hostCall (s : State) (a : Aid) (g : Agent) (o : SysOp) (vec id : Nat) (sr : List Nat) : State :=
  match s.vfOf g.ctx with
  | none => s.arrive a o.reg id sNOSVC []
  | some v =>
    let x := s.vf v
    if x.hcrb + x.lslots = 0 then s.arrive a o.reg id sNOSVC []
    else if wrap 32 (Int.ofNat x.hcrt - x.hcrh) = 2 ^ x.lslots then s.arrive a o.reg id sREJECTED []
    else
      let w : IoWrite := ⟨id, some a, g.ctx, some v, x.hcrb + 64 * (x.hcrt % 2 ^ x.lslots), natBytes 64 o.b.toNat, false,
        some (a, o.reg, id), if o.rm = 1 then sr else [], some vec, allEnabled 64⟩
      (s.updMs fun m => { m with ioWrites := m.ioWrites ++ [w] }).updVf v fun f => { f with hcrt := (f.hcrt + 1) % 2 ^ 32 }

/-- A call of a service thread. Of a call that a die of another partition refuses no rule states the status (21 R386; log 57). -/
def State.threadCall (s : State) (a : Aid) (g : Agent) (o : SysOp) (d t id : Nat) (sr : List Nat) : State :=
  if !(s.threadCtl d t).en then s.arrive a o.reg id sNOSVC []
  else if s.refuses g.die d then let (v, s) := (s.refuse d).free; s.arrive a o.reg id (scalNat v) []
  else
    match s.arriveAt (.call d t) (callRecord g s.clk.tick o.b (if o.rm = 1 then sr else [])) with
    | (s, .rejected) => s.arrive a o.reg id sREJECTED []
    | (s, .shed) => s
    | (s, .kept) =>
      match (s.callQueue d t).items.reverse.find? fun h => !h.isControl && h.r.kv && h.r.key == g.ctx with
      | some h => s.updSched fun x => { x with calls := x.calls ++ [⟨id, a, o.reg, g.ctx, .thread d t, h.serial, none⟩] }
      | none => s

/-- `scall` at commit. The service table is read at the home; where it cannot be read no service answers. -/
def State.applyScall (s : State) (a : Aid) (g : Agent) (o : SysOp) (id : Nat) (sr : List Nat) : State :=
  let tab := (s.context g.ctx).svctab
  if tab = 0 then s.arrive a o.reg id sNOSVC []
  else
    match s.muRead g.die g.vq g.ctx (wrap 64 (tab * 2 ^ 12 + 8 * o.a : Nat)) 8 with
    | (s, .error _) => s.arrive a o.reg id sNOSVC []
    | (s, .ok bs) =>
      let e := bytesNat bs
      let rest := e - 2 ^ 63
      if e < 2 ^ 63 then s.arrive a o.reg id sNOSVC []
      else if bitsAt e 62 1 = 1 then
        if rest ≥ 2 ^ 62 + 32 then s.arrive a o.reg id sNOSVC [] else s.hostCall a g o (bitsAt e 0 5) id sr
      else if bitsAt e 61 1 = 1 then
        let fn := bitsAt e 0 8
        if fn = 1 ∨ fn = 2 then s.updSched fun x => { x with calls := x.calls ++ [⟨id, a, o.reg, g.ctx, a, 0, some (fn, o.b)⟩] }
        else s.arrive a o.reg id sNOSVC []
      else s.threadCall a g o (bitsAt e 6 6) (bitsAt e 0 6) id sr

/-- The calls that stand for the entry of one call complete together. -/
def State.completeCalls (s : State) (c : Nat) (status : Nat) (dep : List Nat) : State :=
  match s.sched.calls.find? fun d => d.id == c with
  | none => s
  | some d => (s.sched.calls.filter fun e => e.id == c || (e.fn.isNone && d.fn.isNone && e.thread == d.thread && e.serial == d.serial)).foldl
      (fun s e => s.completeCall e status dep) s

/-- `snotify` at commit. A record that another policy than REJECT sheds leaves a status that no rule states (log 3); so does one that a
die of another partition refuses (21 R386; log 57). -/
def State.applySnotify (s : State) (a : Aid) (g : Agent) (o : SysOp) (id : Nat) : State :=
  if o.rm = 1 then
    let s := match g.call with
      | some c =>
        let made := (g.firing.map Firing.made).getD []
        (s.completeCalls c (scalNat o.b % 2 ^ 63) made).updAgent a fun g => { g with call := none }
      | none => s
    s.arrive a o.reg id 0 []
  else
    let d := bitsAt o.a 6 6
    let t := bitsAt o.a 0 6
    let k := s.threadCtl d t
    if k.ctx != g.ctx && g.level != .M then s.arrive a o.reg id sNOTOWNER []
    else if !k.en then s.arrive a o.reg id sNOSVC []
    else if s.refuses g.die d then let (v, s) := (s.refuse d).free; s.arrive a o.reg id (scalNat v) []
    else
      match s.notify d t (scalNat o.b) [] with
      | (s, .kept) => s.arrive a o.reg id 0 []
      | (s, .rejected) => s.arrive a o.reg id sREJECTED []
      | (s, .shed) => let (v, s) := s.free; s.arrive a o.reg id (scalNat v) []

/-! ### Shoot-down (23 R415) -/

/-- `tlbi` at commit. Its token waits for what the dropped entries translated, and under `.pod` for every other package (22 R395). -/
def State.applyTlbi (s : State) (a : Aid) (g : Agent) (o : SysOp) (id : Nat) : State :=
  let b := scalNat o.b
  let ctx := b % 2 ^ 10
  if ctx != g.ctx && g.level != .M then s.arrive a o.reg id sNOTOWNER []
  else
    let va := if b.testBit 10 then none else some o.a
    let s := if o.rm = 2 then s.askPod id ctx va else s
    s.beginShot ⟨ctx, va, if o.rm = 0 then some g.die else none⟩ id (.token a o.reg)

/-! ### Regions (23 R416, R417) -/

/-- Writes a byte string for an agent, line by line; the first failure gives its cause. -/
def State.writeOut (s : State) (a : Aid) (ctx va : Nat) (bs : List Byte) : State × Except Nat Unit :=
  let step := fun (acc : State × List Byte × Except Nat Unit) (p : Nat × Nat) =>
    match acc with
    | (s, bs, .error e) => (s, bs, .error e)
    | (s, bs, .ok _) =>
      match s.access a p.1 p.2 needWrite with
      | (s, .error c) => (s, bs, .error c)
      | (s, .ok x) =>
        if x.mt = 2 then
          let (n, s) := s.takeId
          (s.updMs fun m => { m with
            ioWrites := m.ioWrites ++ [⟨n, some a, ctx, s.vfOf ctx, x.pa, bs.take p.2, false, none, [], none, allEnabled p.2⟩] }, bs.drop p.2, .ok ())
        else
          match s.writeAccess (.agent a) ctx x (bs.take p.2) true with
          | (s, true) => (s, bs.drop p.2, .ok ())
          | (s, false) => (s, bs, .error cMEMORY_UE)
  let (s, _, r) := (linePieces (bs.length / 64 + 2) va bs.length).foldl step (s, bs, .ok ())
  (s, r)

/-- Reads a byte string for an agent. -/
def State.readIn (s : State) (a : Aid) (ctx va n : Nat) : State × Except Nat (List Byte) :=
  (linePieces (n / 64 + 2) va n).foldl (fun (acc : State × Except Nat (List Byte)) p =>
    match acc with
    | (s, .error e) => (s, .error e)
    | (s, .ok bs) =>
      match s.access a p.1 p.2 needRead with
      | (s, .error c) => (s, .error c)
      | (s, .ok x) =>
        match s.readAccess (.agent a) ctx x true with
        | (s, _, true) => (s, .error cMEMORY_UE)
        | (s, b, false) => (s, .ok (bs ++ b))) (s, .ok [])

/-- The banks of a held image all move into it. -/
def State.saveResident (s : State) (rid : Nat) (r : Region) : State :=
  let s := r.bankList.foldl (fun s b =>
    if Tab.get? s.sched.tags b.1 = some ⟨true, r.ctx, r.inc⟩ then s.keepBank rid b.1 b.2.1 b.2.2 else s) s
  let mine := r.bankList.filter fun b => Tab.get? s.sched.tags b.1 = some ⟨true, r.ctx, r.inc⟩
  let s := s.updMs fun m => { m with scratch := m.scratch.filter fun c => !(mine.any fun b => b.1 == c.1 / 2 ^ 14) }
  s.clearTags r.ctx r.inc

/-- `imgsv`: the image goes to memory; with `.drop` only memory keeps it. The status is its size. -/
def State.imgsv (s : State) (a : Aid) (g : Agent) (rid : Nat) (r : Region) (l : Launch) (va : Nat) (drop : Bool) : State × Nat :=
  if va % 64 != 0 then (s, failToken cALIGN 0 0)
  else
    let bs := s.imageBytes rid r l
    match s.writeOut a g.ctx va bs with
    | (s, .error c) => (s, failToken c 0 0)
    | (s, .ok _) =>
      if !drop then (s, bs.length)
      else
        let s := (s.saveResident rid r).updLaunch rid fun l => { l with state := .exported, preempted := false }
        (s.updSched fun x => { x with exported := x.exported ++ [⟨rid, va, bs.length, crc32c bs⟩] }, bs.length)

/-- An image that `imgld` has read: one that fails its checks ends the launch (21 R373); one of another launch is refused. -/
def State.takeImage (s : State) (rid : Nat) (r : Region) (l : Launch) (bs : List Byte) : State × Nat :=
  let drop := fun (s : State) => s.updSched fun x => { x with exported := x.exported.filter fun e => e.rid != rid }
  if !imageOk r bs then (drop ((s.completeLaunch rid stCONFIG cPLACEMENT).freeRegion rid), sBADIMG + cPLACEMENT * 2 ^ 8)
  else if !imageNames rid bs then (s, sBADIMG + cPLACEMENT * 2 ^ 8)
  else (((drop s).loadImage rid r l bs).updLaunch rid fun l => { l with state := .imaged, preempted := true, since := s.clk.tick }, 0)

/-- Bytes of an image that have been read: the header of 128 bytes gives the size of the whole. -/
def imageReach (bs : List Byte) : Nat := if bs.length < 128 then 128 else fieldAt bs 24 8

/-- `imgld` begins: its image is read line by line. -/
def State.beginImgld (s : State) (a : Aid) (reg id rid va : Nat) : State :=
  s.updSched fun x => { x with imageReads := x.imageReads ++ [⟨id, a, reg, rid, va, []⟩] }

/-- The next line of an image that `imgld` reads, once its VF's bucket lets it (24 R434); after the last one the launch is judged again, and
takes it. -/
def State.imageRead (s : State) (id : Nat) : State :=
  match s.sched.imageReads.find? fun i => i.id == id with
  | none => s
  | some i =>
    let ends := fun (s : State) (v : Nat) =>
      (s.updSched fun x => { x with imageReads := x.imageReads.filter fun j => j.id != id }).arrive i.aid i.reg id v []
    let va := wrap 64 (i.va + i.got.length : Nat)
    let n := min (imageReach i.got - i.got.length) (64 - va % 64)
    if n = 0 then
      match s.launch? i.rid, s.region? i.rid with
      | some l, some r =>
        if l.state != .exported then ends s sSTATE
        else let (s, v) := s.takeImage i.rid r l (i.got.take (imageReach i.got)); ends s v
      | _, _ => ends s sSTATE
    else if !s.engineMayRead i.aid va n then s
    else
      match s.readIn i.aid (s.ctxOf i.aid) va n with
      | (s, .error c) => ends s (failToken c 0 0)
      | (s, .ok bs) => s.updSched fun x => { x with
          imageReads := x.imageReads.map fun j => if j.id = id then { j with got := j.got ++ bs } else j }

/-- A region op on a launch that its issuer may name. -/
def State.regionOp (s : State) (a : Aid) (g : Agent) (o : SysOp) (id rid : Nat) (l : Launch) : State :=
  let b := scalNat o.b
  let who := (a, o.reg, id)
  let say := fun (s : State) (v : Nat) => s.arrive a o.reg id v []
  let op := (s.region? rid).map (·.op)
  let running := l.state == .running && !s.frozen rid
  match o.op, s.region? rid with
  | 0xD7, some _ => if running then s.startFreeze rid (some who) else say s sSTATE
  | 0xD8, some r =>
    if !running then say s sSTATE
    else
      let s := if op = some .none then s else s.answerRegionOp r sSTATE
      s.startDrain rid (s.clk.tick + b) .software (some who)
  | 0xD9, some r =>
    if l.state != .imaged then say s sSTATE
    else let (s, v) := s.imgsv a g rid r l b (o.rm == 1); say s v
  | 0xDA, some _ =>
    if l.state != .exported then say s sSTATE
    else s.beginImgld a o.reg id rid b
  | 0xDB, _ =>
    if l.state != .imaged && l.state != .waiting then say s sSTATE
    else
      let y := bitsAt b 0 16
      let x := bitsAt b 16 16
      if s.originIn (s.lqDieMask (ridLq rid)) l.height l.width y x && s.rectFree l.height l.width y x then
        say (s.placeLaunch rid y x) 0
      else say s sBUSY
  | 0xDC, some r =>
    if o.rm = 1 then (if l.state = .waiting then say s sSTATE else say (s.killLaunch rid) 0)
    else if l.state = .completed || (running && l.started && s.quiescent rid) then
      say (((s.answerRegionOp r sSTATE).completeLaunch rid stFREED 0).freeRegion rid) 0
    else say s sSTATE
  | _, _ => say s sSTATE

/-- The launch that a region op names, and the op's effect. A launch that has been retired, or was never admitted, is not named; a killed one
gives STATE (23 R417; log 33). -/
def State.applyRegionOp (s : State) (a : Aid) (g : Agent) (o : SysOp) (id : Nat) : State :=
  let past := fun (l : Launch) => l.state == .completed && l.status != stKILLED &&
    !(seqLater (ridSeq o.a) (s.lq (ridLq o.a)).done || ridSeq o.a == (s.lq (ridLq o.a)).done)
  match s.launch? o.a with
  | none => s.arrive a o.reg id sNOSVC []
  | some l =>
    if l.ctx != g.ctx && g.level != .M then s.arrive a o.reg id sNOTOWNER []
    else if past l && !(o.op == 0xDC && (s.region? o.a).isSome) then s.arrive a o.reg id sNOSVC []
    else s.regionOp a g o id o.a l

/-! ### Commit (23 R403) -/

/-- The effect of a system instruction at its block's commit; `id` names the write of its register, and `sr` the accesses that a strong
call carries. -/
def State.applySys (s : State) (a : Aid) (o : SysOp) (id : Nat) (sr : List Nat) : State :=
  match s.agent? a with
  | none => s
  | some g =>
    match o.op with
    | 0xBB =>
      let (s, v) := s.applyGenk a o.a (lowScal o.b) (o.b.extractLsb' 64 64) (o.rm == 1)
      s.arrive a o.reg id v []
    | 0xD0 => s.applyScall a g o id sr
    | 0xD1 => s.applySnotify a g o id
    | 0xD4 => (s.writeCrFrom (s.dieOf g.die) o.a (scalNat o.b) (g.level == .M)).arrive a o.reg id 0 []
    | 0xD5 => let (s, v) := s.returnFromTrap g.ctx g.level o.a; s.arrive a o.reg id v []
    | 0xD6 => s.applyTlbi a g o id
    | 0xDD =>
      if (s.lq o.a).ctx != g.ctx && g.level != .M then s.arrive a o.reg id sNOTOWNER []
      else (s.updLadder o.a fun _ => ⟨0, 0, 0⟩).arrive a o.reg id 0 []
    | 0xDE =>
      match counterOf o.a with
      | none => s
      | some k =>
        if !s.mayCount g k then s.arrive a o.reg id sNOTOWNER []
        else
          let old := Tab.getD s.sched.counters k ⟨0, 0⟩
          let new : Counter := if o.rm = 1 then ⟨scalNat o.b % 2 ^ 16, 0⟩ else ⟨old.code, 0⟩
          (s.updSched fun x => { x with counters := Tab.set x.counters k new }).arrive a o.reg id 0 []
    | _ => s.applyRegionOp a g o id

end Sys2Proof.Machine
end

