-- ==== Sys2Proof/Machine/Commit.lean ====
section
/-! DEFINITION. The commit of a block: starvation, what a commit waits for, its effects in their order, the transfer of control, and
the end of a firing or run (spec 01 R15 to R20; 08 R153 to R157; 09 R179, R188; 11 R234 to R237; 12 R252; 13 R261, R264, R272; 14
R277, R296; 15 R304, R307; 23 R403, R407, R414). -/
namespace Sys2Proof.Machine

/-! ### Starvation (08 R154) -/

/-- The operand slots that an instruction cannot issue without. -/
def Block.awaits (b : Block) (idx : Nat) (i : Ins) : List Nat :=
  (if i.usesA && !i.litIsA && !Ins.validSrc i.srcA then [0] else []) ++
  (if i.usesB && !i.litIsB && !Ins.validSrc i.srcB then [1] else []) ++
  (match i.cUse with
   | .data => [2]
   | .order => if i.predicated || !(b.producers idx 2).isEmpty then [2] else []
   | .pred => if i.predicated then [2] else [])

/-- An instruction may still send to a slot: it is not resolved, or it is a store, whose token never comes in its own block (01 R17). -/
def Block.mayFeed (b : Block) (j : Nat) : Bool :=
  match b.statOf j with
  | .waiting | .issued => true
  | .fired => (match b.insAt j with
    | some i => i.op = 0x93 || i.op = 0x94 || i.op = 0x95 || i.op = 0x97
    | none => false)
  | .declined | .starved => false

/-- An instruction starves: a slot that it still lacks cannot be fed. -/
def Block.starves (g : Agent) (b : Block) (idx : Nat) : Bool :=
  b.statOf idx == .waiting &&
  (match b.insAt idx with
   | some i => (b.awaits idx i).any fun k => (slotValue g b idx k).isNone && !((b.producers idx k).any b.mayFeed)
   | none => false)

/-- One pass over the instructions of a block. -/
def Block.starveOnce (g : Agent) (b : Block) : Block :=
  (List.range b.code.length).foldl (fun b j => if b.starves g j then b.setStat j .starved else b) b

/-- The block with every starved instruction marked; each pass but the last marks one or more. -/
def Block.settleStarved (g : Agent) : Nat → Block → Block
  | 0, b => b
  | n + 1, b => (b.starveOnce g).settleStarved g n

/-- An instruction is resolved. -/
def IStat.resolved : IStat → Bool
  | .fired | .declined | .starved => true
  | .waiting | .issued => false

/-- Every instruction is resolved. -/
def Block.resolved (b : Block) : Bool := (List.range b.code.length).all fun j => (b.statOf j).resolved

/-- A store that has fired and whose token is wired to a slot of its own block, which therefore never commits (01 R17). -/
def Block.feedsBack (b : Block) : Bool := (List.range b.code.length).any fun j => b.statOf j == .fired && (match b.insAt j with
  | some i => b.mayFeed j && i.targets.any fun t => match t with
    | .slot _ _ => true
    | .reg _ => false
  | none => false)

/-! ### What a commit waits for -/

/-- The commands of a block for a queue. -/
def Block.commandsFor (b : Block) (q : EngineKind) : Nat :=
  (b.effects.filter fun e => match e.2 with
    | .cmd k _ _ _ _ => k == q
    | _ => false).length

/-- Stores and atomics of a block. -/
def Block.commitAccesses (b : Block) : Nat :=
  sumNat (b.effects.map fun e => match e.2 with
    | .mem _ _ _ acc _ _ _ _ => acc.length
    | _ => 0)

/-- Vector instructions of a block that are performed from its commit on. -/
def Block.commitVectors (b : Block) : Nat :=
  (b.effects.filter fun e => match e.2 with
    | .mem _ _ _ acc vector _ _ _ => vector && !acc.isEmpty
    | _ => false).length

/-- Stores and atomics that the agents of a CU have sent and not yet performed; a queued `lkwait` stands at its home. -/
def State.commitQueue (s : State) (a : Aid) (g : Agent) : Nat :=
  (s.ms.reqs.filter fun r => (match r.kind with
      | .write _ => true
      | .rmw _ _ _ => r.waitOrder.isNone
      | _ => false) && s.sameCu a g r.aid).length

/-- Room in the engine queues (14 R277), in the commit queue of 64 entries and among the 16 vector requests of the CU, and what the
block's own effects wait for (12 R251, R252; 23 R412, R415). -/
def State.commitHolds (s : State) (a : Aid) (g : Agent) (b : Block) : Bool :=
  let full := fun (q : EngineKind) => b.commandsFor q != 0 && (g.engineQ q).length + b.commandsFor q > 16
  let used := s.commitQueue a g
  let vectors := s.vectorRequests a g
  full .copy || full .matrix || full .needle || full .fuller || (used != 0 && used + b.commitAccesses > 64) ||
  (b.commitVectors != 0 && vectors != 0 && vectors + b.commitVectors > 16) ||
  b.effects.any fun e => match e.2 with
    | .sys o after => s.sysHolds a o after
    | .stash _ _ _ _ _ after _ => !(after.all s.performed)
    | .shape _ _ _ after _ => !(after.all s.performed)
    | _ => false

/-! ### Effects -/

/-- An effect put into a list in the order of instruction indices, after those of its own index. -/
def insertEffect (x : Nat × Effect) : List (Nat × Effect) → List (Nat × Effect)
  | [] => [x]
  | y :: t => if x.1 < y.1 then x :: y :: t else y :: insertEffect x t

/-- The effects of a block in ascending instruction index (11 R226, R234; 19 R347). -/
def Block.ordered (b : Block) : List (Nat × Effect) := b.effects.foldl (fun l x => insertEffect x l) []

/-- Numbers for the requests and commands of a list of effects: one for each access, and one for each effect. -/
def numberEffects : Nat → List (Nat × Effect) → List (Nat × Effect × List Nat)
  | _, [] => []
  | n, (i, e) :: rest =>
    let k := match e with
      | .mem _ _ _ acc _ _ _ _ => acc.length + 1
      | _ => 1
    (i, e, (List.range k).map (n + ·)) :: numberEffects (n + k) rest

/-- The numbers of an effect's memory events. -/
def eventIds : Effect × List Nat → List Nat
  | (.mem _ _ _ acc _ _ _ _, ids) => ids.take acc.length
  | (.cmd _ _ _ _ _, ids) => ids
  | _ => []

/-- What the effects of one commit share: the requests that its puts carry, their `exc`, the number of the command of each
instruction, and the block. -/
structure Committing where
  sr : List Nat
  exc : Bool
  commands : List (Nat × Nat)
  block : Origin
  deriving DecidableEq, Repr

/-- An instruction of the block of an origin. -/
def Origin.at_ (o : Origin) (i : Nat) : Origin := { o with iidx := i }

/-- A register has a write on its way, which follows what its instruction follows (15 R304). -/
def State.addPending (s : State) (a : Aid) (code id : Nat) (after : List Nat) : State :=
  if code = 0 then s else s.updAgent a fun g => { g with pending := g.pending ++ [⟨code, id, after⟩] }

/-- A put at commit: the record carries the firing's `exc` (04 R76) and `sr` (15 R307). -/
def State.commitPut (s : State) (a : Aid) (x : Committing) (port : Nat) (r : Record) : State :=
  match (s.agent? a).bind fun g => g.outPort? port with
  | some p => s.putOn p.dst { r with exc := r.exc || x.exc, sr := unionDep r.sr x.sr }
  | none => s

/-- A store's token, written at commit (13 R261). -/
def State.storeToken (s : State) (a : Aid) (x : Committing) (code : Nat) (ids : List Nat) : State :=
  if code = 0 then s
  else if isOutPort code then
    match s.agent? a with
    | some g => s.commitPut a x (code - 48) (Record.data 0 (g.putTime (code - 48)) false [])
    | none => s
  else s.updAgent a fun g => g.write code ⟨0, ids⟩ 0

/-- The requests of a store or atomic, one for each of its accesses (12 R251). The last of the numbers is that of its group. -/
def memRequests (a : Aid) (g : Agent) (inc : Nat) (op : MemOp) (ty W : Nat) (vector : Bool) (after : List Nat) (reg : Nat)
    (acc : List (Access × List Elem)) (ids : List Nat) (o : Origin) : List Req :=
  let grp := ids.getLastD 0
  (acc.zip ids).map fun x =>
    let (kind, dst) : ReqKind × ReqDst := match op with
      | .store sys => (.write (sys && x.1.1.mt != 3), if sys && x.1.1.mt != 3 then .reg a reg ty W else .none)
      | _ => (.rmw op ty W, if vector then .group a grp else .reg a reg ty W)
    ⟨x.2, a, g.ctx, inc, kind, x.1.1, x.1.2, after, dst, none, if vector then some grp else none, [], none, o⟩

/-- A store or atomic at commit. A token of one that accesses nothing follows what the instruction follows (15 R304). -/
def State.commitMem (s : State) (a : Aid) (g : Agent) (x : Committing) (op : MemOp) (ty W : Nat) (acc : List (Access × List Elem))
    (vector : Bool) (after : List Nat) (reg reg1 : Nat) (ids : List Nat) (o : Origin) : State :=
  let rs := memRequests a g (s.incOf a g) op ty W vector after reg acc ids o
  let s := s.updMs fun m => { m with reqs := m.reqs ++ rs }
  let late := match rs with
    | r :: _ => (match r.dst with | .reg _ _ _ _ => true | _ => false)
    | [] => false
  if late then s.addPending a reg (ids.headD 0) after
  else
    match op with
    | .store _ =>
      let dep := if acc.isEmpty then after else ids.take acc.length
      (s.storeToken a x reg dep).storeToken a x reg1 dep
    | _ =>
      let grp := ids.getLastD 0
      let s := s.addPending a reg grp after
      if acc.isEmpty then s.arrive a reg grp 0 []
      else s.updMs fun m => { m with groups := m.groups ++ [(grp, ⟨a, reg, 0, acc.length, false⟩)] }

/-- A command enters its queue (14 R277); a matrix command to which a `cpyx` is linked knows the copy (R282). -/
def State.commitCmd (s : State) (a : Aid) (x : Committing) (q : EngineKind) (args : CmdArgs) (after : List Nat)
    (reg : Nat) (link : Option Nat) (id : Nat) (o : Origin) : State :=
  let c := { Cmd.new id args after reg with
    origin := o
    link := link.bind (Tab.get? x.commands), linked := (link.bind (Tab.get? x.commands)).isSome }
  let s := s.updAgent a fun g => g.setEngineQ q (g.engineQ q ++ [c])
  let s := s.addPending a reg id after
  if args.op = 0xC7 && reg != 0 then s.addPending a (reg + 1) id after else s

/-- `sinv`, `swb` and `smap` at commit (13 R268, R269). -/
def State.commitStash (s : State) (a : Aid) (op va len bank mu : Nat) : State :=
  match a.rid with
  | none => s
  | some rid =>
    let touched := fun (l : StashLine) => len != 0 &&
      (wrap 64 ((l.va : Int) - va) < len || wrap 64 ((va : Int) - l.va) < 64)
    let writeBack := fun (s : State) (n : Nid) (st : Stash) (hit : StashLine → Bool) =>
      let s := st.lines.foldl (fun s l => if hit l && l.dirty then s.putLine l else s) s
      s.updFab fun f => { f with stashes := Tab.set f.stashes n { st with
        lines := st.lines.map fun l => if hit l then { l with dirty := false } else l } }
    if op = 0x9D then
      match s.groupAt a mu bank with
      | none => s
      | some (n, _) =>
        let st := Tab.getD s.fab.stashes n ⟨0, 0, false, []⟩
        let s := writeBack s n st fun _ => true
        s.updFab fun f => { f with stashes := Tab.set f.stashes n ⟨va, len, true, []⟩ }
    else
      s.fab.stashes.foldl (fun s e =>
        if e.1.rid != rid then s
        else if op = 0x9C then writeBack s e.1 e.2 touched
        else s.updFab fun f => { f with stashes := Tab.modify f.stashes e.1 fun st =>
          { st with lines := st.lines.filter fun l => !(touched l && !l.dirty) } }) s

/-- The accesses that an agent itself has under way (13 R266). -/
def State.ownAccesses (s : State) (a : Aid) : List Nat :=
  ((s.ms.reqs.filter fun r => r.isOwn a).map (·.id)) ++ (s.ms.ioWrites.filter fun w => w.aid == some a).map (·.id)

/-- A barrier instruction at commit (14 R295, R296): it arrives once every access of its agent, in blocks committed up to and including
its own, has been performed. -/
def State.commitBar (s : State) (a : Aid) (kind word gen : Nat) (after : List Nat) (reg id : Nat) : State :=
  let s := s.addPending a reg id after
  let n := bitsAt word 16 16
  if (kind = 2 && n != 0) || (kind != 2 && n = 0) then s.arrive a reg id (failToken cENGINE eBADCMD 0) []
  else if bitsAt word 12 3 = 0 then s.arrive a reg id (if kind = 2 then gen else 0) []
  else
    let w : BarWait := ⟨id, a, kind, word, if kind = 2 then some gen else none, unionDep after (s.ownAccesses a), reg, false⟩
    s.updFab fun f => { f with waits := f.waits ++ [w] }

/-- A group that a shape is loaded into may be gone only with its region. -/
def State.commitShape (s : State) (a : Aid) (bank mu : Nat) (bytes : List Byte) (after : List Nat) (reg id : Nat) : State :=
  let s := s.addPending a reg id after
  match s.groupAt a mu bank with
  | some (n, _) => s.loadShape n bytes a reg id after
  | none => s.arrive a reg id (failToken cENGINE eNOGROUP 0) []

/-- What a strong call carries of its agent's accesses (15 R307): those of this firing, those under way, and, by a number, all that has
been performed. A relaxed call carries none. -/
def State.strongSr (s : State) (a : Aid) (g : Agent) (x : Committing) (o : SysOp) : State × List Nat :=
  if o.op = 0xD0 ∧ o.rm = 1 then
    let ts := engineKinds.foldl (fun t e => max t (s.ptsOf (.engine a e))) (s.ptsOf (.agent a))
    let (id, s) := s.takeStamp ts (s.context g.ctx).part
    (s, unionDep (unionDep x.sr (s.outstanding a)) [id])
  else (s, [])

/-- One effect of a block. Barriers come after all others. -/
def State.commitEffect (s : State) (a : Aid) (x : Committing) (e : Nat × Effect × List Nat) : State :=
  match s.agent? a with
  | none => s
  | some g =>
    let id := e.2.2.headD 0
    match e.2.1 with
    | .reg w => s.updAgent a fun g => g.write w.code w.val w.keep
    | .put port r => s.commitPut a x port r
    | .mem op ty W acc vector after reg reg1 => s.commitMem a g x op ty W acc vector after reg reg1 e.2.2 (x.block.at_ e.1)
    | .cmd q args after reg linkTo =>
      let link := if linkTo.isSome then none else some e.1
      s.commitCmd a x q args after reg link id (x.block.at_ e.1)
    | .sys o after =>
      let (s, sr) := s.strongSr a g x o
      (s.addPending a o.reg id after).applySys a o id sr
    | .skip port n => s.updAgent a fun g => { g with
        firing := g.firing.map fun f => { f with skips := Tab.set f.skips port n } }
    | .stash op va len bank mu after reg =>
      ((s.commitStash a op va len bank mu).addPending a reg id after).arrive a reg id 0 []
    | .shape bank mu bytes after reg => s.commitShape a bank mu bytes after reg id
    | .qclr port sel v => s.applyQclr g port sel v
    | .qpol port w0 b after reg =>
      let (s, st) := s.applyQpol g port w0 b
      s.updAgent a fun g => g.write reg ⟨scal st, after⟩ 0
    | .bar _ _ _ _ _ | .flagsClear => s

/-- An effect that puts a record on a port. -/
def Effect.puts : Effect → Bool
  | .put _ _ => true
  | .mem _ _ _ _ _ _ r0 r1 => isOutPort r0 || isOutPort r1
  | _ => false

/-- A `qpol` comes before the puts of the same commit (11 R237); else effects stay in their order (R226). -/
def qpolFirst (es : List (Nat × Effect × List Nat)) : List (Nat × Effect × List Nat) :=
  es.foldl (fun done e => match e.2.1 with
    | .qpol _ _ _ _ _ =>
      let ahead := done.takeWhile fun d => !d.2.1.puts
      ahead ++ e :: done.drop ahead.length
    | _ => done ++ [e]) []

/-- The effect that comes before the others of a commit: `mfs.flagsc` (08 R156). -/
def State.commitFirst (s : State) (a : Aid) (e : Nat × Effect × List Nat) : State :=
  match e.2.1 with
  | .flagsClear => s.updAgent a fun g => { g with flags := fNone }
  | _ => s

/-- The barriers of a block, whose arrivals cover every access of it (14 R296). -/
def State.commitLast (s : State) (a : Aid) (e : Nat × Effect × List Nat) : State :=
  match e.2.1 with
  | .bar kind word gen after reg => s.commitBar a kind word gen after reg (e.2.2.headD 0)
  | _ => s

/-- The operands that become resident (01 R15). -/
def Block.residents (b : Block) : List Resident :=
  b.sticky.map fun t => ⟨b.addr, t.1, t.2.1, if t.2.2.1 = 15 then none else some (t.2.2.1 + 1), t.2.2.2⟩

/-- Residents with arrivals that replace them. -/
def mergeResidents (old new : List Resident) : List Resident :=
  (old.filter fun r => !(new.any fun n => n.block == r.block && n.idx == r.idx && n.slot == r.slot)) ++ new

/-! ### The end of a firing or run -/

/-- How many delivered entries of a port are consumed (11 R234). -/
def Firing.consumes (f : Firing) (count : Nat) (d : Delivered) : Nat :=
  match Tab.get? f.skips d.port with
  | some n => if d.control then min n 1 else min n count
  | none => d.entries.length

/-- The demand signals that a generator gets for the RAND entries that a firing end consumes (04 R67). -/
def State.demand (s : State) (src : InSource) (n : Nat) : State :=
  let fed := fun (d : OutDest) => match d, src with
    | .stream _ q, .queue p => q == p
    | .link q, .link p => q == p
    | _, _ => false
  let lower := fun (e : Nid × Gen) => if fed e.2.out then (e.1, { e.2 with outstanding := e.2.outstanding - n }) else e
  s.updFab fun f => { f with gens := f.gens.map lower }

/-- Consumes entries of a queue by their serials; storage refills from the ring (10 R208). -/
def State.consumeQueue (s : State) (id : Qid) (serials : List Nat) : State :=
  match s.queue? id with
  | none => s
  | some q =>
    let q : Queue := { q with
      items := q.items.filter fun h => !serials.contains h.serial
      index := q.index.filter fun e => !serials.contains e.2 }
    let (s, q) := serials.foldl (fun (x : State × Queue) _ => x.1.refill id x.2) (s, q)
    s.setQueue id q

/-- Consumes entries of a link; its registers enter the slots that are freed (09 R191, R192). -/
def State.consumeLink (s : State) (id : Qid) (serials : List Nat) : State :=
  s.updFab fun f => { f with links := Tab.modify f.links id fun l =>
    ({ l with slots := l.slots.filter fun h => !serials.contains h.serial } : Link).settle 4 }

/-- What one port consumes at the end of a firing. -/
def State.consumePort (s : State) (g : Agent) (f : Firing) (d : Delivered) : State :=
  match g.inPort? d.port with
  | none => s
  | some p =>
    let n := f.consumes p.count d
    let gone := d.serials.take n
    let rand := ((d.entries.take n).filter fun r => r.kind == kRAND).length
    let s := match p.src with
      | .queue q => s.consumeQueue q gone
      | .link q => s.consumeLink q gone
    if rand = 0 then s else s.demand p.src rand

/-- The delay lines after a firing (01 R16). -/
def Agent.shiftDelays (g : Agent) (f : Firing) : Tab Nat (List Val) :=
  g.delay.map fun e => match e.2 with
    | v :: rest => (e.1, rest ++ [Tab.getD f.dWritten e.1 v])
    | [] => e

/-- A firing or run ends: its entries are consumed, its delay lines shift, and its residents have one firing fewer to stay. A run
completes its call with 0 (23 R407); one that halts disables its thread (23 R414). -/
def State.endFiring (s : State) (a : Aid) (halts : Bool) : State :=
  match s.agent? a with
  | none => s
  | some g =>
    match g.firing with
    | none => s
    | some f =>
      let drains := (f.control && f.delivered.any fun d => d.entries.any fun r => r.kind == kDRAIN) ||
        (g.ins.isEmpty && g.younger.isEmpty && (match a.rid with
          | some rid => s.draining rid
          | none => false))
      let s := if drains then s.putDrains g else s
      let s := f.delivered.foldl (fun s d => s.consumePort g f d) s
      let s := match g.call with
        | some c => s.completeCalls c 0 f.made
        | none => s
      let kept := g.resident.filterMap fun r => match r.left with
        | none => some r
        | some n => if n ≤ 1 then none else some { r with left := some (n - 1) }
      let lines := g.shiftDelays f
      let s := s.updAgent a fun g => { g with
        phase := .idle, firing := none, fidx := (g.fidx + 1) % 2 ^ 64, resident := kept, delay := lines, call := none }
      let s := s.updAgent a Agent.nextInPipe
      let s := match a with
        | .thread d t => if halts then s.updThreadCtl d t fun k => { k with en := false } else s
        | .actor .. => s
      s.agentProgress a

/-- The transfer of control of a committed block (08 R156). -/
def State.transfer (s : State) (a : Aid) (goal : ExitTo) : State :=
  match goal with
  | .block addr => s.updAgent a fun g => { g with phase := .entering addr }
  | .done => s.endFiring a false
  | .halt => s.endFiring a true

/-! ### Commit (08 R156) -/

/-- Shoot-downs that wait for a block now wait for its accesses, which perform under the translations they were checked with (13 R262). -/
def State.shotCommitted (s : State) (b : Aid × Nat) (ids : List Nat) : State :=
  s.updSched fun x => { x with
    sysWaits := x.sysWaits.map fun w =>
      if w.blocks.contains b then { w with on := w.on ++ ids, blocks := w.blocks.erase b } else w }

/-- The numbers of an effect's accesses. -/
def accessIds : Effect × List Nat → List Nat
  | (.mem _ _ _ acc _ _ _ _, ids) => ids.take acc.length
  | _ => []

/-- A block whose one exit has fired commits. -/
def State.commit (s : State) (a : Aid) (g : Agent) (b : Block) (goal : ExitTo) : State :=
  let es := numberEffects s.nextId b.ordered
  let total := sumNat (es.map fun e => e.2.2.length)
  let s := { s with nextId := s.nextId + total }
  let mine := unionDep b.made (es.flatMap fun e => eventIds e.2)
  let (fmade, fexc) := match g.firing with
    | some f => (f.made, f.exc)
    | none => ([], false)
  let exc := fexc || b.readExc || flagsExc b.flags
  let made := unionDep fmade mine
  let linked := es.filterMap fun e => match e.2.1 with
    | .cmd _ _ _ _ (some j) => some (j, e.2.2.headD 0)
    | _ => none
  let x : Committing := ⟨made, exc, linked, b.origin 0⟩
  let s := es.foldl (fun s e => s.commitFirst a e) s
  let s := (qpolFirst es).foldl (fun s e => s.commitEffect a x e) s
  let s := es.foldl (fun s e => s.commitLast a e) s
  let s := s.shotCommitted (a, b.entered) (es.flatMap fun e => accessIds e.2)
  let s := s.updAgent a fun g => { g with
    flags := g.flags ||| b.flags
    resident := mergeResidents g.resident b.residents
    block := none
    deadline := []
    waitSince := none
    firing := g.firing.map fun f => { f with made := made, lastBlock := mine, exc := exc } }
  s.transfer a goal

/-- BLOCK_COMMIT (08 R154 to R156): the starved instructions of a block are found; a block that is resolved commits where exactly one
exit has fired, raises ILLEGAL_TARGET where several have, and stays where none has, or where a store feeds a slot of its own block. In a pipe the oldest firing's block is the next to
commit (09 R180). -/
def execBlockCommit (a : Aid) (s : State) : Host.Outcome State Fault Refusal :=
  .next (match (s.agent? a).map (·.focus 0) with
    | none => s
    | some g =>
      match g.block with
      | none => s
      | some b =>
        if !s.agentAlive a then s
        else
          let b := b.settleStarved g (b.code.length + 1)
          let s := (s.updAgent a (·.focus 0)).updBlock a fun _ => b
          if !b.resolved || b.feedsBack then s
          else
            match b.exits with
            | [] => s
            | [(_, goal)] => if s.commitHolds a g b then s else s.commit a g b goal
            | many => let idx := many.foldl (fun m e => max m e.1) 0
                      s.takeTrap a cTARGET idx b.addr 0 (b.word0 idx))

end Sys2Proof.Machine
end

