-- ==== Sys2Proof/Machine/Compare.lean ====
section
/-! DEFINITION. The compares, `sel` and the predicate instructions (spec 06 R121 to R123). -/
namespace Sys2Proof.Machine

/-- CEQ_F0 (06 R121). -/
def execCeqF0 (f : F0) (s : State) : Host.Outcome State Fault Refusal := execVal (f.ins 0x30) intCeq s

/-- CEQ_F1_F2 (06 R121). -/
def execCeqF1F2 (f : FX) (s : State) : Host.Outcome State Fault Refusal := execVal (f.ins 0x30) intCeq s

/-- CNE_F0 (06 R121). -/
def execCneF0 (f : F0) (s : State) : Host.Outcome State Fault Refusal := execVal (f.ins 0x31) intCne s

/-- CNE_F1_F2 (06 R121). -/
def execCneF1F2 (f : FX) (s : State) : Host.Outcome State Fault Refusal := execVal (f.ins 0x31) intCne s

/-- CLT_F0 (06 R121). -/
def execCltF0 (f : F0) (s : State) : Host.Outcome State Fault Refusal := execVal (f.ins 0x32) intClt s

/-- CLT_F1_F2 (06 R121). -/
def execCltF1F2 (f : FX) (s : State) : Host.Outcome State Fault Refusal := execVal (f.ins 0x32) intClt s

/-- CLE_F0 (06 R121). -/
def execCleF0 (f : F0) (s : State) : Host.Outcome State Fault Refusal := execVal (f.ins 0x33) intCle s

/-- CLE_F1_F2 (06 R121). -/
def execCleF1F2 (f : FX) (s : State) : Host.Outcome State Fault Refusal := execVal (f.ins 0x33) intCle s

/-- CLTU_F0 (06 R121). -/
def execCltuF0 (f : F0) (s : State) : Host.Outcome State Fault Refusal := execVal (f.ins 0x34) intCltu s

/-- CLTU_F1_F2 (06 R121). -/
def execCltuF1F2 (f : FX) (s : State) : Host.Outcome State Fault Refusal := execVal (f.ins 0x34) intCltu s

/-- CLEU_F0 (06 R121). -/
def execCleuF0 (f : F0) (s : State) : Host.Outcome State Fault Refusal := execVal (f.ins 0x35) intCleu s

/-- CLEU_F1_F2 (06 R121). -/
def execCleuF1F2 (f : FX) (s : State) : Host.Outcome State Fault Refusal := execVal (f.ins 0x35) intCleu s

/-- CEQI_FI (06 R121). -/
def execCeqiFi (f : FI) (s : State) : Host.Outcome State Fault Refusal := execVal (f.ins 0x36) intCeqi s

/-- CEQI_F2 (06 R121). -/
def execCeqiF2 (f : FX) (s : State) : Host.Outcome State Fault Refusal := execVal (f.ins 0x36) intCeqi s

/-- CLTI_FI (06 R121). -/
def execCltiFi (f : FI) (s : State) : Host.Outcome State Fault Refusal := execVal (f.ins 0x37) intClti s

/-- CLTI_F2 (06 R121). -/
def execCltiF2 (f : FX) (s : State) : Host.Outcome State Fault Refusal := execVal (f.ins 0x37) intClti s

/-- SEL_F0 (06 R122). -/
def execSelF0 (f : F0) (s : State) : Host.Outcome State Fault Refusal := execVal (f.ins 0x38) intSel s

/-- SEL_F1_F2 (06 R122). -/
def execSelF1F2 (f : FX) (s : State) : Host.Outcome State Fault Refusal := execVal (f.ins 0x38) intSel s

/-- PAND_F0 (06 R123). -/
def execPandF0 (f : F0) (s : State) : Host.Outcome State Fault Refusal := execVal (f.ins 0x39) predAnd s

/-- PAND_F1_F2 (06 R123). -/
def execPandF1F2 (f : FX) (s : State) : Host.Outcome State Fault Refusal := execVal (f.ins 0x39) predAnd s

/-- POR_F0 (06 R123). -/
def execPorF0 (f : F0) (s : State) : Host.Outcome State Fault Refusal := execVal (f.ins 0x3A) predOr s

/-- POR_F1_F2 (06 R123). -/
def execPorF1F2 (f : FX) (s : State) : Host.Outcome State Fault Refusal := execVal (f.ins 0x3A) predOr s

/-- PXOR_F0 (06 R123). -/
def execPxorF0 (f : F0) (s : State) : Host.Outcome State Fault Refusal := execVal (f.ins 0x3B) predXor s

/-- PXOR_F1_F2 (06 R123). -/
def execPxorF1F2 (f : FX) (s : State) : Host.Outcome State Fault Refusal := execVal (f.ins 0x3B) predXor s

/-- PNOT_F0 (06 R123). -/
def execPnotF0 (f : F0) (s : State) : Host.Outcome State Fault Refusal := execVal (f.ins 0x3C) predNot s

/-- PNOT_F1 (06 R123). -/
def execPnotF1 (f : FX) (s : State) : Host.Outcome State Fault Refusal := execVal (f.ins 0x3C) predNot s

/-- PANY_F0 (06 R123). -/
def execPanyF0 (f : F0) (s : State) : Host.Outcome State Fault Refusal := execVal (f.ins 0x3D) predAny s

/-- PANY_F1 (06 R123). -/
def execPanyF1 (f : FX) (s : State) : Host.Outcome State Fault Refusal := execVal (f.ins 0x3D) predAny s

/-- PALL_F0 (06 R123). -/
def execPallF0 (f : F0) (s : State) : Host.Outcome State Fault Refusal := execVal (f.ins 0x3E) predAll s

/-- PALL_F1 (06 R123). -/
def execPallF1 (f : FX) (s : State) : Host.Outcome State Fault Refusal := execVal (f.ins 0x3E) predAll s

/-- PCNT_F0 (06 R123). -/
def execPcntF0 (f : F0) (s : State) : Host.Outcome State Fault Refusal := execVal (f.ins 0x3F) predCnt s

/-- PCNT_F1 (06 R123). -/
def execPcntF1 (f : FX) (s : State) : Host.Outcome State Fault Refusal := execVal (f.ins 0x3F) predCnt s

end Sys2Proof.Machine
end

