-- ==== Sys2Proof/Machine/Convert.lean ====
section
/-! DEFINITION. The conversions, `fdot`, `cbdec` and the last float instructions (spec 07 R136, R147 to R152). -/
namespace Sys2Proof.Machine

/-- CVTS (07 R150, R151): operand B names the inbound port whose head is the RAND token. -/
def execCvts (f : FX) (s : State) : Host.Outcome State Fault Refusal :=
  .next (s.issue (f.ins 0x68) fun i o s =>
    let rand := match i.g.firing with
      | some x => (x.entry (Ins.srcCode i.ins.srcB - 72) 0).kind == kRAND
      | none => false
    valueBody (fpCvts rand) i o s)

/-- CVT (07 R147). -/
def execCvt (f : FX) (s : State) : Host.Outcome State Fault Refusal := execVal (f.ins 0x67) fpCvt s

/-- FDOT_F0 (07 R146). -/
def execFdotF0 (f : F0) (s : State) : Host.Outcome State Fault Refusal := execVal (f.ins 0x69) fpDot s

/-- FDOT_F1_F2 (07 R146). -/
def execFdotF1F2 (f : FX) (s : State) : Host.Outcome State Fault Refusal := execVal (f.ins 0x69) fpDot s

/-- CBDEC (07 R152). -/
def execCbdec (f : FX) (s : State) : Host.Outcome State Fault Refusal := execVal (f.ins 0x6A) fpCbdec s

/-- BSCL_F0 (07 R144). -/
def execBsclF0 (f : F0) (s : State) : Host.Outcome State Fault Refusal := execVal (f.ins 0x6B) fpBscl s

/-- BSCL_F1_F2 (07 R144). -/
def execBsclF1F2 (f : FX) (s : State) : Host.Outcome State Fault Refusal := execVal (f.ins 0x6B) fpBscl s

/-- FSUM2_F0 (07 R145). -/
def execFsum2F0 (f : F0) (s : State) : Host.Outcome State Fault Refusal := execVal (f.ins 0x6C) fpSum2 s

/-- FSUM2_F1_F2 (07 R145). -/
def execFsum2F1F2 (f : FX) (s : State) : Host.Outcome State Fault Refusal := execVal (f.ins 0x6C) fpSum2 s

/-- FCLAMP_F0 (07 R138). -/
def execFclampF0 (f : F0) (s : State) : Host.Outcome State Fault Refusal := execVal (f.ins 0x6D) fpClamp s

/-- FCLAMP_F1_F2 (07 R138). -/
def execFclampF1F2 (f : FX) (s : State) : Host.Outcome State Fault Refusal := execVal (f.ins 0x6D) fpClamp s

/-- FCSGN_F0 (07 R138). -/
def execFcsgnF0 (f : F0) (s : State) : Host.Outcome State Fault Refusal := execVal (f.ins 0x6E) fpCsgn s

/-- FCSGN_F1_F2 (07 R138). -/
def execFcsgnF1F2 (f : FX) (s : State) : Host.Outcome State Fault Refusal := execVal (f.ins 0x6E) fpCsgn s

end Sys2Proof.Machine
end

