-- ==== Sys2Proof/Machine/Float.lean ====
section
/-! DEFINITION. The floating-point instructions (spec 07 R136 to R146). -/
namespace Sys2Proof.Machine

/-- FADD_F0 (07 R137). -/
def execFaddF0 (f : F0) (s : State) : Host.Outcome State Fault Refusal := execVal (f.ins 0x50) fpAdd s

/-- FADD_F1_F2 (07 R137). -/
def execFaddF1F2 (f : FX) (s : State) : Host.Outcome State Fault Refusal := execVal (f.ins 0x50) fpAdd s

/-- FSUB_F0 (07 R137). -/
def execFsubF0 (f : F0) (s : State) : Host.Outcome State Fault Refusal := execVal (f.ins 0x51) fpSub s

/-- FSUB_F1_F2 (07 R137). -/
def execFsubF1F2 (f : FX) (s : State) : Host.Outcome State Fault Refusal := execVal (f.ins 0x51) fpSub s

/-- FMUL_F0 (07 R137). -/
def execFmulF0 (f : F0) (s : State) : Host.Outcome State Fault Refusal := execVal (f.ins 0x52) fpMul s

/-- FMUL_F1_F2 (07 R137). -/
def execFmulF1F2 (f : FX) (s : State) : Host.Outcome State Fault Refusal := execVal (f.ins 0x52) fpMul s

/-- FMA_F0 (07 R137). -/
def execFmaF0 (f : F0) (s : State) : Host.Outcome State Fault Refusal := execVal (f.ins 0x53) fpFma s

/-- FMA_F1_F2 (07 R137). -/
def execFmaF1F2 (f : FX) (s : State) : Host.Outcome State Fault Refusal := execVal (f.ins 0x53) fpFma s

/-- FMS_F0 (07 R137). -/
def execFmsF0 (f : F0) (s : State) : Host.Outcome State Fault Refusal := execVal (f.ins 0x54) fpFms s

/-- FMS_F1_F2 (07 R137). -/
def execFmsF1F2 (f : FX) (s : State) : Host.Outcome State Fault Refusal := execVal (f.ins 0x54) fpFms s

/-- FNMA_F0 (07 R137). -/
def execFnmaF0 (f : F0) (s : State) : Host.Outcome State Fault Refusal := execVal (f.ins 0x55) fpFnma s

/-- FNMA_F1_F2 (07 R137). -/
def execFnmaF1F2 (f : FX) (s : State) : Host.Outcome State Fault Refusal := execVal (f.ins 0x55) fpFnma s

/-- FMIN_F0 (07 R138). -/
def execFminF0 (f : F0) (s : State) : Host.Outcome State Fault Refusal := execVal (f.ins 0x56) fpMin s

/-- FMIN_F1_F2 (07 R138). -/
def execFminF1F2 (f : FX) (s : State) : Host.Outcome State Fault Refusal := execVal (f.ins 0x56) fpMin s

/-- FMAX_F0 (07 R138). -/
def execFmaxF0 (f : F0) (s : State) : Host.Outcome State Fault Refusal := execVal (f.ins 0x57) fpMax s

/-- FMAX_F1_F2 (07 R138). -/
def execFmaxF1F2 (f : FX) (s : State) : Host.Outcome State Fault Refusal := execVal (f.ins 0x57) fpMax s

/-- FABS_F0 (07 R138). -/
def execFabsF0 (f : F0) (s : State) : Host.Outcome State Fault Refusal := execVal (f.ins 0x58) fpAbs s

/-- FABS_F1 (07 R138). -/
def execFabsF1 (f : FX) (s : State) : Host.Outcome State Fault Refusal := execVal (f.ins 0x58) fpAbs s

/-- FNEG_F0 (07 R138). -/
def execFnegF0 (f : F0) (s : State) : Host.Outcome State Fault Refusal := execVal (f.ins 0x59) fpNeg s

/-- FNEG_F1 (07 R138). -/
def execFnegF1 (f : FX) (s : State) : Host.Outcome State Fault Refusal := execVal (f.ins 0x59) fpNeg s

/-- FEQ_F0 (07 R139). -/
def execFeqF0 (f : F0) (s : State) : Host.Outcome State Fault Refusal := execVal (f.ins 0x5A) fpEq s

/-- FEQ_F1_F2 (07 R139). -/
def execFeqF1F2 (f : FX) (s : State) : Host.Outcome State Fault Refusal := execVal (f.ins 0x5A) fpEq s

/-- FLT_F0 (07 R139). -/
def execFltF0 (f : F0) (s : State) : Host.Outcome State Fault Refusal := execVal (f.ins 0x5B) fpLt s

/-- FLT_F1_F2 (07 R139). -/
def execFltF1F2 (f : FX) (s : State) : Host.Outcome State Fault Refusal := execVal (f.ins 0x5B) fpLt s

/-- FLE_F0 (07 R139). -/
def execFleF0 (f : F0) (s : State) : Host.Outcome State Fault Refusal := execVal (f.ins 0x5C) fpLe s

/-- FLE_F1_F2 (07 R139). -/
def execFleF1F2 (f : FX) (s : State) : Host.Outcome State Fault Refusal := execVal (f.ins 0x5C) fpLe s

/-- FUN_F0 (07 R139). -/
def execFunF0 (f : F0) (s : State) : Host.Outcome State Fault Refusal := execVal (f.ins 0x5D) fpUn s

/-- FUN_F1_F2 (07 R139). -/
def execFunF1F2 (f : FX) (s : State) : Host.Outcome State Fault Refusal := execVal (f.ins 0x5D) fpUn s

/-- FCLASS_F0 (07 R140). -/
def execFclassF0 (f : F0) (s : State) : Host.Outcome State Fault Refusal := execVal (f.ins 0x5E) fpClass s

/-- FCLASS_F1 (07 R140). -/
def execFclassF1 (f : FX) (s : State) : Host.Outcome State Fault Refusal := execVal (f.ins 0x5E) fpClass s

/-- FRCP_F0 (07 R141). -/
def execFrcpF0 (f : F0) (s : State) : Host.Outcome State Fault Refusal := execVal (f.ins 0x5F) (fpSeed .rcp) s

/-- FRCP_F1 (07 R141). -/
def execFrcpF1 (f : FX) (s : State) : Host.Outcome State Fault Refusal := execVal (f.ins 0x5F) (fpSeed .rcp) s

/-- FRSQ_F0 (07 R141). -/
def execFrsqF0 (f : F0) (s : State) : Host.Outcome State Fault Refusal := execVal (f.ins 0x60) (fpSeed .rsq) s

/-- FRSQ_F1 (07 R141). -/
def execFrsqF1 (f : FX) (s : State) : Host.Outcome State Fault Refusal := execVal (f.ins 0x60) (fpSeed .rsq) s

/-- FRCPR_F0 (07 R141). -/
def execFrcprF0 (f : F0) (s : State) : Host.Outcome State Fault Refusal := execVal (f.ins 0x61) (fpRefine false) s

/-- FRCPR_F1_F2 (07 R141). -/
def execFrcprF1F2 (f : FX) (s : State) : Host.Outcome State Fault Refusal := execVal (f.ins 0x61) (fpRefine false) s

/-- FRSQR_F0 (07 R141). -/
def execFrsqrF0 (f : F0) (s : State) : Host.Outcome State Fault Refusal := execVal (f.ins 0x62) (fpRefine true) s

/-- FRSQR_F1_F2 (07 R141). -/
def execFrsqrF1F2 (f : FX) (s : State) : Host.Outcome State Fault Refusal := execVal (f.ins 0x62) (fpRefine true) s

/-- FEXP2_F0 (07 R141). -/
def execFexp2F0 (f : F0) (s : State) : Host.Outcome State Fault Refusal := execVal (f.ins 0x63) (fpSeed .exp2) s

/-- FEXP2_F1 (07 R141). -/
def execFexp2F1 (f : FX) (s : State) : Host.Outcome State Fault Refusal := execVal (f.ins 0x63) (fpSeed .exp2) s

/-- FLOG2_F0 (07 R141). -/
def execFlog2F0 (f : F0) (s : State) : Host.Outcome State Fault Refusal := execVal (f.ins 0x64) (fpSeed .log2) s

/-- FLOG2_F1 (07 R141). -/
def execFlog2F1 (f : FX) (s : State) : Host.Outcome State Fault Refusal := execVal (f.ins 0x64) (fpSeed .log2) s

/-- FRND_F0 (07 R142). -/
def execFrndF0 (f : F0) (s : State) : Host.Outcome State Fault Refusal := execVal (f.ins 0x65) fpRnd s

/-- FRND_F1 (07 R142). -/
def execFrndF1 (f : FX) (s : State) : Host.Outcome State Fault Refusal := execVal (f.ins 0x65) fpRnd s

/-- FSCL_F0 (07 R143). -/
def execFsclF0 (f : F0) (s : State) : Host.Outcome State Fault Refusal := execVal (f.ins 0x66) fpScl s

/-- FSCL_F1_F2 (07 R143). -/
def execFsclF1F2 (f : FX) (s : State) : Host.Outcome State Fault Refusal := execVal (f.ins 0x66) fpScl s

end Sys2Proof.Machine
end

