-- ==== Sys2Proof/Machine/Host.lean ====
section
/-! DEFINITION. The host's side: accesses through the aperture and the registers, the I/O ordering point, posted writes of the device,
rate limiters, and the reset of a virtual function (spec 24 R420 to R428, R434, R485; 25 R442; 26 R430). -/
namespace Sys2Proof.Machine

/-! ### Requesters (24 R424) -/

/-- The number of a remote package's requester for a context (24 R431). -/
def podRequester (pkg ctx : Nat) : Nat := 1024 + pkg * 1024 + ctx

/-- Adds an item for a requester. -/
def State.iopAdd (s : State) (q : Nat) (i : IopItem) : State := s.updRequester q fun r => { r with items := r.items ++ [i] }

/-! ### Rate limiters (24 R434) -/

/-- A tick fills a bucket, up to its burst. -/
def Vf.refill (f : Vf) (ticks : Nat) : Vf :=
  if f.rate = 0 then f else { f with bucket := min (bucketUnit * 1024 * f.burst) (f.bucket + f.rate * ticks) }

/-! ### Accesses of the host (24 R423) -/

/-- An access of a requester to a C or MS page: its checked pieces, or the cause and VA of a fault. `U` is not checked. -/
def State.iopAccess (s : State) (ctx va len : Nat) (write : Bool) : State × Except (Nat × Nat) (List Access) :=
  s.muAccess (s.iopDie ctx) 0x1FF ctx va len ⟨!write, write, false, false⟩

/-- The context and VA of an aperture access; none where the VF is not bound to a live context or `EN` is clear. -/
def State.aperture (s : State) (v off : Nat) : Option (Nat × Nat) :=
  if (s.vf v).aperEn then (s.boundCtx v).map fun c => (c, wrap 64 ((s.vf v).aperBase + off : Nat)) else none

/-- The home die to which the route of a line leads. -/
def State.routeOf (s : State) (x : Access) : Nat := s.homeDie x

/-- HOST_APERTURE_WRITE (24 R423): a posted write enters the IOP behind what its requester sent before. -/
def execHostApertureWrite (vf off : Nat) (bytes : List (BitVec 8)) (s : State) : Host.Outcome State Fault Refusal :=
  .next ((s.charge (some vf) bytes.length).iopAdd (vfRequester vf) (.raw (some vf) 0 (off % 2 ^ 36) bytes))

/-- A read through the aperture of a VF waits for what its requester wrote before; one that carries relaxed ordering may be answered before
earlier reads (24 R420, R424). -/
def State.askAperture (s : State) (vf off size : Nat) (relaxed : Bool) : State :=
  (s.charge (some vf) size).iopAdd (vfRequester vf) (.read (some vf) 0 (off % 2 ^ 36) size relaxed)

/-- HOST_APERTURE_READ (24 R423): a read waits for what its requester wrote before. -/
def execHostApertureRead (vf off size : Nat) (s : State) : Host.Outcome State Fault Refusal :=
  .next (s.askAperture vf off size false)

/-- A register read through BAR 0 of a function (24 R421, R425) waits for its earlier writes. -/
def State.askRegister (s : State) (who : Option Nat) (addr : Nat) : State :=
  (s.charge who 8).iopAdd (requesterOf who) (.regRead who addr)

/-- CONTROL_REGISTER_WRITE (24 R425): a register write through BAR 0 of a function takes effect behind its earlier writes. -/
def execControlRegisterWrite (who : Option Nat) (addr : Nat) (v : BitVec 64) (s : State) : Host.Outcome State Fault Refusal :=
  .next (
    let q := requesterOf who
    let s := s.charge who 8
    if (s.requester q).items.isEmpty then s.hostRegWrite who addr v.toNat else s.iopAdd q (.reg who addr v.toNat))

/-! ### The I/O ordering point (24 R424, R425; 25 R442) -/

/-- A fault of a write: it is dropped, counted and reported (24 R423). -/
def State.iopFault (s : State) (ctx cause va : Nat) : State :=
  let d := s.iopDie ctx
  (s.count d none 0x54).asyncRecord cause ctx 0 d 0x1FF 0 va

/-- The line writes of a write. -/
def lineItems (s : State) (ctx : Nat) : List Access → List Byte → List IopItem
  | [], _ => []
  | x :: xs, bs => .write x ctx (bs.take x.len) (s.routeOf x) false :: lineItems s ctx xs (bs.drop x.len)

/-- The items of a requester. -/
def State.setItems (s : State) (q : Nat) (is : List IopItem) : State := s.updRequester q fun r => { r with items := is }

/-- Translates a write: its lines take its place, or none. -/
def State.iopExpand (s : State) (q : Nat) (before : List IopItem) (ctx va : Nat) (bytes : List Byte) (after : List IopItem) : State :=
  match s.iopAccess ctx va bytes.length true with
  | (s, .error (cause, v)) =>
    (if isPod q then s.send (.completion q cause []) else s.iopFault ctx cause v).setItems q (before ++ after)
  | (s, .ok xs) => s.setItems q (before ++ lineItems s ctx xs bytes ++ after)

/-- The completion of a read that fails: Completer Abort, or the cause for a remote package (24 R423, R431). -/
def readFailure (q cause : Nat) : Out := .completion q (if isPod q then cause else 2) []

/-- The next line of a read, translated anew, as one event (24 R423): the read goes on, or is answered with its bytes or the cause of its
fault. What the requester wrote before is before it, on every route (25 R442, 15 R309). A line of a page that moves is tried again (22
R397). -/
def State.iopReadLine (s : State) (q ctx : Nat) (left : List Access) (got : List Byte) (relaxed : Bool) (before tail : List IopItem) :
    State :=
  match left with
  | [] => (s.setItems q (before ++ tail)).send (.completion q 0 got)
  | y :: rest =>
    let stays := fun (s : State) => s.setItems q (before ++ .reading ctx left got relaxed :: tail)
    match s.iopAccess ctx y.va y.len false with
    | (s, .error (cause, _)) => (s.setItems q (before ++ tail)).send (readFailure q cause)
    | (s, .ok []) => stays s
    | (s, .ok (x :: _)) =>
      match s.movingAt x with
      | .moving => stays (s.retried (s.iopDie ctx) 0x1FF ctx x).1
      | .arriving => stays s
      | .still =>
        let i := Issuer.route (s.iopOf q) (s.routeOf x)
        match (s.raisePts i (s.requester q).acked).readAccess i ctx x false with
        | (s, _, true) => (s.setItems q (before ++ tail)).send (readFailure q cMEMORY_UE)
        | (s, b, false) =>
          if rest.isEmpty then (s.setItems q (before ++ tail)).send (.completion q 0 (got ++ b))
          else s.setItems q (before ++ .reading ctx rest (got ++ b) relaxed :: tail)

/-- A read begins: its target is checked as a whole, and its first line read. -/
def State.iopBeginRead (s : State) (q : Nat) (vf : Option Nat) (ctx va size : Nat) (relaxed : Bool) (before tail : List IopItem) : State :=
  let target := match vf with
    | some v => s.aperture v va
    | none => some (ctx, va)
  match target with
  | none => (s.setItems q (before ++ tail)).send (.completion q 1 [])
  | some (c, a) =>
    match s.iopAccess c a size false with
    | (s, .ok xs) => s.iopReadLine q c xs [] relaxed before tail
    | (s, .error (cause, _)) => (s.setItems q (before ++ tail)).send (readFailure q cause)

/-- The items behind the line writes that have been sent. -/
def splitSent : List IopItem → List IopItem × List IopItem
  | .write x ctx bytes route true :: rest =>
    let (a, b) := splitSent rest
    (.write x ctx bytes route true :: a, b)
  | xs => ([], xs)

/-- The route of an item. -/
def IopItem.route? : IopItem → Option Nat
  | .write _ _ _ r _ => some r
  | _ => none

/-- IOP_WRITE_SEND (24 R424, R425): the first item of a requester that has not been sent. A write is translated; a line write is sent
once every earlier one to another route has been acknowledged and no change of its partition is in progress (21 R387), and takes a
timestamp no smaller than theirs (25 R442); a register
write takes effect, and a read performs its lines one at a time, once every earlier write has been acknowledged. -/
def execIopWriteSend (req : Nat) (s : State) : Host.Outcome State Fault Refusal :=
  .next (
    let r := s.requester req
    let (sent, rest) := splitSent r.items
    match rest with
    | [] => s
    | .raw vf ctx va bytes :: tail =>
      (match vf with
       | some v => (match s.aperture v va with
          | some (c, a) => s.iopExpand req sent c a bytes tail
          | none => s.setItems req (sent ++ tail))
       | none => s.iopExpand req sent ctx va bytes tail)
    | .write x ctx bytes route _ :: tail =>
      if s.changing (memPart x.pa) then s
      else if sent.all fun i => i.route? == some route then
        (s.raisePts (.route (s.iopOf req) route) (r.ackedElse route)).setItems req (sent ++ .write x ctx bytes route true :: tail)
      else s
    | .reg who addr v :: tail => if sent.isEmpty then (s.setItems req tail).hostRegWrite who addr v else s
    | .regRead who addr :: tail =>
      if sent.isEmpty then (s.setItems req tail).send (.completion req 0 (natBytes 8 (s.hostRegRead who addr))) else s
    | .pass m :: tail => if sent.isEmpty then (s.setItems req tail).send m else s
    | .read vf ctx va size relaxed :: tail => if sent.isEmpty then s.iopBeginRead req vf ctx va size relaxed [] tail else s
    | .reading ctx left got relaxed :: tail => if sent.isEmpty then s.iopReadLine req ctx left got relaxed [] tail else s)

/-- A read, of memory or of a register. -/
def IopItem.isRead : IopItem → Bool
  | .read _ _ _ _ _ => true
  | .reading _ _ _ _ => true
  | .regRead _ _ => true
  | _ => false

/-- A read that carries relaxed ordering goes before the reads ahead of it, once every earlier write has been acknowledged (24 R420,
R424). -/
def State.readAhead (s : State) (req k : Nat) : State :=
  let items := (s.requester req).items
  let before := items.take k
  if !(before.all IopItem.isRead) then s
  else match items.drop k with
    | .read vf ctx va size true :: tail => s.iopBeginRead req vf ctx va size true before tail
    | .reading ctx left got true :: tail => s.iopReadLine req ctx left got true before tail
    | _ => s

/-- Shoot-downs that wait for line writes of a requester wait for one fewer (22 R395). -/
def State.ackSent (s : State) (req : Nat) : State :=
  let fewer := fun (e : Nat × Nat) => if e.1 = req then (if e.2 ≤ 1 then none else some (req, e.2 - 1)) else some e
  s.updSched fun x => { x with sysWaits := x.sysWaits.map fun w => { w with sent := w.sent.filterMap fewer } }

/-- The home has performed a requester's line write at the timestamp that its route has since: the acknowledgement carries it (25 R442). -/
def State.noteAck (s : State) (req route : Nat) : State :=
  let t := s.ptsOf (.route (s.iopOf req) route)
  s.updRequester req fun r => { r with acks := Tab.set r.acks route (max t (Tab.getD r.acks route 0)) }

/-- IOP_ACK (24 R424): the home performs the oldest line write that has been sent, and acknowledges it. One to a page that moves is refused
and retried, and one to a page that arrives waits (22 R397). -/
def execIopAck (req : Nat) (s : State) : Host.Outcome State Fault Refusal :=
  .next (match (s.requester req).items with
    | .write x ctx bytes route true :: rest =>
      match s.movingAt x with
      | .moving =>
        let (s, y) := s.retried (s.iopDie ctx) 0x1FF ctx x
        s.setItems req (.write y ctx bytes (s.routeOf y) true :: rest)
      | .arriving => s
      | .still =>
        let s := (s.setItems req rest).ackSent req
        match s.writeAccess (.route (s.iopOf req) route) ctx x bytes true with
        | (s, true) => (let s := s.noteAck req route; if isPod req then s.send (.completion req 0 []) else s).settleSys
        | (s, false) => (s.asyncRecord cMEMORY_UE ctx 0 (s.iopDie ctx) 0x1FF 0 x.va).settleSys
    | _ => s)

/-! ### Posted writes of the device (24 R426, R428, R434, R485) -/

/-- Where a posted write goes: pod memory, the APC, or the bus. The ring of host calls lies on the bus. -/
def IoWrite.message (w : IoWrite) : Out :=
  let top := bitsAt w.pa 48 4
  if w.vec.isSome then .bus w.vf w.pa w.bytes w.en
  else if top = 0xF then .pod (bitsAt w.pa 40 8) w.ctx (bitsAt w.pa 0 40) w.bytes w.en
  else if top = 0xE then .apc w.pa w.bytes w.en
  else .bus w.vf (w.pa % 2 ^ 52) w.bytes w.en

/-- The first reply frame that a VF's limiter holds is sent. -/
def State.releaseFrame (s : State) (vf : Nat) : State :=
  match findIdx? (fun (f : Nat × Nat × List Byte) => f.1 == vf) s.out.frames with
  | none => s
  | some k => match s.out.frames[k]? with
    | some (_, conn, bytes) =>
      ((s.charge (some vf) bytes.length).updOut fun o => { o with frames := o.frames.eraseIdx k }).send (.frame conn bytes)
    | none => s

/-- RATE_LIMIT_RELEASE (24 R434): the first posted write of a VF, or of the PF, that still waits and has nothing to follow is sent, while the
VF's bucket is positive; a host call's vector follows its write, which under `.strong` waits for the caller's accesses (24 R428). -/
def execRateLimitRelease (vf : Nat) (s : State) : Host.Outcome State Fault Refusal :=
  .next (
    let v := if vf < 256 then some vf else none
    if s.limited v then s
    else
      match findIdx? (fun (w : IoWrite) => !w.sent && w.vf == v && w.after.all s.performed) s.ms.ioWrites with
      | none => s.releaseFrame vf
      | some k =>
        match s.ms.ioWrites[k]? with
        | none => s
        | some w =>
          let s := s.charge v (w.size + if w.vec.isSome then 4 else 0)
          let s := s.updMs fun m => { m with ioWrites := m.ioWrites.set k { w with sent := true } }
          let s := s.send w.message
          match w.vec with
          | some x => s.raiseVector w.vf x
          | none => s)

/-- IO_WRITE_ACK (24 R426): the read behind a posted write has completed. The last write of a number writes its token, and what waits
for it goes on. -/
def execIoWriteAck (id : Nat) (s : State) : Host.Outcome State Fault Refusal :=
  .next (match findIdx? (fun (w : IoWrite) => w.sent && w.id == id) s.ms.ioWrites with
    | none => s
    | some k =>
      match s.ms.ioWrites[k]? with
      | none => s
      | some w =>
        let s := s.updMs fun m => { m with ioWrites := m.ioWrites.eraseIdx k }
        let last := !(s.ms.ioWrites.any fun x => x.id == id)
        let s := match if last then w.reg else none with
          | some (a, code, n) => s.arrive a code n 0 [n]
          | none => s
        s.settleSys)

/-! ### The application processor chiplet (24 R429, R485) -/

/-- The requester as which the chiplet's accesses to IO pages pass the north-west IOP. -/
def apcRequester : Nat := 258

/-- A hart's access to an IO page, on its way to its target. -/
def hartMessage (pa : Nat) : HartOp → Out
  | .read n => ioReadMessage 0 none pa n
  | .write bs => (⟨0, none, 0, none, pa, bs, false, none, [], none, allEnabled bs.length⟩ : IoWrite).message
  | .amo _ w _ _ => ioReadMessage 0 none pa (w / 8)

/-- The bytes that an access of a hart touches. -/
def HartOp.size : HartOp → Nat
  | .read n => n
  | .write bs => bs.length
  | .amo _ w _ _ => w / 8

/-- An access of a hart to a C (`mt` 0), MS (1) or IO (2) page, at a physical address within one line of the partition of die row 0 (24
R429): one event of that partition's order, which a die of another partition refuses (21 R386); or an item of the north-west IOP. -/
def State.hartAccess (s : State) (h mt pa : Nat) (op : HartOp) : State :=
  if mt = 2 then s.iopAdd apcRequester (.pass (hartMessage pa op))
  else
    let p := s.dieOf 0
    let acc : Access := ⟨pa, memBase p + pa % 2 ^ 52, mt % 2, op.size, none⟩
    let home := s.homeDie acc
    if op.size = 0 ∨ pa % 64 + op.size > 64 then s
    else if s.refuses 0 home then (s.refuse home).send (.hart h [])
    else
      let i := Issuer.hart h
      match op with
      | .read _ => let (s, bs, ue) := s.readAccess i noCtx acc false; s.send (.hart h (if ue then [] else bs))
      | .write bs => (s.writeAccess i noCtx acc bs false).1.send (.hart h [])
      | .amo op w x y =>
        match s.rmwAccess i noCtx acc fun old => rmwNew op w x y 0 old with
        | (s, some old) => s.send (.hart h (natBytes acc.len old))
        | (s, none) => s.send (.hart h [])

/-! ### Reset of a virtual function (24 R427) -/

/-- What is bound to a VF, live or not. -/
def State.boundAny (s : State) (v : Nat) : Option Nat :=
  (s.sched.contexts.find? fun e => e.2.vfv && e.2.vf == v).map Prod.fst

/-- The entry of an `aaddv` that the kill of its region cuts. -/
def State.cutEntry (s : State) (g : GroupOp) : Nat :=
  match s.agent? g.aid with
  | some a => g.value + g.reg % 32 * 2 ^ 32 + a.slot * 2 ^ 37 + a.cu * 2 ^ 39 + a.vq * 2 ^ 41 + a.die * 2 ^ 50
  | none => 0

/-- The reset record. -/
def resetRecord (v : Nat) (ctx : Option Nat) (nkill tick : Nat) (cuts : List Nat) : List Byte :=
  natBytes 2 v ++ natBytes 2 (ctx.getD 0xFFFF) ++ natBytes 4 nkill ++ natBytes 8 tick ++ natBytes 1 (min cuts.length 5) ++
    natBytes 1 (if cuts.length > 5 then 1 else 0) ++ natBytes 6 0 ++
    ((List.range 5).flatMap fun j => natBytes 8 (cuts.getD j 0))

/-- The IOPs take no more from a function: what it has sent completes, and the rest is discarded. -/
def State.quietFunction (s : State) (who : Option Nat) : State :=
  s.updRequester (requesterOf who) fun r => { r with items := (splitSent r.items).1 }

/-- The reset of a VF (24 R427). -/
def State.resetVf (s : State) (vf : Nat) : State :=
  let s := s.quietFunction (some vf)
  let ctx := s.boundAny vf
  let tick := s.clk.tick
  let mine := fun (a : Aid) => a.rid.isSome && (match s.agent? a with
    | some g => some g.ctx == ctx
    | none => false)
  let cuts := (s.ms.groups.filter fun g => mine g.2.aid).map fun g => s.cutEntry g.2
  let nkill := match ctx with
    | some c => (s.heldLaunches c).length
    | none => 0
  let s := match ctx with
    | some c =>
      let stop := fun (e : Nat × Lq) => if e.2.ctx = c then (e.1, { e.2 with en := false }) else e
      (s.updSched fun x => { x with lqs := x.lqs.map stop }).endContext c false
    | none => s
  let s := s.updVf vf fun f => { f with
    rst := resetRecord vf ctx nkill tick cuts, hcrt := 0, hcrh := 0, aperEn := false }
  s.managementRecord cVF_RESET (ctx.getD 0xFFFF) ((ctx.map s.partOf).getD 0) vf

/-- FUNCTION_LEVEL_RESET (24 R420, R427): of a VF, or of a PF, which takes its VFs with it and masks its own vectors again (log 26). -/
def execFunctionLevelReset (vf : Nat) (s : State) : Host.Outcome State Fault Refusal :=
  .next (
    if vf < pfNumber then s.resetVf vf
    else if !functionExists (some vf) then s
    else
      let who := if vf = pfNumber then none else some vf
      let s := (s.quietFunction who).updVf vf fun _ => Vf.reset
      ((List.range 256).filter fun v => s.pfOf v == vf - pfNumber).foldl (fun s v => s.resetVf v) s)

end Sys2Proof.Machine
end

