-- ==== Sys2Proof/Machine/Integer.lean ====
section
/-! DEFINITION. The integer instructions: arithmetic, logic, shifts, bit fields, moves and extension (spec 06 R109 to R120). -/
namespace Sys2Proof.Machine

/-- ADD_F0 (06 R109). -/
def execAddF0 (f : F0) (s : State) : Host.Outcome State Fault Refusal := execVal (f.ins 0x01) intAdd s

/-- ADD_F1_F2 (06 R109). -/
def execAddF1F2 (f : FX) (s : State) : Host.Outcome State Fault Refusal := execVal (f.ins 0x01) intAdd s

/-- SUB_F0 (06 R109). -/
def execSubF0 (f : F0) (s : State) : Host.Outcome State Fault Refusal := execVal (f.ins 0x02) intSub s

/-- SUB_F1_F2 (06 R109). -/
def execSubF1F2 (f : FX) (s : State) : Host.Outcome State Fault Refusal := execVal (f.ins 0x02) intSub s

/-- ADDI_FI (06 R110). -/
def execAddiFi (f : FI) (s : State) : Host.Outcome State Fault Refusal := execVal (f.ins 0x03) intAddi s

/-- ADDI_F2 (06 R110). -/
def execAddiF2 (f : FX) (s : State) : Host.Outcome State Fault Refusal := execVal (f.ins 0x03) intAddi s

/-- MUL_F0 (06 R109). -/
def execMulF0 (f : F0) (s : State) : Host.Outcome State Fault Refusal := execVal (f.ins 0x04) intMul s

/-- MUL_F1_F2 (06 R109). -/
def execMulF1F2 (f : FX) (s : State) : Host.Outcome State Fault Refusal := execVal (f.ins 0x04) intMul s

/-- MULH_F0 (06 R109). -/
def execMulhF0 (f : F0) (s : State) : Host.Outcome State Fault Refusal := execVal (f.ins 0x05) intMulh s

/-- MULH_F1_F2 (06 R109). -/
def execMulhF1F2 (f : FX) (s : State) : Host.Outcome State Fault Refusal := execVal (f.ins 0x05) intMulh s

/-- MULHU_F0 (06 R109). -/
def execMulhuF0 (f : F0) (s : State) : Host.Outcome State Fault Refusal := execVal (f.ins 0x06) intMulhu s

/-- MULHU_F1_F2 (06 R109). -/
def execMulhuF1F2 (f : FX) (s : State) : Host.Outcome State Fault Refusal := execVal (f.ins 0x06) intMulhu s

/-- MAD_F0 (06 R109). -/
def execMadF0 (f : F0) (s : State) : Host.Outcome State Fault Refusal := execVal (f.ins 0x07) intMad s

/-- MAD_F1_F2 (06 R109). -/
def execMadF1F2 (f : FX) (s : State) : Host.Outcome State Fault Refusal := execVal (f.ins 0x07) intMad s

/-- DIVS_F0 (06 R113). -/
def execDivsF0 (f : F0) (s : State) : Host.Outcome State Fault Refusal := execVal (f.ins 0x08) intDivs s

/-- DIVS_F1_F2 (06 R113). -/
def execDivsF1F2 (f : FX) (s : State) : Host.Outcome State Fault Refusal := execVal (f.ins 0x08) intDivs s

/-- DIVU_F0 (06 R113). -/
def execDivuF0 (f : F0) (s : State) : Host.Outcome State Fault Refusal := execVal (f.ins 0x09) intDivu s

/-- DIVU_F1_F2 (06 R113). -/
def execDivuF1F2 (f : FX) (s : State) : Host.Outcome State Fault Refusal := execVal (f.ins 0x09) intDivu s

/-- REMS_F0 (06 R113). -/
def execRemsF0 (f : F0) (s : State) : Host.Outcome State Fault Refusal := execVal (f.ins 0x0A) intRems s

/-- REMS_F1_F2 (06 R113). -/
def execRemsF1F2 (f : FX) (s : State) : Host.Outcome State Fault Refusal := execVal (f.ins 0x0A) intRems s

/-- REMU_F0 (06 R113). -/
def execRemuF0 (f : F0) (s : State) : Host.Outcome State Fault Refusal := execVal (f.ins 0x0B) intRemu s

/-- REMU_F1_F2 (06 R113). -/
def execRemuF1F2 (f : FX) (s : State) : Host.Outcome State Fault Refusal := execVal (f.ins 0x0B) intRemu s

/-- NEG_F0 (06 R109). -/
def execNegF0 (f : F0) (s : State) : Host.Outcome State Fault Refusal := execVal (f.ins 0x0C) intNeg s

/-- NEG_F1 (06 R109). -/
def execNegF1 (f : FX) (s : State) : Host.Outcome State Fault Refusal := execVal (f.ins 0x0C) intNeg s

/-- ABS_F0 (06 R109). -/
def execAbsF0 (f : F0) (s : State) : Host.Outcome State Fault Refusal := execVal (f.ins 0x0D) intAbs s

/-- ABS_F1 (06 R109). -/
def execAbsF1 (f : FX) (s : State) : Host.Outcome State Fault Refusal := execVal (f.ins 0x0D) intAbs s

/-- MIN_F0 (06 R109). -/
def execMinF0 (f : F0) (s : State) : Host.Outcome State Fault Refusal := execVal (f.ins 0x0E) intMin s

/-- MIN_F1_F2 (06 R109). -/
def execMinF1F2 (f : FX) (s : State) : Host.Outcome State Fault Refusal := execVal (f.ins 0x0E) intMin s

/-- MAX_F0 (06 R109). -/
def execMaxF0 (f : F0) (s : State) : Host.Outcome State Fault Refusal := execVal (f.ins 0x0F) intMax s

/-- MAX_F1_F2 (06 R109). -/
def execMaxF1F2 (f : FX) (s : State) : Host.Outcome State Fault Refusal := execVal (f.ins 0x0F) intMax s

/-- MINU_F0 (06 R109). -/
def execMinuF0 (f : F0) (s : State) : Host.Outcome State Fault Refusal := execVal (f.ins 0x10) intMinu s

/-- MINU_F1_F2 (06 R109). -/
def execMinuF1F2 (f : FX) (s : State) : Host.Outcome State Fault Refusal := execVal (f.ins 0x10) intMinu s

/-- MAXU_F0 (06 R109). -/
def execMaxuF0 (f : F0) (s : State) : Host.Outcome State Fault Refusal := execVal (f.ins 0x11) intMaxu s

/-- MAXU_F1_F2 (06 R109). -/
def execMaxuF1F2 (f : FX) (s : State) : Host.Outcome State Fault Refusal := execVal (f.ins 0x11) intMaxu s

/-- ADDS_F0 (06 R109). -/
def execAddsF0 (f : F0) (s : State) : Host.Outcome State Fault Refusal := execVal (f.ins 0x12) intAdds s

/-- ADDS_F1_F2 (06 R109). -/
def execAddsF1F2 (f : FX) (s : State) : Host.Outcome State Fault Refusal := execVal (f.ins 0x12) intAdds s

/-- ADDSU_F0 (06 R109). -/
def execAddsuF0 (f : F0) (s : State) : Host.Outcome State Fault Refusal := execVal (f.ins 0x13) intAddsu s

/-- ADDSU_F1_F2 (06 R109). -/
def execAddsuF1F2 (f : FX) (s : State) : Host.Outcome State Fault Refusal := execVal (f.ins 0x13) intAddsu s

/-- SUBS_F0 (06 R109). -/
def execSubsF0 (f : F0) (s : State) : Host.Outcome State Fault Refusal := execVal (f.ins 0x14) intSubs s

/-- SUBS_F1_F2 (06 R109). -/
def execSubsF1F2 (f : FX) (s : State) : Host.Outcome State Fault Refusal := execVal (f.ins 0x14) intSubs s

/-- SUBSU_F0 (06 R109). -/
def execSubsuF0 (f : F0) (s : State) : Host.Outcome State Fault Refusal := execVal (f.ins 0x15) intSubsu s

/-- SUBSU_F1_F2 (06 R109). -/
def execSubsuF1F2 (f : FX) (s : State) : Host.Outcome State Fault Refusal := execVal (f.ins 0x15) intSubsu s

/-- AVG_F0 (06 R109). -/
def execAvgF0 (f : F0) (s : State) : Host.Outcome State Fault Refusal := execVal (f.ins 0x16) intAvg s

/-- AVG_F1_F2 (06 R109). -/
def execAvgF1F2 (f : FX) (s : State) : Host.Outcome State Fault Refusal := execVal (f.ins 0x16) intAvg s

/-- AND_F0 (06 R114). -/
def execAndF0 (f : F0) (s : State) : Host.Outcome State Fault Refusal := execVal (f.ins 0x17) intAnd s

/-- AND_F1_F2 (06 R114). -/
def execAndF1F2 (f : FX) (s : State) : Host.Outcome State Fault Refusal := execVal (f.ins 0x17) intAnd s

/-- OR_F0 (06 R114). -/
def execOrF0 (f : F0) (s : State) : Host.Outcome State Fault Refusal := execVal (f.ins 0x18) intOr s

/-- OR_F1_F2 (06 R114). -/
def execOrF1F2 (f : FX) (s : State) : Host.Outcome State Fault Refusal := execVal (f.ins 0x18) intOr s

/-- XOR_F0 (06 R114). -/
def execXorF0 (f : F0) (s : State) : Host.Outcome State Fault Refusal := execVal (f.ins 0x19) intXor s

/-- XOR_F1_F2 (06 R114). -/
def execXorF1F2 (f : FX) (s : State) : Host.Outcome State Fault Refusal := execVal (f.ins 0x19) intXor s

/-- ANDN_F0 (06 R114). -/
def execAndnF0 (f : F0) (s : State) : Host.Outcome State Fault Refusal := execVal (f.ins 0x1A) intAndn s

/-- ANDN_F1_F2 (06 R114). -/
def execAndnF1F2 (f : FX) (s : State) : Host.Outcome State Fault Refusal := execVal (f.ins 0x1A) intAndn s

/-- SHL_F0 (06 R115). -/
def execShlF0 (f : F0) (s : State) : Host.Outcome State Fault Refusal := execVal (f.ins 0x1B) intShl s

/-- SHL_F1_F2 (06 R115). -/
def execShlF1F2 (f : FX) (s : State) : Host.Outcome State Fault Refusal := execVal (f.ins 0x1B) intShl s

/-- SHR_F0 (06 R115). -/
def execShrF0 (f : F0) (s : State) : Host.Outcome State Fault Refusal := execVal (f.ins 0x1C) intShr s

/-- SHR_F1_F2 (06 R115). -/
def execShrF1F2 (f : FX) (s : State) : Host.Outcome State Fault Refusal := execVal (f.ins 0x1C) intShr s

/-- SAR_F0 (06 R115). -/
def execSarF0 (f : F0) (s : State) : Host.Outcome State Fault Refusal := execVal (f.ins 0x1D) intSar s

/-- SAR_F1_F2 (06 R115). -/
def execSarF1F2 (f : FX) (s : State) : Host.Outcome State Fault Refusal := execVal (f.ins 0x1D) intSar s

/-- ROTL_F0 (06 R115). -/
def execRotlF0 (f : F0) (s : State) : Host.Outcome State Fault Refusal := execVal (f.ins 0x1E) intRotl s

/-- ROTL_F1_F2 (06 R115). -/
def execRotlF1F2 (f : FX) (s : State) : Host.Outcome State Fault Refusal := execVal (f.ins 0x1E) intRotl s

/-- SHLI_FI (06 R115). -/
def execShliFi (f : FI) (s : State) : Host.Outcome State Fault Refusal := execVal (f.ins 0x1F) intShli s

/-- SHLI_F2 (06 R115). -/
def execShliF2 (f : FX) (s : State) : Host.Outcome State Fault Refusal := execVal (f.ins 0x1F) intShli s

/-- SHRI_FI (06 R115). -/
def execShriFi (f : FI) (s : State) : Host.Outcome State Fault Refusal := execVal (f.ins 0x20) intShri s

/-- SHRI_F2 (06 R115). -/
def execShriF2 (f : FX) (s : State) : Host.Outcome State Fault Refusal := execVal (f.ins 0x20) intShri s

/-- SARI_FI (06 R115). -/
def execSariFi (f : FI) (s : State) : Host.Outcome State Fault Refusal := execVal (f.ins 0x21) intSari s

/-- SARI_F2 (06 R115). -/
def execSariF2 (f : FX) (s : State) : Host.Outcome State Fault Refusal := execVal (f.ins 0x21) intSari s

/-- CLZ_F0 (06 R116). -/
def execClzF0 (f : F0) (s : State) : Host.Outcome State Fault Refusal := execVal (f.ins 0x22) intClz s

/-- CLZ_F1 (06 R116). -/
def execClzF1 (f : FX) (s : State) : Host.Outcome State Fault Refusal := execVal (f.ins 0x22) intClz s

/-- CTZ_F0 (06 R116). -/
def execCtzF0 (f : F0) (s : State) : Host.Outcome State Fault Refusal := execVal (f.ins 0x23) intCtz s

/-- CTZ_F1 (06 R116). -/
def execCtzF1 (f : FX) (s : State) : Host.Outcome State Fault Refusal := execVal (f.ins 0x23) intCtz s

/-- POPC_F0 (06 R116). -/
def execPopcF0 (f : F0) (s : State) : Host.Outcome State Fault Refusal := execVal (f.ins 0x24) intPopc s

/-- POPC_F1 (06 R116). -/
def execPopcF1 (f : FX) (s : State) : Host.Outcome State Fault Refusal := execVal (f.ins 0x24) intPopc s

/-- BREV_F0 (06 R116). -/
def execBrevF0 (f : F0) (s : State) : Host.Outcome State Fault Refusal := execVal (f.ins 0x25) intBrev s

/-- BREV_F1 (06 R116). -/
def execBrevF1 (f : FX) (s : State) : Host.Outcome State Fault Refusal := execVal (f.ins 0x25) intBrev s

/-- BSWAP_F0 (06 R116). -/
def execBswapF0 (f : F0) (s : State) : Host.Outcome State Fault Refusal := execVal (f.ins 0x26) intBswap s

/-- BSWAP_F1 (06 R116). -/
def execBswapF1 (f : FX) (s : State) : Host.Outcome State Fault Refusal := execVal (f.ins 0x26) intBswap s

/-- BFX_F0 (06 R117). -/
def execBfxF0 (f : F0) (s : State) : Host.Outcome State Fault Refusal := execVal (f.ins 0x27) intBfx s

/-- BFX_F1_F2 (06 R117). -/
def execBfxF1F2 (f : FX) (s : State) : Host.Outcome State Fault Refusal := execVal (f.ins 0x27) intBfx s

/-- BFI_F0 (06 R117). -/
def execBfiF0 (f : F0) (s : State) : Host.Outcome State Fault Refusal := execVal (f.ins 0x28) intBfi s

/-- BFI_F1_F2 (06 R117). -/
def execBfiF1F2 (f : FX) (s : State) : Host.Outcome State Fault Refusal := execVal (f.ins 0x28) intBfi s

/-- ADDSH_F0 (06 R112). -/
def execAddshF0 (f : F0) (s : State) : Host.Outcome State Fault Refusal := execVal (f.ins 0x29) intAddsh s

/-- ADDSH_F1_F2 (06 R112). -/
def execAddshF1F2 (f : FX) (s : State) : Host.Outcome State Fault Refusal := execVal (f.ins 0x29) intAddsh s

/-- MOVI (06 R118). -/
def execMovi (f : FI) (s : State) : Host.Outcome State Fault Refusal := execVal (f.ins 0x2A) intMovi s

/-- MOVL (06 R118). -/
def execMovl (f : FX) (s : State) : Host.Outcome State Fault Refusal := execVal (f.ins 0x2B) intMovl s

/-- SEXT (06 R119). -/
def execSext (f : FX) (s : State) : Host.Outcome State Fault Refusal := execVal (f.ins 0x2C) (intExtend true) s

/-- ZEXT (06 R119). -/
def execZext (f : FX) (s : State) : Host.Outcome State Fault Refusal := execVal (f.ins 0x2D) (intExtend false) s

/-- MOV_F0 (06 R120). -/
def execMovF0 (f : F0) (s : State) : Host.Outcome State Fault Refusal := execVal (f.ins 0x2E) intMov s

/-- MOV_F1 (06 R120). -/
def execMovF1 (f : FX) (s : State) : Host.Outcome State Fault Refusal := execVal (f.ins 0x2E) intMov s

end Sys2Proof.Machine
end

