-- ==== Sys2Proof/Machine/Lane.lean ====
section
/-! DEFINITION. The lane instructions: broadcast, permutation, reduction, scan and `dot4` (spec 06 R124 to R131). -/
namespace Sys2Proof.Machine

/-- BCAST_F0 (06 R125). -/
def execBcastF0 (f : F0) (s : State) : Host.Outcome State Fault Refusal := execVal (f.ins 0x40) laneBcast s

/-- BCAST_F1_F2 (06 R125). -/
def execBcastF1F2 (f : FX) (s : State) : Host.Outcome State Fault Refusal := execVal (f.ins 0x40) laneBcast s

/-- LGET_F0 (06 R125). -/
def execLgetF0 (f : F0) (s : State) : Host.Outcome State Fault Refusal := execVal (f.ins 0x41) laneLget s

/-- LGET_F1_F2 (06 R125). -/
def execLgetF1F2 (f : FX) (s : State) : Host.Outcome State Fault Refusal := execVal (f.ins 0x41) laneLget s

/-- LSET_F0 (06 R125). -/
def execLsetF0 (f : F0) (s : State) : Host.Outcome State Fault Refusal := execVal (f.ins 0x42) laneLset s

/-- LSET_F1_F2 (06 R125). -/
def execLsetF1F2 (f : FX) (s : State) : Host.Outcome State Fault Refusal := execVal (f.ins 0x42) laneLset s

/-- PERM_F0 (06 R125). -/
def execPermF0 (f : F0) (s : State) : Host.Outcome State Fault Refusal := execVal (f.ins 0x43) lanePerm s

/-- PERM_F1_F2 (06 R125). -/
def execPermF1F2 (f : FX) (s : State) : Host.Outcome State Fault Refusal := execVal (f.ins 0x43) lanePerm s

/-- LROT_F0 (06 R125). -/
def execLrotF0 (f : F0) (s : State) : Host.Outcome State Fault Refusal := execVal (f.ins 0x44) laneLrot s

/-- LROT_F1_F2 (06 R125). -/
def execLrotF1F2 (f : FX) (s : State) : Host.Outcome State Fault Refusal := execVal (f.ins 0x44) laneLrot s

/-- ZIP_F0 (06 R126). -/
def execZipF0 (f : F0) (s : State) : Host.Outcome State Fault Refusal := execVal (f.ins 0x45) laneZip s

/-- ZIP_F1_F2 (06 R126). -/
def execZipF1F2 (f : FX) (s : State) : Host.Outcome State Fault Refusal := execVal (f.ins 0x45) laneZip s

/-- UNZIP_F0 (06 R126). -/
def execUnzipF0 (f : F0) (s : State) : Host.Outcome State Fault Refusal := execVal (f.ins 0x46) laneUnzip s

/-- UNZIP_F1_F2 (06 R126). -/
def execUnzipF1F2 (f : FX) (s : State) : Host.Outcome State Fault Refusal := execVal (f.ins 0x46) laneUnzip s

/-- COMPRESS_F0 (06 R127). -/
def execCompressF0 (f : F0) (s : State) : Host.Outcome State Fault Refusal := execVal (f.ins 0x47) laneCompress s

/-- COMPRESS_F1_F2 (06 R127). -/
def execCompressF1F2 (f : FX) (s : State) : Host.Outcome State Fault Refusal := execVal (f.ins 0x47) laneCompress s

/-- EXPAND_F0 (06 R127). -/
def execExpandF0 (f : F0) (s : State) : Host.Outcome State Fault Refusal := execVal (f.ins 0x48) laneExpand s

/-- EXPAND_F1_F2 (06 R127). -/
def execExpandF1F2 (f : FX) (s : State) : Host.Outcome State Fault Refusal := execVal (f.ins 0x48) laneExpand s

/-- RADD_F0 (06 R128). -/
def execRaddF0 (f : F0) (s : State) : Host.Outcome State Fault Refusal := execVal (f.ins 0x49) laneRadd s

/-- RADD_F1 (06 R128). -/
def execRaddF1 (f : FX) (s : State) : Host.Outcome State Fault Refusal := execVal (f.ins 0x49) laneRadd s

/-- RMAX_F0 (06 R128). -/
def execRmaxF0 (f : F0) (s : State) : Host.Outcome State Fault Refusal := execVal (f.ins 0x4A) laneRmax s

/-- RMAX_F1 (06 R128). -/
def execRmaxF1 (f : FX) (s : State) : Host.Outcome State Fault Refusal := execVal (f.ins 0x4A) laneRmax s

/-- RMIN_F0 (06 R128). -/
def execRminF0 (f : F0) (s : State) : Host.Outcome State Fault Refusal := execVal (f.ins 0x4B) laneRmin s

/-- RMIN_F1 (06 R128). -/
def execRminF1 (f : FX) (s : State) : Host.Outcome State Fault Refusal := execVal (f.ins 0x4B) laneRmin s

/-- RXOR_F0 (06 R128). -/
def execRxorF0 (f : F0) (s : State) : Host.Outcome State Fault Refusal := execVal (f.ins 0x4C) laneRxor s

/-- RXOR_F1 (06 R128). -/
def execRxorF1 (f : FX) (s : State) : Host.Outcome State Fault Refusal := execVal (f.ins 0x4C) laneRxor s

/-- SCAN_F0 (06 R129). -/
def execScanF0 (f : F0) (s : State) : Host.Outcome State Fault Refusal := execVal (f.ins 0x4D) laneScan s

/-- SCAN_F1 (06 R129). -/
def execScanF1 (f : FX) (s : State) : Host.Outcome State Fault Refusal := execVal (f.ins 0x4D) laneScan s

/-- LIDX (06 R130). -/
def execLidx (f : F0) (s : State) : Host.Outcome State Fault Refusal := execVal (f.ins 0x4E) laneLidx s

/-- DOT4_F0 (06 R131). -/
def execDot4F0 (f : F0) (s : State) : Host.Outcome State Fault Refusal := execVal (f.ins 0x4F) laneDot4 s

/-- DOT4_F1_F2 (06 R131). -/
def execDot4F1F2 (f : FX) (s : State) : Host.Outcome State Fault Refusal := execVal (f.ins 0x4F) laneDot4 s

end Sys2Proof.Machine
end

