-- ==== Sys2Proof/Machine/Text.lean ====
section
/-! DEFINITION. The text service: frames, the carder's tokens, the blocker's replies, and vocabularies (spec 24 R430, R434 to R441). -/
namespace Sys2Proof.Machine

/-! ### Ports and counters -/

/-- The Ethernet port of a connection: the one its hash picks, or the next that works (24 R430). -/
def State.portOf (s : State) (conn : Nat) : Nat :=
  let h := Config.connectionHash conn % 16
  (((List.range 16).map fun k => (h + k) % 16).find? fun p => !s.out.deadPorts.contains p).getD h

/-- The first die of the group of the I/O die that holds a port (02 R28). -/
def State.textDie (s : State) (conn : Nat) : Nat := [0, 4, 56, 60].getD (s.portOf conn / 4) 0

/-- TEXT_BAD and TEXT_BADID. -/
def State.textBad (s : State) (conn : Nat) : State := s.count (s.textDie conn) none 0x56
def State.textBadId (s : State) (conn : Nat) : State := s.count (s.textDie conn) none 0x57

/-- ROD_PORT_FAILURE (24 R430): the connections of the port move to the next that works. -/
def execRodPortFailure (port : Nat) (s : State) : Host.Outcome State Fault Refusal :=
  .next (s.updOut fun o => { o with deadPorts := addOnce o.deadPorts (port % 16) })

/-! ### Vocabularies (24 R437, R438) -/

def Vocab.ntok (v : Vocab) : Nat := fieldAt v.image 4 4
def Vocab.nrank (v : Vocab) : Nat := fieldAt v.image 8 4
def Vocab.fbase (v : Vocab) : Nat := fieldAt v.image 12 4
def Vocab.mergeAt (v : Vocab) : Nat := fieldAt v.image 16 8
def Vocab.indexAt (v : Vocab) : Nat := fieldAt v.image 24 8
def Vocab.blobAt (v : Vocab) : Nat := fieldAt v.image 32 8
def Vocab.size (v : Vocab) : Nat := fieldAt v.image 40 8

/-- The class byte of a byte: its class and its two glue bits. -/
def Vocab.classOf (v : Vocab) (b : Byte) : Nat := fieldAt v.image (64 + b.toNat) 1

/-- The ID of a single byte. -/
def Vocab.single (v : Vocab) (b : Byte) : Option Nat :=
  let x := fieldAt v.image (320 + 4 * b.toNat) 4
  if x = 0xFFFFFFFF then none else some x

/-- The merge entry of a rank: left, right, result. -/
def Vocab.merge (v : Vocab) (k : Nat) : Nat × Nat × Nat :=
  let o := v.mergeAt + 12 * k
  (fieldAt v.image o 4, fieldAt v.image (o + 4) 4, fieldAt v.image (o + 8) 4)

/-- The entry of an ID in the string index. -/
def Vocab.entry (v : Vocab) (id : Nat) : Nat := fieldAt v.image (v.indexAt + 8 * id) 8

/-- The string of an ID. -/
def Vocab.string (v : Vocab) (id : Nat) : List Byte :=
  let e := v.entry id
  (v.image.drop (v.blobAt + bitsAt e 0 40)).take (bitsAt e 40 9)

/-- An image keeps 24 R437. -/
def Vocab.ok (v : Vocab) : Bool :=
  let n := v.ntok
  let idOk := fun (x : Nat) => decide (x < n)
  fieldAt v.image 0 4 == 0x56435A4C && 1 ≤ n && n ≤ 1048576 && v.nrank ≤ 1048575 && v.fbase + 255 < n &&
  fieldAt v.image 48 16 == 0 && v.size == v.image.length && 1344 ≤ v.size &&
  v.mergeAt + 12 * v.nrank ≤ v.size && v.indexAt + 8 * n ≤ v.size && v.blobAt ≤ v.size &&
  ((List.range 256).all fun b => match v.single (BitVec.ofNat 8 b) with
    | some x => idOk x
    | none => true) &&
  ((List.range v.nrank).all fun k => let e := v.merge k; idOk e.1 && idOk e.2.1 && idOk e.2.2) &&
  ((List.range n).all fun i =>
    let e := v.entry i
    let len := bitsAt e 40 9
    bitsAt e 49 15 == 0 && 1 ≤ len && len ≤ 256 && v.blobAt + bitsAt e 0 40 + len ≤ v.size)

/-- A version that has been replaced in a slot and serves an open request still. -/
def State.slotBusy (s : State) (vf slot : Nat) : Bool :=
  match Tab.get? s.out.vocabs (vf, slot) with
  | some v => s.out.sessions.any fun e => e.2.isOpen && e.2.vf == vf && e.2.vslot == slot && e.2.vocab.id != v.id
  | none => s.out.sessions.any fun e => e.2.isOpen && e.2.vf == vf && e.2.vslot == slot

/-- A call of a command-processor function, with the VF and slot that it names. -/
def State.vocCall (s : State) (call fn : Nat) : Option (Call × Vec × Option Nat × Nat) :=
  match s.sched.calls.find? fun c => c.id == call with
  | some c => match c.fn with
    | some (f, b) => if f = fn then some (c, b, s.vfOf c.ctx, bitsAt b.toNat 64 3) else none
    | none => none
  | none => none

/-- Reads an image for a context. -/
def State.vocRead (s : State) (ctx va : Nat) : State × Except Nat (List Byte) :=
  let die := s.iopDie ctx
  let read := fun (s : State) (n : Nat) =>
    (linePieces (n / 64 + 2) va n).foldl (fun (acc : State × Except Nat (List Byte)) p =>
      match acc with
      | (s, .error e) => (s, .error e)
      | (s, .ok bs) =>
        match s.muRead die 0x1FF ctx p.1 p.2 with
        | (s, .error e) => (s, .error e.1)
        | (s, .ok b) => (s, .ok (bs ++ b))) (s, .ok [])
  match read s 64 with
  | (s, .error e) => (s, .error e)
  | (s, .ok h) => read s (max 64 (fieldAt h 40 8))

/-- VOCLOAD (24 R438). In the swap window it waits (26 R462). -/
def execVocload (call : Nat) (s : State) : Host.Outcome State Fault Refusal :=
  .next (match s.vocCall call 1 with
    | none => s
    | some (c, _, none, _) => s.completeCall c sNOSVC []
    | some (c, b, some vf, slot) =>
      if s.swapping then s
      else if s.slotBusy vf slot then s.completeCall c sBUSY []
      else
        match s.vocRead c.ctx (scalNat b) with
        | (s, .error cause) => s.completeCall c (sBADIMG + cause * 2 ^ 8) []
        | (s, .ok bs) =>
          let (id, s) := s.takeId
          let v : Vocab := ⟨bs, id⟩
          if v.ok then (s.updOut fun o => { o with vocabs := Tab.set o.vocabs (vf, slot) v }).completeCall c 0 []
          else s.completeCall c sBADIMG [])

/-- VOCDROP (24 R438). In the swap window it waits (26 R462). -/
def execVocdrop (call : Nat) (s : State) : Host.Outcome State Fault Refusal :=
  .next (match s.vocCall call 2 with
    | none => s
    | some (c, _, none, _) => s.completeCall c sNOSVC []
    | some (c, _, some vf, slot) =>
      if s.swapping then s
      else if s.slotBusy vf slot then s.completeCall c sBUSY []
      else (s.updOut fun o => { o with vocabs := Tab.erase o.vocabs (vf, slot) }).completeCall c 0 [])

/-! ### Frames (24 R435) -/

/-- The bytes of a reply frame. -/
def frameBytes (flags vf session vslot fseq : Nat) (payload : List Byte) : List Byte :=
  natBytes 4 0x46545A4C ++ natBytes 1 1 ++ natBytes 1 flags ++ natBytes 2 vf ++ natBytes 4 session ++ natBytes 1 vslot ++ natBytes 3 0 ++
    natBytes 4 payload.length ++ natBytes 4 fseq ++ natBytes 8 0 ++ payload

/-- A header of a request frame keeps the table. -/
def frameOk (bs : List Byte) : Bool :=
  32 ≤ bs.length && fieldAt bs 0 4 == 0x46545A4C && fieldAt bs 4 1 == 1 && fieldAt bs 5 1 < 8 && fieldAt bs 6 2 < 256 &&
  fieldAt bs 12 1 < 8 && fieldAt bs 13 3 == 0 && fieldAt bs 16 4 == bs.length - 32 && bs.length - 32 ≤ 8160 && fieldAt bs 24 8 == 0

/-- A reply frame leaves, or waits at its VF's limiter (24 R434); a closed connection discards it (R441). -/
def State.sendFrame (s : State) (conn vf : Nat) (closed : Bool) (bytes : List Byte) : State :=
  if closed then s.textBad conn
  else if s.limited (some vf) || s.out.frames.any fun f => f.1 == vf then
    s.updOut fun o => { o with frames := o.frames ++ [(vf, conn, bytes)] }
  else (s.charge (some vf) bytes.length).send (.frame conn bytes)

/-- A REJECT frame. -/
def State.rejectFrame (s : State) (conn vf session vslot : Nat) (closed : Bool) : State :=
  s.sendFrame conn vf closed (frameBytes 12 vf session vslot 0 [])

def State.session? (s : State) (n : Nat) : Option Session := Tab.get? s.out.sessions n
def State.updSession (s : State) (n : Nat) (f : Session → Session) : State :=
  s.updOut fun o => { o with sessions := Tab.modify o.sessions n f }

/-! ### The carder (24 R439, R440) -/

/-- A symbol of a piece: an ID, or a bare byte. -/
inductive Symbol where
  | id (n : Nat)
  | bare (b : Byte)
  deriving DecidableEq, Repr

/-- The rank and result of a pair of symbols. -/
def Vocab.pair (v : Vocab) : Symbol → Symbol → Option (Nat × Nat)
  | .id a, .id b =>
    ((List.range v.nrank).find? fun k => let e := v.merge k; e.1 == a && e.2.1 == b).map fun k => (k, (v.merge k).2.2)
  | _, _ => none

/-- The lowest rank among adjacent pairs. -/
def Vocab.lowest (v : Vocab) : List Symbol → Option Nat
  | a :: b :: rest =>
    match v.pair a b, v.lowest (b :: rest) with
    | some (k, _), some m => some (min k m)
    | some (k, _), none => some k
    | none, m => m
  | _ => none

/-- Replaces the leftmost pair of a rank. -/
def Vocab.replace (v : Vocab) (k : Nat) : List Symbol → List Symbol
  | a :: b :: rest =>
    match v.pair a b with
    | some (m, r) => if m = k then .id r :: rest else a :: v.replace k (b :: rest)
    | none => a :: v.replace k (b :: rest)
  | xs => xs

/-- Merges until no pair has an entry; every merge shortens the piece. -/
def Vocab.mergeAll (v : Vocab) : Nat → List Symbol → List Symbol
  | 0, xs => xs
  | n + 1, xs => match v.lowest xs with
    | some k => v.mergeAll n (v.replace k xs)
    | none => xs

/-- The tokens of a piece. -/
def Vocab.tokens (v : Vocab) (piece : List Byte) : List Nat :=
  let start := piece.map fun b => match v.single b with
    | some x => Symbol.id x
    | none => .bare b
  (v.mergeAll piece.length start).map fun x => match x with
    | .id n => n
    | .bare b => v.fbase + b.toNat

/-- A piece boundary stands between two bytes. -/
def Vocab.boundary (v : Vocab) (x y : Byte) : Bool :=
  v.classOf x % 64 != v.classOf y % 64 && !(v.classOf x).testBit 6 && !(v.classOf y).testBit 7

/-- The record of a token. -/
def tokenRecord (k : Session) (session id pos time : Nat) (last : Bool) : Record :=
  { Record.data (packE 32 [id, pos, (if last then 1 else 0) + k.vslot * 2 ^ 8 + k.vf * 2 ^ 16]) (time % 2 ^ 32) false [] with
    key := session, kv := true }

/-- The carder puts a token. A shed by REJECT starts the discarding of the request; its marker is the carder's own (log 31). -/
def State.putToken (s : State) (session id time : Nat) (last : Bool) : State :=
  match s.session? session with
  | none => s
  | some k =>
    if k.lost > 0 then s.updSession session fun k => { k with lost := k.lost + 1, lostTo := time }
    else
      let s' := s.updSession session fun k => { k with pos := k.pos + 1 }
      match s.queue? (.text k.ctx), s'.arriveAt (.text k.ctx) (tokenRecord k session id k.pos time last) with
      | some q, (_, .rejected) =>
        ((s'.countShed q 6).setQueue (.text k.ctx) { q with nlost := min (q.nlost + 1) 0xFFFFFFFF }).updSession session fun k =>
          { k with lost := 1, lostFrom := time, lostTo := time }
      | _, (s', _) => s'

/-- A token is complete: the one before it is put, since it is not the last. -/
def State.addToken (s : State) (session id time : Nat) : State :=
  match s.session? session with
  | none => s
  | some k =>
    let s := match k.held with
      | some (t, at_) => s.putToken session t at_ false
      | none => s
    s.updSession session fun k => { k with held := some (id, time) }

/-- A byte of the request follows the token that is held, so that it is not the last (24 R439). -/
def State.putHeld (s : State) (session : Nat) : State :=
  match (s.session? session).bind (·.held) with
  | some (t, at_) => (s.putToken session t at_ false).updSession session fun k => { k with held := none }
  | none => s

/-- The piece in hand ends; its last token is held. -/
def State.flushPiece (s : State) (session : Nat) : State :=
  match s.session? session with
  | none => s
  | some k =>
    let s := s.updSession session fun k => { k with piece := [] }
    (k.vocab.tokens k.piece).foldl (fun s t => s.addToken session t (s.clk.tick % 2 ^ 32)) s

/-- One byte of a request: every token that ends before it is put. -/
def State.feedByte (s : State) (session : Nat) (y : Byte) : State :=
  match s.session? session with
  | none => s
  | some k =>
    let s := match k.piece.getLast? with
      | some x => if k.vocab.boundary x y then s.flushPiece session else s
      | none => s
    let s := s.putHeld session
    let s := s.updSession session fun k => { k with piece := k.piece ++ [y] }
    match s.session? session with
    | some k => if k.piece.length ≥ 256 then s.flushPiece session else s
    | none => s

/-- The gap of a request that was shed. -/
def lostGap (k : Session) (session qid : Nat) : Record :=
  (Gap.mk (min k.lost 0xFFFFFFFF) (fmtF32.round 0 false k.lost 1).1 true 6 7 session session k.lostFrom k.lostTo qid false []).record

/-- A request ends: its last token carries END; an empty one puts one record; a shed one puts its gap, and is rejected. -/
def State.endRequest (s : State) (session : Nat) : State :=
  let s := s.flushPiece session
  match s.session? session with
  | none => s
  | some k =>
    let now := s.clk.tick % 2 ^ 32
    let s := match k.held with
      | some (t, at_) => s.putToken session t at_ true
      | none => s.putToken session 0xFFFFFFFF now true
    match s.session? session with
    | none => s
    | some k =>
      let s := s.updSession session fun k => { k with isOpen := false, held := none, lost := 0 }
      if k.lost = 0 then s
      else
        let qid := ((s.queue? (.text k.ctx)).map (·.qid)).getD 0
        ((s.arriveAt (.text k.ctx) (lostGap k session qid)).1).rejectFrame k.conn k.vf session k.vslot k.closed

/-- A launch of a context holds its text request queue: an actor or a node reads it (24 R436). -/
def State.holdsText (s : State) (ctx : Nat) : Bool := (s.queue? (.text ctx)).isSome && (s.textReader ctx).isSome

/-- The payload of an accepted frame. -/
def State.feedFrame (s : State) (session : Nat) (payload : List Byte) (ends : Bool) : State :=
  let s := payload.foldl (fun s y => s.feedByte session y) s
  if ends then s.endRequest session else s

/-- A request starts, or is rejected. -/
def State.startRequest (s : State) (conn session vf vslot : Nat) (payload : List Byte) (ends : Bool) : State :=
  match s.boundCtx vf with
  | none => s.rejectFrame conn vf session vslot false
  | some ctx =>
    match if s.holdsText ctx then Tab.get? s.out.vocabs (vf, vslot) else none with
    | none => s.rejectFrame conn vf session vslot false
    | some v =>
      let fresh : Session := ⟨conn, false, vf, ctx, vslot, v, true, 1, [], 0, none, 0, 0, 0, [], [], 0, 0⟩
      let k := match s.session? session with
        | some o => { fresh with tail := o.tail, released := o.released, outSeq := o.outSeq, since := o.since }
        | none => fresh
      (s.updOut fun o => { o with sessions := Tab.set o.sessions session k }).feedFrame session payload ends

/-- TEXT_FRAME (24 R435): a frame is checked, and starts or continues a request. -/
def execTextFrame (conn : Nat) (bytes : List (BitVec 8)) (s : State) : Host.Outcome State Fault Refusal :=
  .next (
    let s := if bytes.length ≥ 8 ∧ fieldAt bytes 6 2 < 256 then s.charge (some (fieldAt bytes 6 2)) bytes.length else s
    if !frameOk bytes then s.textBad conn
    else
      let flags := fieldAt bytes 5 1
      let vf := fieldAt bytes 6 2
      let session := fieldAt bytes 8 4
      let vslot := fieldAt bytes 12 1
      let fseq := fieldAt bytes 20 4
      let payload := bytes.drop 32
      let ends := flags.testBit 2
      let opened := match s.session? session with
        | some k => if k.isOpen then some k else none
        | none => none
      match opened with
      | some k =>
        if k.conn != conn || fseq != k.fseq || flags.testBit 0 then s.textBad conn
        else (s.updSession session fun k => { k with fseq := k.fseq + 1 }).feedFrame session payload ends
      | none =>
        if !flags.testBit 0 || flags.testBit 1 || fseq != 0 then s.textBad conn
        else s.startRequest conn session vf vslot payload ends)

/-! ### The blocker (24 R441) -/

/-- The replacement character. -/
def utf8Bad : List Byte := [0xEF, 0xBF, 0xBD]

/-- The continuation bytes that may follow a first byte: their number and the range of the first of them; none for a byte that
begins no character. -/
def utf8Lead (b : Nat) : Option (Nat × Nat × Nat) :=
  if b < 0x80 then some (0, 0x80, 0xBF)
  else if 0xC2 ≤ b ∧ b ≤ 0xDF then some (1, 0x80, 0xBF)
  else if b = 0xE0 then some (2, 0xA0, 0xBF)
  else if b = 0xED then some (2, 0x80, 0x9F)
  else if 0xE1 ≤ b ∧ b ≤ 0xEF then some (2, 0x80, 0xBF)
  else if b = 0xF0 then some (3, 0x90, 0xBF)
  else if 0xF1 ≤ b ∧ b ≤ 0xF3 then some (3, 0x80, 0xBF)
  else if b = 0xF4 then some (3, 0x80, 0x8F)
  else none

/-- How many of the bytes continue a character that lacks `n`, the first of them within a range. -/
def utf8Run : Nat → Nat → Nat → List Byte → Nat
  | 0, _, _, _ => 0
  | _, _, _, [] => 0
  | n + 1, lo, hi, b :: bs => if lo ≤ b.toNat && b.toNat ≤ hi then 1 + utf8Run n 0x80 0xBF bs else 0

/-- Whole characters, with each maximal invalid subpart replaced, and the incomplete sequence at the tail. -/
def utf8Whole : Nat → List Byte → List (List Byte) × List Byte
  | 0, bs => ([], bs)
  | _, [] => ([], [])
  | fuel + 1, b :: bs =>
    match utf8Lead b.toNat with
    | none => let (cs, t) := utf8Whole fuel bs; (utf8Bad :: cs, t)
    | some (n, lo, hi) =>
      let k := utf8Run n lo hi bs
      if k = n then let (cs, t) := utf8Whole fuel (bs.drop n); ((b :: bs.take n) :: cs, t)
      else if k = bs.length then ([], b :: bs)
      else let (cs, t) := utf8Whole fuel (bs.drop k); (utf8Bad :: cs, t)

/-- The first characters of a byte string that fit in a frame. -/
def utf8Fit : List (List Byte) → Nat → List Byte
  | [], _ => []
  | c :: cs, room => if c.length ≤ room then c ++ utf8Fit cs (room - c.length) else []

/-- A reply frame of a session; its first carries START, a later one CONT, and the last END. -/
def State.replyFrame (s : State) (session : Nat) (k : Session) (payload : List Byte) (ends : Bool) : State :=
  let flags := (if k.outSeq = 0 then 1 else 2) + (if ends then 4 else 0)
  let s := s.updSession session fun k => { k with
    released := k.released.drop payload.length
    outSeq := if ends then 0 else k.outSeq + 1
    since := s.clk.tick }
  s.sendFrame k.conn k.vf k.closed (frameBytes flags k.vf session k.vslot k.outSeq payload)

/-- Full frames leave while 8,160 bytes are released. -/
def State.fullFrames (s : State) (session : Nat) : Nat → State
  | 0 => s
  | fuel + 1 =>
    match s.session? session with
    | none => s
    | some k =>
      if k.released.length < 8160 then s
      else (s.replyFrame session k (utf8Fit (utf8Whole k.released.length k.released).1 8160) false).fullFrames session fuel

/-- Bytes are added to a session's output. -/
def State.release (s : State) (session : Nat) (bytes : List Byte) (ends : Bool) : State :=
  match s.session? session with
  | none => s
  | some k =>
    let all := k.tail ++ bytes
    let (cs, t) := utf8Whole all.length all
    let new := cs.flatten ++ (if ends && !t.isEmpty then utf8Bad else [])
    let s := s.updSession session fun k => { k with
      tail := if ends then [] else t
      released := k.released ++ new
      since := if k.released.isEmpty then s.clk.tick else k.since }
    let s := s.fullFrames session ((k.released.length + new.length) / 8000 + 1)
    match s.session? session with
    | some k => if ends then s.replyFrame session k k.released true else s
    | none => s

/-- The string that the blocker gives for an ID. -/
def Vocab.detoken (v : Vocab) (id : Nat) : List Byte :=
  if id ≥ v.ntok then utf8Bad
  else if v.fbase ≤ id ∧ id ≤ v.fbase + 255 then [BitVec.ofNat 8 (id - v.fbase)]
  else v.string id

/-- One record that reaches a `to=text` stream. -/
def State.blockRecord (s : State) (r : Record) : State :=
  match if r.kind = kDATA && r.kv then s.session? r.key else none with
  | none => s.textBad 0
  | some k =>
    let id := lane32 r.payload 0
    let s := if id ≥ k.vocab.ntok then s.textBadId k.conn else s
    s.release r.key (k.vocab.detoken id) (bitsAt (lane32 r.payload 2) 0 1 == 1)

/-- BLOCKER_RECORD (24 R441): the blocker takes the head of a text stream of a context. -/
def execBlockerRecord (ctx : Nat) (s : State) : Host.Outcome State Fault Refusal :=
  .next (match s.fab.texts.find? fun q => (s.queue? q).any (fun x => x.ctx == ctx) && (s.head? q).isSome with
    | none => s
    | some q => match s.takeHead q with
      | (s, some r) => s.blockRecord r
      | (s, none) => s)

/-- TEXT_REPLY_TIMEOUT (24 R441). -/
def execTextReplyTimeout (session : Nat) (s : State) : Host.Outcome State Fault Refusal :=
  .next (match s.session? session with
    | none => s
    | some k =>
      if k.released.isEmpty || s.clk.tick < k.since + 2700 then s else s.replyFrame session k k.released false)

/-- CONNECTION_CLOSED (24 R441): what is sent to the connection from now on is discarded, and so is each frame that waits at a limiter. -/
def execConnectionClosed (conn : Nat) (s : State) : Host.Outcome State Fault Refusal :=
  .next (
    let close := fun (e : Nat × Session) => if e.2.conn = conn then (e.1, { e.2 with closed := true }) else e
    let s := (s.out.frames.filter fun f => f.2.1 == conn).foldl (fun s _ => s.textBad conn) s
    s.updOut fun o => { o with sessions := o.sessions.map close, frames := o.frames.filter fun f => f.2.1 != conn })

end Sys2Proof.Machine
end

