-- ==== Sys2Proof/Machine/Package.lean ====
section
/-! DEFINITION. The package and the pod: time, pod memory, leadership, power, resets and stages, errors and links, and the watchdog
ladder's own events (spec 24 R431 to R433; 26 R445 to R458, R463 to R468). -/
namespace Sys2Proof.Machine

/-! ### The pod (24 R431 to R433; 26 R465, R466) -/

def State.updPod (s : State) (f : Pod → Pod) : State := s.updOut fun o => { o with pod := f o.pod }

/-- POD_MEMORY_ACCESS (24 R431): an access of a remote package enters at the IOP, with its package and context as requester. -/
def execPodMemoryAccess (pkg ctx : Nat) (va : BitVec 64) (write : Option (List (BitVec 8))) (size : Nat) (s : State) :
    Host.Outcome State Fault Refusal :=
  .next (
    let q := podRequester (pkg % 256) (ctx % 1024)
    match write with
    | some bs => s.iopAdd q (.raw none (ctx % 1024) (va.toNat % 2 ^ 40) bs)
    | none => s.iopAdd q (.read none (ctx % 1024) (va.toNat % 2 ^ 40) size false))

/-- TIME_SYNC_MESSAGE (24 R433): an offset from the grandmaster, which slewing takes up. -/
def execTimeSyncMessage (ofs : Int) (s : State) : Host.Outcome State Fault Refusal :=
  .next (
    let s := if ofs > 8 || ofs < -8 then s.count 0 none 0x55 else s
    { s with clk := { s.clk with slew := ofs } })

/-- A claim comes before another: a higher term, and in one term a lower serial number. -/
def claimBefore (term serial term' serial' : Nat) : Bool := term > term' || (term == term' && serial < serial')

/-- The claim that a package goes by: its leader's, or its own as candidate or leader. -/
def Pod.standing (p : Pod) : Option (Nat × Nat) :=
  match p.role with
  | .candidate | .leader => some (p.term, p.serial)
  | .follower => p.leader

/-- CLAIM (26 R465): a claim that comes before the one a package goes by is accepted and acknowledged. -/
def execClaim (term serial : Nat) (s : State) : Host.Outcome State Fault Refusal :=
  .next (
    let p := s.out.pod
    let better := match p.standing with
      | some (t, k) => claimBefore term serial t k || (t == term && k == serial)
      | none => true
    if !better || serial = p.serial then s
    else (s.updPod fun p => { p with
      role := .follower, leader := some (term, serial), term := max p.term term, acks := [], lastBeat := s.clk.tick }).send
        (.claimAck p.serial))

/-- The rank of a serial number among those of the pod (26 R466). -/
def Pod.rank (p : Pod) (serial : Nat) : Nat := (p.list.filter (· < serial)).length

/-- A candidate whom every package of its list has acknowledged leads, and asks the others for their progress records. Its index is the
rank of its serial number in the list (26 R466; log 39). -/
def State.tryLead (s : State) : State :=
  let p := s.out.pod
  if p.role = .candidate && p.list.all (fun k => k == p.serial || p.acks.contains k) then
    let s := s.updPod fun p => { p with
      role := .leader, leader := some (p.term, p.serial), nextBeat := s.clk.tick, acks := []
      count := max 1 p.list.length, index := p.rank p.serial, joined := true, records := [] }
    (p.list.filter fun k => k != p.serial).foldl (fun s k => s.send (.progressQuery k)) s
  else s

/-- CLAIM_ACK (26 R465). -/
def execClaimAck (serial : Nat) (s : State) : Host.Outcome State Fault Refusal :=
  .next (if s.out.pod.role = .candidate then (s.updPod fun p => { p with acks := addOnce p.acks serial }).tryLead else s)

/-- HEARTBEAT (26 R465): one of the leader, or of a better one. -/
def execHeartbeat (term serial : Nat) (s : State) : Host.Outcome State Fault Refusal :=
  .next (
    let p := s.out.pod
    let better := match p.standing with
      | some (t, k) => claimBefore term serial t k || (t == term && k == serial)
      | none => decide (term ≥ p.term)
    if !better || serial = p.serial then s
    else s.updPod fun p => { p with
      role := .follower, leader := some (term, serial), term := max p.term term, lastBeat := s.clk.tick })

/-- HEARTBEAT_SEND (26 R465): every 1 ms, 675,000 ticks. -/
def execHeartbeatSend (s : State) : Host.Outcome State Fault Refusal :=
  .next (
    let p := s.out.pod
    if p.role = .leader && s.clk.tick ≥ p.nextBeat then
      (s.updPod fun p => { p with nextBeat := s.clk.tick + 675000 }).send (.heartbeat p.term p.serial)
    else s)

/-- HEARTBEAT_MISS (26 R465): a follower that has missed 10 ms of heartbeats becomes a candidate. -/
def execHeartbeatMiss (s : State) : Host.Outcome State Fault Refusal :=
  .next (
    let p := s.out.pod
    if p.role = .follower && s.clk.tick ≥ p.lastBeat + 6750000 then
      let s := s.updPod fun p => { p with role := .candidate, leader := none, term := (p.term + 1) % 2 ^ 64, acks := [] }
      (s.send (.claim s.out.pod.term p.serial)).tryLead
    else s)

/-- FOLLOWER_LOAD_STEP (26 R466). The leader sends a step to a follower whose record it has and who has completed the one before: it goes on
from the record. The boot record, step 3, holds P and the rank of the follower's serial number. A follower records a step that its leader, of
this term, sends it, and answers with its record; a step applied twice leaves the same result. -/
def execFollowerLoadStep (serial n term : Nat) (s : State) : Host.Outcome State Fault Refusal :=
  .next (
    let p := s.out.pod
    if n = 0 || n > 3 || !p.list.contains serial || p.leader.map Prod.fst != some term then s
    else match p.role with
    | .leader =>
      match Tab.get? p.records serial with
      | some k => if serial = p.serial || n > k + 1 then s
        else s.send (.loadStep serial n (p.rank serial) (max 1 p.list.length))
      | none => s
    | _ =>
      if serial != p.serial || n > p.progress + 1 then s
      else (s.updPod fun p => { p with
        progress := max p.progress n
        count := if n = 3 then max 1 (min p.list.length 256) else p.count
        index := if n = 3 then p.rank serial else p.index
        joined := n == 3 || p.joined }).send (.progress serial (max p.progress n)))

/-- PROGRESS_RECORD_QUERY (26 R466): a leader asks a follower; a follower answers the last step that it completed. -/
def execProgressRecordQuery (serial : Nat) (s : State) : Host.Outcome State Fault Refusal :=
  .next (
    let p := s.out.pod
    match p.role with
    | .leader => if serial = p.serial then s else s.send (.progressQuery serial)
    | _ => s.send (.progress p.serial p.progress))

/-- A follower's record reaches its leader, who keeps it (26 R466). -/
def State.podProgress (s : State) (serial step : Nat) : State :=
  if s.out.pod.role = .leader then s.updPod fun p => { p with records := Tab.set p.records serial step } else s

/-! ### Resets and stages (26 R453, R463) -/

/-- Power-on: everything is as after reset but what flash and fuses hold: the firmware slots with the boot slot and the security floor,
the package's serial number, term and pod list, and the repair maps, from which the sparing maps are written. The model's own fields
and the messages that have left stay. -/
def State.powerOn (s : State) : State :=
  let fw : Firmware := { Firmware.reset with
    slots := s.out.fw.slots, verified := s.out.fw.verified, floor := s.out.fw.floor, boot := s.out.fw.boot, act := s.out.fw.boot }
  let alone := s.out.pod.list == [s.out.pod.serial]
  let pod : Pod := { Pod.reset with
    serial := s.out.pod.serial, term := s.out.pod.term, list := s.out.pod.list
    role := if alone then .leader else .follower
    leader := if alone then some (s.out.pod.term, s.out.pod.serial) else none
    joined := alone }
  let ras := s.out.ras.map fun e => (e.1, ({ repair := e.2.repair, failedLinks := 0, eccUncorr := 0, vptidx := 0, vpt := [], ueTicks := [] } : RasDie))
  let t : State := { State.reset with
    out := { State.reset.out with fw := fw, pod := pod, ras := ras, outbox := s.out.outbox }
    agenda := s.agenda, fresh := s.fresh, nextId := s.nextId }
  (ras.map Prod.fst).foldl (fun t d => t.rewriteVpt d) t

/-- POWER_ON_RESET (26 R463). -/
def execPowerOnReset (s : State) : Host.Outcome State Fault Refusal := .next s.powerOn

/-! ### Power (26 R467) -/

def State.powerDie (s : State) (d : Nat) : PowerDie := Tab.getD s.out.power.dies d ⟨0, 0, 0, none, 0⟩
def State.updPowerDie (s : State) (d : Nat) (f : PowerDie → PowerDie) : State :=
  s.updOut fun o => { o with power := { o.power with dies := Tab.set o.power.dies d (f (s.powerDie d)) } }

/-- What the parts of the module draw that give no reading, in 0.1 W: the shares of cache dies, HBM stacks, I/O dies, the application
processor chiplet and the module management controller (02 R32; log 18). -/
def restOfModule : Nat := 10 * (576 + 448 + 220 + 120 + 56)

/-- The module's average power in 0.1 W. -/
def State.modulePower (s : State) : Nat := sumNat (s.out.power.dies.map fun e => e.2.pwr) + restOfModule

/-- The power of a die exceeds its share, or the module's its budget. -/
def State.overBudget (s : State) (d : Nat) : Bool :=
  (s.powerDie d).pwr > s.out.power.dshare || s.modulePower > 10 * s.out.power.mbudget

/-- The rate of an arithmetic clock, in 54ths of that of P0: 2.7, 2.4, 2.0 or 1.35 GHz by its step, and 1.35 GHz before service stage S3 (26
R463, R467). -/
def clockRate (stage step : Nat) : Nat := if stage < 3 then 27 else match step with
  | 0 => 54
  | 1 => 48
  | 2 => 40
  | _ => 27

/-- A die's arithmetic clock goes on at the rate that its stage and step now give. -/
def State.retime (s : State) (d : Nat) : State :=
  { s with clk := { s.clk with
      dies := Tab.set s.clk.dies d ⟨s.clk.dieCycle d, s.clk.cycle, clockRate s.out.stage (s.powerDie d).step⟩ } }

/-- A step of a die's clock pauses its firing starts and is counted. -/
def State.powerStep (s : State) (d step : Nat) : State :=
  if (s.powerDie d).step = step then s
  else ((s.updPowerDie d fun x => { x with step := step, under := none, pauseUntil := s.clk.tick + 1350 }).count d none 0x64).retime d

/-- A reading of a die's power: the time that a die has been below 90 % of its share, with the module under budget, goes on or ends (26
R467). A module over its budget ends that of every die. -/
def State.powerReading (s : State) (die pwr : Nat) : State :=
  let s := s.updPowerDie die fun x => { x with pwr := pwr % 2 ^ 16 }
  let spent := decide (s.modulePower > 10 * s.out.power.mbudget)
  let s := if spent then s.updOut fun o => { o with
    power := { o.power with dies := o.power.dies.map fun e => (e.1, { e.2 with under := none }) } } else s
  s.updPowerDie die fun x => { x with
    under := if spent || 10 * x.pwr ≥ 9 * s.out.power.dshare then none else some (x.under.getD s.clk.tick) }

/-- POWER_STEP_DOWN (26 R467). -/
def execPowerStepDown (die pwr : Nat) (s : State) : Host.Outcome State Fault Refusal :=
  .next (
    let s := s.powerReading die pwr
    if s.overBudget die then s.powerStep die (min 3 ((s.powerDie die).step + 1)) else s)

/-- POWER_STEP_UP (26 R467): 1 ms below 90 % of the share with the module under budget. In S1 and S2 the clock stays at 1.35 GHz. -/
def execPowerStepUp (die pwr : Nat) (s : State) : Host.Outcome State Fault Refusal :=
  .next (
    let s := s.powerReading die pwr
    let x := s.powerDie die
    match x.under with
    | some since => if s.clk.tick ≥ since + 675000 && s.out.stage = 3 then s.powerStep die (x.step - 1) else s
    | none => s)

/-- A reading of a die's junction temperature (26 R467): at 110 °C the die goes to P3, and at 120 °C the module management controller resets
the package. -/
def State.thermalReading (s : State) (die tj : Nat) : State :=
  let s := s.updPowerDie die fun x => { x with tj := tj % 2 ^ 8 }
  if tj ≥ 120 then s.powerOn else if tj ≥ 110 then s.powerStep die 3 else s

/-- THERMAL_P3 (26 R467). -/
def execThermalP3 (die tj : Nat) (s : State) : Host.Outcome State Fault Refusal := .next (s.thermalReading die tj)

/-- THERMAL_RESET (26 R467). -/
def execThermalReset (die tj : Nat) (s : State) : Host.Outcome State Fault Refusal := .next (s.thermalReading die tj)

/-- SERVICE_STAGE_ADVANCE (26 R463): a package that failed repair goes no further than S1 (R453). Every die's clock goes on at its new rate. -/
def execServiceStageAdvance (s : State) : Host.Outcome State Fault Refusal :=
  .next (if s.out.rfail || s.out.stage ≥ 3 then s
    else (List.range 64).foldl State.retime (s.updOut fun o => { o with stage := o.stage + 1 }))

/-! ### Errors and links (26 R445 to R453) -/

/-- SCRUB (26 R445): a line is read and written again only to correct it. The state holds the data as corrected, so that nothing
changes but what is noted of the line's check bits; an uncorrectable line stays so and is counted (R446). -/
def execScrub (pa : Nat) (s : State) : Host.Outcome State Fault Refusal :=
  .next (
    let s := if s.ms.ce.contains (lineOf pa) then (s.count (s.storeDie pa) none 0x63).corrected pa else s
    if s.ms.ue.contains (lineOf pa) then s.count (s.storeDie pa) none 0x61 else s)

/-- What the scrubber comes to as the clock passes from one tick to another (26 R445): every slice once each 2^33 ticks, and all of HBM once
each 2^39. Only a line whose check bits are wrong changes anything. -/
def State.scrubDue (s : State) (old : Nat) : State :=
  let due := fun (k : Nat) => s.clk.tick / 2 ^ k != old / 2 ^ k
  let held := fun (line : Nat) => ((Tab.get? s.ms.lines line).bind LineTs.slice).isSome
  let lines := (s.ms.ce ++ s.ms.ue).foldl addOnce []
  (lines.filter fun l => due 39 || (due 33 && held l)).foldl (fun s l => match execScrub (64 * l) s with
    | .next t => t
    | _ => s) s

/-- A corrected error in registers, queues, windows, instruction stores, tiles or banks of a die, which is counted (26 R445); the state holds
them as corrected. -/
def State.stateError (s : State) (die : Nat) : State := s.count die none 0x60

/-- The parts of a link's number: the sending die, the receiving die and the physical quad at its receiving end (log 32). -/
def linkFrom (l : Nat) : Nat := bitsAt l 15 6
def linkTo (l : Nat) : Nat := bitsAt l 9 6
def linkQuad (l : Nat) : Nat := bitsAt l 0 9

def State.linkState (s : State) (l : Nat) : LinkState := Tab.getD s.out.links l ⟨0, false, 0⟩
def State.updLinkState (s : State) (l : Nat) (f : LinkState → LinkState) : State :=
  s.updOut fun o => { o with links := Tab.set o.links l (f (s.linkState l)) }

/-- LINK_CRC_FAILURE (26 R450): a replay, which is counted; after 16 in a row that failed the link retrains. -/
def execLinkCrcFailure (link : Nat) (s : State) : Host.Outcome State Fault Refusal :=
  .next (
    let x := s.linkState link
    if x.retraining then s
    else if x.replays ≥ 16 then s.updLinkState link fun x => { x with replays := 0, retraining := true }
    else (s.count (linkTo link) none 0x62).updLinkState link fun x => { x with replays := x.replays + 1 })

/-- A replay has succeeded: no failed ones stand in a row any more (26 R450). -/
def State.replayed (s : State) (link : Nat) : State :=
  if (s.linkState link).retraining then s else s.updLinkState link fun x => { x with replays := 0 }

/-- A persistently failed link (26 R451): the partitions at its ends are reset, the link is recorded, and the quad at its receiving end
enters the repair map. -/
def State.linkFails (s : State) (l : Nat) : State :=
  let ps := addOnce [s.dieOf (linkFrom l)] (s.dieOf (linkTo l))
  let s := ps.foldl (fun s p => s.resetPartition p) s
  s.updRas (linkTo l) fun r => { r with
    failedLinks := min (r.failedLinks + 1) 0xFFFF, repair := addOnce r.repair (linkQuad l) }

/-- LINK_RETRAIN_DONE (26 R450, R451). -/
def execLinkRetrainDone (link : Nat) (ok : Bool) (s : State) : Host.Outcome State Fault Refusal :=
  .next (
    let x := s.linkState link
    if !x.retraining then s
    else if ok then s.updLinkState link fun _ => ⟨0, false, 0⟩
    else
      let s := s.updLinkState link fun x => { x with failed := x.failed + 1 }
      if x.failed + 1 = 3 then s.linkFails link else s)

/-- REGION_STATE_UE (26 R448): the region is killed, its fault thread is told where, and the error counts against the physical quad. -/
def execRegionStateUe (die vq cu : Nat) (s : State) : Host.Outcome State Fault Refusal :=
  .next (
    let s := s.quadUe die vq
    match s.placed.find? fun e => e.2.cells.any fun c => e.2.quad c.1 c.2 == (die, vq) with
    | some (rid, r) => (s.killLaunch rid).asyncRecord cMEMORY_UE r.ctx r.inc die vq cu 0
    | none => s)

/-! ### The watchdog ladder (26 R455, R458) -/

/-- A step of a queue's ladder acts, or the host is asked first; while a request of it is in flight, its answer decides (20 R366). Nothing acts
once the ladder is disabled (26 R457). -/
def State.ladderAct (s : State) (lq : Nat) (act : State → State) : State :=
  let p := s.lqPart lq
  match s.runningOf lq with
  | [] => s.ladderIdle lq
  | rid :: _ =>
    if s.ladderOff lq then s.ladderStop lq
    else if s.asked fnWDOG lq (ridSeq rid) then s
    else if s.assisted p fnWDOG then s.postAssist p fnWDOG (8 * (s.partition p).first) rid []
    else act s

/-- The host is asked whether the next step of a queue's ladder may act. -/
def State.ladderAsked (s : State) (lq : Nat) : Bool := (s.runningOf lq).any fun rid => s.asked fnWDOG lq (ridSeq rid)

/-- WATCHDOG_L1 (26 R455): at the end of a tick the timer has reached `B1`; a WATCHDOG record goes to the context's fault thread. -/
def execWatchdogL1 (lq : Nat) (s : State) : Host.Outcome State Fault Refusal :=
  .next (
    let b := s.budgets (s.lqPart lq)
    let l := s.ladder lq
    if !s.tickEnds || b.b1 = 0 || l.step != 0 || l.idle < b.b1 then s
    else if (s.runningOf lq).isEmpty then s.ladderIdle lq
    else
      let d := 8 * (s.partition (s.lqPart lq)).first
      (s.ladderStep lq 1).asyncRecord cWATCHDOG (s.lq lq).ctx 0 d 0x1FF 0 0)

/-- WATCHDOG_L2 (26 R455): `B2` ticks after L1. -/
def execWatchdogL2 (lq : Nat) (s : State) : Host.Outcome State Fault Refusal :=
  .next (
    let l := s.ladder lq
    if !s.tickEnds || l.step != 1 || s.clk.tick < l.since + (s.budgets (s.lqPart lq)).b2 then s
    else s.ladderAct lq fun s => s.ladderL2 lq)

/-- WATCHDOG_L4 (26 R455): L3 has not completed within `B3` ticks. -/
def execWatchdogL4 (lq : Nat) (s : State) : Host.Outcome State Fault Refusal :=
  .next (
    let l := s.ladder lq
    if !s.tickEnds || l.step != 3 || s.clk.tick < l.since + (s.budgets (s.lqPart lq)).b3 then s
    else s.ladderAct lq fun s => s.ladderL4 lq)

/-- WATCHDOG_L5 (26 R455): L4 has not completed within `B4` ticks: the package is reset, which the host sees as a function-level reset of
every function. -/
def execWatchdogL5 (lq : Nat) (s : State) : Host.Outcome State Fault Refusal :=
  .next (
    let l := s.ladder lq
    if !s.tickEnds || l.step != 4 || s.clk.tick < l.since + (s.budgets (s.lqPart lq)).b4 then s
    else if (s.runningOf lq).isEmpty then s.ladderIdle lq
    else if s.ladderOff lq then s.ladderStop lq
    else s.powerOn.send .functionResets)

/-- DRAIN_TIMEOUT (21 R370): at the end of its last tick the drain is abandoned. The asker decides: an instruction gets TIMEOUT, the allocator
freezes its victim (20 R360), and the ladder notes the end of L2 and goes on to L3 (26 R455, 27 R471), which the host may have to accept
(R458). Where progress has made the ladder idle since, the region stays as it stands. -/
def execDrainTimeout (rid : Nat) (s : State) : Host.Outcome State Fault Refusal :=
  .next (match s.region? rid with
    | some r =>
      match r.op with
      | .drain deadline by_ who =>
        if !s.tickEnds || s.clk.tick < deadline then s
        else
          match by_ with
          | .software =>
            let s := s.updRegion rid fun r => { r with op := .none }
            match who with
            | some (a, code, id) => s.arrive a code id sTIMEOUT []
            | none => s
          | .allocator =>
            ((s.updRegion rid fun r => { r with op := .none }).updLaunch rid fun l => { l with preempted := true }).startFreeze rid none
          | .ladder =>
            let lq := ridLq rid
            if (s.ladder lq).step != 2 || s.ladderOff lq then
              let s := s.updRegion rid fun r => { r with op := .none }
              if !(s.ladderDrains lq).isEmpty then s
              else if s.ladderOff lq then (s.ladderNotice lq 2 2).ladderStop lq
              else s.ladderNotice lq 2 2
            else if s.ladderAsked lq then s
            else (s.ladderNotice lq 2 2).ladderAct lq fun s => s.ladderL3 lq
      | _ => s
    | none => s)

end Sys2Proof.Machine
end

