-- ==== Sys2Proof/Machine/Wave.lean ====
section
/-! DEFINITION. Reconfiguration waves: the injection of CFG records and what a node does with those addressed to it (spec 21 R379,
R380). -/
namespace Sys2Proof.Machine

/-! ### The writes of a wave (21 R379) -/

/-- A record's write is of a type and a range that a wave may write; one of a bank group lies in the body of a group of its region. -/
def cfgOk (r : Region) (p : Vec) : Bool :=
  let w := CfgWrite.of p
  let len := bitsAt (lane32 p 1) 24 8
  let last := w.off + len
  1 ≤ len && len ≤ 56 &&
  match w.type with
  | 1 => last ≤ 64 + 2 ^ 14
  | 2 => last ≤ 1344 || 1388 ≤ w.off
  | 3 => last ≤ 32
  | 4 => (r.cfgGroup w).isSome
  | 7 => last ≤ 16
  | _ => false

/-- A write is addressed to an actor: its CU's code, its own section, or a bank of its quad. -/
def CfgWrite.forActor (w : CfgWrite) (g : Agent) : Bool :=
  w.row == g.row && w.col == g.col &&
  ((w.type == 1 && w.unit == g.cu) || (w.type == 2 && w.unit == g.cu && w.index == g.slot) || w.type == 4)

/-- A write is addressed to a generator. -/
def CfgWrite.forGen (w : CfgWrite) (n : Nid) : Bool :=
  w.type == 7 && w.row == n.row && w.col == n.col && w.unit == n.unit && w.index == n.idx

/-- Writes put into a body, in order. -/
def spliceAll (ws : List CfgWrite) (body : List Byte) : List Byte := ws.foldl (fun b w => w.splice b) body

/-! ### What a node applies (21 R380) -/

/-- A body of code is written into one actor of its CU (log 33). -/
def State.putCodeOf (s : State) (rid : Nat) (a : Aid) (g : Agent) (ws : List CfgWrite) : State :=
  if ws.isEmpty then s
  else
    let body := spliceAll ws (codeBody (s.cuAgents rid g.row g.col g.cu))
    match (s.putCode rid g.row g.col g.cu body).agent? a with
    | some h => s.updAgent a fun _ => h
    | none => s

/-- The writes addressed to an actor take effect; its resident operands and its firing index are cleared. -/
def State.reconfigure (s : State) (rid : Nat) (a : Aid) (g : Agent) (ws : List CfgWrite) : State :=
  let s := s.putCodeOf rid a g (ws.filter fun w => w.type == 1)
  let own := ws.filter fun w => w.type == 2
  let s := if own.isEmpty then s else s.updAgent a fun g => g.putActor (spliceAll own (actorBody g))
  let s := match s.region? rid with
    | some r => (ws.filter fun (w : CfgWrite) => w.type == 4).foldl (fun (s : State) w => s.putBankData rid r w) s
    | none => s
  s.updAgent a fun g => { g with resident := [], fidx := 0 }

/-- The CFG records at the head of a port. -/
def State.portRun (s : State) (p : InPort) : List (Nat × Vec) :=
  ((s.portItems p).takeWhile fun e => e.2.kind == kCFG).map fun e => (e.1, e.2.payload)

/-- What an actor may reconfigure by: the runs of its ports, where each has one, or the run injected at a source. -/
def State.waveAt (s : State) (a : Aid) (g : Agent) : List Vec :=
  if g.ins.isEmpty then Tab.getD s.fab.waves a []
  else
    let runs := g.ins.map s.portRun
    if runs.any List.isEmpty then [] else runs.flatMap fun r => r.map Prod.snd

/-- The runs leave an actor's ports. -/
def State.takeWave (s : State) (a : Aid) (g : Agent) : State :=
  let s := s.updFab fun f => { f with waves := Tab.erase f.waves a }
  g.ins.foldl (fun s p =>
    let gone := (s.portRun p).map Prod.fst
    match p.src with
    | .queue q => s.consumeQueue q gone
    | .link q => s.consumeLink q gone) s

/-- A record of a wave. -/
def cfgRecord (p : Vec) : Record := { Record.token kCFG with payload := p }

/-- NODE_RECONFIGURE (21 R380). A record of code goes on to the other actors of its CU. -/
def execNodeReconfigure (a : Aid) (s : State) : Host.Outcome State Fault Refusal :=
  .next (match s.agent? a, a.rid with
    | some g, some rid =>
      let run := s.waveAt a g
      if run.isEmpty || g.firing.isSome || !s.agentAlive a then s
      else
        let mine := run.filter fun p => (CfgWrite.of p).forActor g
        let on := run.filter fun p => !(CfgWrite.of p).forActor g || (CfgWrite.of p).type == 1
        let s := (s.takeWave a g).reconfigure rid a g (mine.map CfgWrite.of)
        g.outs.foldl (fun s o => on.foldl (fun s p => s.putOn o.dst (cfgRecord p)) s) s
    | _, _ => s)

/-- A generator, which has no inbound port, takes a wave as it is injected. -/
def State.genWave (s : State) (n : Nid) (ps : List Vec) : State :=
  match Tab.get? s.fab.gens n with
  | none => s
  | some g =>
    let mine := (ps.map CfgWrite.of).filter fun w => w.forGen n
    let body := spliceAll mine (genBody g)
    let s := s.updFab fun f => { f with gens := Tab.modify f.gens n fun g => { g with
      key := BitVec.ofNat 64 (fieldAt body 0 8), ctr := BitVec.ofNat 64 (fieldAt body 8 8) } }
    let rest := ps.filter fun p => !(CfgWrite.of p).forGen n
    let s := s.nodeBanks n (rest.map cfgRecord)
    (Nid.forwards n (rest.map cfgRecord)).foldl (fun s r => s.putOn g.out r) s

/-- CFG_WAVE_INJECT (21 R379): the records enter a region's inbound queues and wait at its source actors; a write of another type or
range is discarded and counted. -/
def execCfgWaveInject (rid : Nat) (recs : List (BitVec 512)) (s : State) : Host.Outcome State Fault Refusal :=
  .next (match s.region? rid with
    | none => s
    | some r =>
      if !s.running rid then s
      else
        let bad := recs.filter fun p => !cfgOk r p
        let good := recs.filter (cfgOk r)
        let s := bad.foldl (fun s p =>
          let w := CfgWrite.of p
          let (die, vq) := if w.row < r.height ∧ w.col < r.width then r.quad w.row w.col else r.quad 0 0
          s.count die (some vq) 0x47) s
        if good.isEmpty then s
        else
          let s := (s.fedFromOutside rid).foldl (fun s q => good.foldl (fun s p => (s.arriveAt q (cfgRecord p)).1) s) s
          let s := (s.fab.gens.filter fun e => e.1.rid == rid).foldl (fun s e => s.genWave e.1 good) s
          (s.agents.filter fun e => inRid rid e.1 && e.2.ins.isEmpty).foldl (fun s e =>
            s.updFab fun f => { f with waves := Tab.set f.waves e.1 (Tab.getD f.waves e.1 [] ++ good) }) s)

end Sys2Proof.Machine
end

