-- ==== Sys2Proof/Machine/Dispatch.lean ====
section
/-! DEFINITION. The dispatch of every row of spec/opcode_table.json to its meaning, one arm per constructor of `Instr`. -/
namespace Sys2Proof.Machine

def exec (i : Instr) (s : State) : Host.Outcome State Fault Refusal :=
  match i with
  | .addF0 f => Sys2Proof.Machine.execAddF0 f s
  | .addF1F2 f => Sys2Proof.Machine.execAddF1F2 f s
  | .subF0 f => Sys2Proof.Machine.execSubF0 f s
  | .subF1F2 f => Sys2Proof.Machine.execSubF1F2 f s
  | .addiFi f => Sys2Proof.Machine.execAddiFi f s
  | .addiF2 f => Sys2Proof.Machine.execAddiF2 f s
  | .mulF0 f => Sys2Proof.Machine.execMulF0 f s
  | .mulF1F2 f => Sys2Proof.Machine.execMulF1F2 f s
  | .mulhF0 f => Sys2Proof.Machine.execMulhF0 f s
  | .mulhF1F2 f => Sys2Proof.Machine.execMulhF1F2 f s
  | .mulhuF0 f => Sys2Proof.Machine.execMulhuF0 f s
  | .mulhuF1F2 f => Sys2Proof.Machine.execMulhuF1F2 f s
  | .madF0 f => Sys2Proof.Machine.execMadF0 f s
  | .madF1F2 f => Sys2Proof.Machine.execMadF1F2 f s
  | .divsF0 f => Sys2Proof.Machine.execDivsF0 f s
  | .divsF1F2 f => Sys2Proof.Machine.execDivsF1F2 f s
  | .divuF0 f => Sys2Proof.Machine.execDivuF0 f s
  | .divuF1F2 f => Sys2Proof.Machine.execDivuF1F2 f s
  | .remsF0 f => Sys2Proof.Machine.execRemsF0 f s
  | .remsF1F2 f => Sys2Proof.Machine.execRemsF1F2 f s
  | .remuF0 f => Sys2Proof.Machine.execRemuF0 f s
  | .remuF1F2 f => Sys2Proof.Machine.execRemuF1F2 f s
  | .negF0 f => Sys2Proof.Machine.execNegF0 f s
  | .negF1 f => Sys2Proof.Machine.execNegF1 f s
  | .absF0 f => Sys2Proof.Machine.execAbsF0 f s
  | .absF1 f => Sys2Proof.Machine.execAbsF1 f s
  | .minF0 f => Sys2Proof.Machine.execMinF0 f s
  | .minF1F2 f => Sys2Proof.Machine.execMinF1F2 f s
  | .maxF0 f => Sys2Proof.Machine.execMaxF0 f s
  | .maxF1F2 f => Sys2Proof.Machine.execMaxF1F2 f s
  | .minuF0 f => Sys2Proof.Machine.execMinuF0 f s
  | .minuF1F2 f => Sys2Proof.Machine.execMinuF1F2 f s
  | .maxuF0 f => Sys2Proof.Machine.execMaxuF0 f s
  | .maxuF1F2 f => Sys2Proof.Machine.execMaxuF1F2 f s
  | .addsF0 f => Sys2Proof.Machine.execAddsF0 f s
  | .addsF1F2 f => Sys2Proof.Machine.execAddsF1F2 f s
  | .addsuF0 f => Sys2Proof.Machine.execAddsuF0 f s
  | .addsuF1F2 f => Sys2Proof.Machine.execAddsuF1F2 f s
  | .subsF0 f => Sys2Proof.Machine.execSubsF0 f s
  | .subsF1F2 f => Sys2Proof.Machine.execSubsF1F2 f s
  | .subsuF0 f => Sys2Proof.Machine.execSubsuF0 f s
  | .subsuF1F2 f => Sys2Proof.Machine.execSubsuF1F2 f s
  | .avgF0 f => Sys2Proof.Machine.execAvgF0 f s
  | .avgF1F2 f => Sys2Proof.Machine.execAvgF1F2 f s
  | .andF0 f => Sys2Proof.Machine.execAndF0 f s
  | .andF1F2 f => Sys2Proof.Machine.execAndF1F2 f s
  | .orF0 f => Sys2Proof.Machine.execOrF0 f s
  | .orF1F2 f => Sys2Proof.Machine.execOrF1F2 f s
  | .xorF0 f => Sys2Proof.Machine.execXorF0 f s
  | .xorF1F2 f => Sys2Proof.Machine.execXorF1F2 f s
  | .andnF0 f => Sys2Proof.Machine.execAndnF0 f s
  | .andnF1F2 f => Sys2Proof.Machine.execAndnF1F2 f s
  | .shlF0 f => Sys2Proof.Machine.execShlF0 f s
  | .shlF1F2 f => Sys2Proof.Machine.execShlF1F2 f s
  | .shrF0 f => Sys2Proof.Machine.execShrF0 f s
  | .shrF1F2 f => Sys2Proof.Machine.execShrF1F2 f s
  | .sarF0 f => Sys2Proof.Machine.execSarF0 f s
  | .sarF1F2 f => Sys2Proof.Machine.execSarF1F2 f s
  | .rotlF0 f => Sys2Proof.Machine.execRotlF0 f s
  | .rotlF1F2 f => Sys2Proof.Machine.execRotlF1F2 f s
  | .shliFi f => Sys2Proof.Machine.execShliFi f s
  | .shliF2 f => Sys2Proof.Machine.execShliF2 f s
  | .shriFi f => Sys2Proof.Machine.execShriFi f s
  | .shriF2 f => Sys2Proof.Machine.execShriF2 f s
  | .sariFi f => Sys2Proof.Machine.execSariFi f s
  | .sariF2 f => Sys2Proof.Machine.execSariF2 f s
  | .clzF0 f => Sys2Proof.Machine.execClzF0 f s
  | .clzF1 f => Sys2Proof.Machine.execClzF1 f s
  | .ctzF0 f => Sys2Proof.Machine.execCtzF0 f s
  | .ctzF1 f => Sys2Proof.Machine.execCtzF1 f s
  | .popcF0 f => Sys2Proof.Machine.execPopcF0 f s
  | .popcF1 f => Sys2Proof.Machine.execPopcF1 f s
  | .brevF0 f => Sys2Proof.Machine.execBrevF0 f s
  | .brevF1 f => Sys2Proof.Machine.execBrevF1 f s
  | .bswapF0 f => Sys2Proof.Machine.execBswapF0 f s
  | .bswapF1 f => Sys2Proof.Machine.execBswapF1 f s
  | .bfxF0 f => Sys2Proof.Machine.execBfxF0 f s
  | .bfxF1F2 f => Sys2Proof.Machine.execBfxF1F2 f s
  | .bfiF0 f => Sys2Proof.Machine.execBfiF0 f s
  | .bfiF1F2 f => Sys2Proof.Machine.execBfiF1F2 f s
  | .addshF0 f => Sys2Proof.Machine.execAddshF0 f s
  | .addshF1F2 f => Sys2Proof.Machine.execAddshF1F2 f s
  | .movi f => Sys2Proof.Machine.execMovi f s
  | .movl f => Sys2Proof.Machine.execMovl f s
  | .sext f => Sys2Proof.Machine.execSext f s
  | .zext f => Sys2Proof.Machine.execZext f s
  | .movF0 f => Sys2Proof.Machine.execMovF0 f s
  | .movF1 f => Sys2Proof.Machine.execMovF1 f s
  | .ceqF0 f => Sys2Proof.Machine.execCeqF0 f s
  | .ceqF1F2 f => Sys2Proof.Machine.execCeqF1F2 f s
  | .cneF0 f => Sys2Proof.Machine.execCneF0 f s
  | .cneF1F2 f => Sys2Proof.Machine.execCneF1F2 f s
  | .cltF0 f => Sys2Proof.Machine.execCltF0 f s
  | .cltF1F2 f => Sys2Proof.Machine.execCltF1F2 f s
  | .cleF0 f => Sys2Proof.Machine.execCleF0 f s
  | .cleF1F2 f => Sys2Proof.Machine.execCleF1F2 f s
  | .cltuF0 f => Sys2Proof.Machine.execCltuF0 f s
  | .cltuF1F2 f => Sys2Proof.Machine.execCltuF1F2 f s
  | .cleuF0 f => Sys2Proof.Machine.execCleuF0 f s
  | .cleuF1F2 f => Sys2Proof.Machine.execCleuF1F2 f s
  | .ceqiFi f => Sys2Proof.Machine.execCeqiFi f s
  | .ceqiF2 f => Sys2Proof.Machine.execCeqiF2 f s
  | .cltiFi f => Sys2Proof.Machine.execCltiFi f s
  | .cltiF2 f => Sys2Proof.Machine.execCltiF2 f s
  | .selF0 f => Sys2Proof.Machine.execSelF0 f s
  | .selF1F2 f => Sys2Proof.Machine.execSelF1F2 f s
  | .pandF0 f => Sys2Proof.Machine.execPandF0 f s
  | .pandF1F2 f => Sys2Proof.Machine.execPandF1F2 f s
  | .porF0 f => Sys2Proof.Machine.execPorF0 f s
  | .porF1F2 f => Sys2Proof.Machine.execPorF1F2 f s
  | .pxorF0 f => Sys2Proof.Machine.execPxorF0 f s
  | .pxorF1F2 f => Sys2Proof.Machine.execPxorF1F2 f s
  | .pnotF0 f => Sys2Proof.Machine.execPnotF0 f s
  | .pnotF1 f => Sys2Proof.Machine.execPnotF1 f s
  | .panyF0 f => Sys2Proof.Machine.execPanyF0 f s
  | .panyF1 f => Sys2Proof.Machine.execPanyF1 f s
  | .pallF0 f => Sys2Proof.Machine.execPallF0 f s
  | .pallF1 f => Sys2Proof.Machine.execPallF1 f s
  | .pcntF0 f => Sys2Proof.Machine.execPcntF0 f s
  | .pcntF1 f => Sys2Proof.Machine.execPcntF1 f s
  | .bcastF0 f => Sys2Proof.Machine.execBcastF0 f s
  | .bcastF1F2 f => Sys2Proof.Machine.execBcastF1F2 f s
  | .lgetF0 f => Sys2Proof.Machine.execLgetF0 f s
  | .lgetF1F2 f => Sys2Proof.Machine.execLgetF1F2 f s
  | .lsetF0 f => Sys2Proof.Machine.execLsetF0 f s
  | .lsetF1F2 f => Sys2Proof.Machine.execLsetF1F2 f s
  | .permF0 f => Sys2Proof.Machine.execPermF0 f s
  | .permF1F2 f => Sys2Proof.Machine.execPermF1F2 f s
  | .lrotF0 f => Sys2Proof.Machine.execLrotF0 f s
  | .lrotF1F2 f => Sys2Proof.Machine.execLrotF1F2 f s
  | .zipF0 f => Sys2Proof.Machine.execZipF0 f s
  | .zipF1F2 f => Sys2Proof.Machine.execZipF1F2 f s
  | .unzipF0 f => Sys2Proof.Machine.execUnzipF0 f s
  | .unzipF1F2 f => Sys2Proof.Machine.execUnzipF1F2 f s
  | .compressF0 f => Sys2Proof.Machine.execCompressF0 f s
  | .compressF1F2 f => Sys2Proof.Machine.execCompressF1F2 f s
  | .expandF0 f => Sys2Proof.Machine.execExpandF0 f s
  | .expandF1F2 f => Sys2Proof.Machine.execExpandF1F2 f s
  | .raddF0 f => Sys2Proof.Machine.execRaddF0 f s
  | .raddF1 f => Sys2Proof.Machine.execRaddF1 f s
  | .rmaxF0 f => Sys2Proof.Machine.execRmaxF0 f s
  | .rmaxF1 f => Sys2Proof.Machine.execRmaxF1 f s
  | .rminF0 f => Sys2Proof.Machine.execRminF0 f s
  | .rminF1 f => Sys2Proof.Machine.execRminF1 f s
  | .rxorF0 f => Sys2Proof.Machine.execRxorF0 f s
  | .rxorF1 f => Sys2Proof.Machine.execRxorF1 f s
  | .scanF0 f => Sys2Proof.Machine.execScanF0 f s
  | .scanF1 f => Sys2Proof.Machine.execScanF1 f s
  | .lidx f => Sys2Proof.Machine.execLidx f s
  | .dot4F0 f => Sys2Proof.Machine.execDot4F0 f s
  | .dot4F1F2 f => Sys2Proof.Machine.execDot4F1F2 f s
  | .faddF0 f => Sys2Proof.Machine.execFaddF0 f s
  | .faddF1F2 f => Sys2Proof.Machine.execFaddF1F2 f s
  | .fsubF0 f => Sys2Proof.Machine.execFsubF0 f s
  | .fsubF1F2 f => Sys2Proof.Machine.execFsubF1F2 f s
  | .fmulF0 f => Sys2Proof.Machine.execFmulF0 f s
  | .fmulF1F2 f => Sys2Proof.Machine.execFmulF1F2 f s
  | .fmaF0 f => Sys2Proof.Machine.execFmaF0 f s
  | .fmaF1F2 f => Sys2Proof.Machine.execFmaF1F2 f s
  | .fmsF0 f => Sys2Proof.Machine.execFmsF0 f s
  | .fmsF1F2 f => Sys2Proof.Machine.execFmsF1F2 f s
  | .fnmaF0 f => Sys2Proof.Machine.execFnmaF0 f s
  | .fnmaF1F2 f => Sys2Proof.Machine.execFnmaF1F2 f s
  | .fminF0 f => Sys2Proof.Machine.execFminF0 f s
  | .fminF1F2 f => Sys2Proof.Machine.execFminF1F2 f s
  | .fmaxF0 f => Sys2Proof.Machine.execFmaxF0 f s
  | .fmaxF1F2 f => Sys2Proof.Machine.execFmaxF1F2 f s
  | .fabsF0 f => Sys2Proof.Machine.execFabsF0 f s
  | .fabsF1 f => Sys2Proof.Machine.execFabsF1 f s
  | .fnegF0 f => Sys2Proof.Machine.execFnegF0 f s
  | .fnegF1 f => Sys2Proof.Machine.execFnegF1 f s
  | .feqF0 f => Sys2Proof.Machine.execFeqF0 f s
  | .feqF1F2 f => Sys2Proof.Machine.execFeqF1F2 f s
  | .fltF0 f => Sys2Proof.Machine.execFltF0 f s
  | .fltF1F2 f => Sys2Proof.Machine.execFltF1F2 f s
  | .fleF0 f => Sys2Proof.Machine.execFleF0 f s
  | .fleF1F2 f => Sys2Proof.Machine.execFleF1F2 f s
  | .funF0 f => Sys2Proof.Machine.execFunF0 f s
  | .funF1F2 f => Sys2Proof.Machine.execFunF1F2 f s
  | .fclassF0 f => Sys2Proof.Machine.execFclassF0 f s
  | .fclassF1 f => Sys2Proof.Machine.execFclassF1 f s
  | .frcpF0 f => Sys2Proof.Machine.execFrcpF0 f s
  | .frcpF1 f => Sys2Proof.Machine.execFrcpF1 f s
  | .frsqF0 f => Sys2Proof.Machine.execFrsqF0 f s
  | .frsqF1 f => Sys2Proof.Machine.execFrsqF1 f s
  | .frcprF0 f => Sys2Proof.Machine.execFrcprF0 f s
  | .frcprF1F2 f => Sys2Proof.Machine.execFrcprF1F2 f s
  | .frsqrF0 f => Sys2Proof.Machine.execFrsqrF0 f s
  | .frsqrF1F2 f => Sys2Proof.Machine.execFrsqrF1F2 f s
  | .fexp2F0 f => Sys2Proof.Machine.execFexp2F0 f s
  | .fexp2F1 f => Sys2Proof.Machine.execFexp2F1 f s
  | .flog2F0 f => Sys2Proof.Machine.execFlog2F0 f s
  | .flog2F1 f => Sys2Proof.Machine.execFlog2F1 f s
  | .frndF0 f => Sys2Proof.Machine.execFrndF0 f s
  | .frndF1 f => Sys2Proof.Machine.execFrndF1 f s
  | .fsclF0 f => Sys2Proof.Machine.execFsclF0 f s
  | .fsclF1F2 f => Sys2Proof.Machine.execFsclF1F2 f s
  | .cvt f => Sys2Proof.Machine.execCvt f s
  | .cvts f => Sys2Proof.Machine.execCvts f s
  | .fdotF0 f => Sys2Proof.Machine.execFdotF0 f s
  | .fdotF1F2 f => Sys2Proof.Machine.execFdotF1F2 f s
  | .cbdec f => Sys2Proof.Machine.execCbdec f s
  | .bsclF0 f => Sys2Proof.Machine.execBsclF0 f s
  | .bsclF1F2 f => Sys2Proof.Machine.execBsclF1F2 f s
  | .fsum2F0 f => Sys2Proof.Machine.execFsum2F0 f s
  | .fsum2F1F2 f => Sys2Proof.Machine.execFsum2F1F2 f s
  | .fclampF0 f => Sys2Proof.Machine.execFclampF0 f s
  | .fclampF1F2 f => Sys2Proof.Machine.execFclampF1F2 f s
  | .fcsgnF0 f => Sys2Proof.Machine.execFcsgnF0 f s
  | .fcsgnF1F2 f => Sys2Proof.Machine.execFcsgnF1F2 f s
  | .br f => Sys2Proof.Machine.execBr f s
  | .bri f => Sys2Proof.Machine.execBri f s
  | .call f => Sys2Proof.Machine.execCall f s
  | .ret f => Sys2Proof.Machine.execRet f s
  | .fend f => Sys2Proof.Machine.execFend f s
  | .loopnFi f => Sys2Proof.Machine.execLoopnFi f s
  | .loopnF2 f => Sys2Proof.Machine.execLoopnF2 f s
  | .trap f => Sys2Proof.Machine.execTrap f s
  | .nop f => Sys2Proof.Machine.execNop f s
  | .rdr f => Sys2Proof.Machine.execRdr f s
  | .mfs f => Sys2Proof.Machine.execMfs f s
  | .tick f => Sys2Proof.Machine.execTick f s
  | .twaitF0 f => Sys2Proof.Machine.execTwaitF0 f s
  | .twaitF1 f => Sys2Proof.Machine.execTwaitF1 f s
  | .nullF0 f => Sys2Proof.Machine.execNullF0 f s
  | .brk f => Sys2Proof.Machine.execBrk f s
  | .putF0 f => Sys2Proof.Machine.execPutF0 f s
  | .putF1 f => Sys2Proof.Machine.execPutF1 f s
  | .putk f => Sys2Proof.Machine.execPutk f s
  | .kget f => Sys2Proof.Machine.execKget f s
  | .wget f => Sys2Proof.Machine.execWget f s
  | .tget f => Sys2Proof.Machine.execTget f s
  | .kind f => Sys2Proof.Machine.execKind f s
  | .gap f => Sys2Proof.Machine.execGap f s
  | .skip f => Sys2Proof.Machine.execSkip f s
  | .qstat f => Sys2Proof.Machine.execQstat f s
  | .qstatClr f => Sys2Proof.Machine.execQstatClr f s
  | .qpol f => Sys2Proof.Machine.execQpol f s
  | .wcloseF0 f => Sys2Proof.Machine.execWcloseF0 f s
  | .wcloseF1 f => Sys2Proof.Machine.execWcloseF1 f s
  | .eof f => Sys2Proof.Machine.execEof f s
  | .eofEnd f => Sys2Proof.Machine.execEofEnd f s
  | .swapF0 f => Sys2Proof.Machine.execSwapF0 f s
  | .swapF1 f => Sys2Proof.Machine.execSwapF1 f s
  | .ld f => Sys2Proof.Machine.execLd f s
  | .ldv f => Sys2Proof.Machine.execLdv f s
  | .ldg f => Sys2Proof.Machine.execLdg f s
  | .st f => Sys2Proof.Machine.execSt f s
  | .stv f => Sys2Proof.Machine.execStv f s
  | .sts f => Sys2Proof.Machine.execSts f s
  | .ldsys f => Sys2Proof.Machine.execLdsys f s
  | .stsys f => Sys2Proof.Machine.execStsys f s
  | .pref f => Sys2Proof.Machine.execPref f s
  | .fence f => Sys2Proof.Machine.execFence f s
  | .qfence f => Sys2Proof.Machine.execQfence f s
  | .sinv f => Sys2Proof.Machine.execSinv f s
  | .swb f => Sys2Proof.Machine.execSwb f s
  | .smap f => Sys2Proof.Machine.execSmap f s
  | .aadd f => Sys2Proof.Machine.execAadd f s
  | .amin f => Sys2Proof.Machine.execAmin f s
  | .amax f => Sys2Proof.Machine.execAmax f s
  | .aand f => Sys2Proof.Machine.execAand f s
  | .aor f => Sys2Proof.Machine.execAor f s
  | .axor f => Sys2Proof.Machine.execAxor f s
  | .axchg f => Sys2Proof.Machine.execAxchg f s
  | .acas f => Sys2Proof.Machine.execAcas f s
  | .afadd f => Sys2Proof.Machine.execAfadd f s
  | .aaddv f => Sys2Proof.Machine.execAaddv f s
  | .lkacq f => Sys2Proof.Machine.execLkacq f s
  | .lkrel f => Sys2Proof.Machine.execLkrel f s
  | .lkwait f => Sys2Proof.Machine.execLkwait f s
  | .ldsh f => Sys2Proof.Machine.execLdsh f s
  | .aminu f => Sys2Proof.Machine.execAminu f s
  | .amaxu f => Sys2Proof.Machine.execAmaxu f s
  | .cpy f => Sys2Proof.Machine.execCpy f s
  | .cpyx f => Sys2Proof.Machine.execCpyx f s
  | .cpyt f => Sys2Proof.Machine.execCpyt f s
  | .mldL f => Sys2Proof.Machine.execMldL f s
  | .mldA f => Sys2Proof.Machine.execMldA f s
  | .mmul f => Sys2Proof.Machine.execMmul f s
  | .mrd f => Sys2Proof.Machine.execMrd f s
  | .mclrF0 f => Sys2Proof.Machine.execMclrF0 f s
  | .mclrF1 f => Sys2Proof.Machine.execMclrF1 f s
  | .mfmt f => Sys2Proof.Machine.execMfmt f s
  | .bar f => Sys2Proof.Machine.execBar f s
  | .bara f => Sys2Proof.Machine.execBara f s
  | .barw f => Sys2Proof.Machine.execBarw f s
  | .genk f => Sys2Proof.Machine.execGenk f s
  | .genkFlush f => Sys2Proof.Machine.execGenkFlush f s
  | .ufinit f => Sys2Proof.Machine.execUfinit f s
  | .unite f => Sys2Proof.Machine.execUnite f s
  | .find f => Sys2Proof.Machine.execFind f s
  | .relabel f => Sys2Proof.Machine.execRelabel f s
  | .ccsize f => Sys2Proof.Machine.execCcsize f s
  | .ufsnap f => Sys2Proof.Machine.execUfsnap f s
  | .ufsnapClose f => Sys2Proof.Machine.execUfsnapClose f s
  | .ufundo f => Sys2Proof.Machine.execUfundo f s
  | .walk f => Sys2Proof.Machine.execWalk f s
  | .wrule f => Sys2Proof.Machine.execWrule f s
  | .wstatQ f => Sys2Proof.Machine.execWstatQ f s
  | .wstatResume f => Sys2Proof.Machine.execWstatResume f s
  | .wstatAbort f => Sys2Proof.Machine.execWstatAbort f s
  | .hacc f => Sys2Proof.Machine.execHacc f s
  | .hflush f => Sys2Proof.Machine.execHflush f s
  | .hstat f => Sys2Proof.Machine.execHstat f s
  | .scall f => Sys2Proof.Machine.execScall f s
  | .snotify f => Sys2Proof.Machine.execSnotify f s
  | .swaitF0 f => Sys2Proof.Machine.execSwaitF0 f s
  | .swaitF1 f => Sys2Proof.Machine.execSwaitF1 f s
  | .mfcr f => Sys2Proof.Machine.execMfcr f s
  | .mtcr f => Sys2Proof.Machine.execMtcr f s
  | .eret f => Sys2Proof.Machine.execEret f s
  | .tlbi f => Sys2Proof.Machine.execTlbi f s
  | .frz f => Sys2Proof.Machine.execFrz f s
  | .drn f => Sys2Proof.Machine.execDrn f s
  | .imgsv f => Sys2Proof.Machine.execImgsv f s
  | .imgsvDrop f => Sys2Proof.Machine.execImgsvDrop f s
  | .imgld f => Sys2Proof.Machine.execImgld f s
  | .rgrant f => Sys2Proof.Machine.execRgrant f s
  | .rfreeFree f => Sys2Proof.Machine.execRfreeFree f s
  | .rfreeKill f => Sys2Proof.Machine.execRfreeKill f s
  | .wdpetF0 f => Sys2Proof.Machine.execWdpetF0 f s
  | .wdpetF1 f => Sys2Proof.Machine.execWdpetF1 f s
  | .ecntRd f => Sys2Proof.Machine.execEcntRd f s
  | .ecntSel f => Sys2Proof.Machine.execEcntSel f s
  | .ecntClr f => Sys2Proof.Machine.execEcntClr f s
  | .halt f => Sys2Proof.Machine.execHalt f s
  | .lqTailWrite lq v => Sys2Proof.Machine.execLqTailWrite lq v s
  | .cqnotifyWrite die t v => Sys2Proof.Machine.execCqnotifyWrite die t v s
  | .ctxkillWrite ctx v => Sys2Proof.Machine.execCtxkillWrite ctx v s
  | .ctxptWrite ctx v => Sys2Proof.Machine.execCtxptWrite ctx v s
  | .pchgWrite v => Sys2Proof.Machine.execPchgWrite v s
  | .migrationGo p v => Sys2Proof.Machine.execMigrationGo p v s
  | .stage slot => Sys2Proof.Machine.execStage slot s
  | .swapFirmware slot => Sys2Proof.Machine.execSwapFirmware slot s
  | .bootsel slot => Sys2Proof.Machine.execBootsel slot s
  | .svnlock slot => Sys2Proof.Machine.execSvnlock slot s
  | .bvcpwdWrite core => Sys2Proof.Machine.execBvcpwdWrite core s
  | .controlRegisterWrite who addr v => Sys2Proof.Machine.execControlRegisterWrite who addr v s
  | .hostApertureWrite vf off bytes => Sys2Proof.Machine.execHostApertureWrite vf off bytes s
  | .hostApertureRead vf off size => Sys2Proof.Machine.execHostApertureRead vf off size s
  | .functionLevelReset vf => Sys2Proof.Machine.execFunctionLevelReset vf s
  | .textFrame conn bytes => Sys2Proof.Machine.execTextFrame conn bytes s
  | .blockerRecord ctx => Sys2Proof.Machine.execBlockerRecord ctx s
  | .textReplyTimeout session => Sys2Proof.Machine.execTextReplyTimeout session s
  | .vocload call => Sys2Proof.Machine.execVocload call s
  | .vocdrop call => Sys2Proof.Machine.execVocdrop call s
  | .podMemoryAccess pkg ctx va write size => Sys2Proof.Machine.execPodMemoryAccess pkg ctx va write size s
  | .timeSyncMessage ofs => Sys2Proof.Machine.execTimeSyncMessage ofs s
  | .claim term serial => Sys2Proof.Machine.execClaim term serial s
  | .claimAck serial => Sys2Proof.Machine.execClaimAck serial s
  | .heartbeat term serial => Sys2Proof.Machine.execHeartbeat term serial s
  | .heartbeatSend => Sys2Proof.Machine.execHeartbeatSend s
  | .heartbeatMiss => Sys2Proof.Machine.execHeartbeatMiss s
  | .followerLoadStep serial n term => Sys2Proof.Machine.execFollowerLoadStep serial n term s
  | .progressRecordQuery serial => Sys2Proof.Machine.execProgressRecordQuery serial s
  | .powerStepDown die pwr => Sys2Proof.Machine.execPowerStepDown die pwr s
  | .powerStepUp die pwr => Sys2Proof.Machine.execPowerStepUp die pwr s
  | .thermalP3 die tj => Sys2Proof.Machine.execThermalP3 die tj s
  | .thermalReset die tj => Sys2Proof.Machine.execThermalReset die tj s
  | .powerOnReset => Sys2Proof.Machine.execPowerOnReset s
  | .serviceStageAdvance => Sys2Proof.Machine.execServiceStageAdvance s
  | .scrub pa => Sys2Proof.Machine.execScrub pa s
  | .linkCrcFailure link => Sys2Proof.Machine.execLinkCrcFailure link s
  | .linkRetrainDone link ok => Sys2Proof.Machine.execLinkRetrainDone link ok s
  | .regionStateUe die vq cu => Sys2Proof.Machine.execRegionStateUe die vq cu s
  | .leaseExpiryWriteback rid row col mu bank line => Sys2Proof.Machine.execLeaseExpiryWriteback rid row col mu bank line s
  | .ptsAdvance => Sys2Proof.Machine.execPtsAdvance s
  | .timestampRebase p delta => Sys2Proof.Machine.execTimestampRebase p delta s
  | .watchdogL1 lq => Sys2Proof.Machine.execWatchdogL1 lq s
  | .watchdogL2 lq => Sys2Proof.Machine.execWatchdogL2 lq s
  | .watchdogL4 lq => Sys2Proof.Machine.execWatchdogL4 lq s
  | .watchdogL5 lq => Sys2Proof.Machine.execWatchdogL5 lq s
  | .cpWatchdogExpiry core => Sys2Proof.Machine.execCpWatchdogExpiry core s
  | .takeover => Sys2Proof.Machine.execTakeover s
  | .launchAdmit lq => Sys2Proof.Machine.execLaunchAdmit lq s
  | .allocatorRound die => Sys2Proof.Machine.execAllocatorRound die s
  | .launchStart rid => Sys2Proof.Machine.execLaunchStart rid s
  | .launchComplete rid => Sys2Proof.Machine.execLaunchComplete rid s
  | .floorPreempt die ctx => Sys2Proof.Machine.execFloorPreempt die ctx s
  | .hostAssistAnswer p slot ok y x => Sys2Proof.Machine.execHostAssistAnswer p slot ok y x s
  | .drainComplete rid => Sys2Proof.Machine.execDrainComplete rid s
  | .drainTimeout rid => Sys2Proof.Machine.execDrainTimeout rid s
  | .freezeCaptureClose rid => Sys2Proof.Machine.execFreezeCaptureClose rid s
  | .nodeReconfigure a => Sys2Proof.Machine.execNodeReconfigure a s
  | .firingStart a => Sys2Proof.Machine.execFiringStart a s
  | .controlFiring a => Sys2Proof.Machine.execControlFiring a s
  | .pacePoint a => Sys2Proof.Machine.execPacePoint a s
  | .blockEntry a => Sys2Proof.Machine.execBlockEntry a s
  | .blockCommit a => Sys2Proof.Machine.execBlockCommit a s
  | .recordSend q => Sys2Proof.Machine.execRecordSend q s
  | .recordArrival q => Sys2Proof.Machine.execRecordArrival q s
  | .spillRefill q => Sys2Proof.Machine.execSpillRefill q s
  | .linkArrival q => Sys2Proof.Machine.execLinkArrival q s
  | .joinArcArrival n arc => Sys2Proof.Machine.execJoinArcArrival n arc s
  | .joinFire n => Sys2Proof.Machine.execJoinFire n s
  | .generatorPut n => Sys2Proof.Machine.execGeneratorPut n s
  | .windowInput n input => Sys2Proof.Machine.execWindowInput n input s
  | .sinkRecord n => Sys2Proof.Machine.execSinkRecord n s
  | .meStreamRecord n => Sys2Proof.Machine.execMeStreamRecord n s
  | .engineCommandStart a e => Sys2Proof.Machine.execEngineCommandStart a e s
  | .engineCompletion a e => Sys2Proof.Machine.execEngineCompletion a e s
  | .loadReply id => Sys2Proof.Machine.execLoadReply id s
  | .memoryRequest id => Sys2Proof.Machine.execMemoryRequest id s
  | .barrierArrival id => Sys2Proof.Machine.execBarrierArrival id s
  | .lkwaitAcquire id => Sys2Proof.Machine.execLkwaitAcquire id s
  | .runBegin die t => Sys2Proof.Machine.execRunBegin die t s
  | .trapDelivery k => Sys2Proof.Machine.execTrapDelivery k s
  | .translationWalk die quad ctx va => Sys2Proof.Machine.execTranslationWalk die quad ctx va s
  | .rateLimitRelease vf => Sys2Proof.Machine.execRateLimitRelease vf s
  | .iopWriteSend req => Sys2Proof.Machine.execIopWriteSend req s
  | .iopAck req => Sys2Proof.Machine.execIopAck req s
  | .ioWriteAck id => Sys2Proof.Machine.execIoWriteAck id s
  | .twaitDeadline a => Sys2Proof.Machine.execTwaitDeadline a s
  | .swaitWake a => Sys2Proof.Machine.execSwaitWake a s
  | .bvswapWrite core v => Sys2Proof.Machine.execBvswapWrite core v s
  | .rodPortFailure port => Sys2Proof.Machine.execRodPortFailure port s
  | .cfgWaveInject rid recs => Sys2Proof.Machine.execCfgWaveInject rid recs s
  | .podBarrierRelease bid gen => Sys2Proof.Machine.execPodBarrierRelease bid gen s
  | .connectionClosed conn => Sys2Proof.Machine.execConnectionClosed conn s

end Sys2Proof.Machine
end

