-- ==== Sys2Proof/Machine/Schedule.lean ====
section
/-! DEFINITION. What the clock does in each cycle, and the events that the machine itself may perform next (spec 02 R30; 12 R248; 24
R433, R434; 26 R454, R464; log 4). -/
namespace Sys2Proof.Machine

/-! ### Outcomes as states -/

/-- The state that an outcome of an event goes on in; every event has one. -/
def State.after (s : State) : Host.Outcome State Fault Refusal → State
  | .next t => t
  | _ => s

/-! ### The clock -/

/-- The counters of cycles (26 R464, code 1), each by the cycles of its die's own clock since an earlier reading of the clock. -/
def State.countCycles (s : State) (old : Clock) : State :=
  s.updSched fun x => { x with counters := x.counters.map fun e =>
    if e.2.code = 1 then
      (e.1, { e.2 with count := min (e.2.count + (s.clk.dieCycle e.1.1 - old.dieCycle e.1.1)) (2 ^ 48 - 1) })
    else e }

/-- What ticks of the package clock do: buckets fill, and the watchdog's timers count. -/
def State.ticked (s : State) (n : Nat) : State :=
  if n = 0 then s
  else (s.updOut fun o => { o with vfs := o.vfs.map fun e => (e.1, e.2.refill n) }).ladderTick n

/-- Timestamps advance by 1 in every 256th cycle of a die's own clock (12 R248), and a partition whose timestamps have grown is rebased (R250). -/
def State.passTime (s : State) (old : Clock) : State :=
  let due := fun (d : Nat) => s.clk.dieCycle d / 256 != old.dieCycle d / 256
  let s := if (List.range 64).any due then s.ptsAdvance due else s
  s.rebaseDue.foldl (fun s e => s.after (execTimestampRebase e.1 e.2 s)) s

/-- Instructions that wait for a tick, or for a second entry in a call queue, fire in the first cycle in which it is there (08 R171, 23 R409). -/
def State.wakeDue (s : State) : State :=
  s.agents.foldl (fun s e =>
    if e.2.deadline.isEmpty then s
    else
      let s := s.after (execTwaitDeadline e.1 s)
      s.after (execSwaitWake e.1 s)) s

/-- What comes due at the end of a tick, in which progress wins (26 R454): the kills of L3, the steps of the watchdog's ladders, and the ends
of drains that have run out of time (21 R370; 26 R455; 27 R471). -/
def State.ladderDue (s : State) : State :=
  let steps := fun (s : State) (e : Nat × Ladder) =>
    let s := s.after (execWatchdogL1 e.1 s)
    let s := s.after (execWatchdogL2 e.1 s)
    let s := s.after (execWatchdogL4 e.1 s)
    s.after (execWatchdogL5 e.1 s)
  let voids := fun (s : State) (e : Nat × Ladder) => s.ladderVoid e.1
  let s := s.ladderKillsDue
  let s := s.sched.ladders.foldl steps s
  let s := s.sched.regions.foldl (fun s e => s.after (execDrainTimeout e.1 s)) s
  s.sched.ladders.foldl voids s

/-- What comes due in the first cycle of a tick: launches start (20 R354), pace points come (09 R181), floors have waited (20 R360), replies have
waited (24 R441), the swap window and the watchdogs of the command processors end (26 R459, R462), and heartbeats are sent and missed (26
R465). -/
def State.tickDue (s : State) : State :=
  let s := s.sched.launches.foldl (fun s e => s.after (execLaunchStart e.1 s)) s
  let s := s.agents.foldl (fun s e => if e.2.pace.isSome then s.after (execPacePoint e.1 s) else s) s
  let s := s.sched.credits.foldl (fun s e =>
    if e.2.floorSince.isSome then s.after (execFloorPreempt e.1.1 e.1.2 s) else s) s
  let s := s.out.sessions.foldl (fun s e => s.after (execTextReplyTimeout e.1 s)) s
  let s := s.after (execTakeover s)
  let s := (List.range 8).foldl (fun s c => s.after (execCpWatchdogExpiry c s)) s
  let s := s.after (execHeartbeatSend s)
  s.after (execHeartbeatMiss s)

/-- One cycle of P0 passes (log 4). What the outside has lined up stays. -/
def State.advance (s : State) : State :=
  let turns := s.clk.next.tick != s.clk.tick
  let t := if turns then s.ladderDue else s
  let old := t.clk
  let c := old.next
  let t := ((((({ t with clk := c } : State).countCycles old).ticked (c.tick - old.tick)).scrubDue old.tick).passTime old).wakeDue
  { (if turns then t.tickDue else t) with agenda := s.agenda }

/-! ### Issuing an instruction (09 R185, 20 R362, R365) -/

/-- The agent with the firing of an issue number in hand. -/
def Agent.at_ (g : Agent) (i : Nat) : Agent := g.focus (i / 128)

/-- The words that an issue number of an agent names. -/
def State.wordsAt (s : State) (a : Aid) (i : Nat) : Option (List Word) :=
  ((s.agent? a).bind fun g => (g.at_ i).block).bind fun b => b.code[i % 128]?

/-- The state in which an instruction of an agent issues. -/
def State.pick (s : State) (a : Aid) (i : Nat) : State :=
  ({ s with cur := some a } : State).updAgent a fun g => { g.at_ i with idx := i % 128 }

/-- The instruction in hand of an agent has not issued. -/
def State.stillWaits (s : State) (a : Aid) : Bool := match s.agent? a with
  | some g => match g.block with
    | some b => b.statOf g.idx == .waiting
    | none => false
  | none => false

/-- Where an instruction's divider is, by die, quad and CU (06 R107). -/
def dividerOf (a : Aid) (g : Agent) : Nat × Nat × Nat := if a.isThread then (g.die, 0x1FF, 0) else (g.die, g.vq, g.cu)

/-- The cycles that a division keeps its divider (06 R107), if the instruction of an issue number is one that waits with its operands there;
one that declines uses no divider. -/
def Agent.division (a : Aid) (g : Agent) (i : Nat) : Option Nat := match (g.at_ i).block with
  | none => none
  | some b => match b.insAt (i % 128) with
    | none => none
    | some ins =>
      if 0x08 ≤ ins.op ∧ ins.op ≤ 0x0B ∧ b.statOf (i % 128) = .waiting then
        match (Issue.mk a (g.at_ i) b (i % 128) ins).gather with
        | .ready _ => some (if ins.width ≤ 8 then 10 else if ins.width ≤ 16 then 14 else if ins.width ≤ 32 then 22 else 38)
        | .notReady | .decline => none
      else none

/-- The divider that an agent's instructions use is busy, and whose division is in it. -/
def State.divider (s : State) (a : Aid) (g : Agent) : Option Aid := match Tab.get? s.fab.dividers (dividerOf a g) with
  | some (free, b) => if s.clk.dieCycle g.die < free then some b else none
  | none => none

/-- The instructions of an agent can issue. -/
def State.inHand (s : State) (a : Aid) (g : Agent) : Bool := s.agentAlive a && s.threadReady a g && g.phase == .running

/-- When the block of an issue number was entered. -/
def Agent.enteredAt (g : Agent) (i : Nat) : Nat := match (g.at_ i).block with
  | some b => b.entered
  | none => 0

/-- The age of an instruction: the cycle in which its block was entered, then its actor's slot or its thread's number, then its index (20
R362). -/
def Agent.older? (k : Agent) (j : Nat) (g : Agent) (i : Nat) : Bool :=
  let x := k.enteredAt j
  let y := g.enteredAt i
  x < y || (x == y && (k.slot + k.cu < g.slot + g.cu || (k.slot + k.cu == g.slot + g.cu && j < i)))

/-- The divider holds an instruction back: a division while it is busy, or while an older one waits for it, of whatever agent that uses it;
and whatever a thread has while its own division is in it (06 R107). -/
def State.divides (s : State) (a : Aid) (g : Agent) (i : Nat) : Bool :=
  match s.divider a g with
  | some b => (Agent.division a g i).isSome || (a.isThread && b == a)
  | none => (Agent.division a g i).isSome && s.agents.any fun e =>
      dividerOf e.1 e.2 == dividerOf a g && s.inHand e.1 e.2 &&
      ((List.range (128 * e.2.inFlight.length)).any fun j => (Agent.division e.1 e.2 j).isSome && e.2.older? j g i)

/-- An instruction can issue now: it takes effect, declines or faults. -/
noncomputable def State.canIssue (s : State) (a : Aid) (i : Nat) : Bool :=
  (s.pick a i).stillWaits a &&
  (match s.agent? a with
    | some g => !s.divides a g i
    | none => false) &&
  (match s.wordsAt a i with
    | some ws => match decode ws with
      | .ok (ins, _) => !(((s.pick a i).after (exec ins (s.pick a i))).stillWaits a)
      | .error _ => false
    | none => false)

/-- The issue numbers of the instructions of an agent's blocks. -/
def Agent.issueNumbers (g : Agent) : List Nat :=
  g.inFlight.zipIdx.flatMap fun e => (List.range e.1.2.code.length).map fun j => 128 * e.2 + j

/-- A thread has an instruction that can issue (20 R365). -/
noncomputable def State.threadIssues (s : State) (a : Aid) (g : Agent) : Bool := g.issueNumbers.any (s.canIssue a)

/-- A block of a window was entered before an agent's own (20 R362). -/
def enteredBefore (b : Block) (g : Agent) : Bool := match g.block with
  | some own => b.entered < own.entered
  | none => false

/-- No instruction comes before this one: of a window, one of an older block or of a lower index; of a service processor, one of a thread
whose turn is earlier, or of a lower index (20 R362, R365). -/
noncomputable def State.isFirst (s : State) (a : Aid) (g : Agent) (i : Nat) : Bool :=
  match a with
  | .thread d t =>
    let turn := fun (u : Nat) => (u + 63 - Tab.getD s.sched.lastThread d 63) % 64
    !((List.range i).any (s.canIssue a)) &&
    !(s.agents.any fun e => match e.1 with
      | .thread d' u => d' == d && turn u < turn t && s.threadIssues e.1 e.2
      | .actor .. => false)
  | .actor .. =>
    g.mode != .win ||
    (!((List.range i).any (s.canIssue a)) &&
     !(s.agents.any fun e => cuMates a g e.1 e.2 && e.2.mode == .win && (match e.2.block with
       | some b => enteredBefore b g && e.2.issueNumbers.any (s.canIssue e.1)
       | none => false)))

/-- The words of the instruction of an agent that the issue logic has been told to issue, if its turn has come and no divider holds it
back. -/
noncomputable def State.issueWords (s : State) (a : Aid) (i : Nat) : Option (List Word) :=
  match s.agent? a with
  | some g => if !s.divides a g i && s.isFirst a g i then s.wordsAt a i else none
  | none => none

/-- The issue logic has chosen an instruction of an agent: a division takes the divider, and a thread has had its turn. -/
noncomputable def State.issueAt (s : State) (a : Aid) (i : Nat) : State :=
  match s.agent? a with
  | none => s.pick a i
  | some g =>
    let go := s.canIssue a i
    let s := match if go then Agent.division a g i else none with
      | some n => s.updFab fun f => { f with dividers := Tab.set f.dividers (dividerOf a g) (s.clk.dieCycle g.die + n, a) }
      | none => s
    let s := match a, go with
      | .thread d t, true => s.updSched fun x => { x with lastThread := Tab.set x.lastThread d t }
      | _, _ => s
    s.pick a i

/-! ### What may happen next (log 4) -/

/-- Instructions of an agent's blocks whose operands are there. -/
def State.issuable (s : State) (a : Aid) (g : Agent) : List Todo :=
  if !s.inHand a g then []
  else g.issueNumbers.filterMap fun i =>
    let h := g.at_ i
    match h.block with
    | some b => match b.statOf (i % 128), b.insAt (i % 128) with
      | .waiting, some ins => if (Issue.mk a h b (i % 128) ins).gather = .notReady then none else some (.issue a i)
      | _, _ => none
    | none => none

/-- Events of a list whose conditions hold. -/
def events (xs : List (Bool × Instr)) : List Todo := (xs.filter Prod.fst).map fun x => .event x.2

/-- What an agent may do. -/
noncomputable def State.agentEvents (s : State) (a : Aid) (g : Agent) : List Todo :=
  let busy := fun (e : EngineKind) => (firstUnstarted [] (g.engineQ e)).isSome
  let done := fun (e : EngineKind) => (g.engineQ e).any fun c => c.result.isSome
  events [
    (g.firing.isNone && !(s.waveAt a g).isEmpty, .nodeReconfigure a),
    (s.mayFire a g && s.canControl g && s.chosen a g, .controlFiring a),
    (s.mayFire a g && s.canData g && s.chosen a g, .firingStart a),
    (g.pace.isSome && decide (g.nextPace ≤ s.clk.tick), .pacePoint a),
    (match g.phase with
      | .entering _ => true
      | .resuming _ _ => true
      | _ => false, .blockEntry a),
    (g.block.isSome && decide (g.phase = .running), .blockCommit a),
    (!g.deadline.isEmpty, .twaitDeadline a),
    (!g.deadline.isEmpty && a.isThread, .swaitWake a)] ++
  engineKinds.flatMap fun e => events [(busy e, .engineCommandStart a e), (done e, .engineCompletion a e)]

/-- The movement of records. -/
noncomputable def State.fabricEvents (s : State) : List Todo :=
  let f := s.fab
  let sends : List Todo := (f.streams.filter fun e => (s.head? e.1).isSome).map fun e => .event (.recordSend e.1)
  let hops : List Todo := ((List.range f.packets.length).filter s.granted).map .hop
  let arrivals : List Todo := (f.flight.foldl (fun l e => addOnce l e.1) []).map fun q => .event (.recordArrival q)
  let refills : List Todo := (f.queues.filter fun e => decide (e.2.ringCount > 0)).map fun e => .event (.spillRefill e.1)
  let links : List Todo := (f.linkFlight.foldl (fun l e => addOnce l e.1) []).map fun q => .event (.linkArrival q)
  let arcs : List Todo := (f.arcFlight.foldl (fun l e => addOnce l (e.1, e.2.1)) []).map fun e => .event (.joinArcArrival e.1 e.2)
  let joins : List Todo := (f.joins.filter fun e => e.2.counts.all fun n => n != 0).map fun e => .event (.joinFire e.1)
  let gens : List Todo := (f.gens.filter fun e => decide (e.2.outstanding < s.genLimit e.2)).map fun e => .event (.generatorPut e.1)
  let windows : List Todo := f.windows.flatMap fun e => (List.range e.2.ins.length).map fun k => .event (.windowInput e.1 k)
  let sinks : List Todo := (f.sinks.filter fun e => f.flight.any fun r => r.1 == e.2.exit).map fun e => .event (.sinkRecord e.1)
  let mes : List Todo := f.mes.map fun e => .event (.meStreamRecord e.1)
  let barriers : List Todo := f.waits.map fun w => .event (.barrierArrival w.id)
  let texts : List Todo := (f.texts.filterMap fun q => (s.queue? q).map (·.ctx)).map fun c => .event (.blockerRecord c)
  let stashes : List Todo := f.stashes.flatMap fun e => (e.2.lines.filter (·.dirty)).map fun l =>
    .event (.leaseExpiryWriteback e.1.rid e.1.row e.1.col e.1.unit e.1.idx l.pa)
  [sends, hops, arrivals, refills, links, arcs, joins, gens, windows, sinks, mes, barriers, texts, stashes].flatten

/-- The memory system and the device's edge. -/
noncomputable def State.memoryEvents (s : State) : List Todo :=
  let reqs : List Todo := s.ms.reqs.map fun r => .event (if r.waitOrder.isSome then .lkwaitAcquire r.id else .memoryRequest r.id)
  let replies : List Todo := s.ms.replies.map fun r => .event (.loadReply r.id)
  let iop : List Todo := s.out.requesters.flatMap fun e => [.event (.iopWriteSend e.1), .event (.iopAck e.1)]
  let held : List Todo := (s.ms.ioWrites.filter fun w => !w.sent).map fun w => .event (.rateLimitRelease (w.vf.getD 256))
  let frames : List Todo := s.out.frames.map fun f => .event (.rateLimitRelease f.1)
  let acks : List Todo := (s.ms.ioWrites.filter (·.sent)).map fun w => .event (.ioWriteAck w.id)
  [reqs, replies, iop, held, frames, acks].flatten

/-- Launches, regions, threads, traps and the watchdog. -/
noncomputable def State.schedEvents (s : State) : List Todo :=
  let x := s.sched
  let waits := x.launches.any fun e => e.2.waits
  let admits : List Todo := x.lqs.map fun e => .event (.launchAdmit e.1)
  let rounds : List Todo := if waits then (List.range 64).map fun d => .event (.allocatorRound d) else []
  let launches : List Todo := x.launches.flatMap fun e =>
    if e.2.state == .running then [.event (.launchStart e.1), .event (.launchComplete e.1)] else []
  let floors : List Todo := (x.credits.filter fun e => e.2.floorSince.isSome).map fun e => .event (.floorPreempt e.1.1 e.1.2)
  let regions : List Todo := x.regions.flatMap fun e => match e.2.op with
    | .none => []
    | .drain _ _ _ => [.event (.drainComplete e.1)]
    | .freeze _ _ _ => [.event (.freezeCaptureClose e.1)]
  let traps : List Todo := (x.traps.filter fun e => !e.delivered).map fun e => .event (.trapDelivery e.id)
  let runs : List Todo := s.fab.queues.filterMap fun e => match e.1 with
    | .call d t => if e.2.items.isEmpty then none else some (.event (.runBegin d t))
    | _ => none
  let vocabs : List Todo := x.calls.flatMap fun c =>
    events [((s.vocCall c.id 1).isSome, .vocload c.id), ((s.vocCall c.id 2).isSome, .vocdrop c.id)]
  let changes : List Todo := if x.pchgRun.isSome then [.partitionChange] else []
  let moves : List Todo := (x.partitions.filter fun e => e.2.migrun.isSome).map fun e => .migration e.1
  let images : List Todo := x.imageReads.map fun i => .imageRead i.id
  [admits, rounds, launches, floors, regions, traps, runs, vocabs, changes, moves, images].flatten

/-- The clocks of firmware, pod and text sessions. -/
noncomputable def State.timedEvents (s : State) : List Todo :=
  let p := s.out.pod
  events [
    (p.role == .leader && decide (p.nextBeat ≤ s.clk.tick), .heartbeatSend),
    (p.role == .follower && decide (p.lastBeat + 6750000 ≤ s.clk.tick), .heartbeatMiss),
    (match s.out.fw.swap with
      | .released t _ => decide (t + 1350000 ≤ s.clk.tick)
      | _ => false, .takeover)] ++
  (List.range 8).flatMap (fun c => events [((s.cp c).role != 1 && decide ((s.cp c).wdog ≤ s.clk.tick), .cpWatchdogExpiry c)]) ++
  (s.out.sessions.filter fun e => !e.2.released.isEmpty && decide (e.2.since + 2700 ≤ s.clk.tick)).map fun e =>
    .event (.textReplyTimeout e.1)

/-- Everything that the machine itself may do next. -/
noncomputable def State.todos (s : State) : List Todo :=
  s.agents.flatMap (fun e => s.issuable e.1 e.2 ++ s.agentEvents e.1 e.2) ++ s.fabricEvents ++ s.memoryEvents ++ s.schedEvents ++
  s.timedEvents

/-- What comes next: what the outside or the agenda says, or else one of the machine's own events, each in its turn; nothing where
nothing may happen. -/
noncomputable def State.nextTodo (s : State) : Option Todo × State :=
  match s.agenda with
  | t :: rest => (some t, { s with agenda := rest })
  | [] =>
    let cs := s.todos
    (cs[s.clk.cycle % max 1 cs.length]?, s)

/-! ### The end of a step -/

/-- The step is over: no instruction is being issued, the contexts that lost a line end, kills that waited for an incarnation are tried
again (21 R382), and each actor whose firing rule holds is noted (20 R362). -/
def State.settleStep (s : State) : State := (((({ s with cur := none } : State).settleLost).retryKills).settleSys).noteReady

/-! ### A program in place (log 5) -/

/-- The words of the first instruction of a list. -/
def firstWords (ws : List Word) : List Word := match ws with
  | [] => []
  | w :: _ => ws.take (match (field w 0 2).toNat with
    | 1 => 2
    | 2 => 3
    | _ => 1)

/-- The header of a seq block of two instructions (05 R93). -/
def placedHeader (words : Nat) : BitVec 128 :=
  BitVec.ofNat 128 (3 + 2 * 2 ^ 2 + 2 * 2 ^ 4 + 1 * 2 ^ 6 + words * 2 ^ 13)

/-- A block in progress: a `nop` that has fired, and an instruction whose slots hold zero. -/
def placedBlock (ws : List Word) : Block :=
  { Block.enter 0 (placedHeader (1 + ws.length)) [[0x3FFFF1DC], ws] false [] 0 with
    slots := [((1, 0), .zero), ((1, 1), .zero), ((1, 2), .zero)]
    stat := [(0, .fired)] }

/-- Service thread 0 of die 0, enabled at level M in context 0, which is live, has entered that block; its turn has come, the divider is
free, and its instruction comes next. -/
def State.withNext (s : State) (ws : List Word) : State :=
  let a := Aid.thread 0 0
  let g := (Tab.get? s.agents a).getD (.thread 0 0)
  let s := (s.updThreadCtl 0 0 fun k => { k with en := true, level := .M, ctx := 0 }).updContext 0 fun c => { c with live := true }
  let s := s.updSched fun x => { x with lastThread := Tab.erase x.lastThread 0 }
  let s := s.updFab fun f => { f with dividers := Tab.erase f.dividers (0, 0x1FF, 0) }
  let s := s.setAgent a { g with
    mode := .seq
    level := .M
    ctx := 0
    cu := 0
    slot := 0
    deadline := []
    phase := .running
    firing := some ⟨false, [], [], s.clk.tick, false, [], [], [], []⟩
    block := some (placedBlock ws)
    older := []
    younger := [] }
  { s with agenda := .issue a 1 :: s.agenda }

end Sys2Proof.Machine
end

