-- ==== Sys2Proof/Machine/Step.lean ====
section
/-! DEFINITION. One step of the machine: one cycle in which at most one thing happens (log 4). -/
namespace Sys2Proof.Machine

/-- An instruction of an agent's block issues: it is read from its words and dispatched. -/
noncomputable def issueStep (a : Aid) (i : Nat) (s : State) : Host.Outcome State Fault Refusal :=
  match s.issueWords a i with
  | none => .next s
  | some ws =>
    match decode ws with
    | .ok (ins, _) => exec ins (s.issueAt a i)
    | .error _ => .next s

/-- What happens in a step. -/
noncomputable def todoStep : Todo → State → Host.Outcome State Fault Refusal
  | .event i, s => exec i s
  | .issue a i, s => issueStep a i s
  | .hop k, s => .next (s.hop k)
  | .evict line, s => .next (s.evictLine line)
  | .regRead who addr, s => .next (s.askRegister who addr)
  | .csr core addr w, s => .next (s.csrAccess core addr w)
  | .hart h mt pa op, s => .next (s.hartAccess h mt pa op)
  | .bitError line c, s => .next (s.bitError line c)
  | .podRefusal a id cause, s => .next (s.podRefused a id cause)
  | .podArrival pkg word kind ctx id, s => .next (s.podArrival pkg word kind ctx id)
  | .podAnswer id value, s => .next (s.podAnswer id value)
  | .relaxedRead vf off size, s => .next (s.askAperture vf off size true)
  | .readAhead req k, s => .next (s.readAhead req k)
  | .podShoot pkg id ctx va, s => .next (s.podShoot pkg id ctx va)
  | .podShootDone pkg id, s => .next (s.podShootDone pkg id)
  | .podProgress serial n, s => .next (s.podProgress serial n)
  | .imageRead id, s => .next (s.imageRead id)
  | .stateError die, s => .next (s.stateError die)
  | .copyError die vq line c, s => .next (s.copyError die vq line c)
  | .parityError die vq va, s => .next (s.parityError die vq va)
  | .replayed l, s => .next (s.replayed l)
  | .partitionChange, s => .next s.pchgRest
  | .migration p, s => .next (s.migrateRest p)

/-- What each step ends with. -/
def settle : Host.Outcome State Fault Refusal → Host.Outcome State Fault Refusal
  | .next s => .next s.settleStep
  | .fault r => .fault r
  | .refused r => .refused r

/-- One step: a cycle passes, and then what comes next happens. -/
noncomputable def step (s : State) : Host.Outcome State Fault Refusal :=
  match s.advance.nextTodo with
  | (none, s) => settle (.next s)
  | (some t, s) => settle (todoStep t s)

/-- The state with an instruction where the next step issues it: second in a block that service thread 0 of die 0 has entered. -/
noncomputable def State.withFetchWord (s : State) (nbits w : Nat) : State := s.withNext (firstWords (tableWords nbits w))

end Sys2Proof.Machine
end

