-- ==== Sys2Proof/Safety.lean ====
section
/-! DEFINITION. What a safe run is, and the words that statements about the machine are made of. -/
namespace Sys2Proof

/-- The fields of an instruction that has an encoding; none for a device event. -/
def Instr.ins? (i : Instr) : Option Machine.Ins :=
  match i.enc with
  | .f0 op f => some (f.ins op)
  | .fi op f => some (f.ins op)
  | .fx op _ f => some (f.ins op)
  | .event => none

end Sys2Proof

namespace Sys2Proof.Machine

/-! ### Runs -/

/-- What a step or an instruction answers. -/
abbrev Answer := Host.Outcome State Fault Refusal

/-- A step that the machine takes. -/
def Goes (s : State) : Prop := ∃ t, step s = .next t

/-- The memories are in canonical form. -/
def State.canonical (s : State) : Prop := Memory.wf s.ms.mem = true ∧ Memory.wf s.ms.scratch = true

/-- A safe state: the memories are in canonical form, and the next step is taken. -/
def State.safe (s : State) : Prop := s.canonical ∧ Goes s

/-! ### An instruction that issues -/

/-- An instruction can issue: its agent's block is in progress, it has not issued yet, its operands are there and its predicate, if
it has one, lets it. -/
def Ready (s : State) (ins : Ins) (i : Issue) (o : Operands) : Prop := s.issuing ins = some i ∧ i.gather = .ready o

/-- The state once it has issued: the issue is counted, and an entry that carries `exc` is noted. -/
def State.issued (s : State) (i : Issue) (o : Operands) : State := s.note i o.exc fNone

/-- Its flags are raised, and its two results go to its targets. -/
def State.results (s : State) (i : Issue) (o : Operands) (r : Res) : State :=
  ((s.issued i o).raiseFlags i r.flags).deliver i ⟨r.out, o.dep⟩ ⟨r.out1, o.dep⟩ r.keep

/-- Element `j` of operands A, B and C at the width of the instruction. -/
def Operands.x (o : Operands) (i : Issue) (j : Nat) : Nat := getE i.ins.width o.a.bits j
def Operands.y (o : Operands) (i : Issue) (j : Nat) : Nat := getE i.ins.width o.b.bits j
def Operands.z (o : Operands) (i : Issue) (j : Nat) : Nat := getE i.ins.width o.c.bits j

/-- Whether `pmask` has element `j` active. -/
def Operands.act (o : Operands) (i : Issue) (j : Nat) : Bool := active o.mask i.ins.width j

/-- The floating-point format of its type. -/
def Issue.fmt (i : Issue) : FFmt := (floatFmt i.ins.ty).getD fmtF32

/-- Elements A, B and C decoded in that format. -/
def Operands.vx (o : Operands) (i : Issue) (j : Nat) : FVal := i.fmt.value (o.x i j)
def Operands.vy (o : Operands) (i : Issue) (j : Nat) : FVal := i.fmt.value (o.y i j)
def Operands.vz (o : Operands) (i : Issue) (j : Nat) : FVal := i.fmt.value (o.z i j)

/-- A result of `n` elements of width `W`: element `j` is `f j` where `act j` holds and zero elsewhere, and nothing lies above the
last; a register target keeps exactly the bits of the elements that are not active. -/
def ByElement (W n : Nat) (act : Nat → Bool) (f : Nat → Nat) (r : Res) : Prop :=
  (∀ j < n, getE W r.out j = if act j then f j % 2 ^ W else 0) ∧ r.out.toNat < 2 ^ (W * n) ∧
  ∀ k < 512, r.keep.getLsbD k = if W = 64 then !act 0 else (decide (k < W * n) && !act (k / W))

/-- The widths that converted elements may also have: the four above and 4 bits (03 R54). -/
def elemWidth (W : Nat) : Prop := W = 4 ∨ stdWidth W

/-- Two parts of a reduction or a scan: an absent one passes the other (04 R62). -/
def joined (f : Nat → Nat → Nat × FlagSet) : Option Nat × FlagSet → Option Nat × FlagSet → Option Nat × FlagSet
  | (some a, p), (some b, q) => (some (f a b).1, p ||| q ||| (f a b).2)
  | (none, p), (y, q) => (y, p ||| q)
  | (x, p), (none, q) => (x, p ||| q)

/-- Node `j` of level `k` of the pairwise tree over elements (04 R62). -/
def treeOf (f : Nat → Nat → Nat × FlagSet) (leaf : Nat → Option Nat) : Nat → Nat → Option Nat × FlagSet
  | 0, j => (leaf j, fNone)
  | k + 1, j => joined f (treeOf f leaf k (2 * j)) (treeOf f leaf k (2 * j + 1))

/-- Element `j` after the first `k` steps of the prefix network (04 R63). -/
def prefixOf (f : Nat → Nat → Nat × FlagSet) (leaf : Nat → Option Nat) : Nat → Nat → Option Nat
  | 0, j => leaf j
  | k + 1, j => if j < 2 ^ k then prefixOf f leaf k j
    else (joined f (prefixOf f leaf k (j - 2 ^ k), fNone) (prefixOf f leaf k j, fNone)).1

/-- Element `j` of operand A, absent where inactive. -/
def Operands.leaf (o : Operands) (i : Issue) (j : Nat) : Option Nat := if o.act i j then some (o.x i j) else none

/-- The active elements of operand A as exact integers of the type. -/
def Operands.activeInts (o : Operands) (i : Issue) : List Int :=
  ((List.range (count i.ins.width)).filter (o.act i)).map fun j => etyInteger i.ins.ty i.ins.width (o.x i j)

/-- Whenever the instruction can issue, its answer is the next state in which its results have gone out, and no flag is raised: at each
width that the instruction may have, element `j` is `f i o j` where active and zero elsewhere, and a register target keeps its inactive
elements. -/
def Elements (s : State) (ins : Ins) (e : Answer) (f : Issue → Operands → Nat → Nat) : Prop :=
  ∀ i o, Ready s ins i o →
    ∃ r : Res, e = .next (s.results i o r) ∧ r.flags = fNone ∧ r.out1 = r.out ∧
      (stdWidth i.ins.width → ByElement i.ins.width (count i.ins.width) (o.act i) (f i o) r)

/-- The same with the flags of the active elements. -/
def FloatElements (s : State) (ins : Ins) (e : Answer) (f : Issue → Operands → Nat → Nat × FlagSet) : Prop :=
  ∀ i o, Ready s ins i o → elemWidth i.ins.width →
    ∃ r : Res, e = .next (s.results i o r) ∧ r.out1 = r.out ∧
      r.flags = orFlags (((List.range (count i.ins.width)).filter (o.act i)).map (f i o)) ∧
      ByElement i.ins.width (count i.ins.width) (o.act i) (fun j => (f i o j).1) r

/-- The same for a result whose `n` elements have width `W` of their own. -/
def Widened (s : State) (ins : Ins) (e : Answer) (W n : Nat) (f : Issue → Operands → Nat → Nat) : Prop :=
  ∀ i o, Ready s ins i o → ∃ r : Res, e = .next (s.results i o r) ∧ r.flags = fNone ∧ r.out1 = r.out ∧
    ByElement W n (active o.mask W) (f i o) r

/-- The same for a relation: every mask bit of an active element is what the relation says, and of another one zero, and a register
target keeps it; a scalar has all 64 bits. -/
def Masks (s : State) (ins : Ins) (e : Answer) (f : Issue → Operands → Nat → Bool × FlagSet) : Prop :=
  ∀ i o, Ready s ins i o → stdWidth i.ins.width →
    ∃ r : Res, e = .next (s.results i o r) ∧ r.out1 = r.out ∧
      r.flags = orFlags (((List.range (count i.ins.width)).filter (o.act i)).map fun j => (0, (f i o j).2)) ∧
      ∀ k < 512, let j := if i.ins.width = 64 then 0 else k / (i.ins.width / 8)
        r.out.getLsbD k = (decide (k < 64) && o.act i j && (f i o j).1) ∧
        r.keep.getLsbD k = (decide (k < 64) && !o.act i j)

/-- The same for a scalar result that `pmask` does not govern. -/
def Scalars (s : State) (ins : Ins) (e : Answer) (f : Issue → Operands → Nat) : Prop :=
  ∀ i o, Ready s ins i o → e = .next (s.results i o (.scalar (f i o)))

/-- A NaN result is the canonical one (03 R38). -/
def Issue.canonical (i : Issue) (x : Nat) : Nat := if (i.fmt.value x).isNaN then i.fmt.canonNaN else x

/-- A signalling NaN among the active elements of operand A raises invalid (03 R38). -/
def Operands.signalling (o : Operands) (i : Issue) : FlagSet :=
  snan (((List.range (count i.ins.width)).filter (o.act i)).map (o.vx i))

/-- Whenever the instruction can issue, its answer is the next state in which the scalar of a reduction has gone out: of an integer
type the value `int`, and of a float type the root of the pairwise tree with the flags of its nodes and of signalling elements, or `empty`
where no element is active, with a NaN canonical; `pmask` does not govern it (06 R128). -/
def Reduces (s : State) (ins : Ins) (e : Answer) (int : Issue → Operands → Nat) (f : Issue → Nat → Nat → Nat × FlagSet)
    (empty : Issue → Nat) : Prop :=
  ∀ i o, Ready s ins i o →
    (i.ins.ty < 8 → e = .next (s.results i o (.scalar (int i o)))) ∧
    (i.ins.ty = 8 ∨ i.ins.ty = 9 ∨ i.ins.ty = 10 →
      let t := treeOf (f i) (o.leaf i) (Nat.log2 (count i.ins.width)) 0
      let v := scal (i.canonical (t.1.getD (empty i)))
      e = .next (s.results i o ⟨v, v, 0, t.2 ||| o.signalling i⟩))

/-- Whenever the instruction can issue, its answer is the next state in which its prefix results have gone out: of an integer type
the sums of the active elements up to each, and of a float type what the network gives, with a NaN canonical (06 R129). -/
def Scans (s : State) (ins : Ins) (e : Answer) : Prop :=
  ∀ i o, Ready s ins i o → stdWidth i.ins.width →
    ∃ r : Res, e = .next (s.results i o r) ∧ r.out1 = r.out ∧
      (i.ins.ty < 8 → r.flags = fNone ∧ ByElement i.ins.width (count i.ins.width) (o.act i)
        (fun j => (((List.range (j + 1)).filter (o.act i)).map (o.x i)).sum) r) ∧
      (i.ins.ty = 8 ∨ i.ins.ty = 9 ∨ i.ins.ty = 10 → ByElement i.ins.width (count i.ins.width) (o.act i)
        (fun j => i.canonical ((prefixOf (fun x y => i.fmt.addF i.ins.rm (i.fmt.value x) (i.fmt.value y)) (o.leaf i)
          (Nat.log2 (count i.ins.width)) j).getD 0)) r)

/-- Whenever the instruction can issue, its answer is the next state in which its block is changed so, and nothing else but the
count of issues. -/
def Records (s : State) (ins : Ins) (e : Answer) (f : Issue → Operands → Block → Block) : Prop :=
  ∀ i o, Ready s ins i o → e = .next ((s.issued i o).updBlock i.aid (f i o))

/-- Whenever the instruction can issue and `c` holds, its answer is this next state. -/
def Completes (s : State) (ins : Ins) (e : Answer) (c : Issue → Operands → Prop) (t : Issue → Operands → State) : Prop :=
  ∀ i o, Ready s ins i o → c i o → e = .next (t i o)

/-! ### Frames -/

/-- Two states differ in the block of one agent and in the event counters, and in nothing else. -/
def SameButBlock (s t : State) (a : Aid) : Prop :=
  t.clk = s.clk ∧ t.fab = s.fab ∧ t.ms = s.ms ∧ t.out = s.out ∧ t.agenda = s.agenda ∧ t.cur = s.cur ∧ t.fresh = s.fresh ∧
  t.nextId = s.nextId ∧ t.sched = { s.sched with counters := t.sched.counters } ∧
  (∀ b, b ≠ a → t.agent? b = s.agent? b) ∧
  ∃ g b, s.agent? a = some g ∧ t.agent? a = some { g with block := some b }

/-- The block in progress of an agent. -/
def State.blockOf (s : State) (a : Aid) : Option Block := (s.agent? a).bind Agent.block

end Sys2Proof.Machine
end

