-- ==== Sys2Proof/Certificates/Slice0/Obligations.lean ====
section
/-! DEFINITION. The statements about the machine, each with the rules of spec/ that it formalises or rests on. -/
open Sys2Proof Sys2Proof.Machine

/-- R77, R79 to R82 and R97: the decoder reads the words of every well-formed instruction, with every operand at every value its fields
admit, back as that instruction, and leaves exactly the words after it. -/
def Obligations.DecodeEncode : Prop := ∀ (i : Instr) (rest : List Word), i.wf = true → i.enc ≠ .event →
  decode (encode i ++ rest) = .ok (i, rest)

/-- R77 to R82 and R97: what the decoder reads is a well-formed instruction, and the words that it has read are that instruction's own, so
no two word lists decode to one instruction. -/
def Obligations.EncodeDecode : Prop := ∀ (ws rest : List Word) (i : Instr), decode ws = .ok (i, rest) →
  ws = encode i ++ rest ∧ i.wf = true ∧ i.enc ≠ .event

/-- R77, R79 to R82 and R97: the words that chapter 05 writes out for its block halfdiff decode to `fsub` of q0 and q1, `movl`, `fmul`
rounding toward zero, `movi` of -5 and `fend`, with their fields as the chapter lists them. -/
def Obligations.SpecWords : Prop :=
  decode [0x3FE02145, 0x4000C9C8] = .ok (.fsubF1F2 ⟨0, 0x1FF, 0x002, 0, 8, 0, 0, 0, 0xC9, 0xC8, none⟩, []) ∧
  decode [0x3FE820AE, 0x28000000, 0x3F000000] = .ok (.movl ⟨0, 0x1FF, 0x082, 0, 5, 0, 0, 0, 0, 0, some 0x3F000000⟩, []) ∧
  decode [0x7FFB8149, 0x40000000] = .ok (.fmulF1F2 ⟨1, 0x1FF, 0x1B8, 0, 8, 0, 0, 0, 0, 0, none⟩, []) ∧
  decode [0xFF7B90A8] = .ok (.movi ⟨0x7FB, 0x1B9, 0⟩, []) ∧
  decode [0x3FFFF1D0] = .ok (.fend ⟨0, 0x1FF, 0x1FF, 0⟩, []) ∧
  decode [0x3FFFF1DC] = .ok (.nop ⟨0, 0x1FF, 0x1FF, 0⟩, [])

/-- R97, R98, R91 and R77: for every first word the decoder accepts a format exactly where the opcode map gives the op that format (the
table below has 1 for the 32-bit format, 2 for F1 and 4 for F2, summed), and refuses a reserved op, a format outside the class and
predicate mode 11 as ILLEGAL_OPCODE. A word of length 11 where an instruction should begin is refused as a misplaced header. The
acceptance clause is for rm 00, since an op with several rows in the table reads its row from rm. -/
def Obligations.OpcodeMap : Prop :=
  let formats : List Nat :=
    [0, 7, 7, 5, 7, 7, 7, 7, 7, 7, 7, 7, 3, 3, 7, 7] ++
    [7, 7, 7, 7, 7, 7, 7, 7, 7, 7, 7, 7, 7, 7, 7, 5] ++
    [5, 5, 3, 3, 3, 3, 3, 7, 7, 7, 1, 4, 2, 2, 3, 0] ++
    [7, 7, 7, 7, 7, 7, 5, 5, 7, 7, 7, 7, 3, 3, 3, 3] ++
    [7, 7, 7, 7, 7, 7, 7, 7, 7, 3, 3, 3, 3, 3, 1, 7] ++
    [7, 7, 7, 7, 7, 7, 7, 7, 3, 3, 7, 7, 7, 7, 3, 3] ++
    [3, 7, 7, 3, 3, 3, 7, 2, 2, 7, 2, 7, 7, 7, 7, 0] ++
    [4, 2, 4, 1, 1, 5, 1, 1, 2, 1, 1, 3, 1, 1, 0, 0] ++
    [3, 2, 2, 2, 2, 2, 2, 6, 6, 6, 3, 6, 3, 0, 0, 0] ++
    [6, 6, 6, 6, 6, 6, 6, 6, 6, 1, 1, 6, 6, 6, 6, 6] ++
    [6, 6, 6, 6, 6, 6, 6, 6, 6, 6, 6, 6, 6, 6, 0, 0] ++
    [6, 6, 6, 6, 6, 6, 3, 6, 4, 4, 4, 6, 0, 0, 0, 0] ++
    [6, 6, 6, 6, 6, 6, 6, 6, 6, 6, 6, 6, 6, 0, 0, 0] ++
    [6, 6, 3, 6, 6, 1, 6, 6, 6, 6, 6, 6, 6, 3, 6, 1] ++
    [0, 0, 0, 0, 0, 0, 0, 0, 0, 0, 0, 0, 0, 0, 0, 0] ++
    [0, 0, 0, 0, 0, 0, 0, 0, 0, 0, 0, 0, 0, 0, 0, 0]
  ∀ (w w1 l : Word) (rest : List Word),
    let len := (field w 0 2).toNat
    let takes := (formats.getD (field w 2 8).toNat 0).testBit len
    (len = 3 → decode (w :: w1 :: l :: rest) = .error .misplacedHeader) ∧
    (len < 3 → (field w 10 2 = 3 ∨ takes = false) → decode (w :: w1 :: l :: rest) = .error .illegalOpcode) ∧
    (len < 3 → field w 10 2 ≠ 3 → (len = 0 ∨ field w 30 2 = 0) → takes = true →
      ∃ i, decode (w :: w1 :: l :: rest) = .ok (i, (w1 :: l :: rest).drop len))

/-- R99 with R77, R82, R83, R87, R89, R94 and R98: an actor of win mode with ports q0, q1, q8 and q9 accepts the block halfdiff of
chapter 05, cut into its five instructions, and each change that the chapter lists there for win mode brings the cause (01
ILLEGAL_OPCODE, 02 ILLEGAL_HEADER, 03 ILLEGAL_TARGET, 04 ILLEGAL_TYPE as R398 numbers them) at the instruction that it names. A system
instruction above the actor's level is PRIVILEGED. -/
def Obligations.BlockChecks : Prop :=
  let node : Node := ⟨.win, .U, false, false, [⟨0, .queue (.call 0 0), 1⟩, ⟨1, .queue (.call 0 0), 1⟩], [8, 9], []⟩
  let hdr : BitVec 128 := BitVec.ofNat 128 (0x60612127 + 0x1040 * 2 ^ 32)
  let words : List Word := [0x3FE02145, 0x4000C9C8, 0x3FE820AE, 0x28000000, 0x3F000000, 0x7FFB8149, 0x40000000, 0xFF7B90A8, 0x3FFFF1D0]
  let code : List (List Word) := [[0x3FE02145, 0x4000C9C8], [0x3FE820AE, 0x28000000, 0x3F000000], [0x7FFB8149, 0x40000000],
    [0xFF7B90A8], [0x3FFFF1D0]]
  checkBlock node hdr words = .ok code ∧
  (∃ c, checkBlock node hdr (words.set 5 0xFFFB8149) = .ok c) ∧
  checkBlock node hdr (words.set 0 0x3FE021BD) = .error (cOPCODE, 0) ∧
  checkBlock node hdr (words.set 7 0xFF7B90AB) = .error (cHEADER, 3) ∧
  checkBlock node hdr (words.set 1 0x6800C9C8) = .error (cTYPE, 0) ∧
  checkBlock node hdr (words.set 3 0x2800C800) = .error (cTARGET, 1) ∧
  checkBlock node hdr (words.set 2 0x3FE020AE) = .error (cTARGET, 2) ∧
  checkBlock node (BitVec.ofNat 128 (0x60212127 + 0x1040 * 2 ^ 32)) words = .error (cTARGET, 3) ∧
  checkBlock node (BitVec.ofNat 128 (0x60612127 + 0x1020 * 2 ^ 32)) words = .error (cHEADER, 0xFFFF) ∧
  checkBlock { node with mode := .seq, isThread := true } (BitVec.ofNat 128 (3 + 2 * 2 ^ 2 + 2 * 2 ^ 4 + 1 * 2 ^ 13 + 1 * 2 ^ 44))
    [0x3FFFF37C] = .error (cPRIVILEGED, 0)

/-- R350, R358, R361, R366, R381, R385 to R387, R411, R457, R463 and R468 with the map of R410: after reset a read of the control space
gives the reset values of the register tables: every queue control, context control and root is 0, `CTXSCHED` has `PRIOMAX` 7 and
`SHARE` 1, the lease is 63, `SCHEDCFG` 13,500 and 6,750, partition 0 holds every row and no other exists, `PCHGST` is DONE, and the
watchdog, stage and power registers have their values. -/
def Obligations.ResetRegisters : Prop :=
  let cr := State.reset.readCr
  (∀ n < 4096, cr (0x00008 + 64 * n) = 0) ∧
  (∀ c < 1024, cr (0x40000 + 256 * c) = 0 ∧ cr (0x40008 + 256 * c) = 0 ∧ cr (0x40010 + 256 * c) = 7 * 2 ^ 19 + 1 ∧
    cr (0x40028 + 256 * c) = 63) ∧
  (∀ p < 8, cr (0xC0000 + 256 * p) = (if p = 0 then 0x8038 else 0) ∧ cr (0xC0008 + 256 * p) = 0 ∧ cr (0xC0010 + 256 * p) = 0 ∧
    cr (0xE0100 + 64 * p) = 675000000 * 2 ^ 32 + 675000000 ∧ cr (0xE0108 + 64 * p) = 675000 * 2 ^ 32 + 675000 ∧
    cr (0xE0110 + 64 * p) = 67500000) ∧
  (∀ d < 64, cr (0xD0000 + 256 * d) = 0 ∧ cr (0xD0008 + 256 * d) = 13500 * 2 ^ 32 + 6750) ∧
  cr 0xE0008 = 2 ^ 24 ∧ cr 0xE0500 = 1 ∧ cr 0xE0600 = 7500 * 2 ^ 16 + 950

/-- R5: a byte written reads back, a string of bytes reads back at its place and leaves every other byte, and both keep the canonical form,
in which two memories that read alike are equal. A number laid out in n bytes has its low byte first. That an unlisted byte reads 0 is
log 1, the model's choice. -/
def Obligations.MemoryLaws : Prop :=
  (∀ m a b, Memory.wf m = true → Memory.wf (Mem.write m a b) = true ∧
    ∀ c, Mem.read (Mem.write m a b) c = if c = a then b else Mem.read m c) ∧
  (∀ m a bs, Memory.wf m = true → Memory.wf (Mem.writeBytes m a bs) = true ∧
    Mem.readBytes (Mem.writeBytes m a bs) a bs.length = bs ∧
    ∀ c, (c < a ∨ a + bs.length ≤ c) → Mem.read (Mem.writeBytes m a bs) c = Mem.read m c) ∧
  (∀ m n, Memory.wf m = true → Memory.wf n = true → (∀ a, Mem.read m a = Mem.read n a) → m = n) ∧
  (∀ a, Mem.read [] a = 0) ∧
  (∀ n v, (natBytes n v).length = n ∧ bytesNat (natBytes n v) = v % 256 ^ n ∧
    ∀ k < n, ((natBytes n v).getD k 0).toNat = v / 256 ^ k % 256)

/-- Whatever a step does, it leaves device memory and the banks of the memory units in the canonical form of the model (log 1): addresses
rise strictly, and no entry equals what an unlisted address reads as. So equal memories stay equal data. -/
def Obligations.CanonicalMemory : Prop := ∀ s t : State, s.canonical → step s = .next t → t.canonical

/-- At reset nothing is listed, so both memories have the canonical form of the model (log 1), and every byte of device memory reads 0. -/
def Obligations.ResetCanonical : Prop := State.reset.canonical ∧ ∀ a, Mem.read State.reset.ms.mem a = 0

/-- The model's step (log 4): a cycle passes; where the agenda names an instruction of a block next, and its words decode, the step is what
`exec` does with that instruction once the issue logic has chosen it, and then the step is settled: the choice is
cleared, and what waited for it comes about; where the
agenda names an event, the step is `exec` of that event. `withFetchWord` sets the agenda so (log 5). -/
def Obligations.StepRuns : Prop := ∀ (s : State) (rest : List Todo),
  let u : State := { s.advance with agenda := rest }
  (∀ a j ws i ws', s.agenda = .issue a j :: rest → u.issueWords a j = some ws → decode ws = .ok (i, ws') →
    ∀ t, exec i (u.issueAt a j) = .next t → step s = .next t.settleStep) ∧
  (∀ i, s.agenda = .event i :: rest → ∀ t, exec i u = .next t → step s = .next t.settleStep) ∧
  (∀ nbits w, (s.withFetchWord nbits w).agenda = .issue (.thread 0 0) 1 :: s.agenda ∧
    (s.withFetchWord nbits w).issueWords (.thread 0 0) 1 = some (firstWords (tableWords nbits w)))

/-- R98, R397 and R398: every fault that the spec names is taken as a next state, so every instruction and every event, in every state,
answers a next state, and so does every step. -/
def Obligations.EveryStepIsTaken : Prop :=
  (∀ (i : Instr) (s : State), ∃ t, exec i s = .next t) ∧ ∀ s : State, Goes s

/-- R14, with R13 and R91: an instruction that cannot issue, or whose operands are not all there, changes nothing. One whose predicate is not
met is marked declined and nothing else changes: it sends nothing, every slot and every sticky value stays, and for commit it counts as
resolved. Its predicate is bit 0 of slot C: `.pt` declines on 0, `.pf` on 1. -/
def Obligations.PredicatesAndOperands : Prop := ∀ (s : State) (i : Instr) (ins : Ins), i.ins? = some ins →
  (s.issuing ins = none → exec i s = .next s) ∧
  ∀ x, s.issuing ins = some x →
    (x.gather = .notReady → exec i s = .next s) ∧
    (x.gather = .decline → exec i s = .next (s.updBlock x.aid fun b => { b with stat := Tab.set b.stat x.idx .declined })) ∧
    IStat.declined.resolved = true ∧
    (∀ v, ins.predicated = true → slotValue x.g x.b x.idx 2 = some v →
      (x.gather = .decline ↔ v.bits.getLsbD 0 = (ins.pm != 1))) ∧
    (ins.predicated = true → slotValue x.g x.b x.idx 2 = none → x.gather = .notReady) ∧
    (ins.predicated = false → x.gather ≠ .decline)

/-- R86, R87, R89 and R15: a 9-bit target names slot A, B or C of an instruction or a register code. A value for an empty or sticky slot is
there at once, and no other slot changes. A second value for a slot that is not sticky is ILLEGAL_TARGET (03), naming the consumer. A
value for s0, p0 or null is discarded. One for an outbound port is noted as a put of a DATA record of weight 1.0, and one for another
register as a write, for the commit. -/
def Obligations.ResultsReachTargets : Prop :=
  (∀ n < 512, Target.of n = if n / 128 = 3 then .reg (n % 128) else .slot (n / 128) (n % 128)) ∧
  ∀ (s : State) a g b idx v keep, s.agent? a = some g → g.block = some b →
    (∀ slot j, let k := ((b.insAt j).map (Ins.stkOf · slot)).getD 0
      (k ≠ 0 ∨ Tab.get? b.slots (j, slot) = none →
        ∃ b', s.sendTo a idx (.slot slot j) v keep = s.updBlock a (fun _ => b') ∧ Tab.get? b'.slots (j, slot) = some v ∧
          (∀ p, p ≠ (j, slot) → Tab.get? b'.slots p = Tab.get? b.slots p) ∧
          b' = { b with slots := b'.slots, sticky := b'.sticky } ∧ (k = 0 → b'.sticky = b.sticky) ∧
          (k ≠ 0 → (j, slot, k, v) ∈ b'.sticky)) ∧
      (k = 0 → Tab.get? b.slots (j, slot) ≠ none →
        s.sendTo a idx (.slot slot j) v keep = s.takeTrap a 0x03 j b.addr 0 (b.word0 j))) ∧
    (∀ c, c = 0 ∨ c = 48 ∨ c = 127 → s.sendTo a idx (.reg c) v keep = s) ∧
    (∀ p, 8 ≤ p → p < 16 → s.sendTo a idx (.reg (48 + p)) v keep = s.updBlock a fun b => { b with effects := b.effects ++
      [(idx, .put p ⟨v.bits, 0, 0x7C00, g.putTime p, 0, false, 0, false, false, false, []⟩)] }) ∧
    (∀ c, c ≠ 0 → c ≠ 48 → (c < 56 ∨ (64 ≤ c ∧ c < 72)) → s.sendTo a idx (.reg c) v keep = s.updBlock a fun b =>
      { b with effects := b.effects ++ [(idx, .reg ⟨c, v, keep⟩)] })

/-- R86, R35 and R92: s0 reads zero and p0 all ones whatever is written to them. A write to another s or p register sets its low 64 bits and
to a v register all 512, but for the bits that an inactive element keeps, and no other register changes. -/
def Obligations.RegisterFile : Prop := ∀ (g : Agent) (c : Nat) (v : Val) (keep : Vec),
  (∀ k < 512, (g.reg 0).bits.getLsbD k = false ∧ (g.reg 48).bits.getLsbD k = decide (k < 64)) ∧
  (c = 0 ∨ c = 48 → g.write c v keep = g) ∧
  (c ≠ 0 → c ≠ 48 → c < 56 →
    (∀ k < 512, ((g.write c v keep).reg c).bits.getLsbD k =
      (decide (k < 64 ∨ (32 ≤ c ∧ c < 48)) && if keep.getLsbD k then (g.reg c).bits.getLsbD k else v.bits.getLsbD k)) ∧
    ((g.write c v keep).reg c).dep = v.dep ∧
    (∀ d, d ≠ c → (g.write c v keep).reg d = g.reg d) ∧
    g.write c v keep = { g with regs := (g.write c v keep).regs })

/-- R89 and R153: an instruction of ops 0x01 to 0x6E whose slot targets can take a value changes its own agent's block and the event counters
and nothing else: no register, flag, delay line, queue, special register, trap or byte of memory. In the block only slots, its own
status, the flags that wait for commit and effects of its own change. -/
def Obligations.ValueFrame : Prop := ∀ (s : State) (i : Instr) (ins : Ins) (x : Issue) (o : Operands),
  i.ins? = some ins → ins.op < 0x70 → Ready s ins x o →
  (∀ slot j, Target.of ins.t0 = .slot slot j ∨ Target.of ins.t1 = .slot slot j →
    ((x.b.insAt j).map (Ins.stkOf · slot)).getD 0 ≠ 0 ∨ Tab.get? x.b.slots (j, slot) = none) →
  (∀ slot j, Target.of ins.t0 = .slot slot j → Target.of ins.t1 ≠ .slot slot j) →
  ∃ t, exec i s = .next t ∧ SameButBlock s t x.aid ∧ (∀ pa, Mem.read t.ms.mem pa = Mem.read s.ms.mem pa) ∧
    ∃ b, t.blockOf x.aid = some b ∧ b = { x.b with
        slots := b.slots, sticky := b.sticky, stat := b.stat, flags := b.flags, effects := b.effects, readExc := b.readExc } ∧
      (∀ j, j ≠ x.idx → b.statOf j = x.b.statOf j) ∧ b.statOf x.idx = .fired ∧
      ∃ new, b.effects = x.b.effects ++ new ∧ new.length ≤ 2 ∧ ∀ e ∈ new, e.1 = x.idx

/-- R397 to R401: an exception of an agent that is not itself a fault thread, with no unhandled record of its region, abandons the block,
suspends the firing or run at the block's start and makes the record of R399 with the cause, the place, the address, the tick, the
detail and the handle; block 0 where the index is 0xFFFF. Memory, queues, registers and every other agent stay. Each byte range of the
record's 64 bytes holds its field. -/
def Obligations.TrapTaken : Prop :=
  (∀ (s : State) a g b cause iidx baddr va detail, s.agent? a = some g → g.block = some b → s.raiserRank a g = 0 →
    (∀ e ∈ s.sched.traps, e.taken = true ∨ e.management = true ∨ ∀ w, e.who = some w → w.rid = none ∨ w.rid ≠ a.rid) →
    let t := s.takeTrap a cause iidx baddr va detail
    t.agent? a = some { g with
      block := none, deadline := [], waitSince := none, younger := [], phase := .suspended baddr (cause == 0x20 || cause == 0x21) } ∧
    (∀ c, c ≠ a → t.agent? c = s.agent? c) ∧ t.ms = { s.ms with loads := t.ms.loads } ∧ t.fab = s.fab ∧ t.out = s.out ∧
    t.clk = s.clk ∧ t.nextId = s.nextId + 1 ∧
    t.sched = { s.sched with traps := s.sched.traps ++ [⟨s.nextId,
      ⟨cause, if a.isThread then 4 else 0, g.ctx, s.incOf a g, g.vq, g.cu, g.slot, g.die,
        if iidx = 0xFFFF then 0 else (b.hdr.extractLsb' 48 8).toNat, iidx, baddr, va, s.clk.tick, detail, g.handle a (s.incOf a g)⟩,
      some a, [], false, false, false, false, none⟩] }) ∧
  (∀ t : Trap, t.cause < 2 ^ 8 → t.tflags < 2 ^ 8 → t.ctx < 2 ^ 16 → t.inc < 2 ^ 16 → t.vq < 2 ^ 16 → t.cu < 2 ^ 8 → t.slot < 2 ^ 8 →
    t.die < 2 ^ 8 → t.bid < 2 ^ 8 → t.iidx < 2 ^ 16 → t.baddr < 2 ^ 64 → t.va < 2 ^ 64 → t.tick < 2 ^ 64 → t.detail < 2 ^ 64 →
    t.handle < 2 ^ 64 →
    let at_ := fun (byte n : Nat) => t.payload.toNat / 2 ^ (8 * byte) % 2 ^ (8 * n)
    at_ 0 1 = t.cause ∧ at_ 1 1 = t.tflags ∧ at_ 2 2 = t.ctx ∧ at_ 4 2 = t.inc ∧ at_ 6 2 = t.vq ∧ at_ 8 1 = t.cu ∧ at_ 9 1 = t.slot ∧
    at_ 10 1 = t.die ∧ at_ 11 1 = t.bid ∧ at_ 12 2 = t.iidx ∧ at_ 14 2 = 0 ∧ at_ 16 8 = t.baddr ∧ at_ 24 8 = t.va ∧ at_ 32 8 = t.tick ∧
    at_ 40 8 = t.detail ∧ at_ 48 8 = t.handle ∧ at_ 56 8 = 0)

/-- R402 and R413: returning with the handle of a record takes the record away and resumes the firing or run that it suspended, and every one
that joined it, at its block's start, with status 0; for a record of another context below level M it gives NOTOWNER and changes nothing,
and for a handle that no record has it gives NOSVC. That a record waits for its return by its handle is log 34, read by inference. -/
def Obligations.ReturnFromTrap : Prop := ∀ (s : State) (ctx : Nat) (level : Level) (h : Nat),
  ((∀ e ∈ s.sched.traps, e.who = none ∨ e.trap.handle ≠ h) → s.returnFromTrap ctx level h = (s, sNOSVC)) ∧
  ∀ e before after, s.sched.traps = before ++ e :: after → (∀ f ∈ before, f.who = none ∨ f.trap.handle ≠ h) →
    (∀ f ∈ before ++ after, f.id ≠ e.id) → ∀ a, e.who = some a → e.trap.handle = h → h ≠ 0 →
    (e.trap.ctx ≠ ctx → level ≠ .M → s.returnFromTrap ctx level h = (s, sNOTOWNER)) ∧
    (e.trap.ctx = ctx ∨ level = .M → ∃ t, s.returnFromTrap ctx level h = (t, 0) ∧ t.sched.traps = before ++ after ∧
      (∀ c g pc tr, c = a ∨ c ∈ e.joined → s.agent? c = some g → g.phase = .suspended pc tr →
        t.agent? c = some { g with phase := .resuming pc tr }) ∧
      (∀ c, c ≠ a → c ∉ e.joined → t.agent? c = s.agent? c) ∧ t.ms = s.ms ∧ t.fab = s.fab)

/-- R109 to R112 with R92 and R104: `add`, `sub`, `addi`, `mul`, `mulh`, `mulhu`, `mad`, `neg`, `abs`, the minima and maxima, the saturating and averaging forms and `addsh` compute their formula in every active element, in every form, and raise no flag. Whenever the instruction can issue, it answers the next state in which these results have gone to its targets. -/
def Obligations.IntegerArithmetic : Prop := ∀ s : State,
  (let g : Issue → Operands → Nat → Nat := fun i o j => (o.x i j + o.y i j) % 2 ^ i.ins.width
   (∀ f : F0, Elements s (f.ins 0x01) (exec (.addF0 f) s) g) ∧
   (∀ f : FX, Elements s (f.ins 0x01) (exec (.addF1F2 f) s) g)) ∧
  (let g : Issue → Operands → Nat → Nat := fun i o j => (o.x i j + (2 ^ i.ins.width - o.y i j)) % 2 ^ i.ins.width
   (∀ f : F0, Elements s (f.ins 0x02) (exec (.subF0 f) s) g) ∧
   (∀ f : FX, Elements s (f.ins 0x02) (exec (.subF1F2 f) s) g)) ∧
  (let g : Issue → Operands → Nat → Nat := fun i o j => wrap i.ins.width (o.x i j + i.ins.immediate)
   (∀ f : FI, Elements s (f.ins 0x03) (exec (.addiFi f) s) g) ∧
   (∀ f : FX, Elements s (f.ins 0x03) (exec (.addiF2 f) s) g)) ∧
  (let g : Issue → Operands → Nat → Nat := fun i o j => o.x i j * o.y i j % 2 ^ i.ins.width
   (∀ f : F0, Elements s (f.ins 0x04) (exec (.mulF0 f) s) g) ∧
   (∀ f : FX, Elements s (f.ins 0x04) (exec (.mulF1F2 f) s) g)) ∧
  (let g : Issue → Operands → Nat → Nat := fun i o j => wrap (2 * i.ins.width) (sint i.ins.width (o.x i j) * sint i.ins.width (o.y i j)) / 2 ^ i.ins.width
   (∀ f : F0, Elements s (f.ins 0x05) (exec (.mulhF0 f) s) g) ∧
   (∀ f : FX, Elements s (f.ins 0x05) (exec (.mulhF1F2 f) s) g)) ∧
  (let g : Issue → Operands → Nat → Nat := fun i o j => o.x i j * o.y i j / 2 ^ i.ins.width
   (∀ f : F0, Elements s (f.ins 0x06) (exec (.mulhuF0 f) s) g) ∧
   (∀ f : FX, Elements s (f.ins 0x06) (exec (.mulhuF1F2 f) s) g)) ∧
  (let g : Issue → Operands → Nat → Nat := fun i o j => (o.x i j * o.y i j + o.z i j) % 2 ^ i.ins.width
   (∀ f : F0, Elements s (f.ins 0x07) (exec (.madF0 f) s) g) ∧
   (∀ f : FX, Elements s (f.ins 0x07) (exec (.madF1F2 f) s) g)) ∧
  (let g : Issue → Operands → Nat → Nat := fun i o j => (2 ^ i.ins.width - o.x i j) % 2 ^ i.ins.width
   (∀ f : F0, Elements s (f.ins 0x0C) (exec (.negF0 f) s) g) ∧
   (∀ f : FX, Elements s (f.ins 0x0C) (exec (.negF1 f) s) g)) ∧
  (let g : Issue → Operands → Nat → Nat := fun i o j => if o.x i j < 2 ^ (i.ins.width - 1) then o.x i j else 2 ^ i.ins.width - o.x i j
   (∀ f : F0, Elements s (f.ins 0x0D) (exec (.absF0 f) s) g) ∧
   (∀ f : FX, Elements s (f.ins 0x0D) (exec (.absF1 f) s) g)) ∧
  (let g : Issue → Operands → Nat → Nat := fun i o j => if sint i.ins.width (o.x i j) ≤ sint i.ins.width (o.y i j) then o.x i j else o.y i j
   (∀ f : F0, Elements s (f.ins 0x0E) (exec (.minF0 f) s) g) ∧
   (∀ f : FX, Elements s (f.ins 0x0E) (exec (.minF1F2 f) s) g)) ∧
  (let g : Issue → Operands → Nat → Nat := fun i o j => if sint i.ins.width (o.y i j) ≤ sint i.ins.width (o.x i j) then o.x i j else o.y i j
   (∀ f : F0, Elements s (f.ins 0x0F) (exec (.maxF0 f) s) g) ∧
   (∀ f : FX, Elements s (f.ins 0x0F) (exec (.maxF1F2 f) s) g)) ∧
  (let g : Issue → Operands → Nat → Nat := fun i o j => if o.x i j ≤ o.y i j then o.x i j else o.y i j
   (∀ f : F0, Elements s (f.ins 0x10) (exec (.minuF0 f) s) g) ∧
   (∀ f : FX, Elements s (f.ins 0x10) (exec (.minuF1F2 f) s) g)) ∧
  (let g : Issue → Operands → Nat → Nat := fun i o j => if o.y i j ≤ o.x i j then o.x i j else o.y i j
   (∀ f : F0, Elements s (f.ins 0x11) (exec (.maxuF0 f) s) g) ∧
   (∀ f : FX, Elements s (f.ins 0x11) (exec (.maxuF1F2 f) s) g)) ∧
  (let g : Issue → Operands → Nat → Nat := fun i o j => wrap i.ins.width (max (-(2 ^ (i.ins.width - 1) : Nat)) (min ((2 ^ (i.ins.width - 1) : Nat) - 1) (sint i.ins.width (o.x i j) + sint i.ins.width (o.y i j))))
   (∀ f : F0, Elements s (f.ins 0x12) (exec (.addsF0 f) s) g) ∧
   (∀ f : FX, Elements s (f.ins 0x12) (exec (.addsF1F2 f) s) g)) ∧
  (let g : Issue → Operands → Nat → Nat := fun i o j => min (o.x i j + o.y i j) (2 ^ i.ins.width - 1)
   (∀ f : F0, Elements s (f.ins 0x13) (exec (.addsuF0 f) s) g) ∧
   (∀ f : FX, Elements s (f.ins 0x13) (exec (.addsuF1F2 f) s) g)) ∧
  (let g : Issue → Operands → Nat → Nat := fun i o j => wrap i.ins.width (max (-(2 ^ (i.ins.width - 1) : Nat)) (min ((2 ^ (i.ins.width - 1) : Nat) - 1) (sint i.ins.width (o.x i j) - sint i.ins.width (o.y i j))))
   (∀ f : F0, Elements s (f.ins 0x14) (exec (.subsF0 f) s) g) ∧
   (∀ f : FX, Elements s (f.ins 0x14) (exec (.subsF1F2 f) s) g)) ∧
  (let g : Issue → Operands → Nat → Nat := fun i o j => o.x i j - o.y i j
   (∀ f : F0, Elements s (f.ins 0x15) (exec (.subsuF0 f) s) g) ∧
   (∀ f : FX, Elements s (f.ins 0x15) (exec (.subsuF1F2 f) s) g)) ∧
  (let g : Issue → Operands → Nat → Nat := fun i o j => wrap i.ins.width ((etyInteger i.ins.ty i.ins.width (o.x i j) + etyInteger i.ins.ty i.ins.width (o.y i j) + 1) / 2)
   (∀ f : F0, Elements s (f.ins 0x16) (exec (.avgF0 f) s) g) ∧
   (∀ f : FX, Elements s (f.ins 0x16) (exec (.avgF1F2 f) s) g)) ∧
  (let g : Issue → Operands → Nat → Nat := fun i o j => (o.x i j + o.y i j * [8, 2, 4].getD i.ins.rm 64) % 2 ^ i.ins.width
   (∀ f : F0, Elements s (f.ins 0x29) (exec (.addshF0 f) s) g) ∧
   (∀ f : FX, Elements s (f.ins 0x29) (exec (.addshF1F2 f) s) g))

/-- R113 with R92: the quotient rounds toward zero and the remainder has the sign of a; division by zero gives all ones and the remainder a; the most negative number over minus 1 gives itself and 0. No flag, no trap. All accept the integer types only. Whenever the instruction can issue, it answers the next state in which these results have gone to its targets. -/
def Obligations.Division : Prop := ∀ s : State,
  (let g : Issue → Operands → Nat → Nat := fun i o j => if o.y i j = 0 then 2 ^ i.ins.width - 1 else wrap i.ins.width ((sint i.ins.width (o.x i j)).tdiv (sint i.ins.width (o.y i j)))
   (∀ f : F0, Elements s (f.ins 0x08) (exec (.divsF0 f) s) g) ∧
   (∀ f : FX, Elements s (f.ins 0x08) (exec (.divsF1F2 f) s) g)) ∧
  (let g : Issue → Operands → Nat → Nat := fun i o j => if o.y i j = 0 then 2 ^ i.ins.width - 1 else o.x i j / o.y i j
   (∀ f : F0, Elements s (f.ins 0x09) (exec (.divuF0 f) s) g) ∧
   (∀ f : FX, Elements s (f.ins 0x09) (exec (.divuF1F2 f) s) g)) ∧
  (let g : Issue → Operands → Nat → Nat := fun i o j => if o.y i j = 0 then o.x i j else wrap i.ins.width ((sint i.ins.width (o.x i j)).tmod (sint i.ins.width (o.y i j)))
   (∀ f : F0, Elements s (f.ins 0x0A) (exec (.remsF0 f) s) g) ∧
   (∀ f : FX, Elements s (f.ins 0x0A) (exec (.remsF1F2 f) s) g)) ∧
  (let g : Issue → Operands → Nat → Nat := fun i o j => if o.y i j = 0 then o.x i j else o.x i j % o.y i j
   (∀ f : F0, Elements s (f.ins 0x0B) (exec (.remuF0 f) s) g) ∧
   (∀ f : FX, Elements s (f.ins 0x0B) (exec (.remuF1F2 f) s) g)) ∧
  (∀ lanes, ∀ op ∈ [0x08, 0x09, 0x0A, 0x0B], ∀ f : FX, (f.ins op).typeOk lanes = true → etyInt f.ety.toNat = true)

/-- R114 and R115 with R92: logic is bitwise; a shift by the width or more gives 0, or the sign for `sar`; the amount of an immediate form is its sign-extended immediate read unsigned; rotation takes the amount modulo the width. Whenever the instruction can issue, it answers the next state in which these results have gone to its targets. -/
def Obligations.LogicAndShifts : Prop := ∀ s : State,
  (let g : Issue → Operands → Nat → Nat := fun i o j => o.x i j &&& o.y i j
   (∀ f : F0, Elements s (f.ins 0x17) (exec (.andF0 f) s) g) ∧
   (∀ f : FX, Elements s (f.ins 0x17) (exec (.andF1F2 f) s) g)) ∧
  (let g : Issue → Operands → Nat → Nat := fun i o j => o.x i j ||| o.y i j
   (∀ f : F0, Elements s (f.ins 0x18) (exec (.orF0 f) s) g) ∧
   (∀ f : FX, Elements s (f.ins 0x18) (exec (.orF1F2 f) s) g)) ∧
  (let g : Issue → Operands → Nat → Nat := fun i o j => o.x i j ^^^ o.y i j
   (∀ f : F0, Elements s (f.ins 0x19) (exec (.xorF0 f) s) g) ∧
   (∀ f : FX, Elements s (f.ins 0x19) (exec (.xorF1F2 f) s) g)) ∧
  (let g : Issue → Operands → Nat → Nat := fun i o j => o.x i j &&& (2 ^ i.ins.width - 1 - o.y i j)
   (∀ f : F0, Elements s (f.ins 0x1A) (exec (.andnF0 f) s) g) ∧
   (∀ f : FX, Elements s (f.ins 0x1A) (exec (.andnF1F2 f) s) g)) ∧
  (let g : Issue → Operands → Nat → Nat := fun i o j => if o.y i j < i.ins.width then o.x i j * 2 ^ (o.y i j) % 2 ^ i.ins.width else 0
   (∀ f : F0, Elements s (f.ins 0x1B) (exec (.shlF0 f) s) g) ∧
   (∀ f : FX, Elements s (f.ins 0x1B) (exec (.shlF1F2 f) s) g)) ∧
  (let g : Issue → Operands → Nat → Nat := fun i o j => if o.y i j < i.ins.width then o.x i j / 2 ^ (o.y i j) else 0
   (∀ f : F0, Elements s (f.ins 0x1C) (exec (.shrF0 f) s) g) ∧
   (∀ f : FX, Elements s (f.ins 0x1C) (exec (.shrF1F2 f) s) g)) ∧
  (let g : Issue → Operands → Nat → Nat := fun i o j => if o.y i j < i.ins.width then wrap i.ins.width (sint i.ins.width (o.x i j) / (2 ^ (o.y i j) : Nat)) else if o.x i j < 2 ^ (i.ins.width - 1) then 0 else 2 ^ i.ins.width - 1
   (∀ f : F0, Elements s (f.ins 0x1D) (exec (.sarF0 f) s) g) ∧
   (∀ f : FX, Elements s (f.ins 0x1D) (exec (.sarF1F2 f) s) g)) ∧
  (let g : Issue → Operands → Nat → Nat := fun i o j => o.x i j * 2 ^ (o.y i j % i.ins.width) % 2 ^ i.ins.width + o.x i j / 2 ^ (i.ins.width - o.y i j % i.ins.width)
   (∀ f : F0, Elements s (f.ins 0x1E) (exec (.rotlF0 f) s) g) ∧
   (∀ f : FX, Elements s (f.ins 0x1E) (exec (.rotlF1F2 f) s) g)) ∧
  (let g : Issue → Operands → Nat → Nat := fun i o j => if wrap 64 i.ins.immediate < i.ins.width then o.x i j * 2 ^ (wrap 64 i.ins.immediate) % 2 ^ i.ins.width else 0
   (∀ f : FI, Elements s (f.ins 0x1F) (exec (.shliFi f) s) g) ∧
   (∀ f : FX, Elements s (f.ins 0x1F) (exec (.shliF2 f) s) g)) ∧
  (let g : Issue → Operands → Nat → Nat := fun i o j => if wrap 64 i.ins.immediate < i.ins.width then o.x i j / 2 ^ (wrap 64 i.ins.immediate) else 0
   (∀ f : FI, Elements s (f.ins 0x20) (exec (.shriFi f) s) g) ∧
   (∀ f : FX, Elements s (f.ins 0x20) (exec (.shriF2 f) s) g)) ∧
  (let g : Issue → Operands → Nat → Nat := fun i o j => if wrap 64 i.ins.immediate < i.ins.width then wrap i.ins.width (sint i.ins.width (o.x i j) / (2 ^ (wrap 64 i.ins.immediate) : Nat)) else if o.x i j < 2 ^ (i.ins.width - 1) then 0 else 2 ^ i.ins.width - 1
   (∀ f : FI, Elements s (f.ins 0x21) (exec (.sariFi f) s) g) ∧
   (∀ f : FX, Elements s (f.ins 0x21) (exec (.sariF2 f) s) g))

/-- R116 and R117 with R92: `clz`, `ctz`, `popc`, `brev`, `bswap`, and the fields of `bfx` and `bfi`, clipped to the element. Whenever the instruction can issue, it answers the next state in which these results have gone to its targets. -/
def Obligations.BitOps : Prop := ∀ s : State,
  (let g : Issue → Operands → Nat → Nat := fun i o j => if o.x i j = 0 then i.ins.width else i.ins.width - 1 - Nat.log2 (o.x i j)
   (∀ f : F0, Elements s (f.ins 0x22) (exec (.clzF0 f) s) g) ∧
   (∀ f : FX, Elements s (f.ins 0x22) (exec (.clzF1 f) s) g)) ∧
  (let g : Issue → Operands → Nat → Nat := fun i o j => ((List.range i.ins.width).find? fun k => (o.x i j).testBit k).getD i.ins.width
   (∀ f : F0, Elements s (f.ins 0x23) (exec (.ctzF0 f) s) g) ∧
   (∀ f : FX, Elements s (f.ins 0x23) (exec (.ctzF1 f) s) g)) ∧
  (let g : Issue → Operands → Nat → Nat := fun i o j => ((List.range i.ins.width).filter fun k => (o.x i j).testBit k).length
   (∀ f : F0, Elements s (f.ins 0x24) (exec (.popcF0 f) s) g) ∧
   (∀ f : FX, Elements s (f.ins 0x24) (exec (.popcF1 f) s) g)) ∧
  (let g : Issue → Operands → Nat → Nat := fun i o j => sumNat ((List.range i.ins.width).map fun k => if (o.x i j).testBit k then 2 ^ (i.ins.width - 1 - k) else 0)
   (∀ f : F0, Elements s (f.ins 0x25) (exec (.brevF0 f) s) g) ∧
   (∀ f : FX, Elements s (f.ins 0x25) (exec (.brevF1 f) s) g)) ∧
  (let g : Issue → Operands → Nat → Nat := fun i o j => sumNat ((List.range (i.ins.width / 8)).map fun k => o.x i j / 256 ^ k % 256 * 256 ^ (i.ins.width / 8 - 1 - k))
   (∀ f : F0, Elements s (f.ins 0x26) (exec (.bswapF0 f) s) g) ∧
   (∀ f : FX, Elements s (f.ins 0x26) (exec (.bswapF1 f) s) g)) ∧
  (let g : Issue → Operands → Nat → Nat := fun i o j => let pos := o.y i j % i.ins.width
    let len := min (o.y i j / i.ins.width % i.ins.width + 1) (i.ins.width - pos)
    let x := o.x i j / 2 ^ pos % 2 ^ len
    if etySigned i.ins.ty then wrap i.ins.width (sint len x) else x
   (∀ f : F0, Elements s (f.ins 0x27) (exec (.bfxF0 f) s) g) ∧
   (∀ f : FX, Elements s (f.ins 0x27) (exec (.bfxF1F2 f) s) g)) ∧
  (let g : Issue → Operands → Nat → Nat := fun i o j => let pos := o.y i j % i.ins.width
    let len := min (o.y i j / i.ins.width % i.ins.width + 1) (i.ins.width - pos)
    o.x i j % 2 ^ pos + o.z i j % 2 ^ len * 2 ^ pos + o.x i j / 2 ^ (pos + len) * 2 ^ (pos + len)
   (∀ f : F0, Elements s (f.ins 0x28) (exec (.bfiF0 f) s) g) ∧
   (∀ f : FX, Elements s (f.ins 0x28) (exec (.bfiF1F2 f) s) g))

/-- R118 to R120 and R122 with R92: `movi` and `movl` place their immediate, `sext` and `zext` extend the chosen group of narrower elements, `mov` copies and `sel` takes A where the mask in slot C has the element active, else B. Whenever one of the eight forms can issue, whatever its fields, it answers the next state in which its results have gone to its targets and no flag is raised; at the widths that it may have its elements are these. `movi` gives its sign-extended immediate as a 64-bit scalar, and `mov` of a `pred` the whole mask. -/
def Obligations.Moves : Prop := ∀ s : State,
  (∀ f : FI, Elements s (f.ins 0x2A) (exec (.movi f) s) fun i _ _ => wrap i.ins.width i.ins.immediate) ∧
  (∀ f : FX, Elements s (f.ins 0x2B) (exec (.movl f) s) fun i o j => o.y i j) ∧
  (let g : Issue → Operands → Nat → Nat := fun i o j => o.x i j
   (∀ f : F0, Elements s (f.ins 0x2E) (exec (.movF0 f) s) g) ∧
   (∀ f : FX, Elements s (f.ins 0x2E) (exec (.movF1 f) s) g)) ∧
  (∀ f : FX, Elements s (f.ins 0x2C) (exec (.sext f) s) fun i o j => let w := (etyWidth (i.ins.srcB % 32)).getD 8
    wrap i.ins.width (sint w (getE w o.a.bits (j + i.ins.rm * count i.ins.width)))) ∧
  (∀ f : FX, Elements s (f.ins 0x2D) (exec (.zext f) s) fun i o j => getE ((etyWidth (i.ins.srcB % 32)).getD 8) o.a.bits (j + i.ins.rm * count i.ins.width) % 2 ^ i.ins.width) ∧
  (let g : Issue → Operands → Nat → Nat := fun i o j => if active (lowScal o.c.bits) i.ins.width j then o.x i j else o.y i j
   (∀ f : F0, Elements s (f.ins 0x38) (exec (.selF0 f) s) g) ∧
   (∀ f : FX, Elements s (f.ins 0x38) (exec (.selF1F2 f) s) g)) ∧
  (∀ f : FI, ∀ i o, Ready s (f.ins 0x2A) i o → ∃ r : Res, exec (.movi f) s = .next (s.results i o r) ∧ r.flags = fNone ∧
    (o.mask.getLsbD 0 = true → r.out = scal (wrap 64 f.imm.toInt) ∧ r.keep = 0)) ∧
  (∀ f : FX, f.ety = 17 → ∀ i o, Ready s (f.ins 0x2E) i o → ∃ r : Res, exec (.movF1 f) s = .next (s.results i o r) ∧ r.flags = fNone ∧
    (o.mask.getLsbD 0 = true → r.out = scal (scalNat o.a.bits) ∧ r.keep = 0))

/-- R121 with R92: every mask bit of an active element is set exactly when the relation holds; a scalar sets all 64 bits; `clt` and `cle` read signed numbers, `cltu` and `cleu` unsigned; `ceqi` and `clti` take the low W bits of the immediate; no flag. All accept the integer types only. Whenever the instruction can issue, it answers the next state in which these results have gone to its targets. -/
def Obligations.IntegerCompares : Prop := ∀ s : State,
  (let g : Issue → Operands → Nat → Bool × FlagSet := fun i o j => (o.x i j == o.y i j, fNone)
   (∀ f : F0, Masks s (f.ins 0x30) (exec (.ceqF0 f) s) g) ∧
   (∀ f : FX, Masks s (f.ins 0x30) (exec (.ceqF1F2 f) s) g)) ∧
  (let g : Issue → Operands → Nat → Bool × FlagSet := fun i o j => (o.x i j != o.y i j, fNone)
   (∀ f : F0, Masks s (f.ins 0x31) (exec (.cneF0 f) s) g) ∧
   (∀ f : FX, Masks s (f.ins 0x31) (exec (.cneF1F2 f) s) g)) ∧
  (let g : Issue → Operands → Nat → Bool × FlagSet := fun i o j => (decide (sint i.ins.width (o.x i j) < sint i.ins.width (o.y i j)), fNone)
   (∀ f : F0, Masks s (f.ins 0x32) (exec (.cltF0 f) s) g) ∧
   (∀ f : FX, Masks s (f.ins 0x32) (exec (.cltF1F2 f) s) g)) ∧
  (let g : Issue → Operands → Nat → Bool × FlagSet := fun i o j => (decide (sint i.ins.width (o.x i j) ≤ sint i.ins.width (o.y i j)), fNone)
   (∀ f : F0, Masks s (f.ins 0x33) (exec (.cleF0 f) s) g) ∧
   (∀ f : FX, Masks s (f.ins 0x33) (exec (.cleF1F2 f) s) g)) ∧
  (let g : Issue → Operands → Nat → Bool × FlagSet := fun i o j => (decide (o.x i j < o.y i j), fNone)
   (∀ f : F0, Masks s (f.ins 0x34) (exec (.cltuF0 f) s) g) ∧
   (∀ f : FX, Masks s (f.ins 0x34) (exec (.cltuF1F2 f) s) g)) ∧
  (let g : Issue → Operands → Nat → Bool × FlagSet := fun i o j => (decide (o.x i j ≤ o.y i j), fNone)
   (∀ f : F0, Masks s (f.ins 0x35) (exec (.cleuF0 f) s) g) ∧
   (∀ f : FX, Masks s (f.ins 0x35) (exec (.cleuF1F2 f) s) g)) ∧
  (let g : Issue → Operands → Nat → Bool × FlagSet := fun i o j => (o.x i j == wrap i.ins.width i.ins.immediate, fNone)
   (∀ f : FI, Masks s (f.ins 0x36) (exec (.ceqiFi f) s) g) ∧
   (∀ f : FX, Masks s (f.ins 0x36) (exec (.ceqiF2 f) s) g)) ∧
  (let g : Issue → Operands → Nat → Bool × FlagSet := fun i o j => (decide (sint i.ins.width (o.x i j) < sint i.ins.width (wrap i.ins.width i.ins.immediate)), fNone)
   (∀ f : FI, Masks s (f.ins 0x37) (exec (.cltiFi f) s) g) ∧
   (∀ f : FX, Masks s (f.ins 0x37) (exec (.cltiF2 f) s) g)) ∧
  (∀ lanes, ∀ op ∈ [0x30, 0x31, 0x32, 0x33, 0x34, 0x35, 0x36, 0x37], ∀ f : FX, (f.ins op).typeOk lanes = true → etyInt f.ety.toNat = true)

/-- R123: `pand`, `por`, `pxor` and `pnot` are bitwise on 64 bits; `pany`, `pall` and `pcnt` count the active elements of the lane mode that are set in A. Whenever the instruction can issue, it answers the next state in which these results have gone to its targets. -/
def Obligations.Predicates : Prop := ∀ s : State,
  (let g : Issue → Operands → Nat := fun _ o => scalNat o.a.bits &&& scalNat o.b.bits
   (∀ f : F0, Scalars s (f.ins 0x39) (exec (.pandF0 f) s) g) ∧
   (∀ f : FX, Scalars s (f.ins 0x39) (exec (.pandF1F2 f) s) g)) ∧
  (let g : Issue → Operands → Nat := fun _ o => scalNat o.a.bits ||| scalNat o.b.bits
   (∀ f : F0, Scalars s (f.ins 0x3A) (exec (.porF0 f) s) g) ∧
   (∀ f : FX, Scalars s (f.ins 0x3A) (exec (.porF1F2 f) s) g)) ∧
  (let g : Issue → Operands → Nat := fun _ o => scalNat o.a.bits ^^^ scalNat o.b.bits
   (∀ f : F0, Scalars s (f.ins 0x3B) (exec (.pxorF0 f) s) g) ∧
   (∀ f : FX, Scalars s (f.ins 0x3B) (exec (.pxorF1F2 f) s) g)) ∧
  (let g : Issue → Operands → Nat := fun _ o => 2 ^ 64 - 1 - scalNat o.a.bits
   (∀ f : F0, Scalars s (f.ins 0x3C) (exec (.pnotF0 f) s) g) ∧
   (∀ f : FX, Scalars s (f.ins 0x3C) (exec (.pnotF1 f) s) g)) ∧
  (let g : Issue → Operands → Nat := fun i o => if (List.range (count i.b.lanes.width)).any (fun j =>
    active o.mask i.b.lanes.width j && active (lowScal o.a.bits) i.b.lanes.width j) then 2 ^ 64 - 1 else 0
   (∀ f : F0, Scalars s (f.ins 0x3D) (exec (.panyF0 f) s) g) ∧
   (∀ f : FX, Scalars s (f.ins 0x3D) (exec (.panyF1 f) s) g)) ∧
  (let g : Issue → Operands → Nat := fun i o => if (List.range (count i.b.lanes.width)).all (fun j =>
    !active o.mask i.b.lanes.width j || active (lowScal o.a.bits) i.b.lanes.width j) then 2 ^ 64 - 1 else 0
   (∀ f : F0, Scalars s (f.ins 0x3E) (exec (.pallF0 f) s) g) ∧
   (∀ f : FX, Scalars s (f.ins 0x3E) (exec (.pallF1 f) s) g)) ∧
  (let g : Issue → Operands → Nat := fun i o => (List.range (count i.b.lanes.width)).countP fun j =>
    active o.mask i.b.lanes.width j && active (lowScal o.a.bits) i.b.lanes.width j
   (∀ f : F0, Scalars s (f.ins 0x3F) (exec (.pcntF0 f) s) g) ∧
   (∀ f : FX, Scalars s (f.ins 0x3F) (exec (.pcntF1 f) s) g))

/-- R125 to R127 and R130 with R92: `bcast`, `lset`, `perm`, `lrot`, `zip`, `unzip`, `compress`, `expand` and `lidx`; an index at or past the element count gives 0. Whenever the instruction can issue, it answers the next state in which these results have gone to its targets. -/
def Obligations.LaneMoves : Prop := ∀ s : State,
  (let g : Issue → Operands → Nat → Nat := fun i o _ => if o.y i 0 < count i.ins.width then o.x i (o.y i 0) else 0
   (∀ f : F0, Elements s (f.ins 0x40) (exec (.bcastF0 f) s) g) ∧
   (∀ f : FX, Elements s (f.ins 0x40) (exec (.bcastF1F2 f) s) g)) ∧
  (let g : Issue → Operands → Nat → Nat := fun i o j => if j = o.y i 0 then o.c.bits.toNat % 2 ^ i.ins.width else o.x i j
   (∀ f : F0, Elements s (f.ins 0x42) (exec (.lsetF0 f) s) g) ∧
   (∀ f : FX, Elements s (f.ins 0x42) (exec (.lsetF1F2 f) s) g)) ∧
  (let g : Issue → Operands → Nat → Nat := fun i o j => if o.y i j < count i.ins.width then o.x i (o.y i j) else 0
   (∀ f : F0, Elements s (f.ins 0x43) (exec (.permF0 f) s) g) ∧
   (∀ f : FX, Elements s (f.ins 0x43) (exec (.permF1F2 f) s) g)) ∧
  (let g : Issue → Operands → Nat → Nat := fun i o j => o.x i (((j : Int) - sint i.ins.width (o.y i 0)) % (count i.ins.width : Int)).toNat
   (∀ f : F0, Elements s (f.ins 0x44) (exec (.lrotF0 f) s) g) ∧
   (∀ f : FX, Elements s (f.ins 0x44) (exec (.lrotF1F2 f) s) g)) ∧
  (let g : Issue → Operands → Nat → Nat := fun i o j => let h := if i.ins.rm = 1 then count i.ins.width / 2 else 0
    if j % 2 = 0 then o.x i (h + j / 2) else o.y i (h + j / 2)
   (∀ f : F0, Elements s (f.ins 0x45) (exec (.zipF0 f) s) g) ∧
   (∀ f : FX, Elements s (f.ins 0x45) (exec (.zipF1F2 f) s) g)) ∧
  (let g : Issue → Operands → Nat → Nat := fun i o j => let p := if i.ins.rm = 1 then 1 else 0
    let h := count i.ins.width / 2
    if j < h then o.x i (2 * j + p) else o.y i (2 * (j - h) + p)
   (∀ f : F0, Elements s (f.ins 0x46) (exec (.unzipF0 f) s) g) ∧
   (∀ f : FX, Elements s (f.ins 0x46) (exec (.unzipF1F2 f) s) g)) ∧
  (let g : Issue → Operands → Nat → Nat := fun i o j => (((List.range (count i.ins.width)).filter (active (lowScal o.b.bits) i.ins.width)).map (o.x i)).getD j 0
   (∀ f : F0, Elements s (f.ins 0x47) (exec (.compressF0 f) s) g) ∧
   (∀ f : FX, Elements s (f.ins 0x47) (exec (.compressF1F2 f) s) g)) ∧
  (let g : Issue → Operands → Nat → Nat := fun i o j => if active (lowScal o.b.bits) i.ins.width j then
      o.x i ((List.range j).countP (active (lowScal o.b.bits) i.ins.width)) else 0
   (∀ f : F0, Elements s (f.ins 0x48) (exec (.expandF0 f) s) g) ∧
   (∀ f : FX, Elements s (f.ins 0x48) (exec (.expandF1F2 f) s) g)) ∧
  (∀ f : F0, Elements s (f.ins 0x4E) (exec (.lidx f) s) fun _ _ j => j)

/-- R128 with R62: an integer `radd`, `rmax`, `rmin` or `rxor` is the exact sum, the greatest, the least or the exclusive or of the active elements, extended to 64 bits; a float one is the root of the pairwise tree over the active elements, with the flags of its nodes and a NaN canonical, which log 54 reads from R38; with no active element they give 0, the least value or -Inf, the greatest or +Inf. The scalar goes out whatever `pmask` holds. Whenever the instruction can issue, it answers the next state in which these results have gone to its targets. -/
def Obligations.Reductions : Prop := ∀ s : State,
  (let int : Issue → Operands → Nat := fun i o => wrap 64 (o.activeInts i).sum
   let f : Issue → Nat → Nat → Nat × FlagSet := fun i x y => i.fmt.addF i.ins.rm (i.fmt.value x) (i.fmt.value y)
   let z : Issue → Nat := fun _ => 0
   (∀ f0 : F0, Reduces s (f0.ins 0x49) (exec (.raddF0 f0) s) int f z) ∧ ∀ f1 : FX, Reduces s (f1.ins 0x49) (exec (.raddF1 f1) s) int f z) ∧
  (let int : Issue → Operands → Nat := fun i o => wrap 64 ((o.activeInts i).foldl max (etyLeast i.ins.ty i.ins.width))
   let f : Issue → Nat → Nat → Nat × FlagSet := fun i => i.fmt.pick true
   let z : Issue → Nat := fun i => i.fmt.infinity true
   (∀ f0 : F0, Reduces s (f0.ins 0x4A) (exec (.rmaxF0 f0) s) int f z) ∧ ∀ f1 : FX, Reduces s (f1.ins 0x4A) (exec (.rmaxF1 f1) s) int f z) ∧
  (let int : Issue → Operands → Nat := fun i o => wrap 64 ((o.activeInts i).foldl min (etyGreatest i.ins.ty i.ins.width))
   let f : Issue → Nat → Nat → Nat × FlagSet := fun i => i.fmt.pick false
   let z : Issue → Nat := fun i => i.fmt.infinity false
   (∀ f0 : F0, Reduces s (f0.ins 0x4B) (exec (.rminF0 f0) s) int f z) ∧ ∀ f1 : FX, Reduces s (f1.ins 0x4B) (exec (.rminF1 f1) s) int f z) ∧
  (let g : Issue → Operands → Nat := fun i o => ((List.range (count i.ins.width)).map fun j => if o.act i j then o.x i j else 0).foldr (fun a b => a ^^^ b) 0
   (∀ f : F0, Scalars s (f.ins 0x4C) (exec (.rxorF0 f) s) g) ∧
   (∀ f : FX, Scalars s (f.ins 0x4C) (exec (.rxorF1 f) s) g))

/-- R125, R129 and R131 with R63 and R92: `scan` gives in every active element the sum of the active elements up to it, or what the float network gives with a NaN canonical (log 54); `lget` gives element idx of A extended by the sign of the type, or 0 past the end, as a scalar that `pmask` governs; `dot4` gives four exact byte products per 32-bit lane. Whenever the instruction can issue, it answers the next state in which these results have gone to its targets. -/
def Obligations.LaneScalars : Prop := ∀ s : State,
  (∀ f : F0, Scans s (f.ins 0x4D) (exec (.scanF0 f) s)) ∧ (∀ f : FX, Scans s (f.ins 0x4D) (exec (.scanF1 f) s)) ∧
  (let g : Issue → Operands → Nat → Nat := fun i o _ =>
     if o.y i 0 < count i.ins.width then wrap 64 (etyInteger i.ins.ty i.ins.width (o.x i (o.y i 0))) else 0
   (∀ f : F0, Widened s (f.ins 0x41) (exec (.lgetF0 f) s) 64 1 g) ∧ (∀ f : FX, Widened s (f.ins 0x41) (exec (.lgetF1F2 f) s) 64 1 g)) ∧
  (let g : Issue → Operands → Nat → Nat := fun i o j =>
     let p := fun k => etyInteger i.ins.ty 8 (getE 8 o.a.bits (4 * j + k)) * etyInteger i.ins.ty 8 (getE 8 o.b.bits (4 * j + k))
     wrap 32 (p 0 + p 1 + p 2 + p 3)
   (∀ f : F0, Widened s (f.ins 0x4F) (exec (.dot4F0 f) s) 32 16 g) ∧ (∀ f : FX, Widened s (f.ins 0x4F) (exec (.dot4F1F2 f) s) 32 16 g))

/-- R137 and R144 with R92: each active element is the sum, product or fused form of the decoded elements in the format of the type under the rounding mode, with the flags that this raises; `bscl` multiplies by the block scale of its 32 bytes. Whenever the instruction can issue, it answers the next state in which these results have gone to its targets. -/
def Obligations.FloatArithmetic : Prop := ∀ s : State,
  (let g : Issue → Operands → Nat → Nat × FlagSet := fun i o j => i.fmt.addF i.ins.rm (o.vx i j) (o.vy i j)
   (∀ f : F0, FloatElements s (f.ins 0x50) (exec (.faddF0 f) s) g) ∧
   (∀ f : FX, FloatElements s (f.ins 0x50) (exec (.faddF1F2 f) s) g)) ∧
  (let g : Issue → Operands → Nat → Nat × FlagSet := fun i o j => i.fmt.addF i.ins.rm (o.vx i j) (o.vy i j).neg
   (∀ f : F0, FloatElements s (f.ins 0x51) (exec (.fsubF0 f) s) g) ∧
   (∀ f : FX, FloatElements s (f.ins 0x51) (exec (.fsubF1F2 f) s) g)) ∧
  (let g : Issue → Operands → Nat → Nat × FlagSet := fun i o j => i.fmt.mulF i.ins.rm (o.vx i j) (o.vy i j)
   (∀ f : F0, FloatElements s (f.ins 0x52) (exec (.fmulF0 f) s) g) ∧
   (∀ f : FX, FloatElements s (f.ins 0x52) (exec (.fmulF1F2 f) s) g)) ∧
  (let g : Issue → Operands → Nat → Nat × FlagSet := fun i o j => i.fmt.fmaF i.ins.rm (o.vx i j) (o.vy i j) (o.vz i j)
   (∀ f : F0, FloatElements s (f.ins 0x53) (exec (.fmaF0 f) s) g) ∧
   (∀ f : FX, FloatElements s (f.ins 0x53) (exec (.fmaF1F2 f) s) g)) ∧
  (let g : Issue → Operands → Nat → Nat × FlagSet := fun i o j => i.fmt.fmaF i.ins.rm (o.vx i j) (o.vy i j) (o.vz i j).neg
   (∀ f : F0, FloatElements s (f.ins 0x54) (exec (.fmsF0 f) s) g) ∧
   (∀ f : FX, FloatElements s (f.ins 0x54) (exec (.fmsF1F2 f) s) g)) ∧
  (let g : Issue → Operands → Nat → Nat × FlagSet := fun i o j => i.fmt.fmaF i.ins.rm (o.vx i j).neg (o.vy i j) (o.vz i j)
   (∀ f : F0, FloatElements s (f.ins 0x55) (exec (.fnmaF0 f) s) g) ∧
   (∀ f : FX, FloatElements s (f.ins 0x55) (exec (.fnmaF1F2 f) s) g)) ∧
  (let g : Issue → Operands → Nat → Nat × FlagSet := fun i o j => let e := getE 8 o.b.bits (j / 32)
    if e = 0xFF then (i.fmt.canonNaN, fNV) else i.fmt.mulF i.ins.rm (o.vx i j) (e8m0Value e)
   (∀ f : F0, FloatElements s (f.ins 0x6B) (exec (.bsclF0 f) s) g) ∧
   (∀ f : FX, FloatElements s (f.ins 0x6B) (exec (.bsclF1F2 f) s) g))

/-- R138 with R92: `fmin` and `fmax` take the lesser or greater element, `fabs`, `fneg` and `fcsgn` change the sign alone and give the canonical NaN for a NaN,
and `fclamp` is the minimum of C and the maximum of A and B with a NaN bound left out, and a signalling NaN raises invalid. Whenever the instruction can issue, it answers the next state in which these results have gone to its targets. -/
def Obligations.FloatSelection : Prop := ∀ s : State,
  (let g : Issue → Operands → Nat → Nat × FlagSet := fun i o j => i.fmt.pick false (o.x i j) (o.y i j)
   (∀ f : F0, FloatElements s (f.ins 0x56) (exec (.fminF0 f) s) g) ∧
   (∀ f : FX, FloatElements s (f.ins 0x56) (exec (.fminF1F2 f) s) g)) ∧
  (let g : Issue → Operands → Nat → Nat × FlagSet := fun i o j => i.fmt.pick true (o.x i j) (o.y i j)
   (∀ f : F0, FloatElements s (f.ins 0x57) (exec (.fmaxF0 f) s) g) ∧
   (∀ f : FX, FloatElements s (f.ins 0x57) (exec (.fmaxF1F2 f) s) g)) ∧
  (let g : Issue → Operands → Nat → Nat × FlagSet := fun i o j => (i.fmt.withSign false (o.x i j), snan [(o.vx i j)])
   (∀ f : F0, FloatElements s (f.ins 0x58) (exec (.fabsF0 f) s) g) ∧
   (∀ f : FX, FloatElements s (f.ins 0x58) (exec (.fabsF1 f) s) g)) ∧
  (let g : Issue → Operands → Nat → Nat × FlagSet := fun i o j => (i.fmt.withSign (!i.fmt.sign (o.x i j)) (o.x i j), snan [(o.vx i j)])
   (∀ f : F0, FloatElements s (f.ins 0x59) (exec (.fnegF0 f) s) g) ∧
   (∀ f : FX, FloatElements s (f.ins 0x59) (exec (.fnegF1 f) s) g)) ∧
  (let g : Issue → Operands → Nat → Nat × FlagSet := fun i o j => (i.fmt.withSign (i.fmt.sign (o.y i j)) (o.x i j), snan [(o.vx i j), (o.vy i j)])
   (∀ f : F0, FloatElements s (f.ins 0x6E) (exec (.fcsgnF0 f) s) g) ∧
   (∀ f : FX, FloatElements s (f.ins 0x6E) (exec (.fcsgnF1F2 f) s) g)) ∧
  (let g : Issue → Operands → Nat → Nat × FlagSet := fun i o j => let low := if (o.vy i j).isNaN then o.x i j else (i.fmt.pick true (o.x i j) (o.y i j)).1
     (if (o.vx i j).isNaN then i.fmt.canonNaN else if (o.vz i j).isNaN then low else (i.fmt.pick false low (o.z i j)).1,
      snan [o.vx i j, o.vy i j, o.vz i j])
   (∀ f : F0, FloatElements s (f.ins 0x6D) (exec (.fclampF0 f) s) g) ∧
   (∀ f : FX, FloatElements s (f.ins 0x6D) (exec (.fclampF1F2 f) s) g))

/-- R139 with R92: a relation with a NaN is false but for `fun`; `flt` and `fle` raise invalid for any NaN, `feq` and `fun` for a signalling one. Whenever the instruction can issue, it answers the next state in which these results have gone to its targets. -/
def Obligations.FloatCompares : Prop := ∀ s : State,
  (let g : Issue → Operands → Nat → Bool × FlagSet := fun i o j => ((o.vx i j).eq (o.vy i j), snan [(o.vx i j), (o.vy i j)])
   (∀ f : F0, Masks s (f.ins 0x5A) (exec (.feqF0 f) s) g) ∧
   (∀ f : FX, Masks s (f.ins 0x5A) (exec (.feqF1F2 f) s) g)) ∧
  (let g : Issue → Operands → Nat → Bool × FlagSet := fun i o j => ((o.vx i j).lt (o.vy i j), flagIf ((o.vx i j).isNaN || (o.vy i j).isNaN) fNV)
   (∀ f : F0, Masks s (f.ins 0x5B) (exec (.fltF0 f) s) g) ∧
   (∀ f : FX, Masks s (f.ins 0x5B) (exec (.fltF1F2 f) s) g)) ∧
  (let g : Issue → Operands → Nat → Bool × FlagSet := fun i o j => ((o.vx i j).lt (o.vy i j) || (o.vx i j).eq (o.vy i j), flagIf ((o.vx i j).isNaN || (o.vy i j).isNaN) fNV)
   (∀ f : F0, Masks s (f.ins 0x5C) (exec (.fleF0 f) s) g) ∧
   (∀ f : FX, Masks s (f.ins 0x5C) (exec (.fleF1F2 f) s) g)) ∧
  (let g : Issue → Operands → Nat → Bool × FlagSet := fun i o j => ((o.vx i j).isNaN || (o.vy i j).isNaN, snan [(o.vx i j), (o.vy i j)])
   (∀ f : F0, Masks s (f.ins 0x5D) (exec (.funF0 f) s) g) ∧
   (∀ f : FX, Masks s (f.ins 0x5D) (exec (.funF1F2 f) s) g))

/-- R140 to R143 with R92: `frcp`, `frsq`, `fexp2` and `flog2` compute the seed, `frcpr` and `frsqr` the refinement step, `frnd` the integral value that the mode chooses, `fscl` the scaled value and `fclass` one class bit. Whenever the instruction can issue, it answers the next state in which these results have gone to its targets. -/
def Obligations.FloatSeeds : Prop := ∀ s : State,
  (let g : Issue → Operands → Nat → Nat × FlagSet := fun i o j => i.fmt.seed .rcp (o.x i j)
   (∀ f : F0, FloatElements s (f.ins 0x5F) (exec (.frcpF0 f) s) g) ∧
   (∀ f : FX, FloatElements s (f.ins 0x5F) (exec (.frcpF1 f) s) g)) ∧
  (let g : Issue → Operands → Nat → Nat × FlagSet := fun i o j => i.fmt.seed .rsq (o.x i j)
   (∀ f : F0, FloatElements s (f.ins 0x60) (exec (.frsqF0 f) s) g) ∧
   (∀ f : FX, FloatElements s (f.ins 0x60) (exec (.frsqF1 f) s) g)) ∧
  (let g : Issue → Operands → Nat → Nat × FlagSet := fun i o j => i.fmt.seed .exp2 (o.x i j)
   (∀ f : F0, FloatElements s (f.ins 0x63) (exec (.fexp2F0 f) s) g) ∧
   (∀ f : FX, FloatElements s (f.ins 0x63) (exec (.fexp2F1 f) s) g)) ∧
  (let g : Issue → Operands → Nat → Nat × FlagSet := fun i o j => i.fmt.seed .log2 (o.x i j)
   (∀ f : F0, FloatElements s (f.ins 0x64) (exec (.flog2F0 f) s) g) ∧
   (∀ f : FX, FloatElements s (f.ins 0x64) (exec (.flog2F1 f) s) g)) ∧
  (let g : Issue → Operands → Nat → Nat × FlagSet := fun i o j => i.fmt.refine false i.ins.rm (o.x i j) (o.y i j)
   (∀ f : F0, FloatElements s (f.ins 0x61) (exec (.frcprF0 f) s) g) ∧
   (∀ f : FX, FloatElements s (f.ins 0x61) (exec (.frcprF1F2 f) s) g)) ∧
  (let g : Issue → Operands → Nat → Nat × FlagSet := fun i o j => i.fmt.refine true i.ins.rm (o.x i j) (o.y i j)
   (∀ f : F0, FloatElements s (f.ins 0x62) (exec (.frsqrF0 f) s) g) ∧
   (∀ f : FX, FloatElements s (f.ins 0x62) (exec (.frsqrF1F2 f) s) g)) ∧
  (let g : Issue → Operands → Nat → Nat × FlagSet := fun i o j => match o.vx i j with
      | .fin neg n e => ((i.fmt.round 1 neg (roundInt (scaleQ n 1 e).1 (scaleQ n 1 e).2 i.ins.rm neg) 1).1, fNone)
      | v => ((i.fmt.ofVal 0 v).1, snan [v])
   (∀ f : F0, FloatElements s (f.ins 0x65) (exec (.frndF0 f) s) g) ∧
   (∀ f : FX, FloatElements s (f.ins 0x65) (exec (.frndF1 f) s) g)) ∧
  (let g : Issue → Operands → Nat → Nat × FlagSet := fun i o j => i.fmt.ofVal i.ins.rm (match o.vx i j with
      | .fin neg n e => .fin neg n (e + max (-1000) (min 1000 (sint i.ins.width (o.y i j))))
      | v => v)
   (∀ f : F0, FloatElements s (f.ins 0x66) (exec (.fsclF0 f) s) g) ∧
   (∀ f : FX, FloatElements s (f.ins 0x66) (exec (.fsclF1F2 f) s) g)) ∧
  (let g : Issue → Operands → Nat → Nat := fun i o j => 2 ^ i.fmt.classBit (o.x i j)
   (∀ f : F0, Elements s (f.ins 0x5E) (exec (.fclassF0 f) s) g) ∧
   (∀ f : FX, Elements s (f.ins 0x5E) (exec (.fclassF1 f) s) g))

/-- R147 to R152 with R92: destination element j of `cvt` is the conversion of the source element that the widths and the group index choose, or zero where none is chosen; element k of `cvts` is rounded with field k of the random bits, invalid where the head is no RAND token; `cbdec` decodes eight weights an index. Whenever the instruction can issue, it answers the next state in which these results have gone to its targets. -/
def Obligations.Conversions : Prop := ∀ s : State,
  (∀ f : FX, f.ety.toNat < 18 → FloatElements s (f.ins 0x67) (exec (.cvt f) s) fun i o j =>
    let src := i.ins.srcB % 32
    let ws := (etyWidth src).getD 8
    let conv := fun k => convElem src ws i.ins.ty i.ins.width i.ins.rm (getE ws o.a.bits k)
    if ws = 64 ∨ i.ins.width = 64 then (if j = 0 then conv 0 else (0, fNone))
    else if ws < i.ins.width then conv (i.ins.stkB * (512 / i.ins.width) + j)
    else if i.ins.stkB * (512 / ws) ≤ j ∧ j < i.ins.stkB * (512 / ws) + 512 / ws then conv (j - i.ins.stkB * (512 / ws))
    else (0, fNone)) ∧
  (∀ f : FX, f.ety.toNat < 18 → ∀ i o, Ready s (f.ins 0x68) i o →
    let src := cvtsSource f.rm.toNat
    let m := 512 / src.w
    let g := fun k => if k < m then i.fmt.stochastic src (getE src.w o.a.bits k) (getE src.w o.b.bits k) else (0, fNone)
    let rand : Bool := i.g.firing.any fun x => (x.entry (Ins.srcCode i.ins.srcB - 72) 0).kind == kRAND
    ∃ r : Res, exec (.cvts f) s = .next (s.results i o r) ∧ r.out1 = r.out ∧
      r.flags = orFlags (((List.range (count i.ins.width)).filter (o.act i)).map g) ||| flagIf (!rand) fNV ∧
      ByElement i.ins.width (count i.ins.width) (o.act i) (fun j => (g j).1) r) ∧
  (∀ f : FX, FloatElements s (f.ins 0x6A) (exec (.cbdec f) s) fun i o j => if j / 8 < (if i.ins.width = 8 then 8 else 4) then
      cbValue i.ins.ty i.ins.rm ((decodeLC2 (getE 16 o.a.bits (j / 8)) (getE 32 o.b.bits (j / 8))).getD (j % 8) 0)
     else (0, fNone))

/-- R145 and R146 with R64 and R92: `fdot` adds the exact products of the active pairs and the f32 accumulator and rounds once; `fsum2` sends the rounded sum to T0 and the error to T1, +0 where the sum is infinite or NaN, with the flags of the sum only. Whenever the instruction can issue, it answers the next state in which these results have gone to its targets. -/
def Obligations.DotAndTwoSum : Prop := ∀ s : State,
  (let g : Ins → Answer → Prop := fun ins e => ∀ i o, Ready s ins i o →
     let prods := ((List.range (512 / i.ins.width)).filter (o.act i)).map fun j => (o.vx i j).mul (o.vy i j)
     let c := fmtF32.value (o.c.bits.toNat % 2 ^ 32)
     let sum := (sumVals i.ins.rm (prods.map Prod.fst ++ [c])).1
     ∃ r : Res, e = .next (s.results i o r) ∧ r.out = scal (fmtF32.ofVal i.ins.rm sum).1 ∧ r.out1 = r.out ∧ r.keep = 0
   (∀ f : F0, g (f.ins 0x69) (exec (.fdotF0 f) s)) ∧ (∀ f : FX, g (f.ins 0x69) (exec (.fdotF1F2 f) s))) ∧
  (let g : Ins → Answer → Prop := fun ins e => ∀ i o, Ready s ins i o → stdWidth i.ins.width →
     let sum := fun j => i.fmt.addF 0 (o.vx i j) (o.vy i j)
     let err := fun j => match i.fmt.value (sum j).1 with
       | .fin _ _ _ => (i.fmt.ofVal 0 (sumVals 0 [(sumVals 0 [o.vx i j, o.vy i j]).1, (i.fmt.value (sum j).1).neg]).1).1
       | _ => 0
     ∃ r : Res, e = .next (s.results i o r) ∧
       r.flags = orFlags (((List.range (count i.ins.width)).filter (o.act i)).map sum) ∧
       ByElement i.ins.width (count i.ins.width) (o.act i) (fun j => (sum j).1) r ∧
       ByElement i.ins.width (count i.ins.width) (o.act i) err ⟨r.out1, r.out1, r.keep, r.flags⟩
   (∀ f : F0, g (f.ins 0x6C) (exec (.fsum2F0 f) s)) ∧ (∀ f : FX, g (f.ins 0x6C) (exec (.fsum2F1F2 f) s)))

/-- R153 and R161 to R165, R413 and R414: whenever an exit can issue, it answers the next state in which its instruction has fired and
its transfer of control is noted in the block: to the offset of `br`, `call` or a `loopn` whose count is above 1, to the address that
`bri` or `ret` is given, to the next block where the count of `loopn` is used up, to the end of the firing for `fend` and `eret`, and
to a stop of the thread for `halt`. `call` sends the address of the next block, and `loopn` the count less one, which a slot of its own
block gets for later entries only, where it is sticky. -/
def Obligations.ExitsWaitForCommit : Prop := ∀ s : State,
  let leaves : Issue → ExitTo → Block → Block := fun i x b =>
    { b.setStat i.idx .fired with exits := b.exits ++ [(i.idx, x)] }
  let offset : Issue → Int → ExitTo := fun i d => .block (wrap 64 ((i.b.addr : Int) + d))
  let next : Issue → Nat := fun i => ((i.b.addr + 16 + 4 * (i.b.hdr.extractLsb' 13 8).toNat + 15) / 16 * 16) % 2 ^ 64
  let sends : Issue → Operands → Nat → ExitTo → State := fun i o v x =>
    ((s.issued i o).deliver i ⟨scal v, o.dep⟩ ⟨scal v, o.dep⟩ 0).updBlock i.aid (leaves i x)
  let loops : Ins → Answer → Prop := fun ins e => ∀ i o, Ready s ins i o →
    let x := if scalNat o.a.bits > 1 then offset i (16 * i.ins.immediate) else .block (next i)
    (∀ c, Target.of i.ins.t0 = .reg c → e = .next (sends i o (scalNat o.a.bits - 1) x)) ∧
    (∀ slot j, Target.of i.ins.t0 = .slot slot j →
      let k := ((i.b.insAt j).map fun c => c.stkOf slot).getD 0
      e = .next (((s.issued i o).updBlock i.aid fun b => { b.setStat i.idx .fired with
        sticky := if k = 0 then b.sticky
          else (b.sticky.filter fun y => !(y.1 == j && y.2.1 == slot)) ++ [(j, slot, k, ⟨scal (scalNat o.a.bits - 1), o.dep⟩)] }).updBlock
        i.aid (leaves i x)))
  (∀ f : FX, Records s (f.ins 0x70) (exec (.br f) s) fun i _ => leaves i (offset i i.ins.offset)) ∧
  (∀ f : FX, Records s (f.ins 0x71) (exec (.bri f) s) fun i o => leaves i (.block (scalNat o.a.bits))) ∧
  (∀ f : F0, Records s (f.ins 0x73) (exec (.ret f) s) fun i o => leaves i (.block (scalNat o.a.bits))) ∧
  (∀ f : F0, Records s (f.ins 0x74) (exec (.fend f) s) fun i _ => leaves i .done) ∧
  (∀ f : F0, Records s (f.ins 0xDF) (exec (.halt f) s) fun i _ => leaves i .halt) ∧
  (∀ f : FX, ∀ i o, Ready s (f.ins 0x72) i o →
    exec (.call f) s = .next (sends i o (next i) (offset i i.ins.offset))) ∧
  (∀ f : FI, loops (f.ins 0x75) (exec (.loopnFi f) s)) ∧ (∀ f : FX, loops (f.ins 0x75) (exec (.loopnF2 f) s)) ∧
  (∀ f : F0, ∀ i o, Ready s (f.ins 0xD5) i o → ∃ t e, exec (.eret f) s = .next t ∧
    t = (s.issued i o).updBlock i.aid (fun b => leaves i .done { b with effects := b.effects ++ [(i.idx, .sys e (i.follows o))] }) ∧
    e.op = 0xD5 ∧ e.a = o.a.bits.toNat / 2 ^ 384 % 2 ^ 64)

/-- R166: `trap` and `brk` take the exception SOFTWARE or BREAK, precise at their block, with their sign-extended code in the VA field of
the record; in the entry that resumes a block which they suspended, they decline. -/
def Obligations.SoftwareTraps : Prop := ∀ s : State,
  let takes : Ins → Answer → Nat → Prop := fun ins e cause => ∀ i o, Ready s ins i o →
    (i.b.noTrap = false → e = .next ((s.issued i o).takeTrap i.aid cause i.idx i.b.addr (wrap 64 i.ins.immediate) 0)) ∧
    (i.b.noTrap = true → e = .next ((s.issued i o).updBlock i.aid fun b => b.setStat i.idx .declined))
  (∀ f : FI, takes (f.ins 0x76) (exec (.trap f) s) 0x20) ∧ ∀ f : FI, takes (f.ins 0x7D) (exec (.brk f) s) 0x21

/-- R167 to R170: `nop` fires and has no effect. `mfs` sends the value that its selector names, and `.flagsc` also notes that the flags
are cleared at commit. `tick` sends the package tick as it stands at issue. `rdr` waits while the register that A names has a write
pending, raises ILLEGAL_TARGET for a code that is reserved, undeclared or outside the inbound mask, and otherwise sends that register. -/
def Obligations.ReadsOfState : Prop := ∀ s : State,
  (∀ f : F0, Records s (f.ins 0x77) (exec (.nop f) s) fun i _ b => b.setStat i.idx .fired) ∧
  (∀ f : F0, ∀ i o, Ready s (f.ins 0x7A) i o →
    exec (.tick f) s = .next ((s.issued i o).deliver i ⟨scal s.clk.tick, o.dep⟩ ⟨scal s.clk.tick, o.dep⟩ 0)) ∧
  (∀ f : FI, ∀ i o, Ready s (f.ins 0x79) i o → ∃ v, exec (.mfs f) s = .next
      ((if f.imm = 11 then (s.issued i o).updBlock i.aid (fun b => { b with effects := b.effects ++ [(i.idx, .flagsClear)] })
        else s.issued i o).deliver i ⟨scal v, o.dep⟩ ⟨scal v, o.dep⟩ 0) ∧
    (f.imm = 0 → v = (i.g.fidx + i.g.older.length) % 2 ^ 64) ∧
    (f.imm = 1 → i.aid.isThread = false → v = 0) ∧ (f.imm = 1 → i.aid.isThread = true → v = i.g.cu) ∧
    (f.imm = 2 → v = i.g.vq) ∧ (f.imm = 6 → v = i.g.die) ∧ (f.imm = 7 → v = s.out.pod.index) ∧ (f.imm = 8 → v = i.g.ctx) ∧
    (f.imm = 3 → i.aid.isThread = false → v = i.g.cu) ∧ (f.imm = 3 → i.aid.isThread = true → v = 0) ∧
    (f.imm = 4 → v = if i.g.mode = .win then i.g.slot else 0) ∧
    (f.imm = 5 → i.aid.isThread = false → v = i.g.row * 2 ^ 16 + i.g.col) ∧ (f.imm = 5 → i.aid.isThread = true → v = 0) ∧
    (f.imm = 9 → i.aid.rid = none → v = i.g.runInc) ∧
    (f.imm = 9 → ∀ rid r, i.aid.rid = some rid → Tab.get? s.sched.regions rid = some r → v = r.inc) ∧
    (f.imm = 10 ∨ f.imm = 11 → v = i.g.flags.toNat) ∧ (f.imm = 12 → v = (i.b.hdr.extractLsb' 48 8).toNat)) ∧
  (∀ f : FX, ∀ i o, Ready s (f.ins 0x78) i o →
    let x := scalNat o.a.bits
    let mask := (i.b.hdr.extractLsb' 29 8).toNat
    let good := x < 56 ∨ (64 ≤ x ∧ x < 72 ∧ (i.g.delayHead x).isSome) ∨ (72 ≤ x ∧ x < 80 ∧ mask.testBit (x - 72))
    (¬ good → exec (.rdr f) s = .next ((s.issued i o).takeTrap i.aid 0x03 i.idx i.b.addr 0 (i.b.word0 i.idx))) ∧
    (good → i.g.isPending x = true → exec (.rdr f) s = .next s) ∧
    (good → i.g.isPending x = false → i.g.lineReady x (i.g.older.length + 1) i.g.older.length = true → ∀ v, i.g.source x = some v →
      exec (.rdr f) s = .next (((s.issued i o).updBlock i.aid fun b => { b with readExc := b.readExc || headExc i.g true (128 + x) }).deliver i
        ⟨v.bits, unionDep o.dep v.dep⟩ ⟨v.bits, unionDep o.dep v.dep⟩ 0)))

/-- R171 and R409: `twait` and `swait` issue and wait for their deadline, which is A, or the tick at issue plus A under `.rel`. A waiting
`twait` whose deadline the tick has reached fires with the tick, and a waiting `swait` whose deadline it has reached, or whose call
queue holds two or more entries, fires with the number of entries held. -/
def Obligations.WaitsForATick : Prop := ∀ s : State,
  let waits : Ins → Answer → (Operands → Nat) → Prop := fun ins e w => ∀ i o, Ready s ins i o →
    e = .next ((s.issued i o).updAgent i.aid fun g => { g with
      deadline := Tab.set g.deadline i.idx (w o, o.dep)
      block := g.block.map fun b => b.setStat i.idx .issued })
  (∀ f : F0, waits (f.ins 0x7B) (exec (.twaitF0 f) s) fun o => scalNat o.a.bits) ∧
  (∀ f : FX, waits (f.ins 0x7B) (exec (.twaitF1 f) s) fun o =>
    if f.rm = 1 then (s.clk.tick + scalNat o.a.bits) % 2 ^ 64 else scalNat o.a.bits) ∧
  (∀ f : F0, waits (f.ins 0xD2) (exec (.swaitF0 f) s) fun o => scalNat o.a.bits) ∧
  (∀ f : FX, waits (f.ins 0xD2) (exec (.swaitF1 f) s) fun o => scalNat o.a.bits) ∧
  (∀ a g b j w dep ins, s.agent? a = some g → g.block = some b → s.agentAlive a = true → b.insAt j = some ins →
    g.deadline = [(j, w, dep)] →
    let fires := fun (n : Nat) => (s.updAgent a fun g => { g with deadline := [] }).deliver ⟨a, g, b, j, ins⟩ ⟨scal n, dep⟩ ⟨scal n, dep⟩ 0
    (ins.op = 0x7B → w ≤ s.clk.tick → exec (.twaitDeadline a) s = .next (fires s.clk.tick)) ∧
    (ins.op = 0x7B → s.clk.tick < w → exec (.twaitDeadline a) s = .next s) ∧
    (∀ d t, a = .thread d t → ins.op = 0xD2 →
      let held := (s.callQueue d t).items.length
      (w ≤ s.clk.tick ∨ 2 ≤ held → exec (.swaitWake a) s = .next (fires held)) ∧
      (s.clk.tick < w → held < 2 → exec (.swaitWake a) s = .next s)))

/-- R172, R228 to R232 and R19: whenever the instruction can issue, it answers the next state in which it has fired and its record is
noted once for each outbound port that it targets: DATA of weight 1.0 for a computed `put`, the entry itself for a forwarding one,
with the time of B under `.t`, the key, weight and wsat bit of B and C for `putk`, and the control tokens with the fields that their
entries name. A weight that reads as zero, and an invalid gap record, put nothing and raise invalid; a DRAIN is not forwarded. -/
def Obligations.PutsWaitForCommit : Prop := ∀ s : State,
  let puts : Issue → (Nat → Record) → Block → Block := fun i r b =>
    { b.setStat i.idx .fired with effects := b.effects ++ (i.ins.ports.map fun p => (i.idx, .put p (r p))) }
  let token : Nat → Record := fun k => ⟨0, k, 0, 0, 0, false, 0, false, false, false, []⟩
  let data : Vec → Nat → Record := fun p time => ⟨p, 0, 0x7C00, time, 0, false, 0, false, false, false, []⟩
  let masked : Issue → Operands → Vec → Vec := fun i o p =>
    if i.ins.form = .f0 then p else maskPayload i.ins.width o.mask p
  (∀ f : F0, ∀ i o, Ready s (f.ins 0x7C) i o →
    ∃ t, exec (.nullF0 f) s = .next t ∧ t.blockOf i.aid =
      ((s.issued i o).blockOf i.aid).map (puts i fun p => { token 8 with time := i.g.putTime p })) ∧
  (∀ f : F0, ∀ i o, Ready s (f.ins 0x80) i o →
    ∃ t, exec (.putF0 f) s = .next t ∧ t.blockOf i.aid =
      ((s.issued i o).blockOf i.aid).map (puts i fun p => data o.a.bits (i.g.putTime p))) ∧
  (∀ f : FX, ∀ i o, Ready s (f.ins 0x80) i o → f.lit = none →
    let timed := f.rm = 1
    let port := f.srcA.toNat % 128
    let entry := i.entry (if timed then 0 else f.stkB.toNat)
    let forwards := 128 ≤ f.srcA.toNat ∧ 72 ≤ port ∧ port < 80
    (¬ forwards → ∃ t, exec (.putF1 f) s = .next t ∧ t.blockOf i.aid = ((s.issued i o).blockOf i.aid).map
      (puts i fun p => data (masked i o o.a.bits) (if timed then scalNat o.b.bits % 2 ^ 32 else i.g.putTime p))) ∧
    (forwards → entry.kind ≠ 5 → ∃ t, exec (.putF1 f) s = .next t ∧ t.blockOf i.aid = ((s.issued i o).blockOf i.aid).map
      fun b => { puts i (fun _ => { entry with
          payload := masked i o entry.payload, time := if timed then scalNat o.b.bits % 2 ^ 32 else entry.time, sr := [] }) b with
        readExc := b.readExc || entry.exc }) ∧
    (forwards → entry.kind = 5 → ∃ t, exec (.putF1 f) s = .next t ∧ t.blockOf i.aid = ((s.issued i o).blockOf i.aid).map
      fun b => { b.setStat i.idx .fired with readExc := b.readExc || entry.exc })) ∧
  (∀ f : FX, ∀ i o, Ready s (f.ins 0x81) i o →
    let w := scalNat o.c.bits % 2 ^ 16
    ((wt16Value w).isZero = true → ∃ t, exec (.putk f) s = .next t ∧ t.blockOf i.aid = ((s.issued i o).blockOf i.aid).map
      fun b => { b.setStat i.idx .fired with flags := b.flags ||| fNV }) ∧
    ((wt16Value w).isZero = false → ∃ t, exec (.putk f) s = .next t ∧ t.blockOf i.aid = ((s.issued i o).blockOf i.aid).map
      (puts i fun p => ⟨maskPayload i.ins.width o.mask o.a.bits, 0, w, i.g.putTime p, scalNat o.b.bits % 2 ^ 32, true, 0, false, false,
        (scalNat o.c.bits).testBit 16, []⟩))) ∧
  (∀ f : FX, ∀ i o, Ready s (f.ins 0x86) i o →
    let g := Gap.ofRecord { token 8 with payload := o.a.bits }
    let bad := g.lost = 0 ∨ g.cause ∉ [1, 2, 4, 5, 6, 7, 8, 9, 10] ∨ badLostw g.lostw = true ∨ (g.kr = true ∧ g.kmax < g.kmin) ∨
      g.tmax < g.tmin
    (bad → ∃ t, exec (.gap f) s = .next t ∧ t.blockOf i.aid = ((s.issued i o).blockOf i.aid).map
      fun b => { b.setStat i.idx .fired with flags := b.flags ||| fNV }) ∧
    (¬ bad → ∃ t, exec (.gap f) s = .next t ∧ t.blockOf i.aid = ((s.issued i o).blockOf i.aid).map
      (puts i fun _ => { g with kmin := if g.kr then g.kmin else 0, kmax := if g.kr then g.kmax else 0 : Gap }.record))) ∧
  (let tokens : Ins → Answer → (Operands → Record) → Prop := fun ins e r => ∀ i o, Ready s ins i o →
      ∃ t, e = .next t ∧ t.blockOf i.aid = ((s.issued i o).blockOf i.aid).map (puts i fun _ => r o)
   (∀ f : F0, tokens (f.ins 0x8A) (exec (.wcloseF0 f) s) fun o => { token 2 with time := scalNat o.a.bits % 2 ^ 32 }) ∧
   (∀ f : FX, tokens (f.ins 0x8A) (exec (.wcloseF1 f) s) fun o => { token 2 with time := scalNat o.a.bits % 2 ^ 32 }) ∧
   (∀ f : FX, tokens (f.ins 0x8B) (exec (.eof f) s) fun o => { token 3 with lvl := scalNat o.b.bits % 8 }) ∧
   (∀ f : FX, tokens (f.ins 0x8B) (exec (.eofEnd f) s) fun _ => token 9) ∧
   (∀ f : F0, tokens (f.ins 0x8C) (exec (.swapF0 f) s) fun _ => token 4) ∧
   (∀ f : FX, tokens (f.ins 0x8C) (exec (.swapF1 f) s) fun _ => token 4))

/-- R227: the four readers send the key and kv bit, the weight and wsat bit, the time, or the kind, sideband or payload of the entry that
they name, and note the exc bit of that entry. -/
def Obligations.EntryReads : Prop := ∀ s : State,
  let reads : FX → Ins → Answer → (Record → Vec) → Prop := fun f ins e v => ∀ i o, Ready s ins i o →
    let r := match i.g.firing with
      | some x => x.entry (f.srcA.toNat % 128 - 72) f.stkB.toNat
      | none => .null
    e = .next (((s.issued i o).updBlock i.aid fun b => { b with readExc := b.readExc || r.exc }).deliver i
      ⟨v r, o.dep⟩ ⟨v r, o.dep⟩ 0)
  (∀ f : FX, reads f (f.ins 0x82) (exec (.kget f) s) fun r => scal (r.key + if r.kv then 2 ^ 32 else 0)) ∧
  (∀ f : FX, reads f (f.ins 0x83) (exec (.wget f) s) fun r => scal (r.weight + if r.wsat then 2 ^ 16 else 0)) ∧
  (∀ f : FX, reads f (f.ins 0x84) (exec (.tget f) s) fun r => scal r.time) ∧
  (∀ f : FX, f.rm = 0 → reads f (f.ins 0x85) (exec (.kind f) s) fun r => scal r.kind) ∧
  (∀ f : FX, f.rm = 1 → reads f (f.ins 0x85) (exec (.kind f) s) fun r => r.payload) ∧
  (∀ f : FX, f.rm = 2 → reads f (f.ins 0x85) (exec (.kind f) s) fun r =>
    scal (r.kind % 16 + (if r.exc then 16 else 0) + (if r.nar then 32 else 0) + r.lvl % 8 * 64 + (if r.kv then 512 else 0) +
      (if r.wsat then 1024 else 0) + r.weight % 2 ^ 16 * 2 ^ 16 + r.key % 2 ^ 32 * 2 ^ 32))

/-- R234 to R236: `skip` notes for commit the least of its count and 16, which no port's declared count exceeds. `qstat` sends what its
selector names of the queue behind the port, and `.clr` notes that the counter falls by the value read. `qpol` notes its new descriptor
for commit. A port that the actor does not declare raises ILLEGAL_TARGET. -/
def Obligations.QueueInstructions : Prop := ∀ s : State,
  (∀ f : FX, ∀ i o, Ready s (f.ins 0x87) i o →
    exec (.skip f) s = .next (((s.issued i o).updBlock i.aid fun b =>
      { b with effects := b.effects ++ [(i.idx, .skip (f.srcA.toNat % 128 - 72) (min (scalNat o.b.bits) 16))] }).deliver i
        ⟨0, o.dep⟩ ⟨0, o.dep⟩ 0)) ∧
  (∀ f : FX, ∀ i o, Ready s (f.ins 0x88) i o → ∀ p, scalNat o.a.bits < 16 → i.g.behind (scalNat o.a.bits) = some p →
    let u := s.issued i o
    let v := u.qstat p (scalNat o.b.bits)
    exec (.qstat f) s = .next (u.deliver i ⟨scal v, o.dep⟩ ⟨scal v, o.dep⟩ 0) ∧
    exec (.qstatClr f) s = .next ((u.updBlock i.aid fun b =>
      { b with effects := b.effects ++ [(i.idx, .qclr (scalNat o.a.bits) (scalNat o.b.bits) v)] }).deliver i
        ⟨scal v, o.dep⟩ ⟨scal v, o.dep⟩ 0) ∧
    (∀ q x, p = .queue q → u.queue? q = some x →
      (scalNat o.b.bits = 1 → v = x.nlost) ∧ (scalNat o.b.bits = 2 → v = x.nabs) ∧ (4 < scalNat o.b.bits → v = 0) ∧
      (scalNat o.b.bits = 4 → v = (if x.failed then 1 else 0) + if x.sexc then 2 else 0))) ∧
  (∀ f : FX, ∀ i o, Ready s (f.ins 0x89) i o → ∀ p, scalNat o.a.bits < 16 → i.g.behind (scalNat o.a.bits) = some p →
    exec (.qpol f) s = .next ((s.issued i o).updBlock i.aid fun b => { b.setStat i.idx .fired with
      effects := b.effects ++ [(i.idx, .qpol (scalNat o.a.bits) (f.rm == 1) o.b.bits o.dep i.ins.tokenReg)] })) ∧
  (let refused : Ins → Answer → Prop := fun ins e => ∀ i o, Ready s ins i o →
      (scalNat o.a.bits ≥ 16 ∨ i.g.behind (scalNat o.a.bits) = none) →
      e = .next ((s.issued i o).takeTrap i.aid 0x03 i.idx i.b.addr 0 (i.b.word0 i.idx))
   (∀ f : FX, refused (f.ins 0x88) (exec (.qstat f) s)) ∧ (∀ f : FX, refused (f.ins 0x88) (exec (.qstatClr f) s)) ∧
   ∀ f : FX, refused (f.ins 0x89) (exec (.qpol f) s))

/-- R251, R259, R262 and R263: whenever a load can issue (an `ldg`: with room among the 16 vector requests of its memory unit, without which it
waits), and its elements pass their checks, it answers the next state in which one read has been sent for each access, which for `ldg` is one
for each line with its elements in order, and the instruction waits for them; memory is as the checks left it. The elements are checked in
index order: the first that is not aligned, not translated or not permitted takes its exception with its address, precise at the block, unless an
element below it meets an uncorrectable error, which is then the one taken. A
touch is dropped instead. A scalar load has one element, at A plus the literal modulo 2^64. A load with no active element completes at
once with zero, and its second target gets its token. -/
def Obligations.LoadsRequestTheirBytes : Prop := ∀ s : State,
  let loads : Bool → (Issue → Bool) → Ins → Answer → Prop := fun sys room ins e => ∀ i o, Ready s ins i o → room i = true →
    let check := (s.issued i o).checkElements i needRead (fun _ => false) (i.elements o)
    (∀ t c va, check = (t, .error (c, va)) →
      e = .next (if i.ins.isTouch then (t.countAt i.g 0x30).deliver i .zero .zero 0 else t.loadFault i o c va)) ∧
    ∀ t xs, check = (t, .ok xs) →
      (xs = [] → i.ins.isTouch = false →
        e = .next (t.deliverLoad i ⟨(loadValue i.ins o.mask (List.replicate 64 0)).1, o.dep⟩
          (loadValue i.ins o.mask (List.replicate 64 0)).2 o.dep)) ∧
      (xs ≠ [] → i.ins.isTouch = false →
        ∃ v sent load, e = .next v ∧ v.ms.mem = t.ms.mem ∧ v.ms.reqs = t.ms.reqs ++ sent ∧
          sent.map (fun r => (r.acc, r.elems)) =
            accessesOf i.ins.isVector (xs.map fun x => (x.2, (⟨0, x.2.len, x.1⟩ : Elem))) ∧
          (∀ r ∈ sent, r.aid = i.aid ∧ r.kind = .read sys ∧ r.after = i.follows o) ∧
          v.ms.loads = t.ms.loads ++ [load] ∧ load.aid = i.aid ∧ load.idx = i.idx ∧ load.ins = i.ins ∧
          load.waiting = sent.map (·.id) ∧ load.failed = none ∧
          v.blockOf i.aid = (t.blockOf i.aid).map fun b =>
            { b.setStat i.idx .issued with made := b.made ++ sent.map (·.id) }) ∧
      (i.ins.isTouch = true →
        e = .next (if xs.any (fun x => x.2.mt != 2 && t.accessUe x.2) then (t.countAt i.g 0x30).deliver i .zero .zero 0
          else (t.touchLines i (xs.map Prod.snd) false).deliver i .zero .zero 0))
  let always : Issue → Bool := fun _ => true
  (∀ f : FX, loads false always (f.ins 0x90) (exec (.ld f) s)) ∧ (∀ f : FX, loads false always (f.ins 0x91) (exec (.ldv f) s)) ∧
  (∀ f : FX, loads false s.vectorRoom (f.ins 0x92) (exec (.ldg f) s)) ∧
  (∀ f : FX, ∀ i o, Ready s (f.ins 0x92) i o → s.vectorRoom i = false → exec (.ldg f) s = .next s) ∧
  (∀ f : FX, loads true always (f.ins 0x96) (exec (.ldsys f) s)) ∧
  (∀ (t u : State) (i : Issue) (o : Operands) (c va : Nat),
    let below := (i.elements o).takeWhile fun e => e.2.1 != va
    let bad := fun (x : Nat × Access) => x.2.mt ≠ 2 ∧ u.accessUe x.2 = true
    (∀ xs, t.checkElements i needRead (fun _ => false) below = (u, .ok xs) → (∀ x ∈ xs, ¬ bad x) → t.loadFault i o c va = u.faultAt i c va) ∧
    ∀ xs x ys, t.checkElements i needRead (fun _ => false) below = (u, .ok (xs ++ x :: ys)) → (∀ y ∈ xs, ¬ bad y) → bad x →
      t.loadFault i o c va = (u.ueMet x.2).faultAt i cMEMORY_UE x.2.va) ∧
  (∀ (i : Issue) (o : Operands), i.ins.op = 0x90 ∨ i.ins.op = 0x96 →
    i.elements o = [(0, wrap 64 ((scalNat o.a.bits : Int) + i.ins.offset), i.ins.width / 8)]) ∧
  (∀ (i : Issue) (need : Need) (no : Access → Bool) (k va n : Nat) (rest : List (Nat × Nat × Nat)),
    (va % (i.ins.width / 8) ≠ 0 → s.checkElements i need no ((k, va, n) :: rest) = (s, .error (cALIGN, va))) ∧
    (va % (i.ins.width / 8) = 0 → ∀ t c, s.access i.aid va n need = (t, .error c) →
      s.checkElements i need no ((k, va, n) :: rest) = (t, .error (c, va))) ∧
    (va % (i.ins.width / 8) = 0 → ∀ t x, s.access i.aid va n need = (t, .ok x) → no x = true →
      s.checkElements i need no ((k, va, n) :: rest) = (t, .error (cPERMISSION, va))))

/-- R259, R262 and R264: whenever a store can issue, and its elements are aligned and pass their checks, it answers the next state in which it
has fired and its store is noted for the commit, with the data and the enabled bytes of each element; until then it writes nothing. The
first element that fails takes its exception, precise at the block. The address of a scalar store is A plus the literal modulo
2^64, that of an element of `sts` is A plus the literal plus its index from B, times 4 under `.x4`. -/
def Obligations.StoresWaitForCommit : Prop := ∀ s : State,
  let stores : Bool → Ins → Answer → (Operands → Issue → Nat × Access → Elem) → Prop := fun sys ins e data =>
    ∀ i o, Ready s ins i o →
    let check := (s.issued i o).checkElements i needWrite (fun _ => false) (i.elements o)
    (∀ t c va, check = (t, .error (c, va)) → e = .next (t.faultAt i c va)) ∧
    (∀ t xs, check = (t, .ok xs) →
      e = .next (t.updBlock i.aid fun b => { b.setStat i.idx .fired with effects := b.effects ++ [(i.idx,
        .mem (.store sys) i.ins.ty i.ins.width (accessesOf i.ins.isVector (xs.map fun x => (x.2, data o i x))) i.ins.isVector
          (i.follows o) (tokenOf i.ins.t0) (tokenOf i.ins.t1))] }))
  let scalar : Operands → Issue → Nat × Access → Elem := fun o i _ =>
    ⟨0, scalNat o.b.bits % 2 ^ i.ins.width, 2 ^ (i.ins.width / 8) - 1⟩
  (∀ f : FX, stores false (f.ins 0x93) (exec (.st f) s) scalar) ∧ (∀ f : FX, stores true (f.ins 0x97) (exec (.stsys f) s) scalar) ∧
  (∀ f : FX, stores false (f.ins 0x94) (exec (.stv f) s) fun o i x => storePart i.ins.width o.mask o.b.bits x.1 x.2.len) ∧
  (∀ f : FX, stores false (f.ins 0x95) (exec (.sts f) s) fun o _ x => ⟨0, getE 32 o.c.bits (x.1 / 4), 15⟩) ∧
  (∀ (i : Issue) (o : Operands), i.ins.op = 0x93 ∨ i.ins.op = 0x97 →
    i.elements o = [(0, wrap 64 ((scalNat o.a.bits : Int) + i.ins.offset), i.ins.width / 8)]) ∧
  (∀ (i : Issue) (o : Operands), i.ins.op = 0x95 →
    let addr := fun j => wrap 64 ((i.va o : Int) + sint 32 (getE 32 o.b.bits j) * if i.ins.rm = 1 then 4 else 1)
    i.elements o = ((List.range 16).filter fun j => o.mask.getLsbD (4 * j)).map fun j => (4 * j, addr j, 4))

/-- R262, R270 and R272 to R274: whenever an atomic or lock instruction can issue, its address is aligned and passes its checks for reading
and writing, and its page is not of type IO (nor, for a lock, the scratch window), it answers the next state in which it has fired and
its access is noted for the commit with its operands. The first element that fails takes its exception:
an IO page raises PERMISSION. `lkwait` on a
word that the issuer's own context holds raises LOCK_INVERSION. -/
def Obligations.AtomicsWaitForCommit : Prop := ∀ s : State,
  let atomics : MemOp → Bool → Ins → Answer → Prop := fun op lock ins e => ∀ i o, Ready s ins i o →
    let check := (s.issued i o).checkElements i needBoth (fun x => x.mt == 2 || (lock && x.mt == 3)) (i.elements o)
    (∀ t c va, check = (t, .error (c, va)) → e = .next (t.faultAt i c va)) ∧
    ∀ t xs, check = (t, .ok xs) →
      e = .next (t.updBlock i.aid fun b => { b.setStat i.idx .fired with effects := b.effects ++ [(i.idx,
        .mem op i.ins.ty i.ins.width
          (accessesOf i.ins.isVector (xs.map fun x => (x.2, if i.ins.op = 0xA7 then (⟨0, getE 32 o.c.bits (x.1 / 4), 0⟩ : Elem)
            else ⟨0, scalNat o.b.bits % 2 ^ i.ins.width, scalNat o.c.bits % 2 ^ i.ins.width⟩)))
          i.ins.isVector (i.follows o) i.ins.tokenReg 0)] })
  (∀ f : FX, atomics .add false (f.ins 0x9E) (exec (.aadd f) s)) ∧
  (∀ f : FX, atomics .min false (f.ins 0x9F) (exec (.amin f) s)) ∧
  (∀ f : FX, atomics .max false (f.ins 0xA0) (exec (.amax f) s)) ∧
  (∀ f : FX, atomics .and false (f.ins 0xA1) (exec (.aand f) s)) ∧
  (∀ f : FX, atomics .or false (f.ins 0xA2) (exec (.aor f) s)) ∧
  (∀ f : FX, atomics .xor false (f.ins 0xA3) (exec (.axor f) s)) ∧
  (∀ f : FX, atomics .xchg false (f.ins 0xA4) (exec (.axchg f) s)) ∧
  (∀ f : FX, atomics .cas false (f.ins 0xA5) (exec (.acas f) s)) ∧
  (∀ f : FX, atomics .fadd false (f.ins 0xA6) (exec (.afadd f) s)) ∧
  (∀ f : FX, atomics (if f.ety = 8 then .fadd else .add) false (f.ins 0xA7) (exec (.aaddv f) s)) ∧
  (∀ f : FX, atomics .minu false (f.ins 0xAC) (exec (.aminu f) s)) ∧
  (∀ f : FX, atomics .maxu false (f.ins 0xAD) (exec (.amaxu f) s)) ∧
  (∀ f : FX, atomics .lkacq true (f.ins 0xA8) (exec (.lkacq f) s)) ∧
  (∀ f : FX, atomics .lkrel true (f.ins 0xA9) (exec (.lkrel f) s)) ∧
  (∀ f : FX, ∀ i o, Ready s (f.ins 0xAA) i o → i.va o % 8 = 0 → ∀ t x,
    (s.issued i o).access i.aid (i.va o) 8 needBoth = (t, .ok x) →
    let own := x.mt < 2 ∧ (t.peekWord x.pa).testBit 63 = true ∧ t.peekWord x.pa % 2 ^ 10 = i.g.ctx
    (own → exec (.lkwait f) s = .next ((s.issued i o).faultAt i cLOCK_INVERSION (i.va o))) ∧
    (¬ own → f.ety = 7 → x.mt < 2 → exec (.lkwait f) s = .next (t.updBlock i.aid fun b => { b.setStat i.idx .fired with
      effects := b.effects ++ [(i.idx, .mem .lkwait i.ins.ty i.ins.width
        [(x, [⟨0, scalNat o.b.bits % 2 ^ 64, scalNat o.c.bits % 2 ^ 64⟩])] false (i.follows o) i.ins.tokenReg 0)] })))

/-- R265 to R269 and R275: `fence` and `qfence` send their token as soon as nothing that they wait for is outstanding, and until then the
instruction stays as it is; what follows the token starts no earlier than the timestamp of the agent, or of the queues that `qfence` names. `pref` never faults: a touch that would, by the need to read, is dropped. `sinv` and `swb` check their alignment and note their
effect for the commit; `smap` does so for a stash group of the region, with the checks in order; `ldsh` reads its 128 bytes like a load. -/
def Obligations.FencesAndStash : Prop := ∀ s : State,
  let token : Issue → Operands → Nat → Answer := fun i o ts =>
    let u := s.issued i o
    let t := u.setStamp u.nextId ts (u.context i.g.ctx).part
    .next (({ t with nextId := u.nextId + 1 } : State).deliver i ⟨0, o.dep ++ [u.nextId]⟩ ⟨0, o.dep ++ [u.nextId]⟩ 0)
  (∀ f : FI, ∀ i o, Ready s (f.ins 0x99) i o →
    let sys := f.imm.toNat % 8 = 5
    let clear := (∀ r ∈ s.ms.reqs, r.isOwn i.aid = true → r.id ∈ i.b.made) ∧ (sys → ∀ w ∈ s.ms.ioWrites, w.aid ≠ some i.aid)
    (clear → exec (.fence f) s = token i o ((s.issued i o).ptsOf (.agent i.aid))) ∧
    (¬ clear → exec (.fence f) s = .next s)) ∧
  (∀ f : FI, ∀ i o, Ready s (f.ins 0x9A) i o →
    let clear := (f.imm.getLsbD 0 = true → i.g.copyQ = []) ∧ (f.imm.getLsbD 1 = true → i.g.matrixQ = []) ∧
      (f.imm.getLsbD 2 = true → i.g.needleQ = []) ∧ (f.imm.getLsbD 3 = true → i.g.fullerQ = [])
    let queues := ([(0, .copy), (1, .matrix), (2, .needle), (3, .fuller)].filter fun e => f.imm.toNat.testBit e.1).map Prod.snd
    (clear → exec (.qfence f) s = token i o (queues.foldl (fun t e => max t ((s.issued i o).ptsOf (.engine i.aid e))) 0)) ∧
    (¬ clear → exec (.qfence f) s = .next s)) ∧
  (∀ f : FX, ∀ i o, Ready s (f.ins 0x98) i o →
    let u := s.issued i o
    let fires : State → State := fun t => t.updBlock i.aid fun b => b.setStat i.idx .fired
    (i.va o % 8 ≠ 0 → exec (.pref f) s = .next (fires (u.countAt i.g 0x30))) ∧
    (i.va o % 8 = 0 → ∀ t e, u.access i.aid (i.va o) 8 needRead = (t, .error e) → exec (.pref f) s = .next (fires (t.countAt i.g 0x30))) ∧
    (i.va o % 8 = 0 → ∀ t x, u.access i.aid (i.va o) 8 needRead = (t, .ok x) → ¬ (x.mt ≠ 2 ∧ t.accessUe x = true) →
      exec (.pref f) s = .next (fires (t.touchLines i [x] (f.rm == 1))))) ∧
  (let stash : Ins → Answer → Prop := fun ins e => ∀ i o, Ready s ins i o →
      (i.va o % 8 ≠ 0 → e = .next ((s.issued i o).faultAt i cALIGN (i.va o))) ∧
      (i.va o % 8 = 0 → e = .next ((s.issued i o).updBlock i.aid fun b => { b.setStat i.idx .fired with effects := b.effects ++
        [(i.idx, .stash i.ins.op (i.va o) (scalNat o.b.bits) 0 0 (i.follows o) i.ins.tokenReg)] }))
   (∀ f : FX, stash (f.ins 0x9B) (exec (.sinv f) s)) ∧ ∀ f : FX, stash (f.ins 0x9C) (exec (.swb f) s)) ∧
  (∀ f : FX, ∀ i o, Ready s (f.ins 0x9D) i o →
    let u := s.issued i o
    let b := scalNat o.b.bits
    let mu := bitsAt b 8 17
    let bank := bitsAt b 25 3
    let lg := bitsAt b 0 6
    (u.groupAt i.aid mu bank = none → exec (.smap f) s = .next (u.faultAt i cNOT_PRESENT (i.va o))) ∧
    ∀ n g, u.groupAt i.aid mu bank = some (n, g) →
      (g.mode ≠ .stash → exec (.smap f) s = .next (u.faultAt i cNOT_PRESENT (i.va o))) ∧
      (g.mode = .stash → b / 2 ^ 28 = 0 → bitsAt b 6 2 = 0 → 12 ≤ lg → 2 ^ lg ≤ g.count * 2 ^ 14 →
        (i.va o % 2 ^ lg ≠ 0 → exec (.smap f) s = .next (u.faultAt i cALIGN (i.va o))) ∧
        (i.va o % 2 ^ lg = 0 → exec (.smap f) s = .next (u.updBlock i.aid fun b => { b.setStat i.idx .fired with
          effects := b.effects ++ [(i.idx, .stash 0x9D (i.va o) lg bank mu (i.follows o) i.ins.tokenReg)] })))) ∧
  (∀ f : FX, ∀ i o, Ready s (f.ins 0xAB) i o →
    let u := s.issued i o
    let b := scalNat o.b.bits
    let mu := bitsAt b 8 17
    let bank := bitsAt b 25 3
    ∀ n g, u.groupAt i.aid mu bank = some (n, g) → g.mode = .agen → b = mu * 2 ^ 8 + bank * 2 ^ 25 →
      (i.va o % 64 ≠ 0 → exec (.ldsh f) s = .next (u.faultAt i cALIGN (i.va o))) ∧
      (i.va o % 64 = 0 →
        (∀ t c va, u.accesses i.aid needRead (linePieces 3 (i.va o) 128) = (t, .error (c, va)) →
          exec (.ldsh f) s = .next (t.faultAt i c va)) ∧
        (∀ t xs, u.accesses i.aid needRead (linePieces 3 (i.va o) 128) = (t, .ok xs) →
          exec (.ldsh f) s = .next (t.startLoad i o
            ((xs.zip (List.range xs.length)).map fun x => (x.1, [(⟨0, x.1.len, 64 * x.2⟩ : Elem)])) 128 [bank, mu] false))))

/-- R18, R277, R279 and R317: whenever an instruction of the copy, matrix, needle or fuller engine can issue, it answers the next state in
which it has fired and its command, with its operands, is noted for its engine's queue at the commit; nothing reaches the engine before.
`mrd` with a selector above 127 raises ILLEGAL_TARGET. `cpyx` also sends a zero to slot C of the matrix instruction it names. -/
def Obligations.EngineCommands : Prop := ∀ s : State,
  let lit : Issue → Nat → Nat := fun i d => match i.ins.lit with
    | some l => l.toNat
    | none => d
  let copy : Issue → Operands → CmdArgs := fun i o =>
    ⟨i.ins.op, 0, 0, scalNat o.a.bits, scal (scalNat o.b.bits), lit i (scalNat o.c.bits), 0⟩
  let addr : Issue → Operands → CmdArgs := fun i o =>
    ⟨i.ins.op, i.ins.rm, i.ins.ty, wrap 64 ((scalNat o.a.bits : Int) + i.ins.offset), o.b.bits, scalNat o.c.bits, 0⟩
  let plain : Nat → Issue → Operands → CmdArgs := fun d i o =>
    ⟨i.ins.op, i.ins.rm, i.ins.ty, scalNat o.a.bits, o.b.bits, scalNat o.c.bits, lit i d⟩
  let noted : EngineKind → CmdArgs → Option Nat → Issue → Operands → Block → Block := fun q args link i o b =>
    { b.setStat i.idx .fired with effects := b.effects ++ [(i.idx, .cmd q args (i.follows o) i.ins.tokenReg link)] }
  let cmd : Ins → Answer → EngineKind → (Issue → Operands → CmdArgs) → Prop := fun ins e q args =>
    Records s ins e fun i o => noted q (args i o) none i o
  (∀ f : FX, cmd (f.ins 0xB0) (exec (.cpy f) s) .copy copy) ∧
  (∀ f : FX, cmd (f.ins 0xB2) (exec (.cpyt f) s) .copy (plain 1)) ∧
  (∀ f : FX, cmd (f.ins 0xB3) (exec (.mldL f) s) .matrix addr) ∧
  (∀ f : FX, cmd (f.ins 0xB3) (exec (.mldA f) s) .matrix addr) ∧
  (∀ f : FX, cmd (f.ins 0xB4) (exec (.mmul f) s) .matrix fun i o => { addr i o with c := scalNat o.a.bits }) ∧
  (∀ f : F0, cmd (f.ins 0xB6) (exec (.mclrF0 f) s) .matrix (plain 0)) ∧
  (∀ f : FX, cmd (f.ins 0xB6) (exec (.mclrF1 f) s) .matrix (plain 0)) ∧
  (∀ f : FX, cmd (f.ins 0xB7) (exec (.mfmt f) s) .matrix (plain 0)) ∧
  (∀ f : FX, cmd (f.ins 0xC0) (exec (.ufinit f) s) .fuller addr) ∧
  (∀ f : FX, cmd (f.ins 0xC1) (exec (.unite f) s) .fuller addr) ∧
  (∀ f : FX, cmd (f.ins 0xC2) (exec (.find f) s) .fuller addr) ∧
  (∀ f : FX, cmd (f.ins 0xC3) (exec (.relabel f) s) .fuller addr) ∧
  (∀ f : FX, cmd (f.ins 0xC4) (exec (.ccsize f) s) .fuller addr) ∧
  (∀ f : FX, cmd (f.ins 0xC5) (exec (.ufsnap f) s) .fuller addr) ∧
  (∀ f : FX, cmd (f.ins 0xC5) (exec (.ufsnapClose f) s) .fuller addr) ∧
  (∀ f : FX, cmd (f.ins 0xC6) (exec (.ufundo f) s) .fuller addr) ∧
  (∀ f : FX, cmd (f.ins 0xCA) (exec (.hacc f) s) .fuller (plain 0)) ∧
  (∀ f : FX, cmd (f.ins 0xCB) (exec (.hflush f) s) .fuller (plain 0)) ∧
  (∀ f : FX, cmd (f.ins 0xCC) (exec (.hstat f) s) .fuller (plain 0)) ∧
  (∀ f : FX, cmd (f.ins 0xC8) (exec (.wrule f) s) .needle addr) ∧
  (∀ f : FX, cmd (f.ins 0xC7) (exec (.walk f) s) .needle (plain 0)) ∧
  (∀ f : FX, cmd (f.ins 0xC9) (exec (.wstatQ f) s) .needle (plain 0)) ∧
  (∀ f : FX, cmd (f.ins 0xC9) (exec (.wstatResume f) s) .needle (plain 0)) ∧
  (∀ f : FX, cmd (f.ins 0xC9) (exec (.wstatAbort f) s) .needle (plain 0)) ∧
  (∀ f : FX, ∀ i o, Ready s (f.ins 0xB5) i o →
    (scalNat o.a.bits < 128 → exec (.mrd f) s = .next ((s.issued i o).updBlock i.aid (noted .matrix (plain 0 i o) none i o))) ∧
    (128 ≤ scalNat o.a.bits → exec (.mrd f) s = .next ((s.issued i o).faultAt i cTARGET 0))) ∧
  (∀ f : FX, ∀ i o, Ready s (f.ins 0xB1) i o → ∀ slot j, Target.of f.t1.toNat = .slot slot j →
    exec (.cpyx f) s = .next (((s.issued i o).updBlock i.aid (noted .copy (copy i o) (some j) i o)).sendTo i.aid i.idx
      (.slot slot j) ⟨0, o.dep⟩ 0))

/-- R295, R299, R403, R406, R408, R412, R415, R416, R418 and R419: whenever such an instruction can issue, and its operands are those that
its entry admits, it answers the next state in which it has fired and its effect, with its operands, is noted for the commit; an operand
that the entry does not admit raises ILLEGAL_TARGET, precise at the block. -/
def Obligations.SystemInstructions : Prop := ∀ s : State,
  let lit : Issue → Nat := fun i => match i.ins.lit with
    | some l => l.toNat
    | none => 0
  let noted : Effect → Issue → Block → Block := fun e i b =>
    { b.setStat i.idx .fired with effects := b.effects ++ [(i.idx, e)] }
  let sys : Ins → Answer → (Nat → Nat → Bool) → Prop := fun ins e ok => ∀ i o, Ready s ins i o →
    (ok (scalNat o.a.bits) (scalNat o.b.bits) = true → e = .next ((s.issued i o).updBlock i.aid
      (noted (.sys ⟨i.ins.op, i.ins.rm, scalNat o.a.bits, o.b.bits, i.ins.tokenReg⟩ (i.follows o)) i))) ∧
    (ok (scalNat o.a.bits) (scalNat o.b.bits) = false → e = .next ((s.issued i o).faultAt i cTARGET 0))
  let launch : Nat → Nat → Bool := fun a _ => decide (a < 2 ^ 44)
  let counter : Nat → Nat → Bool := fun a _ =>
    decide (a < 2 ^ 20) && (decide (a % 2 ^ 9 = 0x1FF) || (decide (a % 2 ^ 9 < 320) && decide (a / 2 ^ 9 % 32 < 8)))
  let bar : Ins → Answer → Nat → Prop := fun ins e kind => Records s ins e fun i o =>
    noted (.bar kind (lit i) (scalNat o.a.bits % 2 ^ 16) (i.follows o) i.ins.tokenReg) i
  let gen : Ins → Answer → Prop := fun ins e => Records s ins e fun i o =>
    noted (.sys ⟨0xBB, i.ins.rm, lit i, scal (scalNat o.a.bits) ||| (scal (scalNat o.b.bits) <<< 64), i.ins.tokenReg⟩ (i.follows o)) i
  (∀ f : FX, bar (f.ins 0xB8) (exec (.bar f) s) 0) ∧ (∀ f : FX, bar (f.ins 0xB9) (exec (.bara f) s) 1) ∧
  (∀ f : FX, bar (f.ins 0xBA) (exec (.barw f) s) 2) ∧
  (∀ f : FX, gen (f.ins 0xBB) (exec (.genk f) s)) ∧ (∀ f : FX, gen (f.ins 0xBB) (exec (.genkFlush f) s)) ∧
  (∀ f : FX, sys (f.ins 0xD0) (exec (.scall f) s) fun a _ => decide (a < 256)) ∧
  (∀ f : FX, sys (f.ins 0xD1) (exec (.snotify f) s) fun a _ => if f.rm = 1 then decide (a = 0) else decide (a < 2 ^ 12)) ∧
  (∀ f : FX, sys (f.ins 0xD6) (exec (.tlbi f) s) fun _ b => decide (b < 2 ^ 11)) ∧
  (∀ f : FX, sys (f.ins 0xD7) (exec (.frz f) s) launch) ∧ (∀ f : FX, sys (f.ins 0xD8) (exec (.drn f) s) launch) ∧
  (∀ f : FX, sys (f.ins 0xD9) (exec (.imgsv f) s) launch) ∧ (∀ f : FX, sys (f.ins 0xD9) (exec (.imgsvDrop f) s) launch) ∧
  (∀ f : FX, sys (f.ins 0xDA) (exec (.imgld f) s) launch) ∧ (∀ f : FX, sys (f.ins 0xDB) (exec (.rgrant f) s) launch) ∧
  (∀ f : FX, sys (f.ins 0xDC) (exec (.rfreeFree f) s) launch) ∧ (∀ f : FX, sys (f.ins 0xDC) (exec (.rfreeKill f) s) launch) ∧
  (∀ f : F0, sys (f.ins 0xDD) (exec (.wdpetF0 f) s) fun a _ => decide (a < 4096)) ∧
  (∀ f : FX, sys (f.ins 0xDD) (exec (.wdpetF1 f) s) fun a _ => decide (a < 4096)) ∧
  (∀ f : FX, sys (f.ins 0xDE) (exec (.ecntSel f) s) counter) ∧ (∀ f : FX, sys (f.ins 0xDE) (exec (.ecntClr f) s) counter)

/-- R412 and R419: `mfcr` sends the register at the address in A as it stands at issue, and `mtcr` notes its write for the commit; an address
that is no multiple of 8 below 2^20 raises ILLEGAL_TARGET, and a register that the issuer's level and context do not reach raises
PRIVILEGED. `ecnt.rd` sends the count of the counter that A names, or NOTOWNER where the issuer does not reach it. -/
def Obligations.ControlRegisterInstructions : Prop := ∀ s : State,
  let good : Nat → Prop := fun a => a % 8 = 0 ∧ a < 2 ^ 20
  (∀ f : FX, ∀ i o, Ready s (f.ins 0xD3) i o →
    let u := s.issued i o
    let a := scalNat o.a.bits
    (¬ good a → exec (.mfcr f) s = .next (u.faultAt i cTARGET 0)) ∧
    (good a → u.mayRead (i.g.level == .M) i.g.ctx a = false → exec (.mfcr f) s = .next (u.faultAt i cPRIVILEGED 0)) ∧
    (good a → u.mayRead (i.g.level == .M) i.g.ctx a = true →
      exec (.mfcr f) s = .next (u.deliver i ⟨scal (u.readCr a), o.dep⟩ ⟨scal (u.readCr a), o.dep⟩ 0))) ∧
  (∀ f : FX, ∀ i o, Ready s (f.ins 0xD4) i o →
    let u := s.issued i o
    let a := scalNat o.a.bits
    (¬ good a → exec (.mtcr f) s = .next (u.faultAt i cTARGET 0)) ∧
    (good a → u.mayWrite (i.g.level == .M) i.g.ctx a = false → exec (.mtcr f) s = .next (u.faultAt i cPRIVILEGED 0)) ∧
    (good a → u.mayWrite (i.g.level == .M) i.g.ctx a = true → exec (.mtcr f) s = .next (u.updBlock i.aid fun b =>
      { b.setStat i.idx .fired with effects := b.effects ++
        [(i.idx, .sys ⟨0xD4, i.ins.rm, a, o.b.bits, i.ins.tokenReg⟩ (i.follows o))] }))) ∧
  (∀ f : FX, ∀ i o, Ready s (f.ins 0xDE) i o →
    let u := s.issued i o
    (counterOf (scalNat o.a.bits) = none → exec (.ecntRd f) s = .next (u.faultAt i cTARGET 0)) ∧
    ∀ k, counterOf (scalNat o.a.bits) = some k →
      let n := if u.mayCount i.g k then (Tab.getD u.sched.counters k ⟨0, 0⟩).count else sNOTOWNER
      exec (.ecntRd f) s = .next (u.deliver i ⟨scal n, o.dep⟩ ⟨scal n, o.dep⟩ 0)) ∧
  sNOTOWNER = 2 ^ 63 + 3 ∧
  (∀ a, a < 2 ^ 20 → a % 2 ^ 9 < 320 → a / 2 ^ 9 % 32 < 8 → counterOf a = some (a / 2 ^ 14, a % 2 ^ 9, a / 2 ^ 9 % 32))

/-- R177, R178, R180 and R181: an actor that nothing holds back, and that its CU chooses before its other ready actors, begins a data firing where no control token is at the head of a port and every
port holds its declared count of entries ahead of any control token; it is delivered exactly these, consumes none of them yet, and enters
its entry block. Where control tokens stand at the heads it begins a control firing on the tokens instead. A pace point passes to the
first one after now and makes a firing due where the rule holds. R20, R365 and R470: an idle enabled thread of a live context takes the
first entry of its call queue and, where its die serves (R463), enters the block of its `CQENTRY` at the level and in the context that `CQCTL` names; a disabled one
does not. R380: an actor between firings with a whole CFG run before it takes the writes for itself and passes on the rest. R400: with
`FNMODE.FAULT` clear a synchronous record enters its thread's call queue past the shear, and waits while there is no room; an
asynchronous one is judged; a die of another partition refuses it (R386). R408: a notice is a DATA record whose payload is the value written. -/
def Obligations.FiringsAndRuns : Prop := ∀ s : State,
  (∀ g : Agent, (g.inFlight = [] → g.makeRoom = g) ∧
    (g.inFlight ≠ [] → g.makeRoom = { g with older := g.inFlight, firing := none, block := none, younger := [] })) ∧
  (∀ a g, s.agent? a = some g → s.chosen a g = false → exec (.firingStart a) s = .next s ∧ exec (.controlFiring a) s = .next s) ∧
  (∀ a g, s.agent? a = some g → s.mayFire a g = true → s.chosen a g = true →
    (s.canControl g = false →
      (∀ e ∈ s.portsOf g, e.1.count ≤ e.2.length ∧ ∀ r ∈ e.2.take e.1.count, isControlKind r.2.kind = false ∧ r.2.kind ≠ kCFG) →
      ∃ t f, exec (.firingStart a) s = .next t ∧
        t.agent? a = some { g.makeRoom with readySince := none, firing := some f, phase := .entering g.entry, paceDue := false, firedOnce := true } ∧
        f.control = false ∧ f.startTick = s.clk.tick ∧ f.skips = [] ∧ f.exc = false ∧ f.made = [] ∧
        f.delivered = (s.portsOf g).map (fun e => ⟨e.1.n, (e.2.take e.1.count).map Prod.snd, (e.2.take e.1.count).map Prod.fst, false⟩) ∧
        (∀ b, b ≠ a → t.agent? b = s.agent? b) ∧ t.fab = s.fab ∧ t.ms = s.ms) ∧
    (s.canControl g = true →
      exec (.firingStart a) s = .next s ∧
      ∃ t f, exec (.controlFiring a) s = .next t ∧
        t.agent? a = some { g.makeRoom with readySince := none, firing := some f, phase := .entering g.entry, paceDue := false, firedOnce := true } ∧
        f.control = true ∧ f.startTick = s.clk.tick ∧ f.delivered ≠ [] ∧
        (∀ d ∈ f.delivered, ∃ r n, d.entries = [r] ∧ d.serials = [n] ∧ d.control = true ∧ isControlKind r.kind = true) ∧
        (∀ b, b ≠ a → t.agent? b = s.agent? b) ∧ t.fab = s.fab ∧ t.ms = s.ms)) ∧
  (∀ a g p, s.agent? a = some g → s.agentAlive a = true → g.pace = some p → p ≠ 0 → g.nextPace ≤ s.clk.tick →
    ∃ t n, exec (.pacePoint a) s = .next t ∧
      t = s.updAgent a (fun g' => { g' with
        nextPace := n, paceDue := g'.paceDue || (g.ins.isEmpty || s.canControl g || s.canData g) }) ∧
      s.clk.tick < n ∧ n ≤ s.clk.tick + p ∧ (n - g.nextPace) % p = 0) ∧
  (∀ d t g h rest, let q := s.callQueue d t
    s.agent? (.thread d t) = some g → q.ready = h :: rest → g.firing = none →
    ((s.threadCtl d t).en = false ∨ s.dieServes d = false → exec (.runBegin d t) s = .next s) ∧
    ((s.threadCtl d t).en = true → s.dieServes d = true → (s.context (s.threadCtl d t).ctx).live = true →
      ∃ u g' f, exec (.runBegin d t) s = .next u ∧ u.agent? (.thread d t) = some g' ∧ g'.regs = g.regs ∧
        g'.level = (s.threadCtl d t).level ∧ g'.ctx = (s.threadCtl d t).ctx ∧ g'.phase = .entering (s.threadCtl d t).entry ∧
        g'.firing = some f ∧ f.delivered = [⟨0, [q.deliver h], [h.serial], false⟩] ∧ u.fab = s.fab ∧ u.ms = s.ms ∧
        (∀ b, b ≠ .thread d t → u.agent? b = s.agent? b))) ∧
  (∀ a g rid, s.agent? a = some g → a.rid = some rid → s.agentAlive a = true → g.firing = none → s.waveAt a g ≠ [] →
    let run := s.waveAt a g
    let passed := run.filter fun p => !(CfgWrite.of p).forActor g || (CfgWrite.of p).type == 1
    exec (.nodeReconfigure a) s = .next (g.outs.foldl (fun s o => passed.foldl (fun s p => s.putOn o.dst (cfgRecord p)) s)
      ((s.takeWave a g).reconfigure rid a g ((run.filter fun p => (CfgWrite.of p).forActor g).map CfgWrite.of)))) ∧
  (∀ e d t, s.sched.traps.find? (fun f => f.id == e.id && !f.delivered) = some e → e.management = false →
    (s.partition (s.partOf e.trap.ctx)).fnmode.testBit 3 = false →
    e.host = false →
    d = (s.context e.trap.ctx).fdie → t = (s.context e.trap.ctx).fthr →
    let r := Record.data e.trap.payload (s.clk.tick % 2 ^ 32) false []
    (s.refuses e.trap.die d = true → exec (.trapDelivery e.id) s = .next ((s.refuse d).markDelivered e)) ∧
    (s.refuses e.trap.die d = false → e.trap.tflags % 2 = 0 → 8 ≤ (s.callQueue d t).free → exec (.trapDelivery e.id) s =
      .next ((s.updQueue (.call d t) fun q => q.bypass r).markDelivered e (some (.call d t, (s.callQueue d t).nextSerial)))) ∧
    (s.refuses e.trap.die d = false → e.trap.tflags % 2 = 0 → (s.callQueue d t).free < 8 → exec (.trapDelivery e.id) s = .next s) ∧
    (s.refuses e.trap.die d = false → e.trap.tflags % 2 = 1 → (s.arriveAt (.call d t) r).2 = .kept → exec (.trapDelivery e.id) s =
      .next ((s.arriveAt (.call d t) r).1.markDelivered e))) ∧
  (∀ d t (v : BitVec 64), let x := s.arriveAt (.call d t) (Record.data (scal v.toNat) (s.clk.tick % 2 ^ 32) false [])
    exec (.cqnotifyWrite d t v) s = .next (if x.2 = .rejected then x.1.count d none 0x50 else x.1))

/-- R99, R100, R158 and R185: an agent that is to enter a block reads its words; a fault of the reading is taken with index 0xFFFF, and the block
that passes its checks is in progress with its slots empty and no instruction issued; one that its CU's window has no room for waits; a wait is counted in
cycles of the die's clock.
R154 to R157: a block of which some instruction is unresolved, or no exit has fired, stays as it is but for instructions that can no
longer fire; one whose two exits have fired is ILLEGAL_TARGET (03); one with one exit commits, and then the agent has no block, its
flags hold those of the block, and control goes where the exit says: effects take place in ascending instruction index (R226, R234, R347), so a block
whose effects are register writes writes them in that order. -/
def Obligations.BlockEntryAndCommit : Prop := ∀ (s : State) (a : Aid) (g : Agent), s.agent? a = some g → s.agentAlive a = true →
  (∀ addr, g.phase = .entering addr → s.threadReady a g = true →
    (∀ u c va, s.blockWords a g addr = (u, .error (c, va)) →
      exec (.blockEntry a) s = .next (u.takeTrap a c 0xFFFF addr va 0)) ∧
    (∀ u h ws, s.blockWords a g addr = (u, .ok (h, ws)) →
      (u.windowAdmits a g (hdrField h 6 7 + 1) = false → ∃ t, exec (.blockEntry a) s = .next t ∧
        t = u.updAgent a fun g => { g with waitSince := g.waitSince.orElse (fun _ => some (u.clk.dieCycle g.die)) }) ∧
      (u.windowAdmits a g (hdrField h 6 7 + 1) = true → ∀ code, checkBlock (u.nodeOf a g) h ws = .ok code →
        ∃ t b, exec (.blockEntry a) s = .next t ∧
          t = u.updAgent a (fun g => { g with block := some b, phase := .running, waitSince := none }) ∧
          b.addr = addr ∧ b.hdr = h ∧ b.code = code ∧ b.slots = [] ∧ b.stat = [] ∧ b.effects = [] ∧ b.exits = [] ∧
          b.flags = fNone ∧ b.noTrap = false ∧ b.entered = u.clk.dieCycle g.die)) ∧
    (addr % 16 ≠ 0 → exec (.blockEntry a) s = .next (s.takeTrap a 0x02 0xFFFF addr 0 0))) ∧
  (g.older = [] → g.focus 0 = g) ∧
  (∀ f b rest, g.block.isSome → g.older = (f, b) :: rest →
    (g.focus 0).older = [] ∧ (g.focus 0).firing = some f ∧ (g.focus 0).block = some b ∧ (g.focus 0).inFlight.length = g.inFlight.length) ∧
  (∀ b, (g.focus 0).block = some b →
    let h := g.focus 0
    let c := b.settleStarved h (b.code.length + 1)
    let u := (s.updAgent a (·.focus 0)).updBlock a fun _ => c
    (c.resolved = false → exec (.blockCommit a) s = .next u) ∧
    (c.feedsBack = true → exec (.blockCommit a) s = .next u) ∧
    (c.exits = [] → exec (.blockCommit a) s = .next u) ∧
    (c.resolved = true → c.feedsBack = false → ∀ j goal, c.exits = [(j, goal)] →
      (u.commitHolds a h c = true → exec (.blockCommit a) s = .next u) ∧
      (u.commitHolds a h c = false → exec (.blockCommit a) s = .next (u.commit a h c goal))) ∧
    (c.resolved = true → c.feedsBack = false → 2 ≤ c.exits.length → ∃ j, (∃ x, (j, x) ∈ c.exits) ∧ (∀ e ∈ c.exits, e.1 ≤ j) ∧ exec (.blockCommit a) s =
      .next (u.takeTrap a 0x03 j b.addr 0 (b.word0 j)))) ∧
  (∀ b : Block, (b.ordered.map Prod.fst).Pairwise (· ≤ ·) ∧ b.ordered.Perm b.effects) ∧
  (∀ b addr, g.block = some b → (∀ e ∈ b.effects, ∃ w, e.2 = .reg w) →
    let t := s.commit a g b (.block addr)
    let written := b.ordered.foldl (fun g e => match e.2 with
      | .reg w => g.write w.code w.val w.keep
      | _ => g) g
    t.ms = s.ms ∧ t.fab = s.fab ∧ (∀ c, c ≠ a → t.agent? c = s.agent? c) ∧
      ∃ g', t.agent? a = some g' ∧ g'.block = none ∧ g'.phase = .entering addr ∧ g'.regs = written.regs ∧
        g'.flags = g.flags ||| b.flags ∧ g'.delay = g.delay ∧ g'.resident = mergeResidents g.resident b.residents)

/-- R197, R198, R202, R208, R191, R192, R379, R27 and R363: the head of a source-side queue sets out for the queue at the other end; one
that leaves the region stays once a freeze wave has passed its queue. A DRAIN at a stream that leaves the region is removed there, CFG
records there are discarded, and a record for a queue that is not there is lost and counted. Where both ends lie on the felt a send is a
packet with the tick of its injection, unless the die of the destination is of another partition. A granted packet comes one router
nearer, first along X, or its records have arrived; of the packets that wait for an output port one is granted, and none was injected
earlier. A record arrives at the end of a queue of any policy while the queue holds less than its threshold and has room for it. A
queue with a spill ring and room for a record takes its oldest ring entry back in place. A record reaches a link as the link's rule says.
A generator with fewer tokens outstanding than the smaller threshold of its stream's two queues puts the RAND
token of its key and counter, its time the low word of the counter, and counts it; one with more puts none. A CFG run enters each source queue, generator and portless actor of its
region once its bad records are counted, and a region that does not run takes none. -/
def Obligations.RecordsMove : Prop := ∀ s : State,
  (∀ q dst, Tab.get? s.fab.streams q = some dst → s.queueOpen q = true → s.queueImaged dst = false →
    let leaves : Bool := s.fab.exits.contains dst || s.fab.texts.contains dst || q.rid? != dst.rid?
    let run := s.cfgRun q
    (leaves = true → s.queueAlive q = false → exec (.recordSend q) s = .next s) ∧
    ((leaves = true → s.queueAlive q = true) → ∀ r, s.head? q = some r →
      (leaves = true → r.kind = kDRAIN → exec (.recordSend q) s = .next (s.removeDrain q)) ∧
      (leaves = true → r.kind ≠ kDRAIN → run ≠ [] → exec (.recordSend q) s = .next (s.dequeue q run.length)) ∧
      ((leaves = true → r.kind ≠ kDRAIN ∧ run = []) →
        (s.queue? dst = none → exec (.recordSend q) s =
          .next ((s.dequeue q 1).updQueue q fun x => { x with nlost := min (x.nlost + 1) 0xFFFFFFFF })) ∧
        ((s.queue? dst).isSome = true → run = [] → exec (.recordSend q) s = .next ((s.dequeue q 1).inject q dst [r])) ∧
        ((s.queue? dst).isSome = true → run ≠ [] → exec (.recordSend q) s = .next ((s.dequeue q run.length).inject q dst run))))) ∧
  (∀ src dst rs,
    (∀ y x ty tx, s.routerOf src = some (y, x) → s.routerOf dst = some (ty, tx) → s.refuses (quadAt y x).1 (quadAt ty tx).1 = false →
      s.inject src dst rs = s.updFab fun f => { f with packets := f.packets ++ [⟨dst, rs, s.clk.tick, y, x, pLOCAL⟩] }) ∧
    (∀ y x ty tx, s.routerOf src = some (y, x) → s.routerOf dst = some (ty, tx) → s.refuses (quadAt y x).1 (quadAt ty tx).1 = true →
      (s.inject src dst rs).fab = s.fab) ∧
    (s.routerOf dst = none → s.inject src dst rs = s.updFab fun f => { f with flight := f.flight ++ rs.map fun r => (dst, r) })) ∧
  (∀ k p, s.fab.packets[k]? = some p → s.granted k = true →
    (s.routerOf p.dst = some (p.y, p.x) → s.hop k = s.updFab fun f => { f with
      packets := f.packets.eraseIdx k, flight := f.flight ++ p.recs.map fun r => (p.dst, r) }) ∧
    (∀ ty tx, s.routerOf p.dst = some (ty, tx) → (p.y ≠ ty ∨ p.x ≠ tx) → ∃ p', s.hop k = s.updFab (fun f => { f with
        packets := f.packets.set k p' }) ∧ p'.dst = p.dst ∧ p'.recs = p.recs ∧ p'.tick = p.tick ∧ (p.x ≠ tx → p'.y = p.y) ∧
      ((ty : Int) - p'.y).natAbs + ((tx : Int) - p'.x).natAbs + 1 = ((ty : Int) - p.y).natAbs + ((tx : Int) - p.x).natAbs)) ∧
  (∀ j k p q, s.fab.packets[j]? = some p → s.fab.packets[k]? = some q → p.y = q.y → p.x = q.x → s.wants p = s.wants q →
    (s.granted j = true → s.granted k = true → j = k) ∧ (s.granted k = true → q.tick ≤ p.tick)) ∧
  (∀ q r rest x, s.sinkAt q = none → s.queueOpen q = true → takeFlight q s.fab.flight = some (r, rest) → r.kind ≠ kCFG →
    let u := s.updFab fun f => { f with flight := rest }
    s.queue? q = some x → exec (.recordArrival q) s = .next (u.arriveAt q r).1 ∧
    (isControlKind r.kind = false → (x.desc.pol ≠ 5 ∨ x.ringCount = 0) → x.occ < 8 * x.desc.thr → 8 ≤ x.free →
      ∃ x', exec (.recordArrival q) s = .next (u.setQueue q x') ∧ x'.items = x.items ++ [⟨r, 8, .storage, false, false, x.nextSerial, false⟩] ∧
        x'.nlost = x.nlost ∧ x'.nabs = x.nabs)) ∧
  (∀ q x i u bs, s.queueOpen q = true → s.queue? q = some x → x.ringHead? = some i → 8 ≤ x.free →
    s.muRead x.die x.vq x.ctx (x.desc.spbase + 80 * (x.rd % x.desc.spsize)) 80 = (u, .ok bs) →
    ∃ x', exec (.spillRefill q) s = .next (u.setQueue q x') ∧ x'.rd = x.rd + 1 ∧ x'.items.length = x.items.length ∧
      (∀ h, x.items[i]? = some h → x'.items[i]? = some { h with
        r := { Record.ofBytes bs with sr := h.r.sr }, place := .storage }) ∧
      ∀ j, j ≠ i → x'.items[j]? = x.items[j]?) ∧
  (∀ q r rest l, s.queueOpen q = true → takeFlight q s.fab.linkFlight = some (r, rest) → r.kind ≠ kCFG →
    Tab.get? s.fab.links q = some l →
    ∃ t, exec (.linkArrival q) s = .next t ∧ t.fab = { s.fab with linkFlight := rest, links := Tab.set s.fab.links q (l.arrive r) } ∧
      (l.isFull = false → l.gap = none → l.token = none →
        ∃ k, (l.arrive r).slots = l.slots ++ [⟨r, 8, .storage, false, false, k, false⟩]) ∧
      (∀ g, l.slots = [] → l.gap = some g → l.token = none → (l.arrive r).slots.map (·.r) = [g, r] ∧ (l.arrive r).gap = none)) ∧
  (∀ n g, Tab.get? s.fab.gens n = some g → s.nodeAlive n = true →
    (s.genLimit g ≤ g.outstanding → exec (.generatorPut n) s = .next s) ∧
    (∀ src dst x y, g.out = .stream src dst → s.queue? src = some x → s.queue? dst = some y →
      s.genLimit g = min x.desc.thr y.desc.thr) ∧
    (g.outstanding < s.genLimit g → exec (.generatorPut n) s = .next ((s.updFab fun f => { f with
        gens := Tab.set f.gens n { g with ctr := g.ctr + 1, outstanding := g.outstanding + 1 } }).putOn g.out
      ⟨randPayload g.key g.ctr, kRAND, 0, g.ctr.toNat % 2 ^ 32, 0, false, 0, false, false, false, []⟩))) ∧
  (∀ rid recs, s.running rid = false → exec (.cfgWaveInject rid recs) s = .next s) ∧
  (∀ rid recs r, s.region? rid = some r → s.running rid = true → recs ≠ [] → (∀ p ∈ recs, cfgOk r p = true) →
    let u := (s.fedFromOutside rid).foldl (fun s q => recs.foldl (fun s p => (s.arriveAt q (cfgRecord p)).1) s) s
    let v := (u.fab.gens.filter fun e => e.1.rid == rid).foldl (fun s e => s.genWave e.1 recs) u
    ∃ t, exec (.cfgWaveInject rid recs) s = .next t ∧
      t = (v.agents.filter fun e => inRid rid e.1 && e.2.ins.isEmpty).foldl (fun s e => s.updFab fun f => { f with
          waves := Tab.set f.waves e.1 (Tab.getD f.waves e.1 [] ++ recs) }) v)

/-- R193: an arrival of any kind raises the count of its arc, to at most 65,535; one beyond that is not counted and raises JOIN_OVERFLOW (event
0x40) and nothing traps. The join fires where every count is at least 1: each count falls by one and one NULL record is put on every
release arc. Where a count is 0 it does not fire. That the release NULL carries the requests of the arrivals is log 12. -/
def Obligations.JoinsCountAndFire : Prop := ∀ (s : State) (n : Nid) (j : Join), Tab.get? s.fab.joins n = some j → s.nodeAlive n = true →
  (∀ arc r rest c, takeArc n arc s.fab.arcFlight = some (r, rest) → j.counts[arc]? = some c →
    (c < 65535 → ∃ t, exec (.joinArcArrival n arc) s = .next t ∧ t.fab = { s.fab with
      arcFlight := rest, joins := Tab.set s.fab.joins n { j with counts := j.counts.set arc (c + 1), sr := unionDep j.sr r.sr } }) ∧
    (65535 ≤ c → exec (.joinArcArrival n arc) s =
      .next ((s.updFab fun f => { f with arcFlight := rest }).count (s.nodeQuad n).1 (some (s.nodeQuad n).2) 0x40))) ∧
  ((∃ c ∈ j.counts, c = 0) → exec (.joinFire n) s = .next s) ∧
  (j.counts ≠ [] → (∀ c ∈ j.counts, 1 ≤ c) → ∃ u j', exec (.joinFire n) s = .next
      (j.release.foldl (fun s d => s.putOn d ⟨0, kNULL, 0, 0, 0, false, 0, false, false, false, j.sr⟩) u) ∧
    u = s.updFab (fun f => { f with joins := Tab.set f.joins n j' }) ∧ j'.counts = j.counts.map (· - 1) ∧ j'.release = j.release)

/-- Windows (R213, R214): a DATA record whose window is closed is dropped, counted as LATE (event 0x41) and marks the next result; one whose
window is open is kept by a join, and added by an aggregate to the result of its key or to a new one (R215), while the window's banks have room, and
is counted as event 0x42 and becomes a gap where they have none; windows below the smallest mark close in ascending order, each with its
results and a close mark; a close mark moves its input's mark up; an input that has ended closes what
all inputs have passed; DRAIN waits for the other inputs. A sink (R221, R222) numbers each record, logs the flagged ones (an entry at the
producer index modulo the log's size, unless the consumer index says that the log is full: event 0x43) and sends the record on to its exit. A matrix element takes a record as its pass says (R291): a SWAP within a row is counted
(event 0x45) and acts after the row, and where the exchange waits the element takes nothing. -/
def Obligations.NodesTakeRecords : Prop := ∀ s : State,
  (∀ n w k q r, Tab.get? s.fab.windows n = some w → s.nodeAlive n = true → w.ins[k]? = some q → s.head? q = some r →
    let u := (s.dequeue q 1).progress n.rid
    (r.kind = kDATA → ∀ w', Tab.get? u.fab.windows n = some w' →
      (r.time / w'.W < w'.closed → exec (.windowInput n k) s = .next ((u.countNode n 0x41).updWindow n fun w => { w with excNext := true })) ∧
      (∀ f, w'.closed ≤ r.time / w'.W → w'.fn = .join f → w'.used < w'.cap → exec (.windowInput n k) s = .next (u.updWindow n fun w =>
        w.setOpen { w.openOf (r.time / w'.W) with recs := (w.openOf (r.time / w'.W)).recs ++ [⟨k, r⟩] })) ∧
      (let full := (u.countNode n 0x42).winGap n
          ⟨k, r.time, r.time, r.kv, if r.kv then r.key else 0, if r.kv then r.key else 0, wt16ToF32 r.weight, r.exc, r.sr⟩
       (∀ f, w'.closed ≤ r.time / w'.W → w'.fn = .join f → w'.cap ≤ w'.used → exec (.windowInput n k) s = .next full) ∧
       ∀ lane bykey total, w'.closed ≤ r.time / w'.W → w'.fn = .agg lane bykey total →
        let key := if bykey && r.kv then some r.key else none
        let o := w'.openOf (r.time / w'.W)
        ((∃ g ∈ o.slots, g.key = key) → exec (.windowInput n k) s = .next (u.updWindow n fun w => w.setOpen { o with
          slots := o.slots.map fun g => if g.key = key then g.add lane total r else g })) ∧
        ((∀ g ∈ o.slots, g.key ≠ key) → w'.used < w'.cap → exec (.windowInput n k) s = .next (u.updWindow n fun w => w.setOpen { o with
          slots := o.slots ++ [(AggSlot.empty key).add lane total r] })) ∧
        ((∀ g ∈ o.slots, g.key ≠ key) → w'.cap ≤ w'.used → exec (.windowInput n k) s = .next full))) ∧
    (r.kind = kWCLOSE → exec (.windowInput n k) s = .next ((u.updWindow n fun w => { w with
      marks := w.marks.mapIdx fun j m => if j = k then max m r.time else m }).closeWindows n)) ∧
    (r.kind = kEND → w.finished = false →
      exec (.windowInput n k) s = .next ((u.updWindow n fun w => { w with ended := w.ended.set k true }).closeWindows n)) ∧
    (r.kind = kDRAIN → (∃ p ∈ w.ins, (s.head? p).map (·.kind) ≠ some kDRAIN) → exec (.windowInput n k) s = .next s) ∧
    (r.kind = kEOF ∨ r.kind = kSWAP → exec (.windowInput n k) s = .next (u.winPut n r))) ∧
  (∀ n w, Tab.get? s.fab.windows n = some w → w.ended.all id = false → w.closed ≤ w.marks.foldl min (w.marks.headD 0) / w.W →
    let mark := w.marks.foldl min (w.marks.headD 0)
    s.closeWindows n = ((List.range (mark / w.W - w.closed)).foldl (fun s j =>
      (s.closeWindow n (w.closed + j)).winPut n { Record.token kWCLOSE with time := mark }) s).updWindow n fun v =>
        { v with closed := mark / w.W, gaps := v.gaps.filter fun g => g.tmax / v.W ≥ mark / w.W, finished := false }) ∧
  (∀ n w i, Tab.get? s.fab.windows n = some w →
    let gaps := w.gaps.filter fun g => g.overlaps w.W i
    let shut := s.updWindow n fun w => { w with opens := w.opens.filter fun o => o.id != i }
    (∀ lane bykey total, w.fn = .agg lane bykey total →
      s.closeWindow n i = (aggOutputs bykey w.W (w.openOf i) gaps).foldl (fun s r => s.winPut n r) shut) ∧
    (∀ f, w.fn = .join f → s.closeWindow n i = (joinOutputs f (w.openOf i) gaps).foldl (fun s r => s.winPut n r) shut)) ∧
  (∀ n k r u bs, let at_ := s.nodeQuad n
    s.muRead at_.1 at_.2 k.ctx (wrap 64 ((k.log : Int) - 8)) 8 = (u, .ok bs) →
    let upd := fun (s : State) (f : Sink → Sink) => s.updFab fun x => { x with sinks := Tab.modify x.sinks n f }
    let v := upd u fun k => { k with reported := false }
    (k.size ≤ k.wr - bytesNat bs → s.sinkLog n k r = v.countNode n 0x43) ∧
    (k.wr - bytesNat bs < k.size → ∀ x,
      (v.muWrite at_.1 at_.2 k.ctx (wrap 64 (k.log + 32 * (k.wr % k.size) : Nat))
        (sinkEntry (((s.queue? k.exit).map (·.qid)).getD 0) k.seq r)) = (x, .ok ()) →
      s.sinkLog n k r = upd x fun k => { k with wr := k.wr + 1 })) ∧
  (∀ n k r rest, Tab.get? s.fab.sinks n = some k → s.nodeAlive n = true → takeFlight k.exit s.fab.flight = some (r, rest) →
    let u := s.updFab fun f => { f with flight := rest }
    let flagged := r.exc = true ∨ r.wsat = true ∨ (r.kind = kDATA ∧ (wt16Value r.weight).isZero = true) ∨ 10 ≤ r.kind
    let counted := fun (v : State) => v.updFab fun f => { f with sinks := Tab.modify f.sinks n fun k => { k with seq := k.seq + 1 } }
    (¬ flagged → exec (.sinkRecord n) s = .next ((counted u).arriveAt k.exit r).1) ∧
    (flagged → exec (.sinkRecord n) s = .next ((counted (u.sinkLog n k r)).arriveAt k.exit r).1)) ∧
  (∀ n m r q, Tab.get? s.fab.mes n = some m → s.nodeAlive n = true → m.pass = none → m.inn = some q → s.head? q = some r →
    (r.kind = kDRAIN → exec (.meStreamRecord n) s = .next ((s.dequeue q 1).putOn? m.out r)) ∧
    (r.kind = kCFG → exec (.meStreamRecord n) s =
      .next ((Nid.forwards n [r]).foldl (fun s r => s.putOn? m.out r) ((s.dequeue q 1).nodeBanks n [r]))) ∧
    (r.kind ≠ kDRAIN → r.kind ≠ kCFG → exec (.meStreamRecord n) s = .next s)) ∧
  (∀ n m p c, Tab.get? s.fab.mes n = some m → s.nodeAlive n = true → m.pass = some p → s.cmd? m.owner .matrix p.cmd = some c →
    (PassDesc.of (scalNat c.args.b)).str = true →
    (p.swaps ≠ 0 → p.buffer = [] → exec (.meStreamRecord n) s =
      .next (s.trySwap n m.owner c.id (PassDesc.of (scalNat c.args.b)).rows c.progress)) ∧
    ((p.swaps = 0 ∨ p.buffer ≠ []) → ∀ q r, m.inn = some q → s.head? q = some r →
      exec (.meStreamRecord n) s = .next (s.meTake n m p c q r) ∧
      let go := (s.dequeue q 1).progress n.rid
      (r.kind = kDRAIN → s.meTake n m p c q r = go.putOn? m.out r) ∧
      (r.kind = kSWAP → p.buffer ≠ [] → ∃ d, s.meTake n m p c q r =
        (go.count d (some m.vq) 0x45).updPass n fun p => { p with swaps := p.swaps + 1 })))

/-- R277 to R279, R282, R289 and R293: the first unstarted command of a queue starts where its start rule lets it, and else stays, but
that a pass does not wait for tile loads into `wl` which wait to start (R289; log 45), unless a copy is linked to one; a cancelled load
waits for no tile (R282); `mclr` clears the accumulators at once. A completed command leaves its queue and its token register takes its result, the pair of `walk` two registers, and
a matrix command that waited for that copy is free, or cancelled if the copy failed, and follows it. R295 and R296: an arrival is counted once the
earlier accesses of its agent are performed, and not before; the first fixes n, a later one of the same context raises the count, one of another context is
answered BUSY (R298), and the one that reaches n takes the count to 0, moves the generation on modulo 2^16, and answers the arrivals
that wait; one at a pod barrier of another package is sent there, and one from another package is counted here and answered (R432; log 43); `barw` answers the generation it names once that has completed. A release from the pod sets the generation
and answers an arrival that waits for it, behind what other packages wrote here (R297). -/
def Obligations.EnginesAndBarriers : Prop := ∀ s : State,
  (∀ a g e, s.agent? a = some g → s.agentAlive a = true →
    (s.nextStart a g e = none → exec (.engineCommandStart a e) s = .next s) ∧
    (∀ c, s.nextStart a g e = some c →
      let u := s.updCmd a e c.id fun c => { c with started := true }
      exec (.engineCommandStart a e) s = .next (match e with
        | .copy => u.startCopy a c
        | .matrix => u.startMatrix a c
        | .needle => u.startNeedle a c
        | .fuller => u.startFuller a c) ∧
      (e = .matrix → c.args.op = 0xB6 → c.cancelled = false → ∀ n m, u.meOf a = some (n, m) →
        exec (.engineCommandStart a e) s =
          .next ((u.updMe n fun m => { m with acc := [], flags := fNone, outRow := 0 }).cmdDone a .matrix c.id 0))) ∧
    (∀ c earlier, firstUnstarted [] (g.engineQ e) = some (c, earlier) →
      (s.startable a g e c earlier = true → s.nextStart a g e = some c) ∧
      (s.startable a g e c earlier = false → (e = .matrix → c.loadsWl = false) → s.nextStart a g e = none))) ∧
  (∀ c d : Cmd, c.started = false → c.loadsWl = true → d.started = false → d.args.op = 0xB4 → ∀ a g, g.matrixQ = [c, d] →
    s.startable a g .matrix c [] = false → d.link = none →
    (c.linked = false → s.nextStart a g .matrix = some d) ∧ (c.linked = true → s.nextStart a g .matrix = none)) ∧
  (∀ a g c, c.cancelled = true → c.loadsWl = true → c.link = none → s.startable a g .matrix c [] = true) ∧
  (∀ a g e c v, s.agent? a = some g → (g.engineQ e).find? (fun c => c.result.isSome) = some c → c.result = some v →
    let gone := ((((s.raisePts (.agent a) (s.ptsOf (.engine a e))).setStamp c.id (s.ptsOf (.engine a e))
      (s.aidPart a)).updAgent a fun g =>
        g.setEngineQ e ((g.engineQ e).filter fun d => d.id != c.id)).agentProgress a)
    let unlink := fun (d : Cmd) => if d.link == some c.id then { d with
      link := none, cancelled := v.getLsbD 63, after := d.after ++ [c.id] } else d
    (c.args.op = 0xC7 → exec (.engineCompletion a e) s = .next ((gone.arrive a c.reg c.id (scalNat v) [c.id]).arrive a (c.reg + 1) c.id
      (v.toNat / 2 ^ 64 % 2 ^ 64) [c.id])) ∧
    (c.args.op ≠ 0xC7 → c.args.op ≠ 0xB5 → exec (.engineCompletion a e) s =
      .next ((gone.arrive a c.reg c.id (scalNat v) [c.id]).updAgent a fun g => { g with matrixQ := g.matrixQ.map unlink }))) ∧
  (∀ w g, s.fab.waits.find? (fun x => x.id == w.id) = some w → s.agent? w.aid = some g →
    let k := s.barKey w
    let e := s.barrier k
    let n := bitsAt w.word 16 16
    let ts := max (s.ptsOf (.agent w.aid)) (s.stampMax w.after)
    let part := (s.context g.ctx).part
    let into := fun (e' : Barrier) => s.updFab fun f => { f with
      barriers := Tab.set f.barriers k e'
      waits := f.waits.map fun x => if x.id = w.id then { x with gen := some e.gen } else x }
    (w.kind = 2 → ∀ x, w.gen = some x →
      (genDone e.gen x = true → exec (.barrierArrival w.id) s = .next (s.barToken w x e.ts)) ∧
      (genDone e.gen x = false → exec (.barrierArrival w.id) s = .next s)) ∧
    (w.kind ≠ 2 → (∃ n ∈ w.after, s.performed n = false) → exec (.barrierArrival w.id) s = .next s) ∧
    (w.kind ≠ 2 → w.gen = none → w.sent = false → (∀ n ∈ w.after, s.performed n = true) →
      (k.1 = podInstance → s.barHome k.2 ≠ s.out.pod.index →
        exec (.barrierArrival w.id) s = .next (s.barSend w g k (s.barHome k.2))) ∧
      ((k.1 = podInstance → s.barHome k.2 = s.out.pod.index) →
        (e.count ≠ 0 → e.ctx ≠ some g.ctx →
          exec (.barrierArrival w.id) s = .next (s.barToken w (failToken cENGINE eBUSY 0) 0)) ∧
        (e.count = 0 → 2 ≤ n → w.kind = 0 →
          exec (.barrierArrival w.id) s = .next (into ⟨1, e.gen, n, some g.ctx, max e.ts ts, part⟩)) ∧
        (e.count ≠ 0 → e.ctx = some g.ctx → e.n = n → e.count + 1 < n → w.kind = 0 →
          exec (.barrierArrival w.id) s = .next (into ⟨e.count + 1, e.gen, n, some g.ctx, max e.ts ts, part⟩)) ∧
        (e.count ≠ 0 → e.ctx = some g.ctx → e.n = n → e.count + 1 = n → ∃ t, exec (.barrierArrival w.id) s = .next t ∧
          t.barrier k = ⟨0, (e.gen + 1) % 2 ^ 16, 0, none, max e.ts ts, part⟩ ∧
          (w.kind = 0 → t = (into ⟨0, (e.gen + 1) % 2 ^ 16, 0, none, max e.ts ts, part⟩).barRelease k e.gen (max e.ts ts))) ∧
        (w.kind = 1 → e.count = 0 → 2 ≤ n → exec (.barrierArrival w.id) s =
          .next ((into ⟨1, e.gen, n, some g.ctx, max e.ts ts, part⟩).barToken w e.gen (max e.ts ts)))))) ∧
  (∀ k gen ts, k.1 ≠ podInstance → s.barRelease k gen ts =
    (s.fab.waits.filter fun w => s.barKey w == k && w.kind != 2 && w.gen == some gen).foldl (fun s w => s.barToken w gen ts) s) ∧
  (∀ pkg word kind ctx id, let k := (podInstance, bitsAt word 0 12)
    let e := s.barrier k
    let n := bitsAt word 16 16
    kind < 2 → s.barHome k.2 = s.out.pod.index →
    (e.count ≠ 0 → e.ctx ≠ some ctx → s.podArrival pkg word kind ctx id = s.send (.barrierAnswer pkg id (failToken cENGINE eBUSY 0))) ∧
    ((e.count = 0 ∨ e.ctx = some ctx ∧ e.n = n) → e.count + 1 < n → s.podArrival pkg word kind ctx id =
      (s.updFab fun f => { f with barriers := Tab.set f.barriers k ⟨e.count + 1, e.gen, n, some ctx, max e.ts s.podActs,
        (s.context ctx).part⟩ }).send (.barrierAnswer pkg id e.gen))) ∧
  (∀ bid gen, let k := (podInstance, bid % 2 ^ 12)
    let ts := max (s.barrier k).ts s.podActs
    let u := s.updFab fun f => { f with barriers := Tab.set f.barriers k ⟨0, (gen % 2 ^ 16 + 1) % 2 ^ 16, 0, none, ts, (s.barrier k).part⟩ }
    ((∀ w ∈ s.fab.waits, s.barKey w ≠ k) → exec (.podBarrierRelease bid gen) s = .next u) ∧
    (∀ w, s.fab.waits = [w] → s.barKey w = k → w.kind ≠ 2 → w.gen = some (gen % 2 ^ 16) →
      exec (.podBarrierRelease bid gen) s = .next (u.barToken w (gen % 2 ^ 16) ts)))

/-- R247, R252, R262 and R301: a request waits for the requests it follows and for a tag of its MU, and then its elements are performed one at a time, each
a read, a write or an atomic; after the last one it is done and its reply sets out or its register gets its answer. A store changes its enabled bytes and no other: at the home, in the bank, or in the copy of the
stash that owns the line; a read gives the bytes at the home. One to an IO page becomes a posted write. While its page migrates a request
to the old home is retried and one to the new home waits (R397), and one to a home in another partition is refused (R386). R270, R273 and R301: an
atomic is one read and write: the table below gives the new word of each, and its result is the old word, extended by its type. R253, R262 and R263: a reply
fills its parts of the load's buffer, and the last one completes the load, or takes the trap of the lowest element that met an
uncorrectable error; one whose tag or incarnation is not the requester's is dropped and counted. R274: a `lkwait` that is first in line takes a free
word, one whose holder lives waits, and one whose holder is dead ends with ORPHAN. R244: a dirty line whose lease its holder
has passed is written to its home and stays clean. R248: every agent's timestamp, every IOP route's and every hart's advances by 1. R250: a rebase lowers the timestamps of
its partition's agents, lines and routes alone. R394: a walk leaves its translation in the die's cache, and one that is there costs none. -/
def Obligations.RequestsArePerformed : Prop := ∀ s : State,
  (∀ r, s.ms.reqs.find? (fun q => q.id == r.id) = some r →
    ((∃ n ∈ r.after, s.performed n = false) → exec (.memoryRequest r.id) s = .next s) ∧
    ((∀ n ∈ r.after, s.performed n = true) → r.kind ≠ .engine → r.isLkwait = false →
      (s.movingAt r.acc = .arriving → exec (.memoryRequest r.id) s = .next s) ∧
      (s.movingAt r.acc = .moving → exec (.memoryRequest r.id) s = .next (s.retryReq r)) ∧
      (s.movingAt r.acc = .still →
        (s.maySend r = false → exec (.memoryRequest r.id) s = .next s) ∧
        (s.maySend r = true →
          let u := s.tagUpTo r
          (u.tagHeld (u.reqMu r) r.id r.inc = false → exec (.memoryRequest r.id) s = .next u) ∧
          (u.tagHeld (u.reqMu r) r.id r.inc = true →
            (u.refusedBy r = none → exec (.memoryRequest r.id) s = .next (u.perform r)) ∧
            (∀ d, u.refusedBy r = some d → exec (.memoryRequest r.id) s = .next (u.loseRequest r d))))))) ∧
  (∀ r e rest, r.elems = e :: rest →
    let u := s.raisePts (.agent r.aid) (s.stampMax r.after)
    let part := r.part e.off
    let h := holderForm r.ctx r.inc
    let goesOn := fun (v : State) (r' : Req) => s.perform r = if rest = [] then v.finishRequest r'
      else v.updMs fun m => { m with reqs := m.reqs.map fun q => if q.id = r.id then r' else q }
    (∀ sys, r.kind = .read sys → ∀ v bs, u.readAccess (.agent r.aid) r.ctx (part e.x) sys = (v, bs, false) →
      goesOn v { r with elems := rest, got := r.got ++ [(e.y, bs)] }) ∧
    (∀ sys, r.kind = .read sys → r.failed = none → ∀ v bs, u.readAccess (.agent r.aid) r.ctx (part e.x) sys = (v, bs, true) →
      goesOn v { r with elems := rest, got := r.got ++ [(e.y, bs)], failed := some (e.y, r.acc.va + e.off) }) ∧
    (∀ sys, r.kind = .write sys → r.acc.mt ≠ 2 → ∀ v,
      (u.writeEnabled (.agent r.aid) r.ctx (part 64) (natBytes 64 e.x) e.y sys = (v, true) → goesOn v { r with elems := rest }) ∧
      (u.writeEnabled (.agent r.aid) r.ctx (part 64) (natBytes 64 e.x) e.y sys = (v, false) → r.failed = none →
        goesOn (v.agentRecord r.aid r.origin cMEMORY_UE (r.acc.va + e.off))
          { r with elems := rest, failed := some (0, r.acc.va + e.off) })) ∧
    (∀ sys a code f g, r.kind = .write sys → r.acc.mt = 2 → r.dst = .reg a code f g →
      let ws := u.posted r.aid r.ctx r.id (part 64) (natBytes 64 e.x) e.y (some (a, code, r.id))
      goesOn (u.updMs fun m => { m with ioWrites := m.ioWrites ++ ws }) { r with elems := rest }) ∧
    (∀ op ty W v old, r.kind = .rmw op ty W → op ≠ .lkrel → (∀ a grp, r.dst ≠ .group a grp) →
      u.rmwAccess (.agent r.aid) r.ctx (part (W / 8)) (fun old => rmwNew op W e.x e.y h old) = (v, some old) →
      goesOn v { r with elems := rest, got := [(rmwResult op ty W h old, [])] })) ∧
  (Memory.wf s.ms.mem = true → ∀ (i : Issuer) (ctx : Nat) (x : Access) (bytes : List Byte) (en : Nat) (sys : Bool) (v : State),
    let stored := fun (a : Nat) => x.pa ≤ a ∧ a < x.pa + bytes.length ∧ en.testBit (a - x.pa) = true
    x.pa % 64 + bytes.length ≤ 64 → s.writeEnabled i ctx x bytes en sys = (v, true) →
    (x.mt ≤ 1 → (∀ o n, s.stashOf i (x.part o n) sys = none) →
      (∀ e ∈ s.fab.stashes, ∀ l ∈ e.2.lines, l.owned = true → l.holds x.pa = false) →
      (∀ a, stored a → v.byteAt a = bytes.getD (a - x.pa) 0) ∧ (∀ a, ¬ stored a → v.byteAt a = s.byteAt a) ∧
      v.ms.scratch = s.ms.scratch) ∧
    (x.mt = 3 → Memory.wf s.ms.scratch = true →
      (∀ a, stored a → Mem.read v.ms.scratch a = bytes.getD (a - x.pa) 0) ∧
      (∀ a, ¬ stored a → Mem.read v.ms.scratch a = Mem.read s.ms.scratch a) ∧ ∀ a, v.byteAt a = s.byteAt a)) ∧
  (∀ (i : Issuer) (ctx : Nat) (x : Access) (bytes : List Byte) n st l, x.mt = 0 → s.stashOf i x false = some n →
    Tab.get? s.fab.stashes n = some st → st.lines.length ≤ 8 → st.lines.find? (fun l => l.holds x.pa && l.owned) = some l → l.bad = false →
    ∃ t l', s.writeAccess i ctx x bytes false = (t, true) ∧ t.ms.mem = s.ms.mem ∧
      l' = { l with data := l.data.take (x.pa % 64) ++ bytes ++ l.data.drop (x.pa % 64 + bytes.length), dirty := true,
                    wts := max (s.ptsOf i) (l.lease + 1), lease := max (s.ptsOf i) (l.lease + 1), holder := i.holder } ∧
      t.fab.stashes = Tab.set s.fab.stashes n { st with lines := l' :: st.lines.filter fun m => m.pa != l.pa }) ∧
  (∀ rid row col cu slot ctx (x : Access) (sys : Bool), let i : Issuer := .agent (.actor rid row col cu slot)
    x.mt ≤ 1 → x.pa % 64 + x.len ≤ 64 → s.accessUe x = false → s.stashOf i x sys = none →
    (∀ e ∈ s.fab.stashes, ∀ l ∈ e.2.lines, l.owned = true → l.holds x.pa = false) →
    (s.readAccess i ctx x sys).2 = ((List.range x.len).map fun j => s.byteAt (x.pa + j), false)) ∧
  (∀ r, let mu := if s.tagHeld (s.muOf r.aid) r.id r.inc then s.muOf r.aid else none
    (∀ sys, r.kind = .read sys → ∃ rep, s.finishRequest r = (s.updMs fun m => { m with replies := m.replies ++ [rep] }).retire r ∧
      rep.id = r.id ∧ rep.aid = r.aid ∧ rep.inc = r.inc ∧ rep.dst = r.dst ∧ rep.got = r.got ∧ rep.failed = r.failed ∧ rep.mu = mu) ∧
    (∀ sys, r.kind = .write sys → r.acc.mt ≠ 2 → r.failed = none →
      s.finishRequest r = ((s.tagReplied mu r.id).retire r).answer r 0) ∧
    (∀ sys, r.kind = .write sys → r.acc.mt = 2 → s.finishRequest r = (s.tagReplied mu r.id).retire r) ∧
    (∀ op ty W x, r.kind = .rmw op ty W → r.failed = none → r.got = [(x, [])] →
      s.finishRequest r = ((s.tagReplied mu r.id).retire r).answer r x) ∧
    (r.kind ≠ .engine → (∀ sys, r.kind ≠ .read sys) → r.failed ≠ none → r.acc.mt ≠ 2 →
      s.finishRequest r = ((s.tagReplied mu r.id).retire r).answer r ueToken)) ∧
  (∀ W b c h old, rmwNew .add W b c h old = (old + b) % 2 ^ W ∧ rmwNew .and W b c h old = old &&& b ∧
    rmwNew .or W b c h old = old ||| b ∧ rmwNew .xor W b c h old = old ^^^ b ∧ rmwNew .xchg W b c h old = b ∧
    rmwNew .minu W b c h old = min old b ∧ rmwNew .maxu W b c h old = max old b ∧
    (sint W b < sint W old → rmwNew .min W b c h old = b ∧ rmwNew .max W b c h old = old) ∧
    (sint W old < sint W b → rmwNew .min W b c h old = old ∧ rmwNew .max W b c h old = b) ∧
    rmwNew .cas W b c h old = (if old = b then c else old) ∧
    rmwNew .fadd W b c h old = (fmtF32.addF 0 (fmtF32.value old) (fmtF32.value b)).1 ∧
    (old = 0 → rmwNew .lkacq W b c h old = h ∧ rmwResult .lkacq 7 W h old = 0) ∧
    (old ≠ 0 → rmwNew .lkacq W b c h old = old ∧ rmwResult .lkacq 7 W h old = 1) ∧
    (old = h → rmwNew .lkrel W b c h old = 0 ∧ rmwResult .lkrel 7 W h old = 0) ∧
    (old ≠ h → rmwNew .lkrel W b c h old = old ∧ rmwResult .lkrel 7 W h old = 2)) ∧
  (∀ r, s.ms.replies.find? (fun q => q.id == r.id) = some r →
    let held := s.tagHeld r.mu r.id r.inc
    let u := (s.updMs fun m => { m with replies := m.replies.filter fun q => q.id != r.id }).tagReplied r.mu r.id
    (s.agent? r.aid = none → exec (.loadReply r.id) s = .next (u.count r.die (some r.vq) 0x31)) ∧
    (∀ g a n l, s.agent? r.aid = some g → r.dst = .load a n → s.agentAlive a = true → s.ms.loads.find? (fun k => k.id == n) = some l →
      ((held = false ∨ s.incOf a g ≠ r.inc) → exec (.loadReply r.id) s = .next (u.count r.die (some r.vq) 0x31)) ∧
      (held = true → s.incOf a g = r.inc →
        let l' := l.take r
        l'.buffer = r.got.foldl (fun b p => b.take p.1 ++ p.2 ++ b.drop (p.1 + p.2.length)) l.buffer ∧
        l'.waiting = l.waiting.erase r.id ∧ (∀ x, l.failed = none → r.failed = x → l'.failed = x) ∧
        (∀ x y, l.failed = some x → r.failed = some y → l'.failed = some (if y.1 < x.1 then y else x)) ∧
        (l'.waiting ≠ [] → exec (.loadReply r.id) s =
          .next (u.updMs fun m => { m with loads := m.loads.map fun k => if k.id = n then l' else k })) ∧
        (l'.waiting = [] → l'.failed = none → exec (.loadReply r.id) s = .next (u.loadComplete l')) ∧
        (∀ p va, l'.waiting = [] → l'.failed = some (p, va) → exec (.loadReply r.id) s =
          .next (u.takeTrap a cMEMORY_UE l.idx ((g.block.map (·.addr)).getD 0) va 0))))) ∧
  (∀ r n, s.ms.reqs.find? (fun q => q.id == r.id && q.isLkwait) = some r → r.waitOrder = some n → s.accessUe r.acc = false →
    s.movingAt r.acc = .still →
    (s.peekWord r.acc.pa = 0 → (∀ q ∈ s.ms.reqs, q.isLkwait = true → q.acc.pa = r.acc.pa → ∀ k, q.waitOrder = some k → n ≤ k) →
      exec (.lkwaitAcquire r.id) s = .next (s.perform r)) ∧
    (s.peekWord r.acc.pa ≠ 0 → s.holderDead (s.peekWord r.acc.pa) = false → exec (.lkwaitAcquire r.id) s = .next s) ∧
    ((s.peekWord r.acc.pa).testBit 63 = true → s.holderDead (s.peekWord r.acc.pa) = true →
      let u := s.raisePts (.agent r.aid) (s.stampMax r.after)
      let mu := if s.tagHeld (s.muOf r.aid) r.id r.inc then s.muOf r.aid else none
      exec (.lkwaitAcquire r.id) s = .next ((((u.rmwAccess (.agent r.aid) r.ctx r.acc id).1.tagReplied mu r.id).retire r).answer r 3))) ∧
  (∀ rid row col mu bank line st l, Tab.get? s.fab.stashes ⟨rid, row, col, mu, bank⟩ = some st →
    st.lines.find? (fun l => l.pa == line && l.dirty) = some l →
    ((∀ h, l.holder = some h → s.ptsOf (holderIssuer h) ≤ l.lease) →
      exec (.leaseExpiryWriteback rid row col mu bank line) s = .next s) ∧
    (∀ h, l.holder = some h → l.lease < s.ptsOf (holderIssuer h) → ∃ t, exec (.leaseExpiryWriteback rid row col mu bank line) s = .next t ∧
      (Memory.wf s.ms.mem = true → l.data.length = 64 → ∀ a, t.byteAt a =
        if l.pa * 64 ≤ a ∧ a < l.pa * 64 + 64 then l.data.getD (a - l.pa * 64) 0 else s.byteAt a) ∧
      (l.pa ∈ t.ms.ue ↔ l.pa ∈ s.ms.ue ∨ l.bad = true) ∧
      t.fab.stashes = Tab.modify s.fab.stashes ⟨rid, row, col, mu, bank⟩ fun st =>
        { st with lines := st.lines.map fun m => if m.pa = line then { m with dirty := false, owned := false } else m })) ∧
  (∃ t, exec .ptsAdvance s = .next t ∧ (∀ a g, (a, g) ∈ s.agents →
      (a, { g with pts := g.pts + 1, epts := g.epts.map fun x => (x.1, x.2 + 1) }) ∈ t.agents) ∧
    t.agents.length = s.agents.length ∧ (∀ d < 64, t.floorTs d = s.floorTs d + 1) ∧
    (∀ k n, (k, n) ∈ s.out.iopPts → (k, n + 1) ∈ t.out.iopPts) ∧ (∀ h n, (h, n) ∈ s.out.harts → (h, n + 1) ∈ t.out.harts) ∧
    t.ms.mem = s.ms.mem ∧ t.ms.reqs = s.ms.reqs ∧ t.fab = s.fab ∧ t.sched = s.sched) ∧
  (∀ p delta, ∃ t, exec (.timestampRebase p delta) s = .next t ∧ t.ms.mem = s.ms.mem ∧ t.sched = s.sched ∧
    (∀ a g, (a, g) ∈ s.agents →
      (s.agentIn p (a, g) = true → ∃ g', (a, g') ∈ t.agents ∧ g'.pts = g.pts - delta ∧ g'.regs = g.regs ∧
        g'.epts = g.epts.map fun x => (x.1, x.2 - delta)) ∧
      (s.agentIn p (a, g) = false → (a, g) ∈ t.agents)) ∧
    (∀ k x, (k, x) ∈ s.ms.lines → s.lineIn p k = true → (k, ⟨x.wts - delta, x.rts - delta, x.slice⟩) ∈ t.ms.lines) ∧
    (∀ k x, (k, x) ∈ s.ms.lines → s.lineIn p k = false → (k, x) ∈ t.ms.lines) ∧
    (∀ k n, (k, n) ∈ s.out.iopPts → (k, if (s.partition p).hasDie k.2 then n - delta else n) ∈ t.out.iopPts)) ∧
  (∀ die quad ctx (va : BitVec 64),
    ((lookupCache (Tab.getD s.ms.tlbDie die []) ctx va.toNat).isSome = true → exec (.translationWalk die quad ctx va) s = .next s) ∧
    (lookupCache (Tab.getD s.ms.tlbDie die []) ctx va.toNat = none →
      exec (.translationWalk die quad ctx va) s = .next (s.leafFor die quad ctx va.toNat).1))

/-- R351: a tail that would run past the ring is ignored and counted as LQ_OVERRUN (event 0x52), else it is stored. R353: a queue that is
disabled, empty, at its depth or whose head waits on another launch admits nothing, nor does one that has asked the host (R366); one whose head descriptor is read, legal, met and
fitting counts it as admitted. R359: an allocator round donates, places and marks floors. R354: a launch starts once its start tick has
come and not before, and each paced actor has its first pace point then or later, less than a period away. R355: a quiescent launch completes with status OK and its region is released, unless records wait at its exits;
one that is not quiescent stays. R360: a floor that has waited `FLOORWAIT` has its victim drained for `VICTIMTO`. R366: an answer that
refuses a request takes it off the list; one for a victim drains it. -/
def Obligations.LaunchesRun : Prop := ∀ s : State,
  (∀ n (v : BitVec 64), let tail : Nat := v.toNat % 2 ^ 32
    let ahead := wrap 32 (Int.ofNat tail - (s.lq n).done)
    (2 ^ (s.lq n).lsize < ahead →
      exec (.lqTailWrite n v) s = .next (s.count (8 * (s.partition (s.lqPart n)).first) none 0x52)) ∧
    (ahead ≤ 2 ^ (s.lq n).lsize → exec (.lqTailWrite n v) s = .next (s.updLq n fun q => { q with tail := tail }))) ∧
  (∀ n, let q := s.lq n
    (q.en = false ∨ q.head = q.tail ∨ q.depth + 1 ≤ q.depthUsed → exec (.launchAdmit n) s = .next s) ∧
    (s.asked 0 n q.head = true → exec (.launchAdmit n) s = .next s) ∧
    (s.mayAdmit n = true → s.asked 0 n q.head = false → s.assisted (s.lqPart n) 0 = false → ∀ u bs,
      s.muRead (8 * (s.partition (s.lqPart n)).first) 0x1FF q.ctx (wrap 64 (q.base + 256 * (q.head % 2 ^ q.lsize) : Nat)) 192 = (u, .ok bs) →
      let d := Descriptor.of bs
      (d.ok u (s.lqPart n) = true → (∃ x ∈ d.needs, s.depMet x = false) → exec (.launchAdmit n) s = .next s) ∧
      (d.ok u (s.lqPart n) = true → s.out.stage < 3 → d.flags.testBit 3 = false → exec (.launchAdmit n) s = .next s) ∧
      (d.ok u (s.lqPart n) = true → s.rowZeroFails = true → exec (.launchAdmit n) s = .next s) ∧
      (d.ok u (s.lqPart n) = true → (∀ x ∈ d.needs, s.depMet x = true) → s.out.stage = 3 → s.rowZeroFails = false →
        shapeFits (u.lqDies n) d.height d.width = true → exec (.launchAdmit n) s = .next (u.admits n (u.launchOf q.ctx d))))) ∧
  (∀ die, exec (.allocatorRound die) s =
    .next ((s.donate.placeRound die [] (s.donate.sched.launches.length + 1)).markFloors die)) ∧
  (∀ rid l, s.launch? rid = some l → l.state = .running → l.started = false →
    (∀ x, l.startTick = some x → s.clk.tick < x → exec (.launchStart rid) s = .next s) ∧
    ((∀ x, l.startTick = some x → x ≤ s.clk.tick) → (∀ e ∈ s.agents, inRid rid e.1 = true → e.2.pace = none) →
      exec (.launchStart rid) s = .next (s.updLaunch rid fun l => { l with started := true })) ∧
    ((∀ x, l.startTick = some x → x ≤ s.clk.tick) → ∀ a g p, (a, g) ∈ s.agents → inRid rid a = true → g.pace = some p → p ≠ 0 →
      ∃ t n, exec (.launchStart rid) s = .next t ∧ (a, { g with nextPace := n }) ∈ t.agents ∧
        s.clk.tick ≤ n ∧ n < s.clk.tick + p ∧ (n - l.startTick.getD s.clk.tick) % p = 0)) ∧
  (∀ rid l r, s.launch? rid = some l → s.region? rid = some r → l.state = .running → l.started = true → r.op = .none →
    (s.quiescent rid = false → exec (.launchComplete rid) s = .next s) ∧
    (s.quiescent rid = true → let u := s.completeLaunch rid 0 0
      exec (.launchComplete rid) s = .next (if u.exitHolds rid then u else u.freeRegion rid))) ∧
  (∀ die ctx x, (s.credit die ctx).floorSince = some x → s.starves die ctx = true → (s.schedcfg die).2 ≠ 0 →
    (s.clk.tick < x + (s.schedcfg die).2 → exec (.floorPreempt die ctx) s = .next s) ∧
    (x + (s.schedcfg die).2 ≤ s.clk.tick → s.victim die ctx = none → exec (.floorPreempt die ctx) s = .next s) ∧
    (x + (s.schedcfg die).2 ≤ s.clk.tick → (∀ a ∈ s.sched.assists, ¬(a.fn = 2 ∧ a.die = die ∧ a.cand.headD 0 = ctx)) →
      ∀ rid r, s.victim die ctx = some (rid, r) → s.assisted (s.partOf r.ctx) 2 = false →
      exec (.floorPreempt die ctx) s = .next ((s.startDrain rid (s.clk.tick + (s.schedcfg die).1) .allocator none).updCredit die ctx
        fun x => { x with floorSince := none, victim := some rid }))) ∧
  (∀ p slot ok y x a, s.sched.assists.find? (fun b => b.p == p && b.slot == slot) = some a → s.swapping = false →
    let u := s.updSched fun z => { z with assists := z.assists.filter fun b => !(b.p == p && b.slot == slot) }
    (ok = false → a.fn ≠ 4 → exec (.hostAssistAnswer p slot ok y x) s = .next u) ∧
    (ok = true → a.fn = 0 → u.mayAdmit a.lq = true → (u.lq a.lq).head = a.seq →
      exec (.hostAssistAnswer p slot ok y x) s = .next (u.admitHead a.lq)) ∧
    (ok = true → a.fn = 2 → ∀ r, u.region? (ridOf y x) = some r → u.running (ridOf y x) = true → r.op = .none → u.partOf r.ctx = p →
      exec (.hostAssistAnswer p slot ok y x) s = .next (u.drainVictim a.die (a.cand.headD 0) (ridOf y x))))

/-- R369 and R371: a drain that an agent asked for completes once every exit has had its DRAIN and nothing moves inside the region: the DRAINs are
removed, the region is captured and the asker gets 0; before that it stays. A freeze closes once the wave has passed every quad and
nothing moves, and not before. R370: a drain that its asker timed out is abandoned and the region goes on, with status TIMEOUT; one of the
allocator is frozen. R381: bit 0 of `CTXKILL` kills what the context holds and clears `LIVE`, once every kill has had its incarnation (R382); any other value does nothing. R389 and
R395: the context's translations are shot down, of which none is left, and the new root is set once
everything that they translated has been performed, and not before. R387: a change to rows that stand side
by side names a queue or thread that is not idle, or reads RUNNING and then gives each partition its rows and each die its partition; the
chapter's own example of a split, from reset. R416 and R417: `frz` and `drn` of a
running launch begin a freeze and a drain, `imgld` of one in memory begins to read its image, `rfree.free` of a completed one frees its
region, and what has no region gives STATE. R396 and R397: a write without GO does nothing, one while a migration runs is BUSY,
addresses that are not pages of the partition's memory are INVALID, and a migration reads RUNNING until it has moved the bytes of the page and turned what is
under way to it to the new one. That the steps of either are one step of the model is log 40. -/
def Obligations.RegionsAndContextsChange : Prop := ∀ s : State,
  (∀ rid r deadline a code id, s.region? rid = some r → s.running rid = true →
    r.op = .drain deadline .software (some (a, code, id)) →
    (s.drained rid r && s.settled rid = false → exec (.drainComplete rid) s = .next s) ∧
    (s.drained rid r = true → s.settled rid = true → exec (.drainComplete rid) s = .next
      (((((s.exitSources rid).filter fun q => (s.head? q).map (·.kind) == some kDRAIN).foldl State.removeDrain s).closeCapture
        rid 0 false false).arrive a code id 0 [])) ∧
    ((s.clk.tick < deadline ∨ s.tickEnds = false) → exec (.drainTimeout rid) s = .next s) ∧
    (deadline ≤ s.clk.tick → s.tickEnds = true → exec (.drainTimeout rid) s =
      .next ((s.updRegion rid fun r => { r with op := .none }).arrive a code id sTIMEOUT []))) ∧
  (∀ rid r deadline, s.region? rid = some r → r.op = .drain deadline .allocator none → deadline ≤ s.clk.tick → s.tickEnds = true →
    exec (.drainTimeout rid) s = .next (((s.updRegion rid fun r => { r with op := .none }).updLaunch rid fun l =>
      { l with preempted := true }).startFreeze rid none)) ∧
  (∀ rid r start a code id drnp, s.region? rid = some r → s.running rid = true → r.op = .freeze start (some (a, code, id)) drnp →
    ((s.clk.dieCycle (r.quad 0 0).1 < start + (r.height - 1) + (r.width - 1) ∨ s.settled rid = false) → exec (.freezeCaptureClose rid) s = .next s) ∧
    (start + (r.height - 1) + (r.width - 1) ≤ s.clk.dieCycle (r.quad 0 0).1 → s.settled rid = true → exec (.freezeCaptureClose rid) s = .next
      ((s.closeCapture rid 1 drnp (((s.launch? rid).map (·.preempted)).getD false)).arrive a code id 0 []))) ∧
  (∀ c (v : BitVec 64), (v.getLsbD 0 = false → exec (.ctxkillWrite c v) s = .next s) ∧
    (v.getLsbD 0 = true → (∀ e ∈ s.sched.regions, e.2.ctx ≠ c) → s.sched.calls = [] → exec (.ctxkillWrite c v) s =
      .next (s.updContext c fun x => { x with live := false })) ∧
    (v.getLsbD 0 = true → let u := (s.heldLaunches c).foldl (fun s r => s.killLaunch r) s
      (u.killsDone c = true → exec (.ctxkillWrite c v) s = .next (u.finishContext c)) ∧
      (u.killsDone c = false →
        exec (.ctxkillWrite c v) s = .next (u.updSched fun x => { x with ending := addOnce x.ending c })))) ∧
  (∀ c (v : BitVec 64), ∃ t, exec (.ctxptWrite c v) s = .next t ∧ (∀ e ∈ t.ms.tlbDie, ∀ x ∈ e.2, x.ctx ≠ c) ∧
    (∀ e ∈ t.ms.tlbQuad, ∀ x ∈ e.2, x.ctx ≠ c) ∧
    (s.sched.sysWaits = [] →
      ((∃ w ∈ s.ms.ioWrites, w.ctx = c ∧ s.performed w.id = false) → ∀ d, t.context d = s.context d) ∧
      (s.ms.reqs = [] → s.ms.ioWrites = [] → (∀ e ∈ s.agents, e.2.ctx ≠ c) → (∀ e ∈ s.out.requesters, e.2.items = []) →
        Tab.get? s.out.shots s.nextId = none →
        (t.context c).root = v.toNat / 2 ^ 12 % 2 ^ 40 ∧ (t.context c).rootV = v.getLsbD 0 ∧ ∀ d, d ≠ c → t.context d = s.context d))) ∧
  (∃ t u, exec (.pchgWrite 0x0101010100000000) State.reset = .next t ∧ t.readCr 0xE0008 = 3 ∧ todoStep .partitionChange t = .next u ∧
    u.readCr 0xE0008 = 0x01000000 ∧ u.readCr 0xC0000 = 0x8018 ∧ u.readCr 0xC0100 = 0x803C ∧ u.readCr 0xD0000 = 0 ∧ u.readCr 0xD2000 = 1) ∧
  (∀ v : BitVec 64, s.sched.pchg.done = true → (∀ p < 8, contiguous (pchgRows v.toNat p) = true) →
    let affected := (List.range 8).filter fun p => pchgRows v.toNat p != (s.partition p).rows
    let dies := affected.flatMap fun p => (s.partition p).dies
    (∀ who, s.notIdle affected dies = some who → exec (.pchgWrite v) s = .next (s.updSched fun x => { x with pchg := ⟨true, who, 1⟩ })) ∧
    (s.notIdle affected dies = none →
      exec (.pchgWrite v) s = .next (s.updSched fun x => { x with pchg := ⟨false, 0, 3⟩, pchgRun := some v.toNat }))) ∧
  (∀ v, s.sched.pchgRun = some v → (∀ p < 8, contiguous (pchgRows v p) = true) → ∃ t, todoStep .partitionChange s = .next t ∧
    t.sched.pchg = ⟨true, 0, 0⟩ ∧ t.sched.pchgRun = none ∧
    (∀ p < 8, (t.partition p).rows = pchgRows v p) ∧ (∀ d < 64, t.dieOf d = v / 2 ^ (8 * (d / 8)) % 8)) ∧
  (∀ v : BitVec 64, (s.sched.pchg.done = false → exec (.pchgWrite v) s = .next s) ∧
    (s.sched.pchg.done = true → (∃ p < 8, contiguous (pchgRows v.toNat p) = false) →
      exec (.pchgWrite v) s = .next (s.updSched fun x => { x with pchg := ⟨true, 0, 2⟩ }))) ∧
  (∀ p (v : BitVec 64), let x := s.partition p
    let bad := x.migva % 2 ^ 16 ≠ 0 ∨ x.migold % 2 ^ 16 ≠ 0 ∨ x.mignew % 2 ^ 16 ≠ 0 ∨ x.migold = x.mignew ∨
      x.rows.length * 2 ^ 37 ≤ x.migold ∨ x.rows.length * 2 ^ 37 ≤ x.mignew
    (v.getLsbD 63 = false → exec (.migrationGo p v) s = .next s) ∧
    (v.getLsbD 63 = true → x.migdone = false → exec (.migrationGo p v) s = .next (s.updPartition p fun x => { x with migst := 1 })) ∧
    (v.getLsbD 63 = true → x.migdone = true → bad →
      exec (.migrationGo p v) s = .next (s.updPartition p fun x => { x with migst := 2, migdone := true })) ∧
    (v.getLsbD 63 = true → x.migdone = true → ¬ bad →
      exec (.migrationGo p v) s = .next (s.updPartition p fun x => { x with
        migctx := v.toNat % 2 ^ 10, migst := 3, migdone := false, migrun := some (x.migva, x.migold, x.mignew) }))) ∧
  (∀ p va old new, (s.partition p).migrun = some (va, old, new) →
    let u := (s.shootDown (s.partition p).migctx (some va) none).copyPage (memBase p + old) (memBase p + new)
    todoStep (.migration p) s = .next ((u.retryAll (memBase p + old)).updPartition p
      fun x => { x with migst := 0, migdone := true, migrun := none })) ∧
  (∀ old new, s.fab.stashes = [] → Memory.wf s.ms.mem = true → old % 2 ^ 16 = 0 → new % 2 ^ 16 = 0 → ∀ j < 2 ^ 16,
    (s.copyPage old new).byteAt (new + j) = s.byteAt (old + j)) ∧
  (∀ a g o id rid l, let who := (a, o.reg, id)
    let runs := l.state = .running ∧ s.frozen rid = false
    (∀ r, o.op = 0xD7 → s.region? rid = some r → runs → s.regionOp a g o id rid l = s.startFreeze rid (some who)) ∧
    (∀ r, o.op = 0xD8 → s.region? rid = some r → runs → r.op = .none →
      s.regionOp a g o id rid l = s.startDrain rid (s.clk.tick + scalNat o.b) .software (some who)) ∧
    (∀ r, o.op = 0xDA → s.region? rid = some r → l.state = .exported →
      s.regionOp a g o id rid l = s.beginImgld a o.reg id rid (scalNat o.b)) ∧
    (∀ r, o.op = 0xDC → o.rm ≠ 1 → s.region? rid = some r → l.state = .completed →
      s.regionOp a g o id rid l = (((s.answerRegionOp r sSTATE).completeLaunch rid stFREED 0).freeRegion rid).arrive a o.reg id 0 []) ∧
    ((o.op = 0xD7 ∨ o.op = 0xD8 ∨ o.op = 0xD9 ∨ o.op = 0xDA ∨ o.op = 0xDC) → s.region? rid = none →
      s.regionOp a g o id rid l = s.arrive a o.reg id sSTATE []))

/-- R410, R421 and R422: a register write of a function takes effect at once where nothing of it is held back, and else joins what is; a virtual
function without a live context reaches no control register. R423, R424 and R431: an aperture write, an aperture read and the access of a
remote package join what their requester holds, in order. R424 and R425: the first unsent item of a requester is translated if it is a write, whose fault
drops it; a line write goes out while every earlier one in flight has its route, and else waits, as it does while its partition changes
(R387); one whose aperture is off is dropped, and a read of it is answered 1. An acknowledged write is performed at its home as the first of
its requester, unless its page migrates (R397). A read goes on by one line at a time, each after what its requester wrote, and ends with
its bytes or with the failure that it met. R427: a reset of a virtual function turns its aperture off, clears both ring indices, writes
the reset record and makes a VF_RESET record for management, and a reset of a physical function resets its virtual ones (log 63). R434 and
R426: a held device write that has nothing to follow goes out while the bucket of its function is positive, which is charged the bytes it
writes, and 4 more for the message of a host call; a function without a limit is charged nothing; its last acknowledgement writes its
register. A register read waits behind its function's earlier writes (R421, R425). R429: a hart of the chiplet reads or writes a line of
the partition of die row 0 as one event, unless a die of another partition refuses it; an IO access joins those of the north-west IOP's
requester for the chiplet. That a hart acts for no context is log 58. -/
def Obligations.HostAccesses : Prop := ∀ s : State,
  (∀ v n, ((s.vf v).rate = 0 → s.charge (some v) n = s) ∧
    ((s.vf v).rate ≠ 0 → s.charge (some v) n = s.updVf v fun f => { f with bucket := f.bucket - 675 * n })) ∧
  (∀ who addr (v : BitVec 64), let u := s.charge who 8
    ((u.requester (requesterOf who)).items = [] → exec (.controlRegisterWrite who addr v) s = .next (u.hostRegWrite who addr v.toNat)) ∧
    ((u.requester (requesterOf who)).items ≠ [] →
      exec (.controlRegisterWrite who addr v) s = .next (u.iopAdd (requesterOf who) (.reg who addr v.toNat))) ∧
    s.askRegister who addr = u.iopAdd (requesterOf who) (.regRead who addr)) ∧
  (requesterOf none = 257 ∧ (∀ f < 256, requesterOf (some f) = f + 1) ∧ ∀ k, 1 ≤ k → requesterOf (some (256 + k)) = 258 + k) ∧
  (∀ addr v, addr < 0x100000 → s.hostRegWrite none addr v = s.functionWrite none addr v true ∧
    (∀ k < 8, s.hostRegWrite (some (256 + k)) addr v = s.functionWrite (some (256 + k)) addr v true) ∧
    ∀ f < 256, s.boundCtx f = none → s.hostRegWrite (some f) addr v = s) ∧
  (∀ f off v, f < 256 → off < 4096 → s.hostRegWrite none (0x100000 + 4096 * f + off) v = s.writeLocal f off v true) ∧
  (∀ who a v atM, (∀ d t, Reg.at a ≠ some (.cqNotify d t)) → s.functionWrite who a v atM = s.writeCr a v atM) ∧
  (∀ vf off bytes, exec (.hostApertureWrite vf off bytes) s =
    .next ((s.charge (some vf) bytes.length).iopAdd (requesterOf (some vf)) (.raw (some vf) 0 (off % 2 ^ 36) bytes))) ∧
  (∀ vf off size, exec (.hostApertureRead vf off size) s =
    .next ((s.charge (some vf) size).iopAdd (requesterOf (some vf)) (.read (some vf) 0 (off % 2 ^ 36) size false))) ∧
  (∀ pkg ctx (va : BitVec 64) size, let q := 1024 + pkg % 256 * 1024 + ctx % 1024
    (∀ bs, exec (.podMemoryAccess pkg ctx va (some bs) size) s =
      .next (s.iopAdd q (.raw none (ctx % 1024) (va.toNat % 2 ^ 40) bs))) ∧
    exec (.podMemoryAccess pkg ctx va none size) s =
      .next (s.iopAdd q (.read none (ctx % 1024) (va.toNat % 2 ^ 40) size false))) ∧
  (∀ vf, vf < 256 → ∃ t e, exec (.functionLevelReset vf) s = .next t ∧ t = s.resetVf vf ∧ (t.vf vf).aperEn = false ∧ (t.vf vf).hcrt = 0 ∧
    (t.vf vf).hcrh = 0 ∧ (t.vf vf).rst.length = 64 ∧ (t.vf vf).rst.take 2 = natBytes 2 vf ∧ t.sched.traps.getLast? = some e ∧
    e.management = true ∧ e.trap.cause = 0x43 ∧ e.trap.ctx = (s.boundAny vf).getD 0xFFFF ∧ e.trap.detail = vf) ∧
  (∀ k, (k < 8 → let u := (s.quietFunction (if k = 0 then none else some (256 + k))).updVf (256 + k) fun _ => Vf.reset
      exec (.functionLevelReset (256 + k)) s =
        .next (((List.range 256).filter fun v => u.pfOf v == k).foldl (fun s v => s.resetVf v) u)) ∧
    (8 ≤ k → exec (.functionLevelReset (256 + k)) s = .next s)) ∧
  (∀ q x ctx bytes route tail, (s.requester q).items = .write x ctx bytes route false :: tail →
    (s.changing (memPart x.pa) = true → exec (.iopWriteSend q) s = .next s) ∧
    (s.changing (memPart x.pa) = false → exec (.iopWriteSend q) s = .next ((s.raisePts (.route (s.iopOf q) route)
      ((s.requester q).ackedElse route)).setItems q (.write x ctx bytes route true :: tail)))) ∧
  (∀ q x ctx bytes route x' ctx' bytes' route' tail,
    (s.requester q).items = .write x ctx bytes route true :: .write x' ctx' bytes' route' false :: tail →
    (route' ≠ route → exec (.iopWriteSend q) s = .next s) ∧
    (route' = route → s.changing (memPart x'.pa) = false → exec (.iopWriteSend q) s =
      .next ((s.raisePts (.route (s.iopOf q) route') ((s.requester q).ackedElse route')).setItems q
        (.write x ctx bytes route true :: .write x' ctx' bytes' route' true :: tail)))) ∧
  (∀ q v ctx va tail, s.aperture v va = none →
    (∀ bytes, (s.requester q).items = .raw (some v) ctx va bytes :: tail → exec (.iopWriteSend q) s = .next (s.setItems q tail)) ∧
    (∀ size r, (s.requester q).items = .read (some v) ctx va size r :: tail →
      exec (.iopWriteSend q) s = .next ((s.setItems q tail).send (.completion q 1 [])))) ∧
  (∀ q ctx va bytes tail u, (s.requester q).items = .raw none ctx va bytes :: tail →
    (∀ xs, s.iopAccess ctx va bytes.length true = (u, .ok xs) →
      exec (.iopWriteSend q) s = .next (u.setItems q (lineItems u ctx xs bytes ++ tail))) ∧
    (∀ cause v, s.iopAccess ctx va bytes.length true = (u, .error (cause, v)) →
      exec (.iopWriteSend q) s = .next ((if 1024 ≤ q then u.send (.completion q cause []) else u.iopFault ctx cause v).setItems q tail))) ∧
  (∀ q ctx va size r tail u cause v, (s.requester q).items = .read none ctx va size r :: tail →
    s.iopAccess ctx va size false = (u, .error (cause, v)) →
    exec (.iopWriteSend q) s = .next ((u.setItems q tail).send (.completion q (if 1024 ≤ q then cause else 2) []))) ∧
  (∀ q ctx y left got r tail u x xs v bs ue, (s.requester q).items = .reading ctx (y :: left) got r :: tail →
    s.iopAccess ctx y.va y.len false = (u, .ok (x :: xs)) → u.movingAt x = .still →
    (let i := Issuer.route (u.iopOf q) (u.routeOf x)
     (u.raisePts i (u.requester q).acked).readAccess i ctx x false = (v, bs, ue)) →
    (ue = false → left ≠ [] → exec (.iopWriteSend q) s = .next (v.setItems q (.reading ctx left (got ++ bs) r :: tail))) ∧
    (ue = false → left = [] → exec (.iopWriteSend q) s = .next ((v.setItems q tail).send (.completion q 0 (got ++ bs)))) ∧
    (ue = true → exec (.iopWriteSend q) s =
      .next ((v.setItems q tail).send (.completion q (if 1024 ≤ q then cMEMORY_UE else 2) [])))) ∧
  (∀ q x ctx bytes route rest, (s.requester q).items = .write x ctx bytes route true :: rest →
    let v := (s.setItems q rest).ackSent q
    (s.movingAt x = .arriving → exec (.iopAck q) s = .next s) ∧
    (∀ u y, s.movingAt x = .moving → s.retried (s.iopDie ctx) 0x1FF ctx x = (u, y) →
      exec (.iopAck q) s = .next (u.setItems q (.write y ctx bytes (u.routeOf y) true :: rest))) ∧
    (∀ u, s.movingAt x = .still → v.writeAccess (.route (v.iopOf q) route) ctx x bytes true = (u, true) →
      exec (.iopAck q) s =
        .next (if 1024 ≤ q then (u.noteAck q route).send (.completion q 0 []) else u.noteAck q route).settleSys) ∧
    (∀ u, s.movingAt x = .still → v.writeAccess (.route (v.iopOf q) route) ctx x bytes true = (u, false) →
      exec (.iopAck q) s = .next (u.asyncRecord cMEMORY_UE ctx 0 (u.iopDie ctx) 0x1FF 0 x.va).settleSys)) ∧
  (∀ q x ctx bytes route rest, (s.requester q).items = .write x ctx bytes route false :: rest →
    exec (.iopAck q) s = .next s) ∧
  (∀ vf, let fn := if vf < 256 then some vf else none
    (vf < 256 → (s.vf vf).rate ≠ 0 → (s.vf vf).bucket ≤ 0 → exec (.rateLimitRelease vf) s = .next s) ∧
    ((vf < 256 → (s.vf vf).rate = 0 ∨ 0 < (s.vf vf).bucket) →
      let ready := fun (w : IoWrite) => w.sent = false ∧ w.vf = fn ∧ ∀ n ∈ w.after, s.performed n = true
      ((∀ w ∈ s.ms.ioWrites, ¬ ready w) → exec (.rateLimitRelease vf) s = .next (s.releaseFrame vf)) ∧
      ∀ before w rest, s.ms.ioWrites = before ++ w :: rest → (∀ x ∈ before, ¬ ready x) → ready w →
        let goes := fun (u : State) => (u.updMs fun m => { m with ioWrites := before ++ { w with sent := true } :: rest }).send w.message
        (w.vec = none → exec (.rateLimitRelease vf) s = .next (goes (s.charge fn w.size))) ∧
        (∀ x, w.vec = some x → exec (.rateLimitRelease vf) s = .next ((goes (s.charge fn (w.size + 4))).raiseVector w.vf x)))) ∧
  (∀ w rest, s.ms.ioWrites = w :: rest → w.sent = true → let u := s.updMs fun m => { m with ioWrites := rest }
    ((∃ x ∈ rest, x.id = w.id) → exec (.ioWriteAck w.id) s = .next u.settleSys) ∧
    ((∀ x ∈ rest, x.id ≠ w.id) →
      (w.reg = none → exec (.ioWriteAck w.id) s = .next u.settleSys) ∧
      (∀ a code n, w.reg = some (a, code, n) → exec (.ioWriteAck w.id) s = .next (u.arrive a code n 0 [n]).settleSys))) ∧
  (∀ q who addr tail, (s.requester q).items = .regRead who addr :: tail → exec (.iopWriteSend q) s =
    .next ((s.setItems q tail).send
      (.completion q 0 (natBytes 8 ((s.setItems q tail).hostRegRead who addr))))) ∧
  (∀ h pa n, 1 ≤ n → pa % 64 + n ≤ 64 → ∀ mt < 2,
    let acc : Access := ⟨pa, memBase (s.dieOf 0) + pa % 2 ^ 52, mt, n, none⟩
    (s.refuses 0 (s.homeDie acc) = true →
      s.hartAccess h mt pa (.read n) = (s.refuse (s.homeDie acc)).send (.hart h [])) ∧
    (s.refuses 0 (s.homeDie acc) = false → ∀ u bs, s.readAccess (.hart h) 1024 acc false = (u, bs, false) →
      s.hartAccess h mt pa (.read n) = u.send (.hart h bs)) ∧
    (s.refuses 0 (s.homeDie acc) = false → ∀ bs, bs.length = n →
      s.hartAccess h mt pa (.write bs) = (s.writeAccess (.hart h) 1024 acc bs false).1.send (.hart h []))) ∧
  (∀ h pa bs, s.hartAccess h 2 pa (.write bs) = s.iopAdd 258 (.pass (hartMessage pa (.write bs))))

/-- R435: a frame whose header breaks the table, that is out of order or comes on another connection is discarded and counted by TEXT_BAD;
one that starts a request is answered by a REJECT frame where its VF is bound to no live context, the context has no launch holding a text
stream, or the slot holds no vocabulary; any other feeds its payload to the carder. R441: the blocker takes the head of a text stream,
counts one that is no DATA record with `kv`, and adds the string of its ID to the session; released bytes leave after 2,700 ticks and not
before; a closed connection is marked and
loses the frames that wait for it. R439: a token that the next byte shows not to be the last is put before that byte. R438: VOCLOAD and VOCDROP wait in the swap window (log 39), answer BUSY for a slot whose older version is in use, and BADIMG for an
image that breaks R437; else the slot holds the new version, or is empty. R430: a failed port is skipped. That the calls of a context with no VF answer NOSVC is
the model's choice (log 44). -/
def Obligations.TextService : Prop := ∀ s : State,
  (∀ conn bytes, frameOk bytes = false → bytes.length < 8 → exec (.textFrame conn bytes) s = .next (s.textBad conn)) ∧
  (∀ conn bytes, let u := s.charge (some (fieldAt bytes 6 2)) bytes.length
    let n := fieldAt bytes 8 4
    let vf := fieldAt bytes 6 2
    let slot := fieldAt bytes 12 1
    let flags := fieldAt bytes 5 1
    (frameOk bytes = false → 8 ≤ bytes.length → vf < 256 → exec (.textFrame conn bytes) s = .next (u.textBad conn)) ∧
    (frameOk bytes = true → ∀ k, u.session? n = some k → k.isOpen = true →
      ((k.conn ≠ conn ∨ fieldAt bytes 20 4 ≠ k.fseq) → exec (.textFrame conn bytes) s = .next (u.textBad conn)) ∧
      (k.conn = conn → fieldAt bytes 20 4 = k.fseq → flags.testBit 0 = false → exec (.textFrame conn bytes) s =
        .next ((u.updSession n fun k => { k with fseq := k.fseq + 1 }).feedFrame n (bytes.drop 32) (flags.testBit 2)))) ∧
    (frameOk bytes = true → (∀ k, u.session? n = some k → k.isOpen = false) →
      (flags.testBit 0 = false → exec (.textFrame conn bytes) s = .next (u.textBad conn)) ∧
      (flags.testBit 0 = true → flags.testBit 1 = false → fieldAt bytes 20 4 = 0 →
        (u.boundCtx vf = none → exec (.textFrame conn bytes) s = .next (u.rejectFrame conn vf n slot false)) ∧
        (∀ ctx, u.boundCtx vf = some ctx → (u.holdsText ctx = false ∨ Tab.get? u.out.vocabs (vf, slot) = none) →
          exec (.textFrame conn bytes) s = .next (u.rejectFrame conn vf n slot false)) ∧
        (∀ ctx v, u.boundCtx vf = some ctx → u.holdsText ctx = true → Tab.get? u.out.vocabs (vf, slot) = some v → u.session? n = none →
          exec (.textFrame conn bytes) s = .next ((u.updOut fun o => { o with
            sessions := Tab.set o.sessions n ⟨conn, false, vf, ctx, slot, v, true, 1, [], 0, none, 0, 0, 0, [], [], 0, 0⟩ }).feedFrame n
              (bytes.drop 32) (flags.testBit 2)))))) ∧
  (∀ ctx,
    (s.fab.texts.find? (fun q => (s.queue? q).any (fun x => x.ctx == ctx) && (s.head? q).isSome) = none →
      exec (.blockerRecord ctx) s = .next s) ∧
    (∀ q u r, s.fab.texts.find? (fun q => (s.queue? q).any (fun x => x.ctx == ctx) && (s.head? q).isSome) = some q →
      s.takeHead q = (u, some r) →
      (r.kind ≠ kDATA ∨ r.kv = false → exec (.blockerRecord ctx) s = .next (u.textBad 0)) ∧
      (r.kind = kDATA → r.kv = true → ∀ k, u.session? r.key = some k → lane32 r.payload 0 < k.vocab.ntok →
        exec (.blockerRecord ctx) s =
          .next (u.release r.key (k.vocab.detoken (lane32 r.payload 0)) (bitsAt (lane32 r.payload 2) 0 1 == 1))))) ∧
  (∀ n k t at_ y, s.session? n = some k → k.held = some (t, at_) → k.piece = [] →
    let u := ((s.putToken n t at_ false).updSession n fun k => { k with held := none }).updSession n fun k => { k with piece := k.piece ++ [y] }
    (∀ k', u.session? n = some k' → k'.piece.length < 256) → s.feedByte n y = u) ∧
  (∀ n k, s.session? n = some k →
    (k.released = [] ∨ s.clk.tick < k.since + 2700 → exec (.textReplyTimeout n) s = .next s) ∧
    (k.released ≠ [] → k.since + 2700 ≤ s.clk.tick → exec (.textReplyTimeout n) s = .next (s.replyFrame n k k.released false))) ∧
  (∀ conn, ∃ t, exec (.connectionClosed conn) s = .next t ∧ t.out.sessions.length = s.out.sessions.length ∧
    (∀ e ∈ t.out.sessions, e.2.conn = conn → e.2.closed = true) ∧
    t.out.frames = s.out.frames.filter (fun f => f.2.1 != conn) ∧ ∀ e ∈ s.out.sessions, e.2.conn ≠ conn → e ∈ t.out.sessions) ∧
  (∀ port, exec (.rodPortFailure port) s = .next (s.updOut fun o => { o with deadPorts := addOnce o.deadPorts (port % 16) })) ∧
  (∀ call c b vf slot, let drop := fun (u : State) => (u.updOut fun o => { o with vocabs := Tab.erase o.vocabs (vf, slot) }).completeCall c 0 []
    (s.vocCall call 1 = some (c, b, none, slot) → exec (.vocload call) s = .next (s.completeCall c sNOSVC [])) ∧
    (s.vocCall call 2 = some (c, b, none, slot) → exec (.vocdrop call) s = .next (s.completeCall c sNOSVC [])) ∧
    (s.swapping = true →
      (s.vocCall call 1 = some (c, b, some vf, slot) → exec (.vocload call) s = .next s) ∧
      (s.vocCall call 2 = some (c, b, some vf, slot) → exec (.vocdrop call) s = .next s)) ∧
    (s.swapping = false → s.vocCall call 1 = some (c, b, some vf, slot) → s.slotBusy vf slot = true →
      exec (.vocload call) s = .next (s.completeCall c sBUSY [])) ∧
    (s.swapping = false → s.vocCall call 2 = some (c, b, some vf, slot) → s.slotBusy vf slot = true →
      exec (.vocdrop call) s = .next (s.completeCall c sBUSY [])) ∧
    (s.swapping = false → s.vocCall call 2 = some (c, b, some vf, slot) → s.slotBusy vf slot = false → exec (.vocdrop call) s = .next (drop s)) ∧
    (∀ u bs, s.swapping = false → s.vocCall call 1 = some (c, b, some vf, slot) → s.slotBusy vf slot = false → s.vocRead c.ctx (scalNat b) = (u, .ok bs) →
      let v : Vocab := ⟨bs, u.takeId.1⟩
      (v.ok = false → exec (.vocload call) s = .next (u.takeId.2.completeCall c sBADIMG [])) ∧
      (v.ok = true → exec (.vocload call) s =
        .next ((u.takeId.2.updOut fun o => { o with vocabs := Tab.set o.vocabs (vf, slot) v }).completeCall c 0 []))))

/-- R465: a claim or a heartbeat that comes before the one a package goes by makes it a follower, a lesser one changes nothing; a candidate whom
all acknowledge leads; a leader beats every 675,000 ticks; a follower that has heard nothing for 6,750,000 ticks becomes a candidate of the
next term. R466: a follower takes a step of its own leader up
to the one after its own progress, with its rank and the length of the list in the third, and reports it; a leader asks for records, keeps
them, and sends a step to a follower whose record it has and that has done the one before. R433: an offset beyond 8
ticks is counted. R467: a die over its share steps down by one and never below P3, steps up after 675,000 ticks under 90 % with the module under
budget, which a reading that breaks either ends; it goes to P3 at 110 °C, and the package resets at 120 °C. R463: stages rise by one, and (R453) not after a failed repair. A die's arithmetic clock goes on
at 2.7, 2.4, 2.0 or 1.35 GHz by its power step, and at 1.35 GHz before S3 (R463, R467). R32: the parts of the module that give no reading count as
1,420 W (log 18). -/
def Obligations.PodAndPower : Prop := ∀ s : State,
  (∀ ofs : Int, exec (.timeSyncMessage ofs) s =
    .next { (if 8 < ofs ∨ ofs < -8 then s.count 0 none 0x55 else s) with clk := { s.clk with slew := ofs } }) ∧
  (∀ term serial, serial ≠ s.out.pod.serial →
    let join := fun acks => s.updPod fun p => { p with
      role := .follower, leader := some (term, serial), term := max p.term term, acks := acks p, lastBeat := s.clk.tick }
    (s.out.pod.standing = none → exec (.claim term serial) s = .next ((join fun _ => []).send (.claimAck s.out.pod.serial)) ∧
      (s.out.pod.term ≤ term → exec (.heartbeat term serial) s = .next (join (·.acks))) ∧
      (term < s.out.pod.term → exec (.heartbeat term serial) s = .next s)) ∧
    (∀ t k, s.out.pod.standing = some (t, k) → (term < t ∨ term = t ∧ k < serial) →
      exec (.claim term serial) s = .next s ∧ exec (.heartbeat term serial) s = .next s) ∧
    (∀ t k, s.out.pod.standing = some (t, k) → (t < term ∨ term = t ∧ serial ≤ k) →
      exec (.claim term serial) s = .next ((join fun _ => []).send (.claimAck s.out.pod.serial)) ∧
      exec (.heartbeat term serial) s = .next (join (·.acks)))) ∧
  (∀ serial, (s.out.pod.role ≠ .candidate → exec (.claimAck serial) s = .next s) ∧
    (s.out.pod.role = .candidate →
      exec (.claimAck serial) s = .next (s.updPod fun p => { p with acks := addOnce p.acks serial }).tryLead)) ∧
  (∀ p, p = s.out.pod →
    (p.role = .leader → p.nextBeat ≤ s.clk.tick → exec .heartbeatSend s =
      .next ((s.updPod fun p => { p with nextBeat := s.clk.tick + 675000 }).send (.heartbeat p.term p.serial))) ∧
    (p.role ≠ .leader ∨ s.clk.tick < p.nextBeat → exec .heartbeatSend s = .next s) ∧
    (p.role ≠ .follower ∨ s.clk.tick < p.lastBeat + 6750000 → exec .heartbeatMiss s = .next s) ∧
    (p.role = .follower → p.lastBeat + 6750000 ≤ s.clk.tick → exec .heartbeatMiss s =
      .next (((s.updPod fun p => { p with role := .candidate, leader := none, term := (p.term + 1) % 2 ^ 64, acks := [] }).send
        (.claim ((p.term + 1) % 2 ^ 64) p.serial)).tryLead)) ∧
    (∀ serial n term,
      (n = 0 ∨ 3 < n ∨ serial ∉ p.list ∨ p.leader.map Prod.fst ≠ some term → exec (.followerLoadStep serial n term) s = .next s) ∧
      (1 ≤ n → n ≤ 3 → serial ∈ p.list → p.leader.map Prod.fst = some term →
        (p.role = .leader → serial ≠ p.serial → ∀ k, Tab.get? p.records serial = some k →
          (n ≤ k + 1 → exec (.followerLoadStep serial n term) s =
            .next (s.send (.loadStep serial n (p.list.filter (· < serial)).length (max 1 p.list.length)))) ∧
          (k + 1 < n → exec (.followerLoadStep serial n term) s = .next s)) ∧
        (p.role = .leader → Tab.get? p.records serial = none → exec (.followerLoadStep serial n term) s = .next s) ∧
        (p.role ≠ .leader → (serial ≠ p.serial ∨ p.progress + 1 < n) → exec (.followerLoadStep serial n term) s = .next s) ∧
        (p.role ≠ .leader → serial = p.serial → n ≤ p.progress + 1 → ∃ (t u : State), exec (.followerLoadStep serial n term) s = .next t ∧
          t = u.send (.progress serial (max p.progress n)) ∧ t.out.pod.progress = max p.progress n ∧
          (n = 3 → t.out.pod.joined = true ∧ t.out.pod.index = (p.list.filter (· < serial)).length ∧
            t.out.pod.count = max 1 (min p.list.length 256))))) ∧
    (∀ serial, (p.role = .leader → serial ≠ p.serial → exec (.progressRecordQuery serial) s = .next (s.send (.progressQuery serial))) ∧
      (p.role ≠ .leader → exec (.progressRecordQuery serial) s = .next (s.send (.progress p.serial p.progress))) ∧
      (p.role = .leader → ∀ k, s.podProgress serial k = s.updPod fun p => { p with records := Tab.set p.records serial k }))) ∧
  (∀ die pwr, let v := s.updPowerDie die fun x => { x with pwr := pwr % 2 ^ 16 }
    let u := s.powerReading die pwr
    let x := u.powerDie die
    x.pwr = pwr % 2 ^ 16 ∧
    ((10 * s.out.power.mbudget < v.modulePower ∨ 9 * s.out.power.dshare ≤ 10 * x.pwr) → x.under = none) ∧
    (v.modulePower ≤ 10 * s.out.power.mbudget → 10 * x.pwr < 9 * s.out.power.dshare →
      x.under = some ((s.powerDie die).under.getD s.clk.tick)) ∧
    (∀ d, 10 * s.out.power.mbudget < v.modulePower → (u.powerDie d).under = none) ∧
    (u.overBudget die = true → exec (.powerStepDown die pwr) s = .next (u.powerStep die (min 3 (x.step + 1)))) ∧
    (u.overBudget die = false → exec (.powerStepDown die pwr) s = .next u) ∧
    (x.under = none → exec (.powerStepUp die pwr) s = .next u) ∧
    (∀ since, x.under = some since →
      (s.out.stage = 3 → since + 675000 ≤ s.clk.tick → exec (.powerStepUp die pwr) s = .next (u.powerStep die (x.step - 1))) ∧
      (s.out.stage ≠ 3 ∨ s.clk.tick < since + 675000 → exec (.powerStepUp die pwr) s = .next u))) ∧
  (∀ die tj, let u := s.updPowerDie die fun x => { x with tj := tj % 2 ^ 8 }
    (tj < 110 → exec (.thermalP3 die tj) s = .next u ∧ exec (.thermalReset die tj) s = .next u) ∧
    (110 ≤ tj → tj < 120 → exec (.thermalP3 die tj) s = .next (u.powerStep die 3) ∧ exec (.thermalReset die tj) s = .next (u.powerStep die 3)) ∧
    (120 ≤ tj → exec (.thermalP3 die tj) s = .next u.powerOn ∧ exec (.thermalReset die tj) s = .next u.powerOn)) ∧
  (∃ t, exec .powerOnReset s = .next t ∧ t.clk = State.reset.clk ∧ t.sched = State.reset.sched ∧ t.ms = State.reset.ms ∧
    t.out.fw.slots = s.out.fw.slots ∧ t.out.fw.floor = s.out.fw.floor ∧ t.out.fw.boot = s.out.fw.boot ∧ t.out.fw.act = s.out.fw.boot ∧
    t.out.pod.serial = s.out.pod.serial ∧ t.out.pod.term = s.out.pod.term ∧ t.out.pod.list = s.out.pod.list) ∧
  (s.out.rfail = true ∨ 3 ≤ s.out.stage → exec .serviceStageAdvance s = .next s) ∧
  (s.out.rfail = false → s.out.stage < 3 →
    exec .serviceStageAdvance s = .next ((List.range 64).foldl State.retime (s.updOut fun o => { o with stage := o.stage + 1 }))) ∧
  (∀ d, (s.retime d).clk.tick = s.clk.tick ∧ (s.retime d).clk.cycle = s.clk.cycle ∧
    (∀ e, (s.retime d).clk.dieCycle e = s.clk.dieCycle e) ∧
    let x := (s.powerDie d).step
    let rate := if s.out.stage < 3 then 27 else if x = 0 then 54 else if x = 1 then 48 else if x = 2 then 40 else 27
    ∀ n, ({ (s.retime d).clk with cycle := s.clk.cycle + n } : Clock).dieCycle d = s.clk.dieCycle d + n * rate / 54) ∧
  s.modulePower = (s.out.power.dies.map fun e => e.2.pwr).sum + 14200

/-- R445, R446: scrubbing changes no sound line, corrects and counts one that the check bits
correct, and counts an uncorrectable one. R450, R451: a frame that fails its check is replayed and
counted, the next after 16 in a row retrains the link, a replay that succeeds ends the row, a link that retrains starts anew, and the third failure in a row is persistent. R448: an error in a
region kills it and records where. R455, R457: each step of the ladder waits for its budget, acts
at the end of a tick after it, and stops where the ladder is disabled; the last resets the package. R459: a write of `BVCPWD` restarts
the watchdog, whose expiry hands over to the partner and the boot slot. R461, R462: a command is refused while one is in progress and for the
running slot, needs a verified image, and a swap waits for RELEASE of the whole
active set, which then yields and leaves its record; READY of the whole standby set in the window exchanges the sets, and without it the
old one resumes, either with that record (log 39). -/
def Obligations.RepairsAndFirmware : Prop := ∀ s : State,
  (∀ pa, (lineOf pa ∉ s.ms.ue → lineOf pa ∉ s.ms.ce → exec (.scrub pa) s = .next s) ∧
    (lineOf pa ∈ s.ms.ue → lineOf pa ∉ s.ms.ce → exec (.scrub pa) s = .next (s.count (s.storeDie pa) none 0x61)) ∧
    (lineOf pa ∈ s.ms.ce → lineOf pa ∉ s.ms.ue → exec (.scrub pa) s =
      .next (((s.count (s.storeDie pa) none 0x63).count (s.storeDie pa) none 0x60).updMs fun m => { m with
        ce := m.ce.filter (· != lineOf pa) }))) ∧
  (∀ l, let x := s.linkState l
    (x.retraining = true →
      exec (.linkCrcFailure l) s = .next s ∧
      exec (.linkRetrainDone l true) s = .next (s.updLinkState l fun _ => ⟨0, false, 0⟩) ∧
      (x.failed + 1 ≠ 3 → exec (.linkRetrainDone l false) s = .next (s.updLinkState l fun x => { x with failed := x.failed + 1 })) ∧
      (x.failed + 1 = 3 → exec (.linkRetrainDone l false) s =
        .next ((s.updLinkState l fun x => { x with failed := x.failed + 1 }).linkFails l))) ∧
    (x.retraining = false → exec (.linkRetrainDone l true) s = .next s ∧ exec (.linkRetrainDone l false) s = .next s ∧
      (16 ≤ x.replays → exec (.linkCrcFailure l) s = .next (s.updLinkState l fun x => { x with replays := 0, retraining := true })) ∧
      (x.replays < 16 → exec (.linkCrcFailure l) s =
        .next ((s.count (linkTo l) none 0x62).updLinkState l fun x => { x with replays := x.replays + 1 })) ∧
      s.replayed l = s.updLinkState l fun x => { x with replays := 0 })) ∧
  (∀ die vq cu q, s.physQuad die vq = some q →
    let u := (s.count die none 0x61).quadError die q
    (u.placed.find? (fun e => e.2.cells.any fun c => e.2.quad c.1 c.2 == (die, vq)) = none → exec (.regionStateUe die vq cu) s = .next u) ∧
    (∀ rid r, u.placed.find? (fun e => e.2.cells.any fun c => e.2.quad c.1 c.2 == (die, vq)) = some (rid, r) →
      exec (.regionStateUe die vq cu) s = .next ((u.killLaunch rid).asyncRecord cMEMORY_UE r.ctx r.inc die vq cu 0))) ∧
  (∀ lq, let l := s.ladder lq
    let b := s.budgets (s.lqPart lq)
    (b.b1 = 0 ∨ l.idle < b.b1 ∨ s.tickEnds = false → exec (.watchdogL1 lq) s = .next s) ∧
    (s.tickEnds = true → b.b1 ≠ 0 → l.step = 0 → b.b1 ≤ l.idle → s.runningOf lq ≠ [] → exec (.watchdogL1 lq) s = .next
      ((s.ladderStep lq 1).asyncRecord cWATCHDOG (s.lq lq).ctx 0 (8 * (s.partition (s.lqPart lq)).first) 0x1FF 0 0)) ∧
    (l.step ≠ 1 ∨ s.clk.tick < l.since + b.b2 ∨ s.tickEnds = false → exec (.watchdogL2 lq) s = .next s) ∧
    (l.step = 1 → l.since + b.b2 ≤ s.clk.tick → s.tickEnds = true → b.b1 ≠ 0 → s.runningOf lq ≠ [] → (∀ n, s.asked fnWDOG lq n = false) → s.assisted (s.lqPart lq) fnWDOG = false →
      exec (.watchdogL2 lq) s = .next (s.ladderL2 lq)) ∧
    (l.step ≠ 3 ∨ s.clk.tick < l.since + b.b3 ∨ s.tickEnds = false → exec (.watchdogL4 lq) s = .next s) ∧
    (l.step = 3 → l.since + b.b3 ≤ s.clk.tick → s.tickEnds = true → b.b1 ≠ 0 → s.runningOf lq ≠ [] → (∀ n, s.asked fnWDOG lq n = false) → s.assisted (s.lqPart lq) fnWDOG = false →
      exec (.watchdogL4 lq) s = .next (s.ladderL4 lq)) ∧
    (l.step ≠ 4 ∨ s.clk.tick < l.since + b.b4 ∨ s.tickEnds = false → exec (.watchdogL5 lq) s = .next s) ∧
    (l.step = 4 → l.since + b.b4 ≤ s.clk.tick → s.tickEnds = true → b.b1 ≠ 0 → s.runningOf lq ≠ [] → exec (.watchdogL5 lq) s = .next (s.powerOn.send .functionResets)) ∧
    (s.tickEnds = true → b.b1 = 0 → s.runningOf lq ≠ [] →
      (l.step = 1 → l.since + b.b2 ≤ s.clk.tick → exec (.watchdogL2 lq) s = .next (s.updLadder lq fun l => { l with step := 0 })) ∧
      (l.step = 3 → l.since + b.b3 ≤ s.clk.tick → exec (.watchdogL4 lq) s = .next (s.updLadder lq fun l => { l with step := 0 })) ∧
      (l.step = 4 → l.since + b.b4 ≤ s.clk.tick → exec (.watchdogL5 lq) s = .next (s.updLadder lq fun l => { l with step := 0 })))) ∧
  (∀ c, c < 8 →
    exec (.bvcpwdWrite c) s = .next (s.updCp c fun x => { x with wdog := s.clk.tick + 2 ^ 24 }) ∧
    ((s.cp c).role = 1 ∨ s.clk.tick < (s.cp c).wdog → exec (.cpWatchdogExpiry c) s = .next s) ∧
    ((s.cp c).role ≠ 1 → (s.cp c).wdog ≤ s.clk.tick → ∃ t, exec (.cpWatchdogExpiry c) s = .next t ∧ t.out.fw.act = s.out.fw.boot ∧
      (t.cp c).role = 1 ∧ (t.cp (if c % 2 = 0 then c + 1 else c - 1)).role = 0)) ∧
  (∀ slot, slot < 2 →
    (∀ i ∈ [.stage slot, .swapFirmware slot, .bootsel slot, .svnlock slot], s.out.fw.done = false →
      exec i s = .next (s.updFw fun w => { w with st := 6 })) ∧
    (s.out.fw.done = true → slot = s.out.fw.act →
      exec (.stage slot) s = .next (s.fwDone 1 6) ∧ exec (.swapFirmware slot) s = .next (s.fwDone 2 6) ∧
      exec (.bootsel slot) s = .next (s.fwDone 3 6) ∧ exec (.svnlock slot) s = .next (s.fwDone 4 6)) ∧
    (s.out.fw.done = true → slot ≠ s.out.fw.act →
      (∃ t, exec (.stage slot) s = .next t ∧ t.out.fw.done = true ∧ t.out.fw.cmd = 1 ∧
        t.out.fw.st = verifyImage s.out.fw.floor (t.out.fw.image slot)) ∧
      exec (.svnlock slot) s = .next ((s.updFw fun w => { w with floor := max w.floor (fieldAt (w.image w.act) 8 4) }).fwDone 4 0) ∧
      (s.slotStatus slot = 0 →
        exec (.bootsel slot) s = .next ((s.updFw fun w => { w with boot := slot }).fwDone 3 0) ∧
        ∃ t, exec (.swapFirmware slot) s = .next t ∧ t.out.fw.swap = .starting ∧ t.out.fw.done = false ∧ t.out.fw.cmd = 2) ∧
      (s.slotStatus slot ≠ 0 → exec (.bootsel slot) s = .next (s.fwDone 3 (s.slotStatus slot)) ∧
        exec (.swapFirmware slot) s = .next (s.fwDone 2 (s.slotStatus slot))))) ∧
  (s.out.fw.swap = .none → exec .takeover s = .next s ∧ ∀ c v, c < 8 → exec (.bvswapWrite c v) s =
    .next (s.updCp c fun x => { x with ready := v.getLsbD 0, release := v.getLsbD 1 })) ∧
  (s.out.fw.swap = .starting → exec .takeover s = .next s ∧ ∀ c v, c < 8 →
    let u := s.updCp c fun x => { x with ready := v.getLsbD 0, release := v.getLsbD 1 }
    (u.everyCp 0 CpCore.release = false → exec (.bvswapWrite c v) s = .next u) ∧
    (u.everyCp 0 CpCore.release = true → ∃ t, exec (.bvswapWrite c v) s = .next t ∧
      t.out.fw.swap = .released s.clk.tick s.swapRecord ∧ ∀ d < 8, (s.cp d).role = 0 → (t.cp d).role = 2)) ∧
  (∀ t0 record, s.out.fw.swap = .released t0 record →
    (s.clk.tick < t0 + 1350000 → exec .takeover s = .next s) ∧
    (t0 + 1350000 ≤ s.clk.tick → ∃ t, exec .takeover s = .next t ∧ t.out.fw.swap = .none ∧ t.out.fw.st = 7 ∧ t.out.fw.done = true ∧
      t.out.fw.act = s.out.fw.act ∧ t.out.vocabs = record.vocabs ∧ t.sched.assists = record.inHand ∧
      ∀ d < 8, (s.cp d).role = 2 → (t.cp d).role = 0) ∧
    ∀ c v, c < 8 → let u := s.updCp c fun x => { x with ready := v.getLsbD 0, release := v.getLsbD 1 }
      (u.everyCp 1 CpCore.ready = false → exec (.bvswapWrite c v) s = .next u) ∧
      (u.everyCp 1 CpCore.ready = true → ∃ t, exec (.bvswapWrite c v) s = .next t ∧
        t.out.fw.swap = .none ∧ t.out.fw.st = 0 ∧ t.out.fw.done = true ∧ t.out.fw.act = 1 - s.out.fw.act ∧
        t.out.fw.boot = 1 - s.out.fw.act ∧ t.out.vocabs = record.vocabs ∧ t.sched.assists = record.inHand ∧
        ∀ d < 8, (s.cp d).role = 1 → (t.cp d).role = 0))
end

