-- ==== Sys2Proof/Laws/Values.lean ====
section
/-! SUPPORT. What a value instruction's result holds, element by element. -/
namespace Sys2Proof.Machine

theorem packNat_lt (W : Nat) (xs : List Nat) : packNat W xs < 2 ^ (W * xs.length) := by
  induction xs with
  | nil => simp [packNat]
  | cons x xs ih =>
    have hx : x % 2 ^ W < 2 ^ W := Nat.mod_lt _ (Nat.two_pow_pos W)
    simp only [packNat, Nat.shiftLeft_eq, List.length_cons, Nat.mul_add, Nat.mul_one, Nat.pow_add]
    have := Nat.mul_le_mul_right (2 ^ W) (Nat.succ_le_of_lt ih)
    rw [Nat.succ_mul] at this
    omega

theorem packNat_get (W : Nat) : ∀ (xs : List Nat) (j : Nat) (h : j < xs.length),
    packNat W xs >>> (W * j) % 2 ^ W = xs[j] % 2 ^ W := by
  intro xs
  induction xs with
  | nil => intro j h; simp at h
  | cons x xs ih =>
    intro j h
    have hx : x % 2 ^ W < 2 ^ W := Nat.mod_lt _ (Nat.two_pow_pos W)
    cases j with
    | zero => simp [packNat, Nat.shiftLeft_eq]
    | succ j =>
      have e : packNat W (x :: xs) >>> (W * (j + 1)) = packNat W xs >>> (W * j) := by
        simp only [packNat, Nat.mul_add, Nat.mul_one, Nat.add_comm (W * j) W, Nat.shiftRight_add, Nat.shiftLeft_eq]
        rw [Nat.shiftRight_eq_div_pow (m := x % 2 ^ W + packNat W xs * 2 ^ W) (n := W), Nat.add_mul_div_right _ _ (Nat.two_pow_pos W),
          Nat.div_eq_of_lt hx, Nat.zero_add]
      rw [e]
      exact ih j (by simpa using h)

/-- An element of a vector made of elements. -/
theorem getE_packE {W j : Nat} {xs : List Nat} (fits : W * xs.length ≤ 512) (h : j < xs.length) :
    getE W (packE W xs) j = xs[j] % 2 ^ W := by
  have lt : packNat W xs < 2 ^ 512 := Nat.lt_of_lt_of_le (packNat_lt W xs) (Nat.pow_le_pow_right (by omega) fits)
  simp only [getE, packE, BitVec.toNat_ofNat, Nat.mod_eq_of_lt lt, packNat_get W xs j h]

theorem getE_lt (W : Nat) (v : Vec) (j : Nat) : getE W v j < 2 ^ W := Nat.mod_lt _ (Nat.two_pow_pos W)

theorem count_fits {W : Nat} (h : stdWidth W) : W * count W ≤ 512 := by
  rcases h with rfl | rfl | rfl | rfl <;> decide

/-- The elements of a result. -/
theorem byElement_out {W n j : Nat} {m : Dword} {f : Nat → Nat × FlagSet} (fits : W * n ≤ 512) (h : j < n) :
    getE W (byElement W n m f).out j = (if active m W j then (f j).1 else 0) % 2 ^ W := by
  simp only [byElement, Res.mk1]
  rw [getE_packE (by simpa using fits) (by simpa using h)]
  simp
  split <;> rfl

@[simp] theorem byElement_out1 {W n : Nat} {m : Dword} {f : Nat → Nat × FlagSet} :
    (byElement W n m f).out1 = (byElement W n m f).out := rfl

/-- A register target keeps the bits of inactive elements. -/
theorem byElement_keep {W j : Nat} {m : Dword} {f : Nat → Nat × FlagSet} (w : stdWidth W) (h : j < count W) :
    getE W (byElement W (count W) m f).keep j = if active m W j then 0 else 2 ^ W - 1 := by
  simp only [byElement, Res.mk1, keepBits]
  split
  · rename_i e; subst e
    have : j = 0 := by simp [count] at h; exact h
    subst this
    split
    · simp [getE]
    · show getE 64 allOnes 0 = 2 ^ 64 - 1
      decide +kernel
  · rw [getE_packE (by simpa using count_fits w) (by simpa using h)]
    have : 2 ^ W - 1 < 2 ^ W := by have := Nat.two_pow_pos W; omega
    simp
    split
    · simp
    · exact Nat.mod_eq_of_lt this

theorem orFlags_none (xs : List Nat) : orFlags (xs.map fun x => (x, fNone)) = fNone := by
  have : ∀ f : FlagSet, (xs.map fun x => (x, fNone)).foldl (fun f r => f ||| r.2) f = f := by
    induction xs with
    | nil => intro f; rfl
    | cons x xs ih => intro f; simp [fNone] at ih ⊢; exact ih f
  exact this fNone

/-- A result of `pure` raises no flag. -/
theorem pure_flags (o : Opnds) (f : Nat → Nat) : (o.pure f).flags = fNone := by
  have : (List.range (count o.W)).map (fun j => if active o.mask o.W j = true then (f j, fNone) else (0, fNone)) =
      ((List.range (count o.W)).map fun j => if active o.mask o.W j = true then f j else 0).map fun x => (x, fNone) := by
    simp only [List.map_map]
    apply List.map_congr_left
    intro j _
    simp only [Function.comp]
    split <;> rfl
  simp only [Opnds.pure, Opnds.elements, byElement, Res.mk1, this, orFlags_none]

/-- The elements of a result of `pure`. -/
theorem pure_out {o : Opnds} {f : Nat → Nat} {j : Nat} (w : stdWidth o.W) (h : j < count o.W) (lt : f j < 2 ^ o.W) :
    getE o.W (o.pure f).out j = if active o.mask o.W j then f j else 0 := by
  simp only [Opnds.pure, Opnds.elements, byElement_out (count_fits w) h]
  split
  · exact Nat.mod_eq_of_lt lt
  · simp

end Sys2Proof.Machine
end

