-- ==== Sys2Proof/Laws/Issue.lean ====
section
/-! SUPPORT. What an instruction does once it can issue, and the results of the builders of value instructions. -/
namespace Sys2Proof.Machine

variable {s : State} {ins : Ins} {i : Issue} {o : Operands}

/-- An instruction that can issue does what its body says, from the state in which its issue is counted. -/
theorem issue_ready (h : Ready s ins i o) (body : Issue → Operands → State → State) :
    s.issue ins body = body i o (s.issued i o) := by
  simp [State.issue, h.1, h.2, State.issued]

/-- A value instruction that can issue sends out the results of its function. -/
theorem execVal_ready (h : Ready s ins i o) (f : Opnds → Res) :
    execVal ins f s = .next (s.results i o (f (i.opnds o))) := by
  simp [execVal, issue_ready h, valueBody, State.results]

/-- The instruction that issues has the fields that were dispatched. -/
theorem issuing_ins (h : s.issuing ins = some i) : i.ins = ins := by
  unfold State.issuing at h
  repeat' split at h
  all_goals simp_all
  all_goals subst h; rfl

theorem ready_ins (h : Ready s ins i o) : i.ins = ins := issuing_ins h.1

/-- A machine in a state where an instruction is ready has an agent that issues it. -/
theorem issuing_block (h : s.issuing ins = some i) :
    s.cur = some i.aid ∧ s.agent? i.aid = some i.g ∧ i.g.block = some i.b ∧ i.idx = i.g.idx := by
  unfold State.issuing at h
  repeat' split at h
  all_goals simp_all
  all_goals subst h; simp_all

/-! ### The builders -/

theorem getLsbD_packNat (W : Nat) (pos : 0 < W) : ∀ (xs : List Nat) (k : Nat),
    (packNat W xs).testBit k = (decide (k < W * xs.length) && (xs.getD (k / W) 0).testBit (k % W)) := by
  intro xs
  induction xs with
  | nil => intro k; simp [packNat]
  | cons x xs ih =>
    intro k
    have hx : x % 2 ^ W < 2 ^ W := Nat.mod_lt _ (Nat.two_pow_pos W)
    have e : packNat W (x :: xs) = 2 ^ W * packNat W xs + x % 2 ^ W := by
      simp [packNat, Nat.shiftLeft_eq, Nat.add_comm, Nat.mul_comm]
    rw [e, Nat.testBit_two_pow_mul_add _ hx]
    by_cases lt : k < W
    · have : k < W * (x :: xs).length := by
        simp only [List.length_cons, Nat.mul_add, Nat.mul_one]; omega
      simp [lt, Nat.div_eq_of_lt lt, Nat.mod_eq_of_lt lt, this, -List.length_cons]
      rfl
    · have ge : W ≤ k := Nat.le_of_not_lt lt
      have d : k / W = (k - W) / W + 1 := by
        rw [Nat.div_eq_sub_div pos ge]
      have m : k % W = (k - W) % W := Nat.mod_eq_sub_mod ge
      have l : (k - W < W * xs.length) ↔ (k < W * (x :: xs).length) := by
        simp only [List.length_cons, Nat.mul_add, Nat.mul_one]; omega
      simp [lt, ih, d, m, l, -List.length_cons]

theorem packE_toNat_lt {W : Nat} {xs : List Nat} (fits : W * xs.length ≤ 512) : (packE W xs).toNat < 2 ^ (W * xs.length) := by
  have lt := packNat_lt W xs
  have : packNat W xs < 2 ^ 512 := Nat.lt_of_lt_of_le lt (Nat.pow_le_pow_right (by omega) fits)
  simpa [packE, Nat.mod_eq_of_lt this] using lt

/-- The kept bits of a result of whole elements. -/
theorem keepBits_bit {W n : Nat} {m : Dword} (pos : 0 < W) (fits : W * n ≤ 512) {k : Nat} (lt : k < 512) :
    (keepBits W n m).getLsbD k = if W = 64 then !active m W 0 else (decide (k < W * n) && !active m W (k / W)) := by
  unfold keepBits
  split
  · rename_i e; subst e
    cases h : active m 64 0
    · rw [allOnes]; simp only [Bool.false_eq_true, if_false, BitVec.getLsbD_allOnes, lt, decide_true, Bool.not_false]
    · simp
  · rename_i ne
    simp only [packE, BitVec.getLsbD_ofNat, lt, decide_true, Bool.true_and, getLsbD_packNat W pos, List.length_map, List.length_range]
    by_cases hk : k < W * n
    · have d : k / W < n := Nat.div_lt_of_lt_mul hk
      simp only [hk, decide_true, Bool.true_and, List.getD_eq_getElem?_getD, List.getElem?_map, List.getElem?_range d, Option.map_some,
        Option.getD_some]
      cases h : active m W (k / W)
      · simp [Nat.testBit_two_pow_sub_one, Nat.mod_lt _ pos]
      · simp
    · simp [hk]

/-- What `byElement` builds. -/
theorem byElement_spec {W n : Nat} {m : Dword} {f : Nat → Nat × FlagSet} (pos : 0 < W) (fits : W * n ≤ 512) :
    ByElement W n (active m W) (fun j => (f j).1) (byElement W n m f) := by
  refine ⟨fun j h => ?_, ?_, fun k h => ?_⟩
  · rw [byElement_out fits h]
    split <;> simp
  · have := packE_toNat_lt (W := W) (xs := ((List.range n).map fun j => if active m W j = true then f j else (0, fNone)).map Prod.fst)
      (by simpa using fits)
    simpa [byElement, Res.mk1] using this
  · exact keepBits_bit pos fits h

theorem fNone_or (f : FlagSet) : fNone ||| f = f := BitVec.zero_or

theorem or_fNone (f : FlagSet) : f ||| fNone = f := BitVec.or_zero

theorem orFlags_foldl (xs : List (Nat × FlagSet)) : ∀ g : FlagSet, xs.foldl (fun f r => f ||| r.2) g = g ||| orFlags xs := by
  induction xs with
  | nil => exact fun g => (or_fNone g).symm
  | cons x xs ih =>
    intro g
    rw [orFlags, List.foldl_cons, List.foldl_cons, ih, ih, fNone_or, BitVec.or_assoc]

theorem orFlags_cons (x : Nat × FlagSet) (xs : List (Nat × FlagSet)) : orFlags (x :: xs) = x.2 ||| orFlags xs := by
  rw [orFlags, List.foldl_cons, orFlags_foldl, fNone_or]

/-- The flags of a result are those of its active elements. -/
theorem byElement_flags {W n : Nat} {m : Dword} {f : Nat → Nat × FlagSet} :
    (byElement W n m f).flags = orFlags (((List.range n).filter (active m W)).map f) := by
  simp only [byElement, Res.mk1]
  generalize List.range n = xs
  induction xs with
  | nil => rfl
  | cons x xs ih =>
    cases h : active m W x <;> simp [h, orFlags_cons, ih, fNone_or]

theorem stdWidth_pos {W : Nat} (h : elemWidth W) : 0 < W := by
  rcases h with rfl | rfl | rfl | rfl | rfl <;> decide

theorem elemWidth_fits {W : Nat} (h : elemWidth W) : W * count W ≤ 512 := by
  rcases h with rfl | rfl | rfl | rfl | rfl <;> decide

theorem getE_mod (W : Nat) (v : Vec) (j : Nat) : getE W v j % 2 ^ W = getE W v j := Nat.mod_eq_of_lt (getE_lt W v j)

theorem Elements.congr {e : Answer} {f g : Issue → Operands → Nat → Nat}
    (h : ∀ i o j, i.ins = ins → stdWidth i.ins.width → f i o j % 2 ^ i.ins.width = g i o j % 2 ^ i.ins.width)
    (k : Elements s ins e f) : Elements s ins e g := by
  intro i o r
  obtain ⟨res, h1, h2, h3, h4⟩ := k i o r
  refine ⟨res, h1, h2, h3, fun w => ⟨fun j hj => ?_, (h4 w).2⟩⟩
  rw [(h4 w).1 j hj, h i o j (ready_ins r) w]

/-- A value instruction made with `pure` computes its elements. -/
theorem elements_of_pure (s : State) (ins : Ins) {g : Opnds → Nat → Nat} {f : Opnds → Res} (h : ∀ o, f o = o.pure (g o)) :
    Elements s ins (execVal ins f s) fun i o j => g (i.opnds o) j := by
  intro i o r
  refine ⟨f (i.opnds o), execVal_ready r f, ?_, ?_, fun w => ?_⟩
  · rw [h]; exact pure_flags _ _
  · rw [h]; rfl
  · rw [h]; exact byElement_spec (stdWidth_pos (.inr w)) (elemWidth_fits (.inr w))

/-- A value instruction made with `elements` computes its elements and their flags. -/
theorem floatElements_of_elements (s : State) (ins : Ins) {g : Opnds → Nat → Nat × FlagSet} {f : Opnds → Res}
    (h : ∀ o, f o = o.elements (g o)) : FloatElements s ins (execVal ins f s) fun i o j => g (i.opnds o) j := by
  intro i o r w
  refine ⟨f (i.opnds o), execVal_ready r f, ?_, ?_, ?_⟩
  · rw [h]; rfl
  · rw [h]; exact byElement_flags
  · rw [h]; exact byElement_spec (stdWidth_pos w) (elemWidth_fits w)

end Sys2Proof.Machine
end

