-- ==== Sys2Proof/Laws/State.lean ====
section
/-! SUPPORT. What each named update of the state leaves as it was and what it writes, one lemma per field. -/
namespace Sys2Proof.Machine

variable (s : State)

/-! ### `State.updFab` -/

@[simp] theorem updFab_clk (f : Fabric → Fabric) : (s.updFab f).clk = s.clk := rfl
@[simp] theorem updFab_agents (f : Fabric → Fabric) : (s.updFab f).agents = s.agents := rfl
@[simp] theorem updFab_fab (f : Fabric → Fabric) : (s.updFab f).fab = f s.fab := rfl
@[simp] theorem updFab_ms (f : Fabric → Fabric) : (s.updFab f).ms = s.ms := rfl
@[simp] theorem updFab_sched (f : Fabric → Fabric) : (s.updFab f).sched = s.sched := rfl
@[simp] theorem updFab_out (f : Fabric → Fabric) : (s.updFab f).out = s.out := rfl
@[simp] theorem updFab_agenda (f : Fabric → Fabric) : (s.updFab f).agenda = s.agenda := rfl
@[simp] theorem updFab_cur (f : Fabric → Fabric) : (s.updFab f).cur = s.cur := rfl
@[simp] theorem updFab_fresh (f : Fabric → Fabric) : (s.updFab f).fresh = s.fresh := rfl
@[simp] theorem updFab_nextId (f : Fabric → Fabric) : (s.updFab f).nextId = s.nextId := rfl

/-! ### `State.updMs` -/

@[simp] theorem updMs_clk (f : MemSys → MemSys) : (s.updMs f).clk = s.clk := rfl
@[simp] theorem updMs_agents (f : MemSys → MemSys) : (s.updMs f).agents = s.agents := rfl
@[simp] theorem updMs_fab (f : MemSys → MemSys) : (s.updMs f).fab = s.fab := rfl
@[simp] theorem updMs_ms (f : MemSys → MemSys) : (s.updMs f).ms = f s.ms := rfl
@[simp] theorem updMs_sched (f : MemSys → MemSys) : (s.updMs f).sched = s.sched := rfl
@[simp] theorem updMs_out (f : MemSys → MemSys) : (s.updMs f).out = s.out := rfl
@[simp] theorem updMs_agenda (f : MemSys → MemSys) : (s.updMs f).agenda = s.agenda := rfl
@[simp] theorem updMs_cur (f : MemSys → MemSys) : (s.updMs f).cur = s.cur := rfl
@[simp] theorem updMs_fresh (f : MemSys → MemSys) : (s.updMs f).fresh = s.fresh := rfl
@[simp] theorem updMs_nextId (f : MemSys → MemSys) : (s.updMs f).nextId = s.nextId := rfl

/-! ### `State.updSched` -/

@[simp] theorem updSched_clk (f : Sched → Sched) : (s.updSched f).clk = s.clk := rfl
@[simp] theorem updSched_agents (f : Sched → Sched) : (s.updSched f).agents = s.agents := rfl
@[simp] theorem updSched_fab (f : Sched → Sched) : (s.updSched f).fab = s.fab := rfl
@[simp] theorem updSched_ms (f : Sched → Sched) : (s.updSched f).ms = s.ms := rfl
@[simp] theorem updSched_sched (f : Sched → Sched) : (s.updSched f).sched = f s.sched := rfl
@[simp] theorem updSched_out (f : Sched → Sched) : (s.updSched f).out = s.out := rfl
@[simp] theorem updSched_agenda (f : Sched → Sched) : (s.updSched f).agenda = s.agenda := rfl
@[simp] theorem updSched_cur (f : Sched → Sched) : (s.updSched f).cur = s.cur := rfl
@[simp] theorem updSched_fresh (f : Sched → Sched) : (s.updSched f).fresh = s.fresh := rfl
@[simp] theorem updSched_nextId (f : Sched → Sched) : (s.updSched f).nextId = s.nextId := rfl

/-! ### `State.updOut` -/

@[simp] theorem updOut_clk (f : Outside → Outside) : (s.updOut f).clk = s.clk := rfl
@[simp] theorem updOut_agents (f : Outside → Outside) : (s.updOut f).agents = s.agents := rfl
@[simp] theorem updOut_fab (f : Outside → Outside) : (s.updOut f).fab = s.fab := rfl
@[simp] theorem updOut_ms (f : Outside → Outside) : (s.updOut f).ms = s.ms := rfl
@[simp] theorem updOut_sched (f : Outside → Outside) : (s.updOut f).sched = s.sched := rfl
@[simp] theorem updOut_out (f : Outside → Outside) : (s.updOut f).out = f s.out := rfl
@[simp] theorem updOut_agenda (f : Outside → Outside) : (s.updOut f).agenda = s.agenda := rfl
@[simp] theorem updOut_cur (f : Outside → Outside) : (s.updOut f).cur = s.cur := rfl
@[simp] theorem updOut_fresh (f : Outside → Outside) : (s.updOut f).fresh = s.fresh := rfl
@[simp] theorem updOut_nextId (f : Outside → Outside) : (s.updOut f).nextId = s.nextId := rfl

/-! ### `State.setAgent` -/

@[simp] theorem setAgent_clk (a : Aid) (g : Agent) : (s.setAgent a g).clk = s.clk := rfl
@[simp] theorem setAgent_agents (a : Aid) (g : Agent) : (s.setAgent a g).agents = Tab.set s.agents a g := rfl
@[simp] theorem setAgent_fab (a : Aid) (g : Agent) : (s.setAgent a g).fab = s.fab := rfl
@[simp] theorem setAgent_ms (a : Aid) (g : Agent) : (s.setAgent a g).ms = s.ms := rfl
@[simp] theorem setAgent_sched (a : Aid) (g : Agent) : (s.setAgent a g).sched = s.sched := rfl
@[simp] theorem setAgent_out (a : Aid) (g : Agent) : (s.setAgent a g).out = s.out := rfl
@[simp] theorem setAgent_agenda (a : Aid) (g : Agent) : (s.setAgent a g).agenda = s.agenda := rfl
@[simp] theorem setAgent_cur (a : Aid) (g : Agent) : (s.setAgent a g).cur = s.cur := rfl
@[simp] theorem setAgent_fresh (a : Aid) (g : Agent) : (s.setAgent a g).fresh = s.fresh := rfl
@[simp] theorem setAgent_nextId (a : Aid) (g : Agent) : (s.setAgent a g).nextId = s.nextId := rfl

/-! ### `State.send` -/

@[simp] theorem send_clk (m : Out) : (s.send m).clk = s.clk := rfl
@[simp] theorem send_agents (m : Out) : (s.send m).agents = s.agents := rfl
@[simp] theorem send_fab (m : Out) : (s.send m).fab = s.fab := rfl
@[simp] theorem send_ms (m : Out) : (s.send m).ms = s.ms := rfl
@[simp] theorem send_sched (m : Out) : (s.send m).sched = s.sched := rfl
@[simp] theorem send_agenda (m : Out) : (s.send m).agenda = s.agenda := rfl
@[simp] theorem send_cur (m : Out) : (s.send m).cur = s.cur := rfl
@[simp] theorem send_fresh (m : Out) : (s.send m).fresh = s.fresh := rfl
@[simp] theorem send_nextId (m : Out) : (s.send m).nextId = s.nextId := rfl

/-! ### `State.updContext` -/

@[simp] theorem updContext_clk (c : Nat) (f : Context → Context) : (s.updContext c f).clk = s.clk := rfl
@[simp] theorem updContext_agents (c : Nat) (f : Context → Context) : (s.updContext c f).agents = s.agents := rfl
@[simp] theorem updContext_fab (c : Nat) (f : Context → Context) : (s.updContext c f).fab = s.fab := rfl
@[simp] theorem updContext_ms (c : Nat) (f : Context → Context) : (s.updContext c f).ms = s.ms := rfl
@[simp] theorem updContext_out (c : Nat) (f : Context → Context) : (s.updContext c f).out = s.out := rfl
@[simp] theorem updContext_agenda (c : Nat) (f : Context → Context) : (s.updContext c f).agenda = s.agenda := rfl
@[simp] theorem updContext_cur (c : Nat) (f : Context → Context) : (s.updContext c f).cur = s.cur := rfl
@[simp] theorem updContext_fresh (c : Nat) (f : Context → Context) : (s.updContext c f).fresh = s.fresh := rfl
@[simp] theorem updContext_nextId (c : Nat) (f : Context → Context) : (s.updContext c f).nextId = s.nextId := rfl

/-! ### `State.updPartition` -/

@[simp] theorem updPartition_clk (p : Nat) (f : Partition → Partition) : (s.updPartition p f).clk = s.clk := rfl
@[simp] theorem updPartition_agents (p : Nat) (f : Partition → Partition) : (s.updPartition p f).agents = s.agents := rfl
@[simp] theorem updPartition_fab (p : Nat) (f : Partition → Partition) : (s.updPartition p f).fab = s.fab := rfl
@[simp] theorem updPartition_ms (p : Nat) (f : Partition → Partition) : (s.updPartition p f).ms = s.ms := rfl
@[simp] theorem updPartition_out (p : Nat) (f : Partition → Partition) : (s.updPartition p f).out = s.out := rfl
@[simp] theorem updPartition_agenda (p : Nat) (f : Partition → Partition) : (s.updPartition p f).agenda = s.agenda := rfl
@[simp] theorem updPartition_cur (p : Nat) (f : Partition → Partition) : (s.updPartition p f).cur = s.cur := rfl
@[simp] theorem updPartition_fresh (p : Nat) (f : Partition → Partition) : (s.updPartition p f).fresh = s.fresh := rfl
@[simp] theorem updPartition_nextId (p : Nat) (f : Partition → Partition) : (s.updPartition p f).nextId = s.nextId := rfl

/-! ### `State.updLq` -/

@[simp] theorem updLq_clk (n : Nat) (f : Lq → Lq) : (s.updLq n f).clk = s.clk := rfl
@[simp] theorem updLq_agents (n : Nat) (f : Lq → Lq) : (s.updLq n f).agents = s.agents := rfl
@[simp] theorem updLq_fab (n : Nat) (f : Lq → Lq) : (s.updLq n f).fab = s.fab := rfl
@[simp] theorem updLq_ms (n : Nat) (f : Lq → Lq) : (s.updLq n f).ms = s.ms := rfl
@[simp] theorem updLq_out (n : Nat) (f : Lq → Lq) : (s.updLq n f).out = s.out := rfl
@[simp] theorem updLq_agenda (n : Nat) (f : Lq → Lq) : (s.updLq n f).agenda = s.agenda := rfl
@[simp] theorem updLq_cur (n : Nat) (f : Lq → Lq) : (s.updLq n f).cur = s.cur := rfl
@[simp] theorem updLq_fresh (n : Nat) (f : Lq → Lq) : (s.updLq n f).fresh = s.fresh := rfl
@[simp] theorem updLq_nextId (n : Nat) (f : Lq → Lq) : (s.updLq n f).nextId = s.nextId := rfl

/-! ### `State.updLadder` -/

@[simp] theorem updLadder_clk (n : Nat) (f : Ladder → Ladder) : (s.updLadder n f).clk = s.clk := rfl
@[simp] theorem updLadder_agents (n : Nat) (f : Ladder → Ladder) : (s.updLadder n f).agents = s.agents := rfl
@[simp] theorem updLadder_fab (n : Nat) (f : Ladder → Ladder) : (s.updLadder n f).fab = s.fab := rfl
@[simp] theorem updLadder_ms (n : Nat) (f : Ladder → Ladder) : (s.updLadder n f).ms = s.ms := rfl
@[simp] theorem updLadder_out (n : Nat) (f : Ladder → Ladder) : (s.updLadder n f).out = s.out := rfl
@[simp] theorem updLadder_agenda (n : Nat) (f : Ladder → Ladder) : (s.updLadder n f).agenda = s.agenda := rfl
@[simp] theorem updLadder_cur (n : Nat) (f : Ladder → Ladder) : (s.updLadder n f).cur = s.cur := rfl
@[simp] theorem updLadder_fresh (n : Nat) (f : Ladder → Ladder) : (s.updLadder n f).fresh = s.fresh := rfl
@[simp] theorem updLadder_nextId (n : Nat) (f : Ladder → Ladder) : (s.updLadder n f).nextId = s.nextId := rfl

/-! ### `State.updThreadCtl` -/

@[simp] theorem updThreadCtl_clk (d t : Nat) (f : ThreadCtl → ThreadCtl) : (s.updThreadCtl d t f).clk = s.clk := rfl
@[simp] theorem updThreadCtl_agents (d t : Nat) (f : ThreadCtl → ThreadCtl) : (s.updThreadCtl d t f).agents = s.agents := rfl
@[simp] theorem updThreadCtl_fab (d t : Nat) (f : ThreadCtl → ThreadCtl) : (s.updThreadCtl d t f).fab = s.fab := rfl
@[simp] theorem updThreadCtl_ms (d t : Nat) (f : ThreadCtl → ThreadCtl) : (s.updThreadCtl d t f).ms = s.ms := rfl
@[simp] theorem updThreadCtl_out (d t : Nat) (f : ThreadCtl → ThreadCtl) : (s.updThreadCtl d t f).out = s.out := rfl
@[simp] theorem updThreadCtl_agenda (d t : Nat) (f : ThreadCtl → ThreadCtl) : (s.updThreadCtl d t f).agenda = s.agenda := rfl
@[simp] theorem updThreadCtl_cur (d t : Nat) (f : ThreadCtl → ThreadCtl) : (s.updThreadCtl d t f).cur = s.cur := rfl
@[simp] theorem updThreadCtl_fresh (d t : Nat) (f : ThreadCtl → ThreadCtl) : (s.updThreadCtl d t f).fresh = s.fresh := rfl
@[simp] theorem updThreadCtl_nextId (d t : Nat) (f : ThreadCtl → ThreadCtl) : (s.updThreadCtl d t f).nextId = s.nextId := rfl

/-! ### `State.updLaunch` -/

@[simp] theorem updLaunch_clk (r : Nat) (f : Launch → Launch) : (s.updLaunch r f).clk = s.clk := rfl
@[simp] theorem updLaunch_agents (r : Nat) (f : Launch → Launch) : (s.updLaunch r f).agents = s.agents := rfl
@[simp] theorem updLaunch_fab (r : Nat) (f : Launch → Launch) : (s.updLaunch r f).fab = s.fab := rfl
@[simp] theorem updLaunch_ms (r : Nat) (f : Launch → Launch) : (s.updLaunch r f).ms = s.ms := rfl
@[simp] theorem updLaunch_out (r : Nat) (f : Launch → Launch) : (s.updLaunch r f).out = s.out := rfl
@[simp] theorem updLaunch_agenda (r : Nat) (f : Launch → Launch) : (s.updLaunch r f).agenda = s.agenda := rfl
@[simp] theorem updLaunch_cur (r : Nat) (f : Launch → Launch) : (s.updLaunch r f).cur = s.cur := rfl
@[simp] theorem updLaunch_fresh (r : Nat) (f : Launch → Launch) : (s.updLaunch r f).fresh = s.fresh := rfl
@[simp] theorem updLaunch_nextId (r : Nat) (f : Launch → Launch) : (s.updLaunch r f).nextId = s.nextId := rfl

/-! ### `State.updRegion` -/

@[simp] theorem updRegion_clk (r : Nat) (f : Region → Region) : (s.updRegion r f).clk = s.clk := rfl
@[simp] theorem updRegion_agents (r : Nat) (f : Region → Region) : (s.updRegion r f).agents = s.agents := rfl
@[simp] theorem updRegion_fab (r : Nat) (f : Region → Region) : (s.updRegion r f).fab = s.fab := rfl
@[simp] theorem updRegion_ms (r : Nat) (f : Region → Region) : (s.updRegion r f).ms = s.ms := rfl
@[simp] theorem updRegion_out (r : Nat) (f : Region → Region) : (s.updRegion r f).out = s.out := rfl
@[simp] theorem updRegion_agenda (r : Nat) (f : Region → Region) : (s.updRegion r f).agenda = s.agenda := rfl
@[simp] theorem updRegion_cur (r : Nat) (f : Region → Region) : (s.updRegion r f).cur = s.cur := rfl
@[simp] theorem updRegion_fresh (r : Nat) (f : Region → Region) : (s.updRegion r f).fresh = s.fresh := rfl
@[simp] theorem updRegion_nextId (r : Nat) (f : Region → Region) : (s.updRegion r f).nextId = s.nextId := rfl

/-! ### `State.updVf` -/

@[simp] theorem updVf_clk (v : Nat) (f : Vf → Vf) : (s.updVf v f).clk = s.clk := rfl
@[simp] theorem updVf_agents (v : Nat) (f : Vf → Vf) : (s.updVf v f).agents = s.agents := rfl
@[simp] theorem updVf_fab (v : Nat) (f : Vf → Vf) : (s.updVf v f).fab = s.fab := rfl
@[simp] theorem updVf_ms (v : Nat) (f : Vf → Vf) : (s.updVf v f).ms = s.ms := rfl
@[simp] theorem updVf_sched (v : Nat) (f : Vf → Vf) : (s.updVf v f).sched = s.sched := rfl
@[simp] theorem updVf_agenda (v : Nat) (f : Vf → Vf) : (s.updVf v f).agenda = s.agenda := rfl
@[simp] theorem updVf_cur (v : Nat) (f : Vf → Vf) : (s.updVf v f).cur = s.cur := rfl
@[simp] theorem updVf_fresh (v : Nat) (f : Vf → Vf) : (s.updVf v f).fresh = s.fresh := rfl
@[simp] theorem updVf_nextId (v : Nat) (f : Vf → Vf) : (s.updVf v f).nextId = s.nextId := rfl

/-! ### `State.updRas` -/

@[simp] theorem updRas_clk (d : Nat) (f : RasDie → RasDie) : (s.updRas d f).clk = s.clk := rfl
@[simp] theorem updRas_agents (d : Nat) (f : RasDie → RasDie) : (s.updRas d f).agents = s.agents := rfl
@[simp] theorem updRas_fab (d : Nat) (f : RasDie → RasDie) : (s.updRas d f).fab = s.fab := rfl
@[simp] theorem updRas_ms (d : Nat) (f : RasDie → RasDie) : (s.updRas d f).ms = s.ms := rfl
@[simp] theorem updRas_sched (d : Nat) (f : RasDie → RasDie) : (s.updRas d f).sched = s.sched := rfl
@[simp] theorem updRas_agenda (d : Nat) (f : RasDie → RasDie) : (s.updRas d f).agenda = s.agenda := rfl
@[simp] theorem updRas_cur (d : Nat) (f : RasDie → RasDie) : (s.updRas d f).cur = s.cur := rfl
@[simp] theorem updRas_fresh (d : Nat) (f : RasDie → RasDie) : (s.updRas d f).fresh = s.fresh := rfl
@[simp] theorem updRas_nextId (d : Nat) (f : RasDie → RasDie) : (s.updRas d f).nextId = s.nextId := rfl

/-! ### `State.setQueue` -/

@[simp] theorem setQueue_clk (q : Qid) (x : Queue) : (s.setQueue q x).clk = s.clk := rfl
@[simp] theorem setQueue_agents (q : Qid) (x : Queue) : (s.setQueue q x).agents = s.agents := rfl
@[simp] theorem setQueue_ms (q : Qid) (x : Queue) : (s.setQueue q x).ms = s.ms := rfl
@[simp] theorem setQueue_sched (q : Qid) (x : Queue) : (s.setQueue q x).sched = s.sched := rfl
@[simp] theorem setQueue_out (q : Qid) (x : Queue) : (s.setQueue q x).out = s.out := rfl
@[simp] theorem setQueue_agenda (q : Qid) (x : Queue) : (s.setQueue q x).agenda = s.agenda := rfl
@[simp] theorem setQueue_cur (q : Qid) (x : Queue) : (s.setQueue q x).cur = s.cur := rfl
@[simp] theorem setQueue_fresh (q : Qid) (x : Queue) : (s.setQueue q x).fresh = s.fresh := rfl
@[simp] theorem setQueue_nextId (q : Qid) (x : Queue) : (s.setQueue q x).nextId = s.nextId := rfl

/-! ### `State.updAgent`, `State.updBlock` and `State.updQueue`, which may find nothing to change -/

@[simp] theorem updAgent_clk (a : Aid) (f : Agent → Agent) : (s.updAgent a f).clk = s.clk := by unfold State.updAgent; split <;> rfl
@[simp] theorem updAgent_fab (a : Aid) (f : Agent → Agent) : (s.updAgent a f).fab = s.fab := by unfold State.updAgent; split <;> rfl
@[simp] theorem updAgent_ms (a : Aid) (f : Agent → Agent) : (s.updAgent a f).ms = s.ms := by unfold State.updAgent; split <;> rfl
@[simp] theorem updAgent_sched (a : Aid) (f : Agent → Agent) : (s.updAgent a f).sched = s.sched := by unfold State.updAgent; split <;> rfl
@[simp] theorem updAgent_out (a : Aid) (f : Agent → Agent) : (s.updAgent a f).out = s.out := by unfold State.updAgent; split <;> rfl
@[simp] theorem updAgent_agenda (a : Aid) (f : Agent → Agent) : (s.updAgent a f).agenda = s.agenda := by unfold State.updAgent; split <;> rfl
@[simp] theorem updAgent_cur (a : Aid) (f : Agent → Agent) : (s.updAgent a f).cur = s.cur := by unfold State.updAgent; split <;> rfl
@[simp] theorem updAgent_fresh (a : Aid) (f : Agent → Agent) : (s.updAgent a f).fresh = s.fresh := by unfold State.updAgent; split <;> rfl
@[simp] theorem updAgent_nextId (a : Aid) (f : Agent → Agent) : (s.updAgent a f).nextId = s.nextId := by unfold State.updAgent; split <;> rfl

@[simp] theorem updQueue_clk (q : Qid) (f : Queue → Queue) : (s.updQueue q f).clk = s.clk := by unfold State.updQueue; split <;> rfl
@[simp] theorem updQueue_agents (q : Qid) (f : Queue → Queue) : (s.updQueue q f).agents = s.agents := by unfold State.updQueue; split <;> rfl
@[simp] theorem updQueue_ms (q : Qid) (f : Queue → Queue) : (s.updQueue q f).ms = s.ms := by unfold State.updQueue; split <;> rfl
@[simp] theorem updQueue_sched (q : Qid) (f : Queue → Queue) : (s.updQueue q f).sched = s.sched := by unfold State.updQueue; split <;> rfl
@[simp] theorem updQueue_out (q : Qid) (f : Queue → Queue) : (s.updQueue q f).out = s.out := by unfold State.updQueue; split <;> rfl
@[simp] theorem updQueue_agenda (q : Qid) (f : Queue → Queue) : (s.updQueue q f).agenda = s.agenda := by unfold State.updQueue; split <;> rfl
@[simp] theorem updQueue_cur (q : Qid) (f : Queue → Queue) : (s.updQueue q f).cur = s.cur := by unfold State.updQueue; split <;> rfl
@[simp] theorem updQueue_fresh (q : Qid) (f : Queue → Queue) : (s.updQueue q f).fresh = s.fresh := by unfold State.updQueue; split <;> rfl
@[simp] theorem updQueue_nextId (q : Qid) (f : Queue → Queue) : (s.updQueue q f).nextId = s.nextId := by unfold State.updQueue; split <;> rfl

@[simp] theorem updBlock_clk (a : Aid) (f : Block → Block) : (s.updBlock a f).clk = s.clk := updAgent_clk _ _ _
@[simp] theorem updBlock_fab (a : Aid) (f : Block → Block) : (s.updBlock a f).fab = s.fab := updAgent_fab _ _ _
@[simp] theorem updBlock_ms (a : Aid) (f : Block → Block) : (s.updBlock a f).ms = s.ms := updAgent_ms _ _ _
@[simp] theorem updBlock_sched (a : Aid) (f : Block → Block) : (s.updBlock a f).sched = s.sched := updAgent_sched _ _ _
@[simp] theorem updBlock_out (a : Aid) (f : Block → Block) : (s.updBlock a f).out = s.out := updAgent_out _ _ _
@[simp] theorem updBlock_agenda (a : Aid) (f : Block → Block) : (s.updBlock a f).agenda = s.agenda := updAgent_agenda _ _ _
@[simp] theorem updBlock_cur (a : Aid) (f : Block → Block) : (s.updBlock a f).cur = s.cur := updAgent_cur _ _ _
@[simp] theorem updBlock_fresh (a : Aid) (f : Block → Block) : (s.updBlock a f).fresh = s.fresh := updAgent_fresh _ _ _
@[simp] theorem updBlock_nextId (a : Aid) (f : Block → Block) : (s.updBlock a f).nextId = s.nextId := updAgent_nextId _ _ _

/-! ### Counting and numbering -/

@[simp] theorem count_clk (d : Nat) (v : Option Nat) (c n : Nat) : (s.count d v c n).clk = s.clk := by
  unfold State.count; split <;> rfl
@[simp] theorem count_agents (d : Nat) (v : Option Nat) (c n : Nat) : (s.count d v c n).agents = s.agents := by
  unfold State.count; split <;> rfl
@[simp] theorem count_fab (d : Nat) (v : Option Nat) (c n : Nat) : (s.count d v c n).fab = s.fab := by
  unfold State.count; split <;> rfl
@[simp] theorem count_ms (d : Nat) (v : Option Nat) (c n : Nat) : (s.count d v c n).ms = s.ms := by
  unfold State.count; split <;> rfl
@[simp] theorem count_agenda (d : Nat) (v : Option Nat) (c n : Nat) : (s.count d v c n).agenda = s.agenda := by
  unfold State.count; split <;> rfl
@[simp] theorem count_cur (d : Nat) (v : Option Nat) (c n : Nat) : (s.count d v c n).cur = s.cur := by
  unfold State.count; split <;> rfl
@[simp] theorem count_fresh (d : Nat) (v : Option Nat) (c n : Nat) : (s.count d v c n).fresh = s.fresh := by
  unfold State.count; split <;> rfl
@[simp] theorem count_nextId (d : Nat) (v : Option Nat) (c n : Nat) : (s.count d v c n).nextId = s.nextId := by
  unfold State.count; split <;> rfl
@[simp] theorem countAt_clk (g : Agent) (c n : Nat) : (s.countAt g c n).clk = s.clk := count_clk _ _ _ _ _
@[simp] theorem countAt_agents (g : Agent) (c n : Nat) : (s.countAt g c n).agents = s.agents := count_agents _ _ _ _ _
@[simp] theorem countAt_fab (g : Agent) (c n : Nat) : (s.countAt g c n).fab = s.fab := count_fab _ _ _ _ _
@[simp] theorem countAt_ms (g : Agent) (c n : Nat) : (s.countAt g c n).ms = s.ms := count_ms _ _ _ _ _
@[simp] theorem countAt_agenda (g : Agent) (c n : Nat) : (s.countAt g c n).agenda = s.agenda := count_agenda _ _ _ _ _
@[simp] theorem countAt_cur (g : Agent) (c n : Nat) : (s.countAt g c n).cur = s.cur := count_cur _ _ _ _ _
@[simp] theorem countAt_fresh (g : Agent) (c n : Nat) : (s.countAt g c n).fresh = s.fresh := count_fresh _ _ _ _ _
@[simp] theorem countAt_nextId (g : Agent) (c n : Nat) : (s.countAt g c n).nextId = s.nextId := count_nextId _ _ _ _ _
@[simp] theorem takeId_clk : s.takeId.2.clk = s.clk := rfl
@[simp] theorem takeId_agents : s.takeId.2.agents = s.agents := rfl
@[simp] theorem takeId_fab : s.takeId.2.fab = s.fab := rfl
@[simp] theorem takeId_ms : s.takeId.2.ms = s.ms := rfl
@[simp] theorem takeId_sched : s.takeId.2.sched = s.sched := rfl
@[simp] theorem takeId_out : s.takeId.2.out = s.out := rfl
@[simp] theorem takeId_agenda : s.takeId.2.agenda = s.agenda := rfl
@[simp] theorem takeId_cur : s.takeId.2.cur = s.cur := rfl
@[simp] theorem takeId_fresh : s.takeId.2.fresh = s.fresh := rfl
@[simp] theorem free_clk : s.free.2.clk = s.clk := rfl
@[simp] theorem free_agents : s.free.2.agents = s.agents := rfl
@[simp] theorem free_fab : s.free.2.fab = s.fab := rfl
@[simp] theorem free_ms : s.free.2.ms = s.ms := rfl
@[simp] theorem free_sched : s.free.2.sched = s.sched := rfl
@[simp] theorem free_out : s.free.2.out = s.out := rfl
@[simp] theorem free_agenda : s.free.2.agenda = s.agenda := rfl
@[simp] theorem free_cur : s.free.2.cur = s.cur := rfl
@[simp] theorem free_nextId : s.free.2.nextId = s.nextId := rfl

end Sys2Proof.Machine
end

