-- ==== Sys2Proof/Laws/Agents.lean ====
section
/-! SUPPORT. Tables, what changing one agent or its block does to the agents, and the order of a block's effects. -/
namespace Sys2Proof.Machine

/-! ### Tables -/

theorem Tab.get?_set_self {κ α : Type} [DecidableEq κ] (t : Tab κ α) (k : κ) (v : α) : Tab.get? (Tab.set t k v) k = some v := by
  induction t with
  | nil => simp [Tab.set, Tab.get?]
  | cons e t ih =>
    by_cases h : e.1 = k <;> simp [Tab.set, Tab.get?, h, ih]

theorem Tab.get?_set_ne {κ α : Type} [DecidableEq κ] (t : Tab κ α) {k x : κ} (v : α) (ne : x ≠ k) :
    Tab.get? (Tab.set t k v) x = Tab.get? t x := by
  induction t with
  | nil => simp [Tab.set, Tab.get?, Ne.symm ne]
  | cons e t ih =>
    by_cases h : e.1 = k
    · simp [Tab.set, Tab.get?, h, Ne.symm ne]
    · by_cases h' : e.1 = x
      · subst h'; simp [Tab.set, Tab.get?, h]
      · simp [Tab.set, Tab.get?, h, h', ih]

theorem Tab.set_set {κ α : Type} [DecidableEq κ] (t : Tab κ α) (k : κ) (v w : α) :
    Tab.set (Tab.set t k v) k w = Tab.set t k w := by
  induction t with
  | nil => simp [Tab.set]
  | cons e t ih => by_cases h : e.1 = k <;> simp [Tab.set, h, ih]

@[simp] theorem Tab.getD_set_self {κ α : Type} [DecidableEq κ] (t : Tab κ α) (k : κ) (v d : α) :
    Tab.getD (Tab.set t k v) k d = v := by simp [Tab.getD, Tab.get?_set_self]

theorem Tab.getD_set_ne {κ α : Type} [DecidableEq κ] (t : Tab κ α) {k x : κ} (v d : α) (ne : x ≠ k) :
    Tab.getD (Tab.set t k v) x d = Tab.getD t x d := by simp [Tab.getD, Tab.get?_set_ne _ _ ne]

/-! ### Agents -/

variable (s : State)

theorem agent?_setAgent_self (a : Aid) (g : Agent) : (s.setAgent a g).agent? a = some g := by
  simp [State.agent?, State.setAgent, Tab.get?_set_self]

theorem agent?_setAgent_ne {a b : Aid} (g : Agent) (ne : b ≠ a) : (s.setAgent a g).agent? b = s.agent? b := by
  simp only [State.agent?, State.setAgent, Tab.get?_set_ne _ _ ne]; rfl

theorem agent?_updAgent_self (a : Aid) (f : Agent → Agent) : (s.updAgent a f).agent? a = (s.agent? a).map f := by
  unfold State.updAgent
  split
  · rename_i g h; simp [agent?_setAgent_self, h]
  · rename_i h; simp [h]

theorem agent?_updAgent_ne {a b : Aid} (f : Agent → Agent) (ne : b ≠ a) : (s.updAgent a f).agent? b = s.agent? b := by
  unfold State.updAgent
  split
  · exact agent?_setAgent_ne s _ ne
  · rfl

theorem updAgent_updAgent (a : Aid) (f g : Agent → Agent) : (s.updAgent a f).updAgent a g = s.updAgent a fun x => g (f x) := by
  cases h : s.agent? a with
  | none => simp [State.updAgent, h]
  | some x =>
    have e : (s.updAgent a f) = s.setAgent a (f x) := by simp [State.updAgent, h]
    rw [e, State.updAgent, agent?_setAgent_self]
    simp [State.updAgent, h, State.setAgent, Tab.set_set]

theorem updBlock_updBlock (a : Aid) (f g : Block → Block) : (s.updBlock a f).updBlock a g = s.updBlock a fun b => g (f b) := by
  simp only [State.updBlock, updAgent_updAgent, Option.map_map]
  rfl

theorem blockOf_updBlock_self (a : Aid) (f : Block → Block) : (s.updBlock a f).blockOf a = (s.blockOf a).map f := by
  simp only [State.blockOf, State.updBlock, agent?_updAgent_self]
  cases s.agent? a <;> simp

theorem blockOf_updBlock_ne {a b : Aid} (f : Block → Block) (ne : b ≠ a) : (s.updBlock a f).blockOf b = s.blockOf b := by
  simp only [State.blockOf, State.updBlock, agent?_updAgent_ne s _ ne]

/-- A change of a block that leaves it as it was. -/
theorem updBlock_id (a : Aid) {f : Block → Block} (g : Agent) (h : s.agent? a = some g) (t : Tab.get? s.agents a = some g)
    (e : g.block.map f = g.block) : (s.updBlock a f) = s := by
  have : ∀ (l : Tab Aid Agent), Tab.get? l a = some g → Tab.set l a g = l := by
    intro l
    induction l with
    | nil => simp [Tab.get?]
    | cons x l ih =>
      by_cases k : x.1 = a
      · intro p; simp [Tab.get?, k] at p; cases x; simp_all [Tab.set]
      · intro p; simp [Tab.get?, k] at p; simp [Tab.set, k, ih p]
  simp [State.updBlock, State.updAgent, h, e, State.setAgent, this _ t]

/-! ### The count of an issue -/

variable (i : Issue) (o : Operands)

@[simp] theorem issued_clk : (s.issued i o).clk = s.clk := by simp [State.issued, State.note]
@[simp] theorem issued_fab : (s.issued i o).fab = s.fab := by simp [State.issued, State.note]
@[simp] theorem issued_ms : (s.issued i o).ms = s.ms := by simp [State.issued, State.note]
@[simp] theorem issued_agenda : (s.issued i o).agenda = s.agenda := by simp [State.issued, State.note]
@[simp] theorem issued_cur : (s.issued i o).cur = s.cur := by simp [State.issued, State.note]
@[simp] theorem issued_fresh : (s.issued i o).fresh = s.fresh := by simp [State.issued, State.note]
@[simp] theorem issued_nextId : (s.issued i o).nextId = s.nextId := by simp [State.issued, State.note]

@[simp] theorem countAt_out (g : Agent) : (s.countAt g 0x12).out = s.out := by simp [State.countAt, State.count]
@[simp] theorem issued_out : (s.issued i o).out = s.out := by simp [State.issued, State.note]

/-- Counting an issue changes the event counters only. -/
theorem countAt_sched (g : Agent) :
    (s.countAt g 0x12).sched = { s.sched with counters := (s.countAt g 0x12).sched.counters } := by
  simp [State.countAt, State.count, State.updSched]

@[simp] theorem countAt_agent? (g : Agent) (a : Aid) : (s.countAt g 0x12).agent? a = s.agent? a := by
  simp [State.agent?, State.freshThread, State.floorTs]

/-- The block of an instruction that issues. -/
theorem issued_blockOf : (s.issued i o).blockOf i.aid =
    (s.blockOf i.aid).map fun b => { b with flags := b.flags ||| fNone, readExc := b.readExc || o.exc } := by
  simp only [State.issued, State.note, blockOf_updBlock_self]
  simp [State.blockOf]

/-! ### The order of effects -/

theorem insertEffect_perm (x : Nat × Effect) (l : List (Nat × Effect)) : (insertEffect x l).Perm (x :: l) := by
  induction l with
  | nil => exact .refl _
  | cons y t ih =>
    unfold insertEffect
    split
    · exact .refl _
    · exact (ih.cons y).trans (.swap x y t)

theorem insertEffect_sorted (x : Nat × Effect) (l : List (Nat × Effect)) (h : (l.map Prod.fst).Pairwise (· ≤ ·)) :
    ((insertEffect x l).map Prod.fst).Pairwise (· ≤ ·) := by
  induction l with
  | nil => simp [insertEffect]
  | cons y t ih =>
    simp only [List.map_cons, List.pairwise_cons] at h
    unfold insertEffect
    split
    · rename_i hlt
      simp only [List.map_cons, List.pairwise_cons]
      refine ⟨fun a ha => ?_, h.1, h.2⟩
      rcases List.mem_cons.1 ha with rfl | ha
      · omega
      · exact Nat.le_trans (Nat.le_of_lt hlt) (h.1 a ha)
    · rename_i hge
      simp only [List.map_cons, List.pairwise_cons]
      refine ⟨fun a ha => ?_, ih h.2⟩
      have hp := ((insertEffect_perm x t).map Prod.fst).mem_iff.1 ha
      rcases List.mem_cons.1 hp with rfl | hp
      · omega
      · exact h.1 a hp
end Sys2Proof.Machine
end

