-- ==== Sys2Proof/Laws/Memory.lean ====
section
/-! SUPPORT. Byte memory: the canonical form is kept, and a read after a write gives what was written. -/
namespace Sys2Proof.Machine

theorem wfFrom_mono {m : List Host.Cell} {lo hi : Nat} (h : Mem.wfFrom hi m = true) (le : lo ≤ hi) : Mem.wfFrom lo m = true := by
  cases m with
  | nil => rfl
  | cons c m => simp [Mem.wfFrom] at h ⊢; exact ⟨⟨by omega, h.1.2⟩, h.2⟩

/-- An address below all entries reads as unlisted. -/
theorem read_below {m : List Host.Cell} : ∀ {lo a : Nat}, Mem.wfFrom lo m = true → a < lo → Mem.read m a = Mem.unlisted := by
  induction m with
  | nil => intros; rfl
  | cons c m ih =>
    obtain ⟨k, b⟩ := c
    intro lo a h lt
    simp [Mem.wfFrom] at h
    simp only [Mem.read]
    rw [if_neg (by omega), ih h.2 (by omega)]

theorem wfFrom_cons {m : List Host.Cell} {lo a : Nat} {b : Byte} (h : Mem.wfFrom (a + 1) m = true) (le : lo ≤ a) :
    Mem.wfFrom lo (Mem.cons a b m) = true := by
  unfold Mem.cons
  split
  · exact wfFrom_mono h (by omega)
  · simp_all [Mem.wfFrom]

theorem wfFrom_write {m : List Host.Cell} : ∀ {lo a : Nat} {b : Byte}, Mem.wfFrom lo m = true → lo ≤ a →
    Mem.wfFrom lo (Mem.write m a b) = true := by
  induction m with
  | nil => intro lo a b _ le; exact wfFrom_cons rfl le
  | cons c m ih =>
    obtain ⟨k, c⟩ := c
    intro lo a b h le
    have h' := h
    simp [Mem.wfFrom] at h'
    simp only [Mem.write]
    split
    · exact wfFrom_cons (by simp [Mem.wfFrom]; exact ⟨⟨by omega, h'.1.2⟩, h'.2⟩) le
    · split
      · exact wfFrom_cons (wfFrom_mono h'.2 (by omega)) le
      · simp [Mem.wfFrom]; exact ⟨⟨h'.1.1, h'.1.2⟩, ih h'.2 (by omega)⟩

theorem wfFrom_writeBytes {bs : List Byte} : ∀ {m : List Host.Cell} {a : Nat}, Memory.wf m = true →
    Memory.wf (Mem.writeBytes m a bs) = true := by
  induction bs with
  | nil => intro m a h; exact h
  | cons b bs ih => intro m a h; exact ih (wfFrom_write h (Nat.zero_le a))

theorem wfFrom_filter {m : List Host.Cell} (p : Host.Cell → Bool) : ∀ {lo : Nat}, Mem.wfFrom lo m = true →
    Mem.wfFrom lo (m.filter p) = true := by
  induction m with
  | nil => intros; rfl
  | cons c m ih =>
    obtain ⟨k, b⟩ := c
    intro lo h
    simp [Mem.wfFrom] at h
    rw [List.filter_cons]
    split
    · simp [Mem.wfFrom]; exact ⟨h.1, ih h.2⟩
    · exact wfFrom_mono (ih h.2) (by omega)

/-- A write keeps the canonical form. -/
theorem wf_write {m : List Host.Cell} {a : Nat} {b : Byte} (h : Memory.wf m = true) : Memory.wf (Mem.write m a b) = true :=
  wfFrom_write h (Nat.zero_le a)

/-- So does a write of consecutive bytes. -/
theorem wf_writeBytes {m : List Host.Cell} {a : Nat} {bs : List Byte} (h : Memory.wf m = true) :
    Memory.wf (Mem.writeBytes m a bs) = true := wfFrom_writeBytes h

/-- So does clearing a set of addresses. -/
theorem wf_filter {m : List Host.Cell} (p : Host.Cell → Bool) (h : Memory.wf m = true) : Memory.wf (m.filter p) = true :=
  wfFrom_filter p h

theorem read_cons {m : List Host.Cell} {lo a c : Nat} {b : Byte} (h : Mem.wfFrom lo m = true) (lt : a < lo) :
    Mem.read (Mem.cons a b m) c = if c = a then b else Mem.read m c := by
  unfold Mem.cons
  split
  · rename_i hb
    split
    · rename_i e; rw [e, read_below h lt, hb]
    · rfl
  · simp only [Mem.read]; split <;> rename_i e
    · simp [e]
    · rw [if_neg (Ne.symm e)]

theorem readFrom_write {m : List Host.Cell} : ∀ {lo a c : Nat} {b : Byte}, Mem.wfFrom lo m = true →
    Mem.read (Mem.write m a b) c = if c = a then b else Mem.read m c := by
  induction m with
  | nil => intro lo a c b _; exact read_cons (lo := a + 1) rfl (by omega)
  | cons e m ih =>
    obtain ⟨k, d⟩ := e
    intro lo a c b h
    have h' := h
    simp [Mem.wfFrom] at h'
    simp only [Mem.write]
    split
    · exact read_cons (lo := k) (by simp [Mem.wfFrom]; exact ⟨h'.1.2, h'.2⟩) (by omega)
    · split
      · rename_i e; subst e
        rw [read_cons h'.2 (by omega)]
        simp only [Mem.read]
        split
        · rfl
        · rw [if_neg (by omega)]
      · simp only [Mem.read, ih h'.2]
        split
        · rw [if_neg (by omega)]
        · rfl

end Sys2Proof.Machine
end

