-- ==== Sys2Proof/Laws/PerInstr.lean ====
section
/-! SUPPORT. What every instruction, as syntax, has for its words: one statement and one lemma per constructor. -/
namespace Sys2Proof.Laws

/-- The words that an instruction encodes to carry its format in bits [1:0] and its opcode in bits [9:2] of the first word, and are as many
as the format says (05 R77, R79 to R82); a device event has none. -/
def Encodes.Statement (i : Instr) : Prop :=
  match i.enc with
  | .event => encode i = []
  | .f0 op _ | .fi op _ => ∃ w : Word, encode i = [w] ∧ w.extractLsb' 0 2 = 0#2 ∧ w.extractLsb' 2 8 = BitVec.ofNat 8 op
  | .fx op _ f => ∃ w : Word, (encode i).head? = some w ∧ w.extractLsb' 2 8 = BitVec.ofNat 8 op ∧
    w.extractLsb' 0 2 = (if f.lit.isNone then 1#2 else 2#2) ∧ (encode i).length = if f.lit.isNone then 2 else 3

theorem encodes_event {i : Instr} (h : i.enc = .event) : Encodes.Statement i := by simp [Encodes.Statement, encode, h]

/-- The two lowest fields of an appended word. -/
theorem low_fields (n : Nat) (x : BitVec n) (o : BitVec 8) (t : BitVec 2) :
    (x ++ o ++ t).extractLsb' 0 2 = t ∧ (x ++ o ++ t).extractLsb' 2 8 = o := by
  refine ⟨?_, ?_⟩ <;> ext j hj <;> simp [BitVec.getLsbD_append, hj]
  exact fun h => by omega

theorem encodes_f0 {i : Instr} {op : Nat} {f : F0} (h : i.enc = .f0 op f) : Encodes.Statement i := by
  simp only [Encodes.Statement, encode, h]
  exact ⟨_, rfl, (low_fields 22 _ _ _).1, (low_fields 22 _ _ _).2⟩

theorem encodes_fi {i : Instr} {op : Nat} {f : FI} (h : i.enc = .fi op f) : Encodes.Statement i := by
  simp only [Encodes.Statement, encode, h]
  exact ⟨_, rfl, (low_fields 22 _ _ _).1, (low_fields 22 _ _ _).2⟩

theorem encodes_fx {i : Instr} {op : Nat} {r : FXRow} {f : FX} (h : i.enc = .fx op r f) : Encodes.Statement i := by
  simp only [Encodes.Statement, encode, h]
  cases hl : f.lit <;> simp only [FX.toWords, hl] <;>
    exact ⟨_, rfl, (low_fields 22 _ _ _).2, (low_fields 22 _ _ _).1, rfl⟩

namespace Encodes

theorem addF0 f : Statement (.addF0 f) := encodes_f0 rfl
theorem addF1F2 f : Statement (.addF1F2 f) := encodes_fx rfl
theorem subF0 f : Statement (.subF0 f) := encodes_f0 rfl
theorem subF1F2 f : Statement (.subF1F2 f) := encodes_fx rfl
theorem addiFi f : Statement (.addiFi f) := encodes_fi rfl
theorem addiF2 f : Statement (.addiF2 f) := encodes_fx rfl
theorem mulF0 f : Statement (.mulF0 f) := encodes_f0 rfl
theorem mulF1F2 f : Statement (.mulF1F2 f) := encodes_fx rfl
theorem mulhF0 f : Statement (.mulhF0 f) := encodes_f0 rfl
theorem mulhF1F2 f : Statement (.mulhF1F2 f) := encodes_fx rfl
theorem mulhuF0 f : Statement (.mulhuF0 f) := encodes_f0 rfl
theorem mulhuF1F2 f : Statement (.mulhuF1F2 f) := encodes_fx rfl
theorem madF0 f : Statement (.madF0 f) := encodes_f0 rfl
theorem madF1F2 f : Statement (.madF1F2 f) := encodes_fx rfl
theorem divsF0 f : Statement (.divsF0 f) := encodes_f0 rfl
theorem divsF1F2 f : Statement (.divsF1F2 f) := encodes_fx rfl
theorem divuF0 f : Statement (.divuF0 f) := encodes_f0 rfl
theorem divuF1F2 f : Statement (.divuF1F2 f) := encodes_fx rfl
theorem remsF0 f : Statement (.remsF0 f) := encodes_f0 rfl
theorem remsF1F2 f : Statement (.remsF1F2 f) := encodes_fx rfl
theorem remuF0 f : Statement (.remuF0 f) := encodes_f0 rfl
theorem remuF1F2 f : Statement (.remuF1F2 f) := encodes_fx rfl
theorem negF0 f : Statement (.negF0 f) := encodes_f0 rfl
theorem negF1 f : Statement (.negF1 f) := encodes_fx rfl
theorem absF0 f : Statement (.absF0 f) := encodes_f0 rfl
theorem absF1 f : Statement (.absF1 f) := encodes_fx rfl
theorem minF0 f : Statement (.minF0 f) := encodes_f0 rfl
theorem minF1F2 f : Statement (.minF1F2 f) := encodes_fx rfl
theorem maxF0 f : Statement (.maxF0 f) := encodes_f0 rfl
theorem maxF1F2 f : Statement (.maxF1F2 f) := encodes_fx rfl
theorem minuF0 f : Statement (.minuF0 f) := encodes_f0 rfl
theorem minuF1F2 f : Statement (.minuF1F2 f) := encodes_fx rfl
theorem maxuF0 f : Statement (.maxuF0 f) := encodes_f0 rfl
theorem maxuF1F2 f : Statement (.maxuF1F2 f) := encodes_fx rfl
theorem addsF0 f : Statement (.addsF0 f) := encodes_f0 rfl
theorem addsF1F2 f : Statement (.addsF1F2 f) := encodes_fx rfl
theorem addsuF0 f : Statement (.addsuF0 f) := encodes_f0 rfl
theorem addsuF1F2 f : Statement (.addsuF1F2 f) := encodes_fx rfl
theorem subsF0 f : Statement (.subsF0 f) := encodes_f0 rfl
theorem subsF1F2 f : Statement (.subsF1F2 f) := encodes_fx rfl
theorem subsuF0 f : Statement (.subsuF0 f) := encodes_f0 rfl
theorem subsuF1F2 f : Statement (.subsuF1F2 f) := encodes_fx rfl
theorem avgF0 f : Statement (.avgF0 f) := encodes_f0 rfl
theorem avgF1F2 f : Statement (.avgF1F2 f) := encodes_fx rfl
theorem andF0 f : Statement (.andF0 f) := encodes_f0 rfl
theorem andF1F2 f : Statement (.andF1F2 f) := encodes_fx rfl
theorem orF0 f : Statement (.orF0 f) := encodes_f0 rfl
theorem orF1F2 f : Statement (.orF1F2 f) := encodes_fx rfl
theorem xorF0 f : Statement (.xorF0 f) := encodes_f0 rfl
theorem xorF1F2 f : Statement (.xorF1F2 f) := encodes_fx rfl
theorem andnF0 f : Statement (.andnF0 f) := encodes_f0 rfl
theorem andnF1F2 f : Statement (.andnF1F2 f) := encodes_fx rfl
theorem shlF0 f : Statement (.shlF0 f) := encodes_f0 rfl
theorem shlF1F2 f : Statement (.shlF1F2 f) := encodes_fx rfl
theorem shrF0 f : Statement (.shrF0 f) := encodes_f0 rfl
theorem shrF1F2 f : Statement (.shrF1F2 f) := encodes_fx rfl
theorem sarF0 f : Statement (.sarF0 f) := encodes_f0 rfl
theorem sarF1F2 f : Statement (.sarF1F2 f) := encodes_fx rfl
theorem rotlF0 f : Statement (.rotlF0 f) := encodes_f0 rfl
theorem rotlF1F2 f : Statement (.rotlF1F2 f) := encodes_fx rfl
theorem shliFi f : Statement (.shliFi f) := encodes_fi rfl
theorem shliF2 f : Statement (.shliF2 f) := encodes_fx rfl
theorem shriFi f : Statement (.shriFi f) := encodes_fi rfl
theorem shriF2 f : Statement (.shriF2 f) := encodes_fx rfl
theorem sariFi f : Statement (.sariFi f) := encodes_fi rfl
theorem sariF2 f : Statement (.sariF2 f) := encodes_fx rfl
theorem clzF0 f : Statement (.clzF0 f) := encodes_f0 rfl
theorem clzF1 f : Statement (.clzF1 f) := encodes_fx rfl
theorem ctzF0 f : Statement (.ctzF0 f) := encodes_f0 rfl
theorem ctzF1 f : Statement (.ctzF1 f) := encodes_fx rfl
theorem popcF0 f : Statement (.popcF0 f) := encodes_f0 rfl
theorem popcF1 f : Statement (.popcF1 f) := encodes_fx rfl
theorem brevF0 f : Statement (.brevF0 f) := encodes_f0 rfl
theorem brevF1 f : Statement (.brevF1 f) := encodes_fx rfl
theorem bswapF0 f : Statement (.bswapF0 f) := encodes_f0 rfl
theorem bswapF1 f : Statement (.bswapF1 f) := encodes_fx rfl
theorem bfxF0 f : Statement (.bfxF0 f) := encodes_f0 rfl
theorem bfxF1F2 f : Statement (.bfxF1F2 f) := encodes_fx rfl
theorem bfiF0 f : Statement (.bfiF0 f) := encodes_f0 rfl
theorem bfiF1F2 f : Statement (.bfiF1F2 f) := encodes_fx rfl
theorem addshF0 f : Statement (.addshF0 f) := encodes_f0 rfl
theorem addshF1F2 f : Statement (.addshF1F2 f) := encodes_fx rfl
theorem movi f : Statement (.movi f) := encodes_fi rfl
theorem movl f : Statement (.movl f) := encodes_fx rfl
theorem sext f : Statement (.sext f) := encodes_fx rfl
theorem zext f : Statement (.zext f) := encodes_fx rfl
theorem movF0 f : Statement (.movF0 f) := encodes_f0 rfl
theorem movF1 f : Statement (.movF1 f) := encodes_fx rfl
theorem ceqF0 f : Statement (.ceqF0 f) := encodes_f0 rfl
theorem ceqF1F2 f : Statement (.ceqF1F2 f) := encodes_fx rfl
theorem cneF0 f : Statement (.cneF0 f) := encodes_f0 rfl
theorem cneF1F2 f : Statement (.cneF1F2 f) := encodes_fx rfl
theorem cltF0 f : Statement (.cltF0 f) := encodes_f0 rfl
theorem cltF1F2 f : Statement (.cltF1F2 f) := encodes_fx rfl
theorem cleF0 f : Statement (.cleF0 f) := encodes_f0 rfl
theorem cleF1F2 f : Statement (.cleF1F2 f) := encodes_fx rfl
theorem cltuF0 f : Statement (.cltuF0 f) := encodes_f0 rfl
theorem cltuF1F2 f : Statement (.cltuF1F2 f) := encodes_fx rfl
theorem cleuF0 f : Statement (.cleuF0 f) := encodes_f0 rfl
theorem cleuF1F2 f : Statement (.cleuF1F2 f) := encodes_fx rfl
theorem ceqiFi f : Statement (.ceqiFi f) := encodes_fi rfl
theorem ceqiF2 f : Statement (.ceqiF2 f) := encodes_fx rfl
theorem cltiFi f : Statement (.cltiFi f) := encodes_fi rfl
theorem cltiF2 f : Statement (.cltiF2 f) := encodes_fx rfl
theorem selF0 f : Statement (.selF0 f) := encodes_f0 rfl
theorem selF1F2 f : Statement (.selF1F2 f) := encodes_fx rfl
theorem pandF0 f : Statement (.pandF0 f) := encodes_f0 rfl
theorem pandF1F2 f : Statement (.pandF1F2 f) := encodes_fx rfl
theorem porF0 f : Statement (.porF0 f) := encodes_f0 rfl
theorem porF1F2 f : Statement (.porF1F2 f) := encodes_fx rfl
theorem pxorF0 f : Statement (.pxorF0 f) := encodes_f0 rfl
theorem pxorF1F2 f : Statement (.pxorF1F2 f) := encodes_fx rfl
theorem pnotF0 f : Statement (.pnotF0 f) := encodes_f0 rfl
theorem pnotF1 f : Statement (.pnotF1 f) := encodes_fx rfl
theorem panyF0 f : Statement (.panyF0 f) := encodes_f0 rfl
theorem panyF1 f : Statement (.panyF1 f) := encodes_fx rfl
theorem pallF0 f : Statement (.pallF0 f) := encodes_f0 rfl
theorem pallF1 f : Statement (.pallF1 f) := encodes_fx rfl
theorem pcntF0 f : Statement (.pcntF0 f) := encodes_f0 rfl
theorem pcntF1 f : Statement (.pcntF1 f) := encodes_fx rfl
theorem bcastF0 f : Statement (.bcastF0 f) := encodes_f0 rfl
theorem bcastF1F2 f : Statement (.bcastF1F2 f) := encodes_fx rfl
theorem lgetF0 f : Statement (.lgetF0 f) := encodes_f0 rfl
theorem lgetF1F2 f : Statement (.lgetF1F2 f) := encodes_fx rfl
theorem lsetF0 f : Statement (.lsetF0 f) := encodes_f0 rfl
theorem lsetF1F2 f : Statement (.lsetF1F2 f) := encodes_fx rfl
theorem permF0 f : Statement (.permF0 f) := encodes_f0 rfl
theorem permF1F2 f : Statement (.permF1F2 f) := encodes_fx rfl
theorem lrotF0 f : Statement (.lrotF0 f) := encodes_f0 rfl
theorem lrotF1F2 f : Statement (.lrotF1F2 f) := encodes_fx rfl
theorem zipF0 f : Statement (.zipF0 f) := encodes_f0 rfl
theorem zipF1F2 f : Statement (.zipF1F2 f) := encodes_fx rfl
theorem unzipF0 f : Statement (.unzipF0 f) := encodes_f0 rfl
theorem unzipF1F2 f : Statement (.unzipF1F2 f) := encodes_fx rfl
theorem compressF0 f : Statement (.compressF0 f) := encodes_f0 rfl
theorem compressF1F2 f : Statement (.compressF1F2 f) := encodes_fx rfl
theorem expandF0 f : Statement (.expandF0 f) := encodes_f0 rfl
theorem expandF1F2 f : Statement (.expandF1F2 f) := encodes_fx rfl
theorem raddF0 f : Statement (.raddF0 f) := encodes_f0 rfl
theorem raddF1 f : Statement (.raddF1 f) := encodes_fx rfl
theorem rmaxF0 f : Statement (.rmaxF0 f) := encodes_f0 rfl
theorem rmaxF1 f : Statement (.rmaxF1 f) := encodes_fx rfl
theorem rminF0 f : Statement (.rminF0 f) := encodes_f0 rfl
theorem rminF1 f : Statement (.rminF1 f) := encodes_fx rfl
theorem rxorF0 f : Statement (.rxorF0 f) := encodes_f0 rfl
theorem rxorF1 f : Statement (.rxorF1 f) := encodes_fx rfl
theorem scanF0 f : Statement (.scanF0 f) := encodes_f0 rfl
theorem scanF1 f : Statement (.scanF1 f) := encodes_fx rfl
theorem lidx f : Statement (.lidx f) := encodes_f0 rfl
theorem dot4F0 f : Statement (.dot4F0 f) := encodes_f0 rfl
theorem dot4F1F2 f : Statement (.dot4F1F2 f) := encodes_fx rfl
theorem faddF0 f : Statement (.faddF0 f) := encodes_f0 rfl
theorem faddF1F2 f : Statement (.faddF1F2 f) := encodes_fx rfl
theorem fsubF0 f : Statement (.fsubF0 f) := encodes_f0 rfl
theorem fsubF1F2 f : Statement (.fsubF1F2 f) := encodes_fx rfl
theorem fmulF0 f : Statement (.fmulF0 f) := encodes_f0 rfl
theorem fmulF1F2 f : Statement (.fmulF1F2 f) := encodes_fx rfl
theorem fmaF0 f : Statement (.fmaF0 f) := encodes_f0 rfl
theorem fmaF1F2 f : Statement (.fmaF1F2 f) := encodes_fx rfl
theorem fmsF0 f : Statement (.fmsF0 f) := encodes_f0 rfl
theorem fmsF1F2 f : Statement (.fmsF1F2 f) := encodes_fx rfl
theorem fnmaF0 f : Statement (.fnmaF0 f) := encodes_f0 rfl
theorem fnmaF1F2 f : Statement (.fnmaF1F2 f) := encodes_fx rfl
theorem fminF0 f : Statement (.fminF0 f) := encodes_f0 rfl
theorem fminF1F2 f : Statement (.fminF1F2 f) := encodes_fx rfl
theorem fmaxF0 f : Statement (.fmaxF0 f) := encodes_f0 rfl
theorem fmaxF1F2 f : Statement (.fmaxF1F2 f) := encodes_fx rfl
theorem fabsF0 f : Statement (.fabsF0 f) := encodes_f0 rfl
theorem fabsF1 f : Statement (.fabsF1 f) := encodes_fx rfl
theorem fnegF0 f : Statement (.fnegF0 f) := encodes_f0 rfl
theorem fnegF1 f : Statement (.fnegF1 f) := encodes_fx rfl
theorem feqF0 f : Statement (.feqF0 f) := encodes_f0 rfl
theorem feqF1F2 f : Statement (.feqF1F2 f) := encodes_fx rfl
theorem fltF0 f : Statement (.fltF0 f) := encodes_f0 rfl
theorem fltF1F2 f : Statement (.fltF1F2 f) := encodes_fx rfl
theorem fleF0 f : Statement (.fleF0 f) := encodes_f0 rfl
theorem fleF1F2 f : Statement (.fleF1F2 f) := encodes_fx rfl
theorem funF0 f : Statement (.funF0 f) := encodes_f0 rfl
theorem funF1F2 f : Statement (.funF1F2 f) := encodes_fx rfl
theorem fclassF0 f : Statement (.fclassF0 f) := encodes_f0 rfl
theorem fclassF1 f : Statement (.fclassF1 f) := encodes_fx rfl
theorem frcpF0 f : Statement (.frcpF0 f) := encodes_f0 rfl
theorem frcpF1 f : Statement (.frcpF1 f) := encodes_fx rfl
theorem frsqF0 f : Statement (.frsqF0 f) := encodes_f0 rfl
theorem frsqF1 f : Statement (.frsqF1 f) := encodes_fx rfl
theorem frcprF0 f : Statement (.frcprF0 f) := encodes_f0 rfl
theorem frcprF1F2 f : Statement (.frcprF1F2 f) := encodes_fx rfl
theorem frsqrF0 f : Statement (.frsqrF0 f) := encodes_f0 rfl
theorem frsqrF1F2 f : Statement (.frsqrF1F2 f) := encodes_fx rfl
theorem fexp2F0 f : Statement (.fexp2F0 f) := encodes_f0 rfl
theorem fexp2F1 f : Statement (.fexp2F1 f) := encodes_fx rfl
theorem flog2F0 f : Statement (.flog2F0 f) := encodes_f0 rfl
theorem flog2F1 f : Statement (.flog2F1 f) := encodes_fx rfl
theorem frndF0 f : Statement (.frndF0 f) := encodes_f0 rfl
theorem frndF1 f : Statement (.frndF1 f) := encodes_fx rfl
theorem fsclF0 f : Statement (.fsclF0 f) := encodes_f0 rfl
theorem fsclF1F2 f : Statement (.fsclF1F2 f) := encodes_fx rfl
theorem cvt f : Statement (.cvt f) := encodes_fx rfl
theorem cvts f : Statement (.cvts f) := encodes_fx rfl
theorem fdotF0 f : Statement (.fdotF0 f) := encodes_f0 rfl
theorem fdotF1F2 f : Statement (.fdotF1F2 f) := encodes_fx rfl
theorem cbdec f : Statement (.cbdec f) := encodes_fx rfl
theorem bsclF0 f : Statement (.bsclF0 f) := encodes_f0 rfl
theorem bsclF1F2 f : Statement (.bsclF1F2 f) := encodes_fx rfl
theorem fsum2F0 f : Statement (.fsum2F0 f) := encodes_f0 rfl
theorem fsum2F1F2 f : Statement (.fsum2F1F2 f) := encodes_fx rfl
theorem fclampF0 f : Statement (.fclampF0 f) := encodes_f0 rfl
theorem fclampF1F2 f : Statement (.fclampF1F2 f) := encodes_fx rfl
theorem fcsgnF0 f : Statement (.fcsgnF0 f) := encodes_f0 rfl
theorem fcsgnF1F2 f : Statement (.fcsgnF1F2 f) := encodes_fx rfl
theorem br f : Statement (.br f) := encodes_fx rfl
theorem bri f : Statement (.bri f) := encodes_fx rfl
theorem call f : Statement (.call f) := encodes_fx rfl
theorem ret f : Statement (.ret f) := encodes_f0 rfl
theorem fend f : Statement (.fend f) := encodes_f0 rfl
theorem loopnFi f : Statement (.loopnFi f) := encodes_fi rfl
theorem loopnF2 f : Statement (.loopnF2 f) := encodes_fx rfl
theorem trap f : Statement (.trap f) := encodes_fi rfl
theorem nop f : Statement (.nop f) := encodes_f0 rfl
theorem rdr f : Statement (.rdr f) := encodes_fx rfl
theorem mfs f : Statement (.mfs f) := encodes_fi rfl
theorem tick f : Statement (.tick f) := encodes_f0 rfl
theorem twaitF0 f : Statement (.twaitF0 f) := encodes_f0 rfl
theorem twaitF1 f : Statement (.twaitF1 f) := encodes_fx rfl
theorem nullF0 f : Statement (.nullF0 f) := encodes_f0 rfl
theorem brk f : Statement (.brk f) := encodes_fi rfl
theorem putF0 f : Statement (.putF0 f) := encodes_f0 rfl
theorem putF1 f : Statement (.putF1 f) := encodes_fx rfl
theorem putk f : Statement (.putk f) := encodes_fx rfl
theorem kget f : Statement (.kget f) := encodes_fx rfl
theorem wget f : Statement (.wget f) := encodes_fx rfl
theorem tget f : Statement (.tget f) := encodes_fx rfl
theorem kind f : Statement (.kind f) := encodes_fx rfl
theorem gap f : Statement (.gap f) := encodes_fx rfl
theorem skip f : Statement (.skip f) := encodes_fx rfl
theorem qstat f : Statement (.qstat f) := encodes_fx rfl
theorem qstatClr f : Statement (.qstatClr f) := encodes_fx rfl
theorem qpol f : Statement (.qpol f) := encodes_fx rfl
theorem wcloseF0 f : Statement (.wcloseF0 f) := encodes_f0 rfl
theorem wcloseF1 f : Statement (.wcloseF1 f) := encodes_fx rfl
theorem eof f : Statement (.eof f) := encodes_fx rfl
theorem eofEnd f : Statement (.eofEnd f) := encodes_fx rfl
theorem swapF0 f : Statement (.swapF0 f) := encodes_f0 rfl
theorem swapF1 f : Statement (.swapF1 f) := encodes_fx rfl
theorem ld f : Statement (.ld f) := encodes_fx rfl
theorem ldv f : Statement (.ldv f) := encodes_fx rfl
theorem ldg f : Statement (.ldg f) := encodes_fx rfl
theorem st f : Statement (.st f) := encodes_fx rfl
theorem stv f : Statement (.stv f) := encodes_fx rfl
theorem sts f : Statement (.sts f) := encodes_fx rfl
theorem ldsys f : Statement (.ldsys f) := encodes_fx rfl
theorem stsys f : Statement (.stsys f) := encodes_fx rfl
theorem pref f : Statement (.pref f) := encodes_fx rfl
theorem fence f : Statement (.fence f) := encodes_fi rfl
theorem qfence f : Statement (.qfence f) := encodes_fi rfl
theorem sinv f : Statement (.sinv f) := encodes_fx rfl
theorem swb f : Statement (.swb f) := encodes_fx rfl
theorem smap f : Statement (.smap f) := encodes_fx rfl
theorem aadd f : Statement (.aadd f) := encodes_fx rfl
theorem amin f : Statement (.amin f) := encodes_fx rfl
theorem amax f : Statement (.amax f) := encodes_fx rfl
theorem aand f : Statement (.aand f) := encodes_fx rfl
theorem aor f : Statement (.aor f) := encodes_fx rfl
theorem axor f : Statement (.axor f) := encodes_fx rfl
theorem axchg f : Statement (.axchg f) := encodes_fx rfl
theorem acas f : Statement (.acas f) := encodes_fx rfl
theorem afadd f : Statement (.afadd f) := encodes_fx rfl
theorem aaddv f : Statement (.aaddv f) := encodes_fx rfl
theorem lkacq f : Statement (.lkacq f) := encodes_fx rfl
theorem lkrel f : Statement (.lkrel f) := encodes_fx rfl
theorem lkwait f : Statement (.lkwait f) := encodes_fx rfl
theorem ldsh f : Statement (.ldsh f) := encodes_fx rfl
theorem aminu f : Statement (.aminu f) := encodes_fx rfl
theorem amaxu f : Statement (.amaxu f) := encodes_fx rfl
theorem cpy f : Statement (.cpy f) := encodes_fx rfl
theorem cpyx f : Statement (.cpyx f) := encodes_fx rfl
theorem cpyt f : Statement (.cpyt f) := encodes_fx rfl
theorem mldL f : Statement (.mldL f) := encodes_fx rfl
theorem mldA f : Statement (.mldA f) := encodes_fx rfl
theorem mmul f : Statement (.mmul f) := encodes_fx rfl
theorem mrd f : Statement (.mrd f) := encodes_fx rfl
theorem mclrF0 f : Statement (.mclrF0 f) := encodes_f0 rfl
theorem mclrF1 f : Statement (.mclrF1 f) := encodes_fx rfl
theorem mfmt f : Statement (.mfmt f) := encodes_fx rfl
theorem bar f : Statement (.bar f) := encodes_fx rfl
theorem bara f : Statement (.bara f) := encodes_fx rfl
theorem barw f : Statement (.barw f) := encodes_fx rfl
theorem genk f : Statement (.genk f) := encodes_fx rfl
theorem genkFlush f : Statement (.genkFlush f) := encodes_fx rfl
theorem ufinit f : Statement (.ufinit f) := encodes_fx rfl
theorem unite f : Statement (.unite f) := encodes_fx rfl
theorem find f : Statement (.find f) := encodes_fx rfl
theorem relabel f : Statement (.relabel f) := encodes_fx rfl
theorem ccsize f : Statement (.ccsize f) := encodes_fx rfl
theorem ufsnap f : Statement (.ufsnap f) := encodes_fx rfl
theorem ufsnapClose f : Statement (.ufsnapClose f) := encodes_fx rfl
theorem ufundo f : Statement (.ufundo f) := encodes_fx rfl
theorem walk f : Statement (.walk f) := encodes_fx rfl
theorem wrule f : Statement (.wrule f) := encodes_fx rfl
theorem wstatQ f : Statement (.wstatQ f) := encodes_fx rfl
theorem wstatResume f : Statement (.wstatResume f) := encodes_fx rfl
theorem wstatAbort f : Statement (.wstatAbort f) := encodes_fx rfl
theorem hacc f : Statement (.hacc f) := encodes_fx rfl
theorem hflush f : Statement (.hflush f) := encodes_fx rfl
theorem hstat f : Statement (.hstat f) := encodes_fx rfl
theorem scall f : Statement (.scall f) := encodes_fx rfl
theorem snotify f : Statement (.snotify f) := encodes_fx rfl
theorem swaitF0 f : Statement (.swaitF0 f) := encodes_f0 rfl
theorem swaitF1 f : Statement (.swaitF1 f) := encodes_fx rfl
theorem mfcr f : Statement (.mfcr f) := encodes_fx rfl
theorem mtcr f : Statement (.mtcr f) := encodes_fx rfl
theorem eret f : Statement (.eret f) := encodes_f0 rfl
theorem tlbi f : Statement (.tlbi f) := encodes_fx rfl
theorem frz f : Statement (.frz f) := encodes_fx rfl
theorem drn f : Statement (.drn f) := encodes_fx rfl
theorem imgsv f : Statement (.imgsv f) := encodes_fx rfl
theorem imgsvDrop f : Statement (.imgsvDrop f) := encodes_fx rfl
theorem imgld f : Statement (.imgld f) := encodes_fx rfl
theorem rgrant f : Statement (.rgrant f) := encodes_fx rfl
theorem rfreeFree f : Statement (.rfreeFree f) := encodes_fx rfl
theorem rfreeKill f : Statement (.rfreeKill f) := encodes_fx rfl
theorem wdpetF0 f : Statement (.wdpetF0 f) := encodes_f0 rfl
theorem wdpetF1 f : Statement (.wdpetF1 f) := encodes_fx rfl
theorem ecntRd f : Statement (.ecntRd f) := encodes_fx rfl
theorem ecntSel f : Statement (.ecntSel f) := encodes_fx rfl
theorem ecntClr f : Statement (.ecntClr f) := encodes_fx rfl
theorem halt f : Statement (.halt f) := encodes_f0 rfl
theorem lqTailWrite a b : Statement (.lqTailWrite a b) := encodes_event rfl
theorem cqnotifyWrite a b c : Statement (.cqnotifyWrite a b c) := encodes_event rfl
theorem ctxkillWrite a b : Statement (.ctxkillWrite a b) := encodes_event rfl
theorem ctxptWrite a b : Statement (.ctxptWrite a b) := encodes_event rfl
theorem pchgWrite a : Statement (.pchgWrite a) := encodes_event rfl
theorem migrationGo a b : Statement (.migrationGo a b) := encodes_event rfl
theorem stage a : Statement (.stage a) := encodes_event rfl
theorem swapFirmware a : Statement (.swapFirmware a) := encodes_event rfl
theorem bootsel a : Statement (.bootsel a) := encodes_event rfl
theorem svnlock a : Statement (.svnlock a) := encodes_event rfl
theorem bvcpwdWrite a : Statement (.bvcpwdWrite a) := encodes_event rfl
theorem controlRegisterWrite a b c : Statement (.controlRegisterWrite a b c) := encodes_event rfl
theorem hostApertureWrite a b c : Statement (.hostApertureWrite a b c) := encodes_event rfl
theorem hostApertureRead a b c : Statement (.hostApertureRead a b c) := encodes_event rfl
theorem functionLevelReset a : Statement (.functionLevelReset a) := encodes_event rfl
theorem textFrame a b : Statement (.textFrame a b) := encodes_event rfl
theorem blockerRecord a : Statement (.blockerRecord a) := encodes_event rfl
theorem textReplyTimeout a : Statement (.textReplyTimeout a) := encodes_event rfl
theorem vocload a : Statement (.vocload a) := encodes_event rfl
theorem vocdrop a : Statement (.vocdrop a) := encodes_event rfl
theorem podMemoryAccess a b c d e : Statement (.podMemoryAccess a b c d e) := encodes_event rfl
theorem timeSyncMessage a : Statement (.timeSyncMessage a) := encodes_event rfl
theorem claim a b : Statement (.claim a b) := encodes_event rfl
theorem claimAck a : Statement (.claimAck a) := encodes_event rfl
theorem heartbeat a b : Statement (.heartbeat a b) := encodes_event rfl
theorem heartbeatSend : Statement (.heartbeatSend) := encodes_event rfl
theorem heartbeatMiss : Statement (.heartbeatMiss) := encodes_event rfl
theorem followerLoadStep a b c : Statement (.followerLoadStep a b c) := encodes_event rfl
theorem progressRecordQuery a : Statement (.progressRecordQuery a) := encodes_event rfl
theorem powerStepDown a b : Statement (.powerStepDown a b) := encodes_event rfl
theorem powerStepUp a b : Statement (.powerStepUp a b) := encodes_event rfl
theorem thermalP3 a b : Statement (.thermalP3 a b) := encodes_event rfl
theorem thermalReset a b : Statement (.thermalReset a b) := encodes_event rfl
theorem powerOnReset : Statement (.powerOnReset) := encodes_event rfl
theorem serviceStageAdvance : Statement (.serviceStageAdvance) := encodes_event rfl
theorem scrub a : Statement (.scrub a) := encodes_event rfl
theorem linkCrcFailure a : Statement (.linkCrcFailure a) := encodes_event rfl
theorem linkRetrainDone a b : Statement (.linkRetrainDone a b) := encodes_event rfl
theorem regionStateUe a b c : Statement (.regionStateUe a b c) := encodes_event rfl
theorem leaseExpiryWriteback a b c d e g : Statement (.leaseExpiryWriteback a b c d e g) := encodes_event rfl
theorem ptsAdvance : Statement (.ptsAdvance) := encodes_event rfl
theorem timestampRebase a b : Statement (.timestampRebase a b) := encodes_event rfl
theorem watchdogL1 a : Statement (.watchdogL1 a) := encodes_event rfl
theorem watchdogL2 a : Statement (.watchdogL2 a) := encodes_event rfl
theorem watchdogL4 a : Statement (.watchdogL4 a) := encodes_event rfl
theorem watchdogL5 a : Statement (.watchdogL5 a) := encodes_event rfl
theorem cpWatchdogExpiry a : Statement (.cpWatchdogExpiry a) := encodes_event rfl
theorem takeover : Statement (.takeover) := encodes_event rfl
theorem launchAdmit a : Statement (.launchAdmit a) := encodes_event rfl
theorem allocatorRound a : Statement (.allocatorRound a) := encodes_event rfl
theorem launchStart a : Statement (.launchStart a) := encodes_event rfl
theorem launchComplete a : Statement (.launchComplete a) := encodes_event rfl
theorem floorPreempt a b : Statement (.floorPreempt a b) := encodes_event rfl
theorem hostAssistAnswer a b c d e : Statement (.hostAssistAnswer a b c d e) := encodes_event rfl
theorem drainComplete a : Statement (.drainComplete a) := encodes_event rfl
theorem drainTimeout a : Statement (.drainTimeout a) := encodes_event rfl
theorem freezeCaptureClose a : Statement (.freezeCaptureClose a) := encodes_event rfl
theorem nodeReconfigure a : Statement (.nodeReconfigure a) := encodes_event rfl
theorem firingStart a : Statement (.firingStart a) := encodes_event rfl
theorem controlFiring a : Statement (.controlFiring a) := encodes_event rfl
theorem pacePoint a : Statement (.pacePoint a) := encodes_event rfl
theorem blockEntry a : Statement (.blockEntry a) := encodes_event rfl
theorem blockCommit a : Statement (.blockCommit a) := encodes_event rfl
theorem recordSend a : Statement (.recordSend a) := encodes_event rfl
theorem recordArrival a : Statement (.recordArrival a) := encodes_event rfl
theorem spillRefill a : Statement (.spillRefill a) := encodes_event rfl
theorem linkArrival a : Statement (.linkArrival a) := encodes_event rfl
theorem joinArcArrival a b : Statement (.joinArcArrival a b) := encodes_event rfl
theorem joinFire a : Statement (.joinFire a) := encodes_event rfl
theorem generatorPut a : Statement (.generatorPut a) := encodes_event rfl
theorem windowInput a b : Statement (.windowInput a b) := encodes_event rfl
theorem sinkRecord a : Statement (.sinkRecord a) := encodes_event rfl
theorem meStreamRecord a : Statement (.meStreamRecord a) := encodes_event rfl
theorem engineCommandStart a b : Statement (.engineCommandStart a b) := encodes_event rfl
theorem engineCompletion a b : Statement (.engineCompletion a b) := encodes_event rfl
theorem loadReply a : Statement (.loadReply a) := encodes_event rfl
theorem memoryRequest a : Statement (.memoryRequest a) := encodes_event rfl
theorem barrierArrival a : Statement (.barrierArrival a) := encodes_event rfl
theorem lkwaitAcquire a : Statement (.lkwaitAcquire a) := encodes_event rfl
theorem runBegin a b : Statement (.runBegin a b) := encodes_event rfl
theorem trapDelivery a : Statement (.trapDelivery a) := encodes_event rfl
theorem translationWalk a b c d : Statement (.translationWalk a b c d) := encodes_event rfl
theorem rateLimitRelease a : Statement (.rateLimitRelease a) := encodes_event rfl
theorem iopWriteSend a : Statement (.iopWriteSend a) := encodes_event rfl
theorem iopAck a : Statement (.iopAck a) := encodes_event rfl
theorem ioWriteAck a : Statement (.ioWriteAck a) := encodes_event rfl
theorem twaitDeadline a : Statement (.twaitDeadline a) := encodes_event rfl
theorem swaitWake a : Statement (.swaitWake a) := encodes_event rfl
theorem bvswapWrite a b : Statement (.bvswapWrite a b) := encodes_event rfl
theorem rodPortFailure a : Statement (.rodPortFailure a) := encodes_event rfl
theorem cfgWaveInject a b : Statement (.cfgWaveInject a b) := encodes_event rfl
theorem podBarrierRelease a b : Statement (.podBarrierRelease a b) := encodes_event rfl
theorem connectionClosed a : Statement (.connectionClosed a) := encodes_event rfl

end Encodes

end Sys2Proof.Laws
end

