-- ==== Sys2Proof/Tests/Slice0.lean ====
section
/-! SUPPORT. Tests: words laid out by hand and what they decode to, the worked examples of the spec, and for every statement of
Certificates/Slice0/Obligations.lean states and operands that meet its hypotheses (test_wit_<Statement>). -/
namespace Sys2Proof.Tests
open Sys2Proof Sys2Proof.Machine

noncomputable section

set_option Elab.async false

/-- Thread 0 of die 0 about to issue an instruction whose slots hold zeros. -/
def one (i : Instr) : State := (State.reset.withNext (encode i)).pick (.thread 0 0) 1

/-- An instruction is ready in a state, with operands of which `c` holds. -/
def Issues (s : State) (i : Instr) (c : Issue → Operands → Bool) : Prop :=
  ∃ ins x o, i.ins? = some ins ∧ Ready s ins x o ∧ c x o = true

def issuesB (s : State) (i : Instr) (c : Issue → Operands → Bool) : Bool :=
  match i.ins? with
  | none => false
  | some ins =>
    match s.issuing ins with
    | none => false
    | some x => match x.gather with
      | .ready o => c x o
      | _ => false

theorem issues {s : State} {i : Instr} {c : Issue → Operands → Bool} (h : issuesB s i c = true) : Issues s i c := by
  unfold issuesB at h
  split at h
  · simp at h
  · rename_i ins hi
    split at h
    · simp at h
    · rename_i x hx
      split at h
      · rename_i o ho; exact ⟨ins, x, o, hi, ⟨hx, ho⟩, h⟩
      · simp at h

theorem issues_all {is : List Instr} {c : Issue → Operands → Bool} (h : (is.all fun i => issuesB (one i) i c) = true) :
    ∀ i ∈ is, Issues (one i) i c := fun i hi => issues (List.all_eq_true.1 h i hi)

def stdWidthB (W : Nat) : Bool := W == 8 || W == 16 || W == 32 || W == 64

/-! ### Values, from the spec's own worked examples -/

/-- Operands of one type and width with every slice active. -/
def ops (ty W rm : Nat) (lanes : Lanes) (a b c : Vec) : Opnds := ⟨ty, W, lanes, rm, a, b, c, BitVec.ofNat 64 (2 ^ 64 - 1), 0, 0, 0⟩
/-- Element 0 of a result. -/
def first (W : Nat) (r : Res) : Nat := getE W r.out 0

/-- The table of 06 R113. -/
theorem test_divs : first 8 (intDivs (ops 0 8 0 .l8 249 2 0)) = 253 ∧ first 8 (intDivs (ops 0 8 0 .l8 128 255 0)) = 128 ∧
    first 8 (intDivs (ops 0 8 0 .l8 7 0 0)) = 255 := by decide +kernel
theorem test_rems : first 8 (intRems (ops 0 8 0 .l8 249 2 0)) = 255 ∧ first 8 (intRems (ops 0 8 0 .l8 128 255 0)) = 0 ∧
    first 8 (intRems (ops 0 8 0 .l8 7 0 0)) = 7 := by decide +kernel
theorem test_divu : first 8 (intDivu (ops 1 8 0 .l8 7 0 0)) = 255 ∧ first 8 (intRemu (ops 1 8 0 .l8 200 0 0)) = 200 := by decide +kernel
/-- The mask of 03 R36. -/
theorem test_active : ((List.range 16).filter (active 0xF0 32)) = [1] ∧ ((List.range 32).filter (active 0xF0 16)) = [2, 3] := by decide +kernel
/-- The weights of 03 R42. -/
theorem test_weights : (wt16Mul 0x7C01 0x8200).1 = 0x8202 ∧ (wt16Mul 0x7C00 0x8200).1 = 0x8200 ∧ wt16ToF32 0x7C00 = 0x3F800000 := by decide +kernel
/-- The quotient 6.0 / 3.0 of 07 R141. -/
theorem test_quotient : first 32 (fpSeed .rcp (ops 8 32 0 .l32 0x40400000 0 0)) = 0x3EAAAAAB ∧
    first 32 (fpRefine false (ops 8 32 0 .l32 0x40400000 0x3EAAAAAB 0)) = 0x3EAAAAAB ∧
    first 32 (fpMul (ops 8 32 0 .l32 0x40C00000 0x3EAAAAAB 0)) = 0x40000000 ∧ (fpMul (ops 8 32 0 .l32 0x40C00000 0x3EAAAAAB 0)).flags = fNX := by
  decide +kernel
/-- The zero sums of 07 R137. -/
theorem test_zero_sum : first 32 (fpFma (ops 8 32 0 .l32 0 0x3F800000 0x80000000)) = 0 ∧
    first 32 (fpFma (ops 8 32 3 .l32 0 0x3F800000 0x80000000)) = 0x80000000 := by decide +kernel
/-- The stochastic conversion of 04 R65. -/
theorem test_stochastic : first 16 (fpCvts true (ops 9 16 0 .l16 0x3F80C000 0x3A17 0)) = 0x3F80 ∧
    first 16 (fpCvts true (ops 9 16 0 .l16 0x3F80C000 0x5B02 0)) = 0x3F81 := by decide +kernel
/-- The worked decode of 03 R43, and what `cbdec` makes of it. -/
theorem test_cbdec : (fpCbdec (ops 0 8 0 .l8 0x0503 0x30000102 0)).out.toNat % 2 ^ 64 = 0xF9010101010301FB ∧
    (fpCbdec (ops 9 16 0 .l16 0x0503 0x30000102 0)).out.toNat % 2 ^ 128 = 0xBFE03E803E803E803E803F403E80BFA0 := by decide +kernel
/-- The homes of 12 R242. -/
theorem test_home : (homeSlice { Partition.reset 1 with first := 1, last := 1 } 0x40 none, homeSlice { Partition.reset 1 with first := 1, last := 1 } 0x80 none,
    homeSlice { Partition.reset 1 with first := 1, last := 1 } 0xC0 none) = ((12, 0), (10, 0), (14, 0)) := by decide +kernel
/-- The worked marker of 03 R51. -/
theorem test_marker : (Gap.mk 1 0x3F800000 true 3 4 3 3 20 20 0x524002 false []).record.sideband % 2 ^ 32 = 0x201 ∧
    lane32 (Gap.mk 1 0x3F800000 true 3 4 3 3 20 20 0x524002 false []).record.payload 2 = 0xB04 ∧
    (Gap.mk 1 0x3F800000 true 3 4 3 3 20 20 0x524002 false []).record.key = 3 := by decide +kernel

/-- The vocabulary of chapter 24: 600 IDs from 256 on, two merges, and the classes of its bytes. -/
def chapter24 : Vocab :=
  let cls := fun (b : Nat) => if 0x61 ≤ b ∧ b ≤ 0x7A then 1 else if b = 0x20 then 2 + 64 else if 0x80 ≤ b then 3 else 0
  ⟨(natBytes 4 0x56435A4C ++ natBytes 4 600 ++ natBytes 4 2 ++ natBytes 4 256 ++ natBytes 8 1344 ++ natBytes 8 0 ++ natBytes 8 0 ++ natBytes 24 0) ++
    ((List.range 256).map fun b => BitVec.ofNat 8 (cls b)) ++
    ((List.range 256).flatMap fun b => natBytes 4 (if 0x20 ≤ b ∧ b ≤ 0x7E then b else 0xFFFFFFFF)) ++
    natBytes 12 (97 + 98 * 2 ^ 32 + 512 * 2 ^ 64) ++ natBytes 12 (32 + 512 * 2 ^ 32 + 513 * 2 ^ 64), 1⟩
/-- The request token by token (24). -/
theorem test_tokens : chapter24.tokens [0x61, 0x62] = [512] ∧ chapter24.tokens [0x20, 0x61, 0x62] = [513] ∧ chapter24.tokens [0xC3, 0xA9] = [451, 425] ∧
    chapter24.boundary 0x62 0x20 = true ∧ chapter24.boundary 0x20 0x61 = false ∧ chapter24.boundary 0x62 0xC3 = true := by decide +kernel
theorem test_utf8 : utf8Whole 8 [0x61, 0xC3] = ([[0x61]], [0xC3]) ∧ utf8Whole 8 [0xC3, 0xA9, 0xFF] = ([[0xC3, 0xA9], utf8Bad], []) := by decide +kernel

/-! ### Decoding: words laid out by hand from 05 R79 to R82 and the opcode map of R97, with every field different -/

/-- Every pair of words and instruction agrees with the decoder and with the encoder. -/
def decodes (l : List (List Word × Instr)) : Prop := ∀ e ∈ l, decode e.1 = .ok (e.2, []) ∧ encode e.2 = e.1

theorem decodes_nil : decodes [] := fun _ h => by cases h

theorem decodes_cons {ws : List Word} {i : Instr} {l : List (List Word × Instr)} (h : decode ws = .ok (i, [])) (g : encode i = ws)
    (r : decodes l) : decodes ((ws, i) :: l) := by
  intro e he
  rcases List.mem_cons.1 he with rfl | he
  · exact ⟨h, g⟩
  · exact r e he

theorem test_decode_IntegerArithmetic : decodes [
    ([0x94B5A404], .addF0 ⟨2, 0x0A5, 0x15A, 1⟩),
    ([0x94B5A406, 0x2E93C8C9, 0xDEADBEEF], .addF1F2 ⟨2, 0x0A5, 0x15A, 1, 5, 6, 9, 3, 0xC8, 0xC9, some 0xDEADBEEF⟩),
    ([0x94B5A408], .subF0 ⟨2, 0x0A5, 0x15A, 1⟩),
    ([0x94B5A40A, 0x2E93C8C9, 0xDEADBEEF], .subF1F2 ⟨2, 0x0A5, 0x15A, 1, 5, 6, 9, 3, 0xC8, 0xC9, some 0xDEADBEEF⟩),
    ([0xFFB5A40C], .addiFi ⟨0x7FD, 0x15A, 1⟩),
    ([0x94B5A40E, 0x2E93C8C9, 0xDEADBEEF], .addiF2 ⟨2, 0x0A5, 0x15A, 1, 5, 6, 9, 3, 0xC8, 0xC9, some 0xDEADBEEF⟩),
    ([0x94B5A410], .mulF0 ⟨2, 0x0A5, 0x15A, 1⟩),
    ([0x94B5A412, 0x2E93C8C9, 0xDEADBEEF], .mulF1F2 ⟨2, 0x0A5, 0x15A, 1, 5, 6, 9, 3, 0xC8, 0xC9, some 0xDEADBEEF⟩),
    ([0x94B5A414], .mulhF0 ⟨2, 0x0A5, 0x15A, 1⟩),
    ([0x94B5A416, 0x2E93C8C9, 0xDEADBEEF], .mulhF1F2 ⟨2, 0x0A5, 0x15A, 1, 5, 6, 9, 3, 0xC8, 0xC9, some 0xDEADBEEF⟩),
    ([0x94B5A418], .mulhuF0 ⟨2, 0x0A5, 0x15A, 1⟩),
    ([0x94B5A41A, 0x2E93C8C9, 0xDEADBEEF], .mulhuF1F2 ⟨2, 0x0A5, 0x15A, 1, 5, 6, 9, 3, 0xC8, 0xC9, some 0xDEADBEEF⟩),
    ([0x94B5A41C], .madF0 ⟨2, 0x0A5, 0x15A, 1⟩),
    ([0x94B5A41E, 0x2E93C8C9, 0xDEADBEEF], .madF1F2 ⟨2, 0x0A5, 0x15A, 1, 5, 6, 9, 3, 0xC8, 0xC9, some 0xDEADBEEF⟩),
    ([0x94B5A420], .divsF0 ⟨2, 0x0A5, 0x15A, 1⟩),
    ([0x94B5A422, 0x2E93C8C9, 0xDEADBEEF], .divsF1F2 ⟨2, 0x0A5, 0x15A, 1, 5, 6, 9, 3, 0xC8, 0xC9, some 0xDEADBEEF⟩),
    ([0x94B5A424], .divuF0 ⟨2, 0x0A5, 0x15A, 1⟩),
    ([0x94B5A426, 0x2E93C8C9, 0xDEADBEEF], .divuF1F2 ⟨2, 0x0A5, 0x15A, 1, 5, 6, 9, 3, 0xC8, 0xC9, some 0xDEADBEEF⟩),
    ([0x94B5A428], .remsF0 ⟨2, 0x0A5, 0x15A, 1⟩),
    ([0x94B5A42A, 0x2E93C8C9, 0xDEADBEEF], .remsF1F2 ⟨2, 0x0A5, 0x15A, 1, 5, 6, 9, 3, 0xC8, 0xC9, some 0xDEADBEEF⟩),
    ([0x94B5A42C], .remuF0 ⟨2, 0x0A5, 0x15A, 1⟩),
    ([0x94B5A42E, 0x2E93C8C9, 0xDEADBEEF], .remuF1F2 ⟨2, 0x0A5, 0x15A, 1, 5, 6, 9, 3, 0xC8, 0xC9, some 0xDEADBEEF⟩),
    ([0x94B5A430], .negF0 ⟨2, 0x0A5, 0x15A, 1⟩),
    ([0x94B5A431, 0x2E93C8C9], .negF1 ⟨2, 0x0A5, 0x15A, 1, 5, 6, 9, 3, 0xC8, 0xC9, none⟩),
    ([0x94B5A434], .absF0 ⟨2, 0x0A5, 0x15A, 1⟩),
    ([0x94B5A435, 0x2E93C8C9], .absF1 ⟨2, 0x0A5, 0x15A, 1, 5, 6, 9, 3, 0xC8, 0xC9, none⟩),
    ([0x94B5A438], .minF0 ⟨2, 0x0A5, 0x15A, 1⟩),
    ([0x94B5A43A, 0x2E93C8C9, 0xDEADBEEF], .minF1F2 ⟨2, 0x0A5, 0x15A, 1, 5, 6, 9, 3, 0xC8, 0xC9, some 0xDEADBEEF⟩),
    ([0x94B5A43C], .maxF0 ⟨2, 0x0A5, 0x15A, 1⟩),
    ([0x94B5A43E, 0x2E93C8C9, 0xDEADBEEF], .maxF1F2 ⟨2, 0x0A5, 0x15A, 1, 5, 6, 9, 3, 0xC8, 0xC9, some 0xDEADBEEF⟩)] := by
  repeat first | exact decodes_nil | refine decodes_cons rfl rfl ?_

theorem test_decode_SaturatingAndShifts : decodes [
    ([0x94B5A440], .minuF0 ⟨2, 0x0A5, 0x15A, 1⟩),
    ([0x94B5A442, 0x2E93C8C9, 0xDEADBEEF], .minuF1F2 ⟨2, 0x0A5, 0x15A, 1, 5, 6, 9, 3, 0xC8, 0xC9, some 0xDEADBEEF⟩),
    ([0x94B5A444], .maxuF0 ⟨2, 0x0A5, 0x15A, 1⟩),
    ([0x94B5A446, 0x2E93C8C9, 0xDEADBEEF], .maxuF1F2 ⟨2, 0x0A5, 0x15A, 1, 5, 6, 9, 3, 0xC8, 0xC9, some 0xDEADBEEF⟩),
    ([0x94B5A448], .addsF0 ⟨2, 0x0A5, 0x15A, 1⟩),
    ([0x94B5A44A, 0x2E93C8C9, 0xDEADBEEF], .addsF1F2 ⟨2, 0x0A5, 0x15A, 1, 5, 6, 9, 3, 0xC8, 0xC9, some 0xDEADBEEF⟩),
    ([0x94B5A44C], .addsuF0 ⟨2, 0x0A5, 0x15A, 1⟩),
    ([0x94B5A44E, 0x2E93C8C9, 0xDEADBEEF], .addsuF1F2 ⟨2, 0x0A5, 0x15A, 1, 5, 6, 9, 3, 0xC8, 0xC9, some 0xDEADBEEF⟩),
    ([0x94B5A450], .subsF0 ⟨2, 0x0A5, 0x15A, 1⟩),
    ([0x94B5A452, 0x2E93C8C9, 0xDEADBEEF], .subsF1F2 ⟨2, 0x0A5, 0x15A, 1, 5, 6, 9, 3, 0xC8, 0xC9, some 0xDEADBEEF⟩),
    ([0x94B5A454], .subsuF0 ⟨2, 0x0A5, 0x15A, 1⟩),
    ([0x94B5A456, 0x2E93C8C9, 0xDEADBEEF], .subsuF1F2 ⟨2, 0x0A5, 0x15A, 1, 5, 6, 9, 3, 0xC8, 0xC9, some 0xDEADBEEF⟩),
    ([0x94B5A458], .avgF0 ⟨2, 0x0A5, 0x15A, 1⟩),
    ([0x94B5A45A, 0x2E93C8C9, 0xDEADBEEF], .avgF1F2 ⟨2, 0x0A5, 0x15A, 1, 5, 6, 9, 3, 0xC8, 0xC9, some 0xDEADBEEF⟩),
    ([0x94B5A45C], .andF0 ⟨2, 0x0A5, 0x15A, 1⟩),
    ([0x94B5A45E, 0x2E93C8C9, 0xDEADBEEF], .andF1F2 ⟨2, 0x0A5, 0x15A, 1, 5, 6, 9, 3, 0xC8, 0xC9, some 0xDEADBEEF⟩),
    ([0x94B5A460], .orF0 ⟨2, 0x0A5, 0x15A, 1⟩),
    ([0x94B5A462, 0x2E93C8C9, 0xDEADBEEF], .orF1F2 ⟨2, 0x0A5, 0x15A, 1, 5, 6, 9, 3, 0xC8, 0xC9, some 0xDEADBEEF⟩),
    ([0x94B5A464], .xorF0 ⟨2, 0x0A5, 0x15A, 1⟩),
    ([0x94B5A466, 0x2E93C8C9, 0xDEADBEEF], .xorF1F2 ⟨2, 0x0A5, 0x15A, 1, 5, 6, 9, 3, 0xC8, 0xC9, some 0xDEADBEEF⟩),
    ([0x94B5A468], .andnF0 ⟨2, 0x0A5, 0x15A, 1⟩),
    ([0x94B5A46A, 0x2E93C8C9, 0xDEADBEEF], .andnF1F2 ⟨2, 0x0A5, 0x15A, 1, 5, 6, 9, 3, 0xC8, 0xC9, some 0xDEADBEEF⟩),
    ([0x94B5A46C], .shlF0 ⟨2, 0x0A5, 0x15A, 1⟩),
    ([0x94B5A46E, 0x2E93C8C9, 0xDEADBEEF], .shlF1F2 ⟨2, 0x0A5, 0x15A, 1, 5, 6, 9, 3, 0xC8, 0xC9, some 0xDEADBEEF⟩),
    ([0x94B5A470], .shrF0 ⟨2, 0x0A5, 0x15A, 1⟩),
    ([0x94B5A472, 0x2E93C8C9, 0xDEADBEEF], .shrF1F2 ⟨2, 0x0A5, 0x15A, 1, 5, 6, 9, 3, 0xC8, 0xC9, some 0xDEADBEEF⟩),
    ([0x94B5A474], .sarF0 ⟨2, 0x0A5, 0x15A, 1⟩),
    ([0x94B5A476, 0x2E93C8C9, 0xDEADBEEF], .sarF1F2 ⟨2, 0x0A5, 0x15A, 1, 5, 6, 9, 3, 0xC8, 0xC9, some 0xDEADBEEF⟩),
    ([0x94B5A478], .rotlF0 ⟨2, 0x0A5, 0x15A, 1⟩),
    ([0x94B5A47A, 0x2E93C8C9, 0xDEADBEEF], .rotlF1F2 ⟨2, 0x0A5, 0x15A, 1, 5, 6, 9, 3, 0xC8, 0xC9, some 0xDEADBEEF⟩),
    ([0xFFB5A47C], .shliFi ⟨0x7FD, 0x15A, 1⟩),
    ([0x94B5A47E, 0x2E93C8C9, 0xDEADBEEF], .shliF2 ⟨2, 0x0A5, 0x15A, 1, 5, 6, 9, 3, 0xC8, 0xC9, some 0xDEADBEEF⟩)] := by
  repeat first | exact decodes_nil | refine decodes_cons rfl rfl ?_

theorem test_decode_BitsAndMoves : decodes [
    ([0xFFB5A480], .shriFi ⟨0x7FD, 0x15A, 1⟩),
    ([0x94B5A482, 0x2E93C8C9, 0xDEADBEEF], .shriF2 ⟨2, 0x0A5, 0x15A, 1, 5, 6, 9, 3, 0xC8, 0xC9, some 0xDEADBEEF⟩),
    ([0xFFB5A484], .sariFi ⟨0x7FD, 0x15A, 1⟩),
    ([0x94B5A486, 0x2E93C8C9, 0xDEADBEEF], .sariF2 ⟨2, 0x0A5, 0x15A, 1, 5, 6, 9, 3, 0xC8, 0xC9, some 0xDEADBEEF⟩),
    ([0x94B5A488], .clzF0 ⟨2, 0x0A5, 0x15A, 1⟩),
    ([0x94B5A489, 0x2E93C8C9], .clzF1 ⟨2, 0x0A5, 0x15A, 1, 5, 6, 9, 3, 0xC8, 0xC9, none⟩),
    ([0x94B5A48C], .ctzF0 ⟨2, 0x0A5, 0x15A, 1⟩),
    ([0x94B5A48D, 0x2E93C8C9], .ctzF1 ⟨2, 0x0A5, 0x15A, 1, 5, 6, 9, 3, 0xC8, 0xC9, none⟩),
    ([0x94B5A490], .popcF0 ⟨2, 0x0A5, 0x15A, 1⟩),
    ([0x94B5A491, 0x2E93C8C9], .popcF1 ⟨2, 0x0A5, 0x15A, 1, 5, 6, 9, 3, 0xC8, 0xC9, none⟩),
    ([0x94B5A494], .brevF0 ⟨2, 0x0A5, 0x15A, 1⟩),
    ([0x94B5A495, 0x2E93C8C9], .brevF1 ⟨2, 0x0A5, 0x15A, 1, 5, 6, 9, 3, 0xC8, 0xC9, none⟩),
    ([0x94B5A498], .bswapF0 ⟨2, 0x0A5, 0x15A, 1⟩),
    ([0x94B5A499, 0x2E93C8C9], .bswapF1 ⟨2, 0x0A5, 0x15A, 1, 5, 6, 9, 3, 0xC8, 0xC9, none⟩),
    ([0x94B5A49C], .bfxF0 ⟨2, 0x0A5, 0x15A, 1⟩),
    ([0x94B5A49E, 0x2E93C8C9, 0xDEADBEEF], .bfxF1F2 ⟨2, 0x0A5, 0x15A, 1, 5, 6, 9, 3, 0xC8, 0xC9, some 0xDEADBEEF⟩),
    ([0x94B5A4A0], .bfiF0 ⟨2, 0x0A5, 0x15A, 1⟩),
    ([0x94B5A4A2, 0x2E93C8C9, 0xDEADBEEF], .bfiF1F2 ⟨2, 0x0A5, 0x15A, 1, 5, 6, 9, 3, 0xC8, 0xC9, some 0xDEADBEEF⟩),
    ([0x94B5A4A4], .addshF0 ⟨2, 0x0A5, 0x15A, 1⟩),
    ([0x94B5A4A6, 0x2E93C8C9, 0xDEADBEEF], .addshF1F2 ⟨2, 0x0A5, 0x15A, 1, 5, 6, 9, 3, 0xC8, 0xC9, some 0xDEADBEEF⟩),
    ([0xFFB5A4A8], .movi ⟨0x7FD, 0x15A, 1⟩),
    ([0x94B5A4AE, 0x2E93C8C9, 0xDEADBEEF], .movl ⟨2, 0x0A5, 0x15A, 1, 5, 6, 9, 3, 0xC8, 0xC9, some 0xDEADBEEF⟩),
    ([0x94B5A4B1, 0x2E93C8C9], .sext ⟨2, 0x0A5, 0x15A, 1, 5, 6, 9, 3, 0xC8, 0xC9, none⟩),
    ([0x94B5A4B5, 0x2E93C8C9], .zext ⟨2, 0x0A5, 0x15A, 1, 5, 6, 9, 3, 0xC8, 0xC9, none⟩),
    ([0x94B5A4B8], .movF0 ⟨2, 0x0A5, 0x15A, 1⟩),
    ([0x94B5A4B9, 0x2E93C8C9], .movF1 ⟨2, 0x0A5, 0x15A, 1, 5, 6, 9, 3, 0xC8, 0xC9, none⟩)] := by
  repeat first | exact decodes_nil | refine decodes_cons rfl rfl ?_

theorem test_decode_ComparesAndPredicates : decodes [
    ([0x94B5A4C0], .ceqF0 ⟨2, 0x0A5, 0x15A, 1⟩),
    ([0x94B5A4C2, 0x2E93C8C9, 0xDEADBEEF], .ceqF1F2 ⟨2, 0x0A5, 0x15A, 1, 5, 6, 9, 3, 0xC8, 0xC9, some 0xDEADBEEF⟩),
    ([0x94B5A4C4], .cneF0 ⟨2, 0x0A5, 0x15A, 1⟩),
    ([0x94B5A4C6, 0x2E93C8C9, 0xDEADBEEF], .cneF1F2 ⟨2, 0x0A5, 0x15A, 1, 5, 6, 9, 3, 0xC8, 0xC9, some 0xDEADBEEF⟩),
    ([0x94B5A4C8], .cltF0 ⟨2, 0x0A5, 0x15A, 1⟩),
    ([0x94B5A4CA, 0x2E93C8C9, 0xDEADBEEF], .cltF1F2 ⟨2, 0x0A5, 0x15A, 1, 5, 6, 9, 3, 0xC8, 0xC9, some 0xDEADBEEF⟩),
    ([0x94B5A4CC], .cleF0 ⟨2, 0x0A5, 0x15A, 1⟩),
    ([0x94B5A4CE, 0x2E93C8C9, 0xDEADBEEF], .cleF1F2 ⟨2, 0x0A5, 0x15A, 1, 5, 6, 9, 3, 0xC8, 0xC9, some 0xDEADBEEF⟩),
    ([0x94B5A4D0], .cltuF0 ⟨2, 0x0A5, 0x15A, 1⟩),
    ([0x94B5A4D2, 0x2E93C8C9, 0xDEADBEEF], .cltuF1F2 ⟨2, 0x0A5, 0x15A, 1, 5, 6, 9, 3, 0xC8, 0xC9, some 0xDEADBEEF⟩),
    ([0x94B5A4D4], .cleuF0 ⟨2, 0x0A5, 0x15A, 1⟩),
    ([0x94B5A4D6, 0x2E93C8C9, 0xDEADBEEF], .cleuF1F2 ⟨2, 0x0A5, 0x15A, 1, 5, 6, 9, 3, 0xC8, 0xC9, some 0xDEADBEEF⟩),
    ([0xFFB5A4D8], .ceqiFi ⟨0x7FD, 0x15A, 1⟩),
    ([0x94B5A4DA, 0x2E93C8C9, 0xDEADBEEF], .ceqiF2 ⟨2, 0x0A5, 0x15A, 1, 5, 6, 9, 3, 0xC8, 0xC9, some 0xDEADBEEF⟩),
    ([0xFFB5A4DC], .cltiFi ⟨0x7FD, 0x15A, 1⟩),
    ([0x94B5A4DE, 0x2E93C8C9, 0xDEADBEEF], .cltiF2 ⟨2, 0x0A5, 0x15A, 1, 5, 6, 9, 3, 0xC8, 0xC9, some 0xDEADBEEF⟩),
    ([0x94B5A4E0], .selF0 ⟨2, 0x0A5, 0x15A, 1⟩),
    ([0x94B5A4E2, 0x2E93C8C9, 0xDEADBEEF], .selF1F2 ⟨2, 0x0A5, 0x15A, 1, 5, 6, 9, 3, 0xC8, 0xC9, some 0xDEADBEEF⟩),
    ([0xD4B5A4E4], .pandF0 ⟨3, 0x0A5, 0x15A, 1⟩),
    ([0x94B5A4E6, 0x2E93C8C9, 0xDEADBEEF], .pandF1F2 ⟨2, 0x0A5, 0x15A, 1, 5, 6, 9, 3, 0xC8, 0xC9, some 0xDEADBEEF⟩),
    ([0xD4B5A4E8], .porF0 ⟨3, 0x0A5, 0x15A, 1⟩),
    ([0x94B5A4EA, 0x2E93C8C9, 0xDEADBEEF], .porF1F2 ⟨2, 0x0A5, 0x15A, 1, 5, 6, 9, 3, 0xC8, 0xC9, some 0xDEADBEEF⟩),
    ([0xD4B5A4EC], .pxorF0 ⟨3, 0x0A5, 0x15A, 1⟩),
    ([0x94B5A4EE, 0x2E93C8C9, 0xDEADBEEF], .pxorF1F2 ⟨2, 0x0A5, 0x15A, 1, 5, 6, 9, 3, 0xC8, 0xC9, some 0xDEADBEEF⟩),
    ([0xD4B5A4F0], .pnotF0 ⟨3, 0x0A5, 0x15A, 1⟩),
    ([0x94B5A4F1, 0x2E93C8C9], .pnotF1 ⟨2, 0x0A5, 0x15A, 1, 5, 6, 9, 3, 0xC8, 0xC9, none⟩),
    ([0xD4B5A4F4], .panyF0 ⟨3, 0x0A5, 0x15A, 1⟩),
    ([0x94B5A4F5, 0x2E93C8C9], .panyF1 ⟨2, 0x0A5, 0x15A, 1, 5, 6, 9, 3, 0xC8, 0xC9, none⟩),
    ([0xD4B5A4F8], .pallF0 ⟨3, 0x0A5, 0x15A, 1⟩),
    ([0x94B5A4F9, 0x2E93C8C9], .pallF1 ⟨2, 0x0A5, 0x15A, 1, 5, 6, 9, 3, 0xC8, 0xC9, none⟩),
    ([0xD4B5A4FC], .pcntF0 ⟨3, 0x0A5, 0x15A, 1⟩),
    ([0x94B5A4FD, 0x2E93C8C9], .pcntF1 ⟨2, 0x0A5, 0x15A, 1, 5, 6, 9, 3, 0xC8, 0xC9, none⟩)] := by
  repeat first | exact decodes_nil | refine decodes_cons rfl rfl ?_

theorem test_decode_Lanes : decodes [
    ([0x94B5A500], .bcastF0 ⟨2, 0x0A5, 0x15A, 1⟩),
    ([0x94B5A502, 0x2E93C8C9, 0xDEADBEEF], .bcastF1F2 ⟨2, 0x0A5, 0x15A, 1, 5, 6, 9, 3, 0xC8, 0xC9, some 0xDEADBEEF⟩),
    ([0x94B5A504], .lgetF0 ⟨2, 0x0A5, 0x15A, 1⟩),
    ([0x94B5A506, 0x2E93C8C9, 0xDEADBEEF], .lgetF1F2 ⟨2, 0x0A5, 0x15A, 1, 5, 6, 9, 3, 0xC8, 0xC9, some 0xDEADBEEF⟩),
    ([0x94B5A508], .lsetF0 ⟨2, 0x0A5, 0x15A, 1⟩),
    ([0x94B5A50A, 0x2E93C8C9, 0xDEADBEEF], .lsetF1F2 ⟨2, 0x0A5, 0x15A, 1, 5, 6, 9, 3, 0xC8, 0xC9, some 0xDEADBEEF⟩),
    ([0x94B5A50C], .permF0 ⟨2, 0x0A5, 0x15A, 1⟩),
    ([0x94B5A50E, 0x2E93C8C9, 0xDEADBEEF], .permF1F2 ⟨2, 0x0A5, 0x15A, 1, 5, 6, 9, 3, 0xC8, 0xC9, some 0xDEADBEEF⟩),
    ([0x94B5A510], .lrotF0 ⟨2, 0x0A5, 0x15A, 1⟩),
    ([0x94B5A512, 0x2E93C8C9, 0xDEADBEEF], .lrotF1F2 ⟨2, 0x0A5, 0x15A, 1, 5, 6, 9, 3, 0xC8, 0xC9, some 0xDEADBEEF⟩),
    ([0x94B5A514], .zipF0 ⟨2, 0x0A5, 0x15A, 1⟩),
    ([0x94B5A516, 0x2E93C8C9, 0xDEADBEEF], .zipF1F2 ⟨2, 0x0A5, 0x15A, 1, 5, 6, 9, 3, 0xC8, 0xC9, some 0xDEADBEEF⟩),
    ([0x94B5A518], .unzipF0 ⟨2, 0x0A5, 0x15A, 1⟩),
    ([0x94B5A51A, 0x2E93C8C9, 0xDEADBEEF], .unzipF1F2 ⟨2, 0x0A5, 0x15A, 1, 5, 6, 9, 3, 0xC8, 0xC9, some 0xDEADBEEF⟩),
    ([0x94B5A51C], .compressF0 ⟨2, 0x0A5, 0x15A, 1⟩),
    ([0x94B5A51E, 0x2E93C8C9, 0xDEADBEEF], .compressF1F2 ⟨2, 0x0A5, 0x15A, 1, 5, 6, 9, 3, 0xC8, 0xC9, some 0xDEADBEEF⟩),
    ([0x94B5A520], .expandF0 ⟨2, 0x0A5, 0x15A, 1⟩),
    ([0x94B5A522, 0x2E93C8C9, 0xDEADBEEF], .expandF1F2 ⟨2, 0x0A5, 0x15A, 1, 5, 6, 9, 3, 0xC8, 0xC9, some 0xDEADBEEF⟩),
    ([0x94B5A524], .raddF0 ⟨2, 0x0A5, 0x15A, 1⟩),
    ([0x94B5A525, 0x2E93C8C9], .raddF1 ⟨2, 0x0A5, 0x15A, 1, 5, 6, 9, 3, 0xC8, 0xC9, none⟩),
    ([0x94B5A528], .rmaxF0 ⟨2, 0x0A5, 0x15A, 1⟩),
    ([0x94B5A529, 0x2E93C8C9], .rmaxF1 ⟨2, 0x0A5, 0x15A, 1, 5, 6, 9, 3, 0xC8, 0xC9, none⟩),
    ([0x94B5A52C], .rminF0 ⟨2, 0x0A5, 0x15A, 1⟩),
    ([0x94B5A52D, 0x2E93C8C9], .rminF1 ⟨2, 0x0A5, 0x15A, 1, 5, 6, 9, 3, 0xC8, 0xC9, none⟩),
    ([0x94B5A530], .rxorF0 ⟨2, 0x0A5, 0x15A, 1⟩),
    ([0x94B5A531, 0x2E93C8C9], .rxorF1 ⟨2, 0x0A5, 0x15A, 1, 5, 6, 9, 3, 0xC8, 0xC9, none⟩),
    ([0x94B5A534], .scanF0 ⟨2, 0x0A5, 0x15A, 1⟩),
    ([0x94B5A535, 0x2E93C8C9], .scanF1 ⟨2, 0x0A5, 0x15A, 1, 5, 6, 9, 3, 0xC8, 0xC9, none⟩),
    ([0x94B5A538], .lidx ⟨2, 0x0A5, 0x15A, 1⟩),
    ([0x94B5A53C], .dot4F0 ⟨2, 0x0A5, 0x15A, 1⟩),
    ([0x94B5A53E, 0x2E93C8C9, 0xDEADBEEF], .dot4F1F2 ⟨2, 0x0A5, 0x15A, 1, 5, 6, 9, 3, 0xC8, 0xC9, some 0xDEADBEEF⟩)] := by
  repeat first | exact decodes_nil | refine decodes_cons rfl rfl ?_

theorem test_decode_Floats : decodes [
    ([0x94B5A540], .faddF0 ⟨2, 0x0A5, 0x15A, 1⟩),
    ([0x94B5A542, 0x2E93C8C9, 0xDEADBEEF], .faddF1F2 ⟨2, 0x0A5, 0x15A, 1, 5, 6, 9, 3, 0xC8, 0xC9, some 0xDEADBEEF⟩),
    ([0x94B5A544], .fsubF0 ⟨2, 0x0A5, 0x15A, 1⟩),
    ([0x94B5A546, 0x2E93C8C9, 0xDEADBEEF], .fsubF1F2 ⟨2, 0x0A5, 0x15A, 1, 5, 6, 9, 3, 0xC8, 0xC9, some 0xDEADBEEF⟩),
    ([0x94B5A548], .fmulF0 ⟨2, 0x0A5, 0x15A, 1⟩),
    ([0x94B5A54A, 0x2E93C8C9, 0xDEADBEEF], .fmulF1F2 ⟨2, 0x0A5, 0x15A, 1, 5, 6, 9, 3, 0xC8, 0xC9, some 0xDEADBEEF⟩),
    ([0x94B5A54C], .fmaF0 ⟨2, 0x0A5, 0x15A, 1⟩),
    ([0x94B5A54E, 0x2E93C8C9, 0xDEADBEEF], .fmaF1F2 ⟨2, 0x0A5, 0x15A, 1, 5, 6, 9, 3, 0xC8, 0xC9, some 0xDEADBEEF⟩),
    ([0x94B5A550], .fmsF0 ⟨2, 0x0A5, 0x15A, 1⟩),
    ([0x94B5A552, 0x2E93C8C9, 0xDEADBEEF], .fmsF1F2 ⟨2, 0x0A5, 0x15A, 1, 5, 6, 9, 3, 0xC8, 0xC9, some 0xDEADBEEF⟩),
    ([0x94B5A554], .fnmaF0 ⟨2, 0x0A5, 0x15A, 1⟩),
    ([0x94B5A556, 0x2E93C8C9, 0xDEADBEEF], .fnmaF1F2 ⟨2, 0x0A5, 0x15A, 1, 5, 6, 9, 3, 0xC8, 0xC9, some 0xDEADBEEF⟩),
    ([0x94B5A558], .fminF0 ⟨2, 0x0A5, 0x15A, 1⟩),
    ([0x94B5A55A, 0x2E93C8C9, 0xDEADBEEF], .fminF1F2 ⟨2, 0x0A5, 0x15A, 1, 5, 6, 9, 3, 0xC8, 0xC9, some 0xDEADBEEF⟩),
    ([0x94B5A55C], .fmaxF0 ⟨2, 0x0A5, 0x15A, 1⟩),
    ([0x94B5A55E, 0x2E93C8C9, 0xDEADBEEF], .fmaxF1F2 ⟨2, 0x0A5, 0x15A, 1, 5, 6, 9, 3, 0xC8, 0xC9, some 0xDEADBEEF⟩),
    ([0x94B5A560], .fabsF0 ⟨2, 0x0A5, 0x15A, 1⟩),
    ([0x94B5A561, 0x2E93C8C9], .fabsF1 ⟨2, 0x0A5, 0x15A, 1, 5, 6, 9, 3, 0xC8, 0xC9, none⟩),
    ([0x94B5A564], .fnegF0 ⟨2, 0x0A5, 0x15A, 1⟩),
    ([0x94B5A565, 0x2E93C8C9], .fnegF1 ⟨2, 0x0A5, 0x15A, 1, 5, 6, 9, 3, 0xC8, 0xC9, none⟩),
    ([0x94B5A568], .feqF0 ⟨2, 0x0A5, 0x15A, 1⟩),
    ([0x94B5A56A, 0x2E93C8C9, 0xDEADBEEF], .feqF1F2 ⟨2, 0x0A5, 0x15A, 1, 5, 6, 9, 3, 0xC8, 0xC9, some 0xDEADBEEF⟩),
    ([0x94B5A56C], .fltF0 ⟨2, 0x0A5, 0x15A, 1⟩),
    ([0x94B5A56E, 0x2E93C8C9, 0xDEADBEEF], .fltF1F2 ⟨2, 0x0A5, 0x15A, 1, 5, 6, 9, 3, 0xC8, 0xC9, some 0xDEADBEEF⟩),
    ([0x94B5A570], .fleF0 ⟨2, 0x0A5, 0x15A, 1⟩),
    ([0x94B5A572, 0x2E93C8C9, 0xDEADBEEF], .fleF1F2 ⟨2, 0x0A5, 0x15A, 1, 5, 6, 9, 3, 0xC8, 0xC9, some 0xDEADBEEF⟩),
    ([0x94B5A574], .funF0 ⟨2, 0x0A5, 0x15A, 1⟩),
    ([0x94B5A576, 0x2E93C8C9, 0xDEADBEEF], .funF1F2 ⟨2, 0x0A5, 0x15A, 1, 5, 6, 9, 3, 0xC8, 0xC9, some 0xDEADBEEF⟩),
    ([0x94B5A578], .fclassF0 ⟨2, 0x0A5, 0x15A, 1⟩),
    ([0x94B5A579, 0x2E93C8C9], .fclassF1 ⟨2, 0x0A5, 0x15A, 1, 5, 6, 9, 3, 0xC8, 0xC9, none⟩),
    ([0x94B5A57C], .frcpF0 ⟨2, 0x0A5, 0x15A, 1⟩),
    ([0x94B5A57D, 0x2E93C8C9], .frcpF1 ⟨2, 0x0A5, 0x15A, 1, 5, 6, 9, 3, 0xC8, 0xC9, none⟩)] := by
  repeat first | exact decodes_nil | refine decodes_cons rfl rfl ?_

theorem test_decode_FloatConversions : decodes [
    ([0x94B5A580], .frsqF0 ⟨2, 0x0A5, 0x15A, 1⟩),
    ([0x94B5A581, 0x2E93C8C9], .frsqF1 ⟨2, 0x0A5, 0x15A, 1, 5, 6, 9, 3, 0xC8, 0xC9, none⟩),
    ([0x94B5A584], .frcprF0 ⟨2, 0x0A5, 0x15A, 1⟩),
    ([0x94B5A586, 0x2E93C8C9, 0xDEADBEEF], .frcprF1F2 ⟨2, 0x0A5, 0x15A, 1, 5, 6, 9, 3, 0xC8, 0xC9, some 0xDEADBEEF⟩),
    ([0x94B5A588], .frsqrF0 ⟨2, 0x0A5, 0x15A, 1⟩),
    ([0x94B5A58A, 0x2E93C8C9, 0xDEADBEEF], .frsqrF1F2 ⟨2, 0x0A5, 0x15A, 1, 5, 6, 9, 3, 0xC8, 0xC9, some 0xDEADBEEF⟩),
    ([0x94B5A58C], .fexp2F0 ⟨2, 0x0A5, 0x15A, 1⟩),
    ([0x94B5A58D, 0x2E93C8C9], .fexp2F1 ⟨2, 0x0A5, 0x15A, 1, 5, 6, 9, 3, 0xC8, 0xC9, none⟩),
    ([0x94B5A590], .flog2F0 ⟨2, 0x0A5, 0x15A, 1⟩),
    ([0x94B5A591, 0x2E93C8C9], .flog2F1 ⟨2, 0x0A5, 0x15A, 1, 5, 6, 9, 3, 0xC8, 0xC9, none⟩),
    ([0x94B5A594], .frndF0 ⟨2, 0x0A5, 0x15A, 1⟩),
    ([0x94B5A595, 0x2E93C8C9], .frndF1 ⟨2, 0x0A5, 0x15A, 1, 5, 6, 9, 3, 0xC8, 0xC9, none⟩),
    ([0x94B5A598], .fsclF0 ⟨2, 0x0A5, 0x15A, 1⟩),
    ([0x94B5A59A, 0x2E93C8C9, 0xDEADBEEF], .fsclF1F2 ⟨2, 0x0A5, 0x15A, 1, 5, 6, 9, 3, 0xC8, 0xC9, some 0xDEADBEEF⟩),
    ([0x94B5A59D, 0x2E93C8C9], .cvt ⟨2, 0x0A5, 0x15A, 1, 5, 6, 9, 3, 0xC8, 0xC9, none⟩),
    ([0x94B5A5A1, 0x2E93C8C9], .cvts ⟨2, 0x0A5, 0x15A, 1, 5, 6, 9, 3, 0xC8, 0xC9, none⟩),
    ([0x94B5A5A4], .fdotF0 ⟨2, 0x0A5, 0x15A, 1⟩),
    ([0x94B5A5A6, 0x2E93C8C9, 0xDEADBEEF], .fdotF1F2 ⟨2, 0x0A5, 0x15A, 1, 5, 6, 9, 3, 0xC8, 0xC9, some 0xDEADBEEF⟩),
    ([0x94B5A5A9, 0x2E93C8C9], .cbdec ⟨2, 0x0A5, 0x15A, 1, 5, 6, 9, 3, 0xC8, 0xC9, none⟩),
    ([0x94B5A5AC], .bsclF0 ⟨2, 0x0A5, 0x15A, 1⟩),
    ([0x94B5A5AE, 0x2E93C8C9, 0xDEADBEEF], .bsclF1F2 ⟨2, 0x0A5, 0x15A, 1, 5, 6, 9, 3, 0xC8, 0xC9, some 0xDEADBEEF⟩),
    ([0x94B5A5B0], .fsum2F0 ⟨2, 0x0A5, 0x15A, 1⟩),
    ([0x94B5A5B2, 0x2E93C8C9, 0xDEADBEEF], .fsum2F1F2 ⟨2, 0x0A5, 0x15A, 1, 5, 6, 9, 3, 0xC8, 0xC9, some 0xDEADBEEF⟩),
    ([0x94B5A5B4], .fclampF0 ⟨2, 0x0A5, 0x15A, 1⟩),
    ([0x94B5A5B6, 0x2E93C8C9, 0xDEADBEEF], .fclampF1F2 ⟨2, 0x0A5, 0x15A, 1, 5, 6, 9, 3, 0xC8, 0xC9, some 0xDEADBEEF⟩),
    ([0x94B5A5B8], .fcsgnF0 ⟨2, 0x0A5, 0x15A, 1⟩),
    ([0x94B5A5BA, 0x2E93C8C9, 0xDEADBEEF], .fcsgnF1F2 ⟨2, 0x0A5, 0x15A, 1, 5, 6, 9, 3, 0xC8, 0xC9, some 0xDEADBEEF⟩)] := by
  repeat first | exact decodes_nil | refine decodes_cons rfl rfl ?_

theorem test_decode_ControlFlow : decodes [
    ([0x94B5A5C2, 0x2E93C8C9, 0xDEADBEEF], .br ⟨2, 0x0A5, 0x15A, 1, 5, 6, 9, 3, 0xC8, 0xC9, some 0xDEADBEEF⟩),
    ([0x94B5A5C5, 0x2E93C8C9], .bri ⟨2, 0x0A5, 0x15A, 1, 5, 6, 9, 3, 0xC8, 0xC9, none⟩),
    ([0x94B5A5CA, 0x2E93C8C9, 0xDEADBEEF], .call ⟨2, 0x0A5, 0x15A, 1, 5, 6, 9, 3, 0xC8, 0xC9, some 0xDEADBEEF⟩),
    ([0x3FFFF5CC], .ret ⟨0, 0x1FF, 0x1FF, 1⟩),
    ([0x3FFFF5D0], .fend ⟨0, 0x1FF, 0x1FF, 1⟩),
    ([0xFFB5A5D4], .loopnFi ⟨0x7FD, 0x15A, 1⟩),
    ([0x94B5A5D6, 0x2E93C8C9, 0xDEADBEEF], .loopnF2 ⟨2, 0x0A5, 0x15A, 1, 5, 6, 9, 3, 0xC8, 0xC9, some 0xDEADBEEF⟩),
    ([0xFFBFF5D8], .trap ⟨0x7FD, 0x1FF, 1⟩),
    ([0x3FFFF5DC], .nop ⟨0, 0x1FF, 0x1FF, 1⟩),
    ([0x94B5A5E1, 0x2E93C8C9], .rdr ⟨2, 0x0A5, 0x15A, 1, 5, 6, 9, 3, 0xC8, 0xC9, none⟩),
    ([0xFFB5A5E4], .mfs ⟨0x7FD, 0x15A, 1⟩),
    ([0x14B5A5E8], .tick ⟨0, 0x0A5, 0x15A, 1⟩),
    ([0x14B5A5EC], .twaitF0 ⟨0, 0x0A5, 0x15A, 1⟩),
    ([0x94B5A5ED, 0x2E93C8C9], .twaitF1 ⟨2, 0x0A5, 0x15A, 1, 5, 6, 9, 3, 0xC8, 0xC9, none⟩),
    ([0x14B5A5F0], .nullF0 ⟨0, 0x0A5, 0x15A, 1⟩),
    ([0xFFBFF5F4], .brk ⟨0x7FD, 0x1FF, 1⟩)] := by
  repeat first | exact decodes_nil | refine decodes_cons rfl rfl ?_

theorem test_decode_Ports : decodes [
    ([0x14B5A600], .putF0 ⟨0, 0x0A5, 0x15A, 1⟩),
    ([0x94B5A601, 0x2E93C8C9], .putF1 ⟨2, 0x0A5, 0x15A, 1, 5, 6, 9, 3, 0xC8, 0xC9, none⟩),
    ([0x94B5A605, 0x2E93C8C9], .putk ⟨2, 0x0A5, 0x15A, 1, 5, 6, 9, 3, 0xC8, 0xC9, none⟩),
    ([0x94B5A609, 0x2E93C8C9], .kget ⟨2, 0x0A5, 0x15A, 1, 5, 6, 9, 3, 0xC8, 0xC9, none⟩),
    ([0x94B5A60D, 0x2E93C8C9], .wget ⟨2, 0x0A5, 0x15A, 1, 5, 6, 9, 3, 0xC8, 0xC9, none⟩),
    ([0x94B5A611, 0x2E93C8C9], .tget ⟨2, 0x0A5, 0x15A, 1, 5, 6, 9, 3, 0xC8, 0xC9, none⟩),
    ([0x94B5A615, 0x2E93C8C9], .kind ⟨2, 0x0A5, 0x15A, 1, 5, 6, 9, 3, 0xC8, 0xC9, none⟩),
    ([0x94B5A619, 0x2E93C8C9], .gap ⟨2, 0x0A5, 0x15A, 1, 5, 6, 9, 3, 0xC8, 0xC9, none⟩),
    ([0x94B5A61E, 0x2E93C8C9, 0xDEADBEEF], .skip ⟨2, 0x0A5, 0x15A, 1, 5, 6, 9, 3, 0xC8, 0xC9, some 0xDEADBEEF⟩),
    ([0x14B5A622, 0x2E93C8C9, 0xDEADBEEF], .qstat ⟨0, 0x0A5, 0x15A, 1, 5, 6, 9, 3, 0xC8, 0xC9, some 0xDEADBEEF⟩),
    ([0x54B5A622, 0x2E93C8C9, 0xDEADBEEF], .qstatClr ⟨1, 0x0A5, 0x15A, 1, 5, 6, 9, 3, 0xC8, 0xC9, some 0xDEADBEEF⟩),
    ([0x94B5A626, 0x2E93C8C9, 0xDEADBEEF], .qpol ⟨2, 0x0A5, 0x15A, 1, 5, 6, 9, 3, 0xC8, 0xC9, some 0xDEADBEEF⟩),
    ([0x14B5A628], .wcloseF0 ⟨0, 0x0A5, 0x15A, 1⟩),
    ([0x94B5A629, 0x2E93C8C9], .wcloseF1 ⟨2, 0x0A5, 0x15A, 1, 5, 6, 9, 3, 0xC8, 0xC9, none⟩),
    ([0x14B5A62E, 0x2E93C8C9, 0xDEADBEEF], .eof ⟨0, 0x0A5, 0x15A, 1, 5, 6, 9, 3, 0xC8, 0xC9, some 0xDEADBEEF⟩),
    ([0x54B5A62E, 0x2E93C8C9, 0xDEADBEEF], .eofEnd ⟨1, 0x0A5, 0x15A, 1, 5, 6, 9, 3, 0xC8, 0xC9, some 0xDEADBEEF⟩),
    ([0x14B5A630], .swapF0 ⟨0, 0x0A5, 0x15A, 1⟩),
    ([0x94B5A631, 0x2E93C8C9], .swapF1 ⟨2, 0x0A5, 0x15A, 1, 5, 6, 9, 3, 0xC8, 0xC9, none⟩)] := by
  repeat first | exact decodes_nil | refine decodes_cons rfl rfl ?_

theorem test_decode_Memory : decodes [
    ([0x94B5A642, 0x2E93C8C9, 0xDEADBEEF], .ld ⟨2, 0x0A5, 0x15A, 1, 5, 6, 9, 3, 0xC8, 0xC9, some 0xDEADBEEF⟩),
    ([0x94B5A646, 0x2E93C8C9, 0xDEADBEEF], .ldv ⟨2, 0x0A5, 0x15A, 1, 5, 6, 9, 3, 0xC8, 0xC9, some 0xDEADBEEF⟩),
    ([0x94B5A64A, 0x2E93C8C9, 0xDEADBEEF], .ldg ⟨2, 0x0A5, 0x15A, 1, 5, 6, 9, 3, 0xC8, 0xC9, some 0xDEADBEEF⟩),
    ([0x94B5A64E, 0x2E93C8C9, 0xDEADBEEF], .st ⟨2, 0x0A5, 0x15A, 1, 5, 6, 9, 3, 0xC8, 0xC9, some 0xDEADBEEF⟩),
    ([0x94B5A652, 0x2E93C8C9, 0xDEADBEEF], .stv ⟨2, 0x0A5, 0x15A, 1, 5, 6, 9, 3, 0xC8, 0xC9, some 0xDEADBEEF⟩),
    ([0x94B5A656, 0x2E93C8C9, 0xDEADBEEF], .sts ⟨2, 0x0A5, 0x15A, 1, 5, 6, 9, 3, 0xC8, 0xC9, some 0xDEADBEEF⟩),
    ([0x94B5A65A, 0x2E93C8C9, 0xDEADBEEF], .ldsys ⟨2, 0x0A5, 0x15A, 1, 5, 6, 9, 3, 0xC8, 0xC9, some 0xDEADBEEF⟩),
    ([0x94B5A65E, 0x2E93C8C9, 0xDEADBEEF], .stsys ⟨2, 0x0A5, 0x15A, 1, 5, 6, 9, 3, 0xC8, 0xC9, some 0xDEADBEEF⟩),
    ([0x94B5A662, 0x2E93C8C9, 0xDEADBEEF], .pref ⟨2, 0x0A5, 0x15A, 1, 5, 6, 9, 3, 0xC8, 0xC9, some 0xDEADBEEF⟩),
    ([0x00B5A664], .fence ⟨0x005, 0x15A, 1⟩),
    ([0x01B5A668], .qfence ⟨0x00D, 0x15A, 1⟩),
    ([0x94B5A66E, 0x2E93C8C9, 0xDEADBEEF], .sinv ⟨2, 0x0A5, 0x15A, 1, 5, 6, 9, 3, 0xC8, 0xC9, some 0xDEADBEEF⟩),
    ([0x94B5A672, 0x2E93C8C9, 0xDEADBEEF], .swb ⟨2, 0x0A5, 0x15A, 1, 5, 6, 9, 3, 0xC8, 0xC9, some 0xDEADBEEF⟩),
    ([0x94B5A676, 0x2E93C8C9, 0xDEADBEEF], .smap ⟨2, 0x0A5, 0x15A, 1, 5, 6, 9, 3, 0xC8, 0xC9, some 0xDEADBEEF⟩),
    ([0x94B5A67A, 0x2E93C8C9, 0xDEADBEEF], .aadd ⟨2, 0x0A5, 0x15A, 1, 5, 6, 9, 3, 0xC8, 0xC9, some 0xDEADBEEF⟩),
    ([0x94B5A67E, 0x2E93C8C9, 0xDEADBEEF], .amin ⟨2, 0x0A5, 0x15A, 1, 5, 6, 9, 3, 0xC8, 0xC9, some 0xDEADBEEF⟩),
    ([0x94B5A682, 0x2E93C8C9, 0xDEADBEEF], .amax ⟨2, 0x0A5, 0x15A, 1, 5, 6, 9, 3, 0xC8, 0xC9, some 0xDEADBEEF⟩),
    ([0x94B5A686, 0x2E93C8C9, 0xDEADBEEF], .aand ⟨2, 0x0A5, 0x15A, 1, 5, 6, 9, 3, 0xC8, 0xC9, some 0xDEADBEEF⟩),
    ([0x94B5A68A, 0x2E93C8C9, 0xDEADBEEF], .aor ⟨2, 0x0A5, 0x15A, 1, 5, 6, 9, 3, 0xC8, 0xC9, some 0xDEADBEEF⟩),
    ([0x94B5A68E, 0x2E93C8C9, 0xDEADBEEF], .axor ⟨2, 0x0A5, 0x15A, 1, 5, 6, 9, 3, 0xC8, 0xC9, some 0xDEADBEEF⟩),
    ([0x94B5A692, 0x2E93C8C9, 0xDEADBEEF], .axchg ⟨2, 0x0A5, 0x15A, 1, 5, 6, 9, 3, 0xC8, 0xC9, some 0xDEADBEEF⟩),
    ([0x94B5A696, 0x2E93C8C9, 0xDEADBEEF], .acas ⟨2, 0x0A5, 0x15A, 1, 5, 6, 9, 3, 0xC8, 0xC9, some 0xDEADBEEF⟩),
    ([0x94B5A69A, 0x2E93C8C9, 0xDEADBEEF], .afadd ⟨2, 0x0A5, 0x15A, 1, 5, 6, 9, 3, 0xC8, 0xC9, some 0xDEADBEEF⟩),
    ([0x94B5A69E, 0x2E93C8C9, 0xDEADBEEF], .aaddv ⟨2, 0x0A5, 0x15A, 1, 5, 6, 9, 3, 0xC8, 0xC9, some 0xDEADBEEF⟩),
    ([0x94B5A6A2, 0x2E93C8C9, 0xDEADBEEF], .lkacq ⟨2, 0x0A5, 0x15A, 1, 5, 6, 9, 3, 0xC8, 0xC9, some 0xDEADBEEF⟩),
    ([0x94B5A6A6, 0x2E93C8C9, 0xDEADBEEF], .lkrel ⟨2, 0x0A5, 0x15A, 1, 5, 6, 9, 3, 0xC8, 0xC9, some 0xDEADBEEF⟩),
    ([0x94B5A6AA, 0x2E93C8C9, 0xDEADBEEF], .lkwait ⟨2, 0x0A5, 0x15A, 1, 5, 6, 9, 3, 0xC8, 0xC9, some 0xDEADBEEF⟩),
    ([0x94B5A6AE, 0x2E93C8C9, 0xDEADBEEF], .ldsh ⟨2, 0x0A5, 0x15A, 1, 5, 6, 9, 3, 0xC8, 0xC9, some 0xDEADBEEF⟩),
    ([0x94B5A6B2, 0x2E93C8C9, 0xDEADBEEF], .aminu ⟨2, 0x0A5, 0x15A, 1, 5, 6, 9, 3, 0xC8, 0xC9, some 0xDEADBEEF⟩),
    ([0x94B5A6B6, 0x2E93C8C9, 0xDEADBEEF], .amaxu ⟨2, 0x0A5, 0x15A, 1, 5, 6, 9, 3, 0xC8, 0xC9, some 0xDEADBEEF⟩)] := by
  repeat first | exact decodes_nil | refine decodes_cons rfl rfl ?_

theorem test_decode_Engines : decodes [
    ([0x94B5A6C2, 0x2E93C8C9, 0xDEADBEEF], .cpy ⟨2, 0x0A5, 0x15A, 1, 5, 6, 9, 3, 0xC8, 0xC9, some 0xDEADBEEF⟩),
    ([0x94B5A6C6, 0x2E93C8C9, 0xDEADBEEF], .cpyx ⟨2, 0x0A5, 0x15A, 1, 5, 6, 9, 3, 0xC8, 0xC9, some 0xDEADBEEF⟩),
    ([0x94B5A6CA, 0x2E93C8C9, 0xDEADBEEF], .cpyt ⟨2, 0x0A5, 0x15A, 1, 5, 6, 9, 3, 0xC8, 0xC9, some 0xDEADBEEF⟩),
    ([0x14B5A6CE, 0x2E93C8C9, 0xDEADBEEF], .mldL ⟨0, 0x0A5, 0x15A, 1, 5, 6, 9, 3, 0xC8, 0xC9, some 0xDEADBEEF⟩),
    ([0x54B5A6CE, 0x2E93C8C9, 0xDEADBEEF], .mldA ⟨1, 0x0A5, 0x15A, 1, 5, 6, 9, 3, 0xC8, 0xC9, some 0xDEADBEEF⟩),
    ([0x94B5A6D2, 0x2E93C8C9, 0xDEADBEEF], .mmul ⟨2, 0x0A5, 0x15A, 1, 5, 6, 9, 3, 0xC8, 0xC9, some 0xDEADBEEF⟩),
    ([0x94B5A6D6, 0x2E93C8C9, 0xDEADBEEF], .mrd ⟨2, 0x0A5, 0x15A, 1, 5, 6, 9, 3, 0xC8, 0xC9, some 0xDEADBEEF⟩),
    ([0x3FF5A6D8], .mclrF0 ⟨0, 0x1FF, 0x15A, 1⟩),
    ([0x94B5A6D9, 0x2E93C8C9], .mclrF1 ⟨2, 0x0A5, 0x15A, 1, 5, 6, 9, 3, 0xC8, 0xC9, none⟩),
    ([0x94B5A6DE, 0x2E93C8C9, 0xDEADBEEF], .mfmt ⟨2, 0x0A5, 0x15A, 1, 5, 6, 9, 3, 0xC8, 0xC9, some 0xDEADBEEF⟩),
    ([0x94B5A6E2, 0x2E93C8C9, 0xDEADBEEF], .bar ⟨2, 0x0A5, 0x15A, 1, 5, 6, 9, 3, 0xC8, 0xC9, some 0xDEADBEEF⟩),
    ([0x94B5A6E6, 0x2E93C8C9, 0xDEADBEEF], .bara ⟨2, 0x0A5, 0x15A, 1, 5, 6, 9, 3, 0xC8, 0xC9, some 0xDEADBEEF⟩),
    ([0x94B5A6EA, 0x2E93C8C9, 0xDEADBEEF], .barw ⟨2, 0x0A5, 0x15A, 1, 5, 6, 9, 3, 0xC8, 0xC9, some 0xDEADBEEF⟩),
    ([0x14B5A6EE, 0x2E93C8C9, 0xDEADBEEF], .genk ⟨0, 0x0A5, 0x15A, 1, 5, 6, 9, 3, 0xC8, 0xC9, some 0xDEADBEEF⟩),
    ([0x54B5A6EE, 0x2E93C8C9, 0xDEADBEEF], .genkFlush ⟨1, 0x0A5, 0x15A, 1, 5, 6, 9, 3, 0xC8, 0xC9, some 0xDEADBEEF⟩)] := by
  repeat first | exact decodes_nil | refine decodes_cons rfl rfl ?_

theorem test_decode_FullerAndNeedle : decodes [
    ([0x94B5A702, 0x2E93C8C9, 0xDEADBEEF], .ufinit ⟨2, 0x0A5, 0x15A, 1, 5, 6, 9, 3, 0xC8, 0xC9, some 0xDEADBEEF⟩),
    ([0x94B5A706, 0x2E93C8C9, 0xDEADBEEF], .unite ⟨2, 0x0A5, 0x15A, 1, 5, 6, 9, 3, 0xC8, 0xC9, some 0xDEADBEEF⟩),
    ([0x94B5A70A, 0x2E93C8C9, 0xDEADBEEF], .find ⟨2, 0x0A5, 0x15A, 1, 5, 6, 9, 3, 0xC8, 0xC9, some 0xDEADBEEF⟩),
    ([0x94B5A70E, 0x2E93C8C9, 0xDEADBEEF], .relabel ⟨2, 0x0A5, 0x15A, 1, 5, 6, 9, 3, 0xC8, 0xC9, some 0xDEADBEEF⟩),
    ([0x94B5A712, 0x2E93C8C9, 0xDEADBEEF], .ccsize ⟨2, 0x0A5, 0x15A, 1, 5, 6, 9, 3, 0xC8, 0xC9, some 0xDEADBEEF⟩),
    ([0x14B5A716, 0x2E93C8C9, 0xDEADBEEF], .ufsnap ⟨0, 0x0A5, 0x15A, 1, 5, 6, 9, 3, 0xC8, 0xC9, some 0xDEADBEEF⟩),
    ([0x54B5A716, 0x2E93C8C9, 0xDEADBEEF], .ufsnapClose ⟨1, 0x0A5, 0x15A, 1, 5, 6, 9, 3, 0xC8, 0xC9, some 0xDEADBEEF⟩),
    ([0x94B5A71A, 0x2E93C8C9, 0xDEADBEEF], .ufundo ⟨2, 0x0A5, 0x15A, 1, 5, 6, 9, 3, 0xC8, 0xC9, some 0xDEADBEEF⟩),
    ([0x94B5A71E, 0x2E93C8C9, 0xDEADBEEF], .walk ⟨2, 0x0A5, 0x15A, 1, 5, 6, 9, 3, 0xC8, 0xC9, some 0xDEADBEEF⟩),
    ([0x94B5A722, 0x2E93C8C9, 0xDEADBEEF], .wrule ⟨2, 0x0A5, 0x15A, 1, 5, 6, 9, 3, 0xC8, 0xC9, some 0xDEADBEEF⟩),
    ([0x14B5A726, 0x2E93C8C9, 0xDEADBEEF], .wstatQ ⟨0, 0x0A5, 0x15A, 1, 5, 6, 9, 3, 0xC8, 0xC9, some 0xDEADBEEF⟩),
    ([0x54B5A726, 0x2E93C8C9, 0xDEADBEEF], .wstatResume ⟨1, 0x0A5, 0x15A, 1, 5, 6, 9, 3, 0xC8, 0xC9, some 0xDEADBEEF⟩),
    ([0x94B5A726, 0x2E93C8C9, 0xDEADBEEF], .wstatAbort ⟨2, 0x0A5, 0x15A, 1, 5, 6, 9, 3, 0xC8, 0xC9, some 0xDEADBEEF⟩),
    ([0x94B5A72A, 0x2E93C8C9, 0xDEADBEEF], .hacc ⟨2, 0x0A5, 0x15A, 1, 5, 6, 9, 3, 0xC8, 0xC9, some 0xDEADBEEF⟩),
    ([0x94B5A72E, 0x2E93C8C9, 0xDEADBEEF], .hflush ⟨2, 0x0A5, 0x15A, 1, 5, 6, 9, 3, 0xC8, 0xC9, some 0xDEADBEEF⟩),
    ([0x94B5A732, 0x2E93C8C9, 0xDEADBEEF], .hstat ⟨2, 0x0A5, 0x15A, 1, 5, 6, 9, 3, 0xC8, 0xC9, some 0xDEADBEEF⟩)] := by
  repeat first | exact decodes_nil | refine decodes_cons rfl rfl ?_

theorem test_decode_System : decodes [
    ([0x94B5A742, 0x2E93C8C9, 0xDEADBEEF], .scall ⟨2, 0x0A5, 0x15A, 1, 5, 6, 9, 3, 0xC8, 0xC9, some 0xDEADBEEF⟩),
    ([0x94B5A746, 0x2E93C8C9, 0xDEADBEEF], .snotify ⟨2, 0x0A5, 0x15A, 1, 5, 6, 9, 3, 0xC8, 0xC9, some 0xDEADBEEF⟩),
    ([0x3FF5A748], .swaitF0 ⟨0, 0x1FF, 0x15A, 1⟩),
    ([0x94B5A749, 0x2E93C8C9], .swaitF1 ⟨2, 0x0A5, 0x15A, 1, 5, 6, 9, 3, 0xC8, 0xC9, none⟩),
    ([0x94B5A74E, 0x2E93C8C9, 0xDEADBEEF], .mfcr ⟨2, 0x0A5, 0x15A, 1, 5, 6, 9, 3, 0xC8, 0xC9, some 0xDEADBEEF⟩),
    ([0x94B5A752, 0x2E93C8C9, 0xDEADBEEF], .mtcr ⟨2, 0x0A5, 0x15A, 1, 5, 6, 9, 3, 0xC8, 0xC9, some 0xDEADBEEF⟩),
    ([0x3FF5A754], .eret ⟨0, 0x1FF, 0x15A, 1⟩),
    ([0x94B5A75A, 0x2E93C8C9, 0xDEADBEEF], .tlbi ⟨2, 0x0A5, 0x15A, 1, 5, 6, 9, 3, 0xC8, 0xC9, some 0xDEADBEEF⟩),
    ([0x94B5A75E, 0x2E93C8C9, 0xDEADBEEF], .frz ⟨2, 0x0A5, 0x15A, 1, 5, 6, 9, 3, 0xC8, 0xC9, some 0xDEADBEEF⟩),
    ([0x94B5A762, 0x2E93C8C9, 0xDEADBEEF], .drn ⟨2, 0x0A5, 0x15A, 1, 5, 6, 9, 3, 0xC8, 0xC9, some 0xDEADBEEF⟩),
    ([0x14B5A766, 0x2E93C8C9, 0xDEADBEEF], .imgsv ⟨0, 0x0A5, 0x15A, 1, 5, 6, 9, 3, 0xC8, 0xC9, some 0xDEADBEEF⟩),
    ([0x54B5A766, 0x2E93C8C9, 0xDEADBEEF], .imgsvDrop ⟨1, 0x0A5, 0x15A, 1, 5, 6, 9, 3, 0xC8, 0xC9, some 0xDEADBEEF⟩),
    ([0x94B5A76A, 0x2E93C8C9, 0xDEADBEEF], .imgld ⟨2, 0x0A5, 0x15A, 1, 5, 6, 9, 3, 0xC8, 0xC9, some 0xDEADBEEF⟩),
    ([0x94B5A76E, 0x2E93C8C9, 0xDEADBEEF], .rgrant ⟨2, 0x0A5, 0x15A, 1, 5, 6, 9, 3, 0xC8, 0xC9, some 0xDEADBEEF⟩),
    ([0x14B5A772, 0x2E93C8C9, 0xDEADBEEF], .rfreeFree ⟨0, 0x0A5, 0x15A, 1, 5, 6, 9, 3, 0xC8, 0xC9, some 0xDEADBEEF⟩),
    ([0x54B5A772, 0x2E93C8C9, 0xDEADBEEF], .rfreeKill ⟨1, 0x0A5, 0x15A, 1, 5, 6, 9, 3, 0xC8, 0xC9, some 0xDEADBEEF⟩),
    ([0x3FF5A774], .wdpetF0 ⟨0, 0x1FF, 0x15A, 1⟩),
    ([0x94B5A775, 0x2E93C8C9], .wdpetF1 ⟨2, 0x0A5, 0x15A, 1, 5, 6, 9, 3, 0xC8, 0xC9, none⟩),
    ([0x14B5A77A, 0x2E93C8C9, 0xDEADBEEF], .ecntRd ⟨0, 0x0A5, 0x15A, 1, 5, 6, 9, 3, 0xC8, 0xC9, some 0xDEADBEEF⟩),
    ([0x54B5A77A, 0x2E93C8C9, 0xDEADBEEF], .ecntSel ⟨1, 0x0A5, 0x15A, 1, 5, 6, 9, 3, 0xC8, 0xC9, some 0xDEADBEEF⟩),
    ([0x94B5A77A, 0x2E93C8C9, 0xDEADBEEF], .ecntClr ⟨2, 0x0A5, 0x15A, 1, 5, 6, 9, 3, 0xC8, 0xC9, some 0xDEADBEEF⟩),
    ([0x3FF5A77C], .halt ⟨0, 0x1FF, 0x15A, 1⟩)] := by
  repeat first | exact decodes_nil | refine decodes_cons rfl rfl ?_


theorem test_wit_IntegerArithmetic : ∀ i ∈ ([.addF0 ⟨0, 0x1FF, 0x1FF, 0⟩, .addF1F2 ⟨0, 0x1FF, 0x1FF, 0, 4, 0, 0, 0, 0, 0, none⟩, .subF0 ⟨0, 0x1FF, 0x1FF, 0⟩, .subF1F2 ⟨0, 0x1FF, 0x1FF, 0, 4, 0, 0, 0, 0, 0, none⟩, .addiFi ⟨0, 0x1FF, 0⟩, .addiF2 ⟨0, 0x1FF, 0x1FF, 0, 4, 0, 0, 0, 0, 0, some 0⟩, .mulF0 ⟨0, 0x1FF, 0x1FF, 0⟩, .mulF1F2 ⟨0, 0x1FF, 0x1FF, 0, 4, 0, 0, 0, 0, 0, none⟩, .mulhF0 ⟨0, 0x1FF, 0x1FF, 0⟩, .mulhF1F2 ⟨0, 0x1FF, 0x1FF, 0, 4, 0, 0, 0, 0, 0, none⟩, .mulhuF0 ⟨0, 0x1FF, 0x1FF, 0⟩, .mulhuF1F2 ⟨0, 0x1FF, 0x1FF, 0, 4, 0, 0, 0, 0, 0, none⟩, .madF0 ⟨0, 0x1FF, 0x1FF, 0⟩, .madF1F2 ⟨0, 0x1FF, 0x1FF, 0, 4, 0, 0, 0, 0, 0, none⟩, .negF0 ⟨0, 0x1FF, 0x1FF, 0⟩, .negF1 ⟨0, 0x1FF, 0x1FF, 0, 4, 0, 0, 0, 0, 0, none⟩, .absF0 ⟨0, 0x1FF, 0x1FF, 0⟩, .absF1 ⟨0, 0x1FF, 0x1FF, 0, 4, 0, 0, 0, 0, 0, none⟩, .minF0 ⟨0, 0x1FF, 0x1FF, 0⟩, .minF1F2 ⟨0, 0x1FF, 0x1FF, 0, 4, 0, 0, 0, 0, 0, none⟩, .maxF0 ⟨0, 0x1FF, 0x1FF, 0⟩, .maxF1F2 ⟨0, 0x1FF, 0x1FF, 0, 4, 0, 0, 0, 0, 0, none⟩, .minuF0 ⟨0, 0x1FF, 0x1FF, 0⟩, .minuF1F2 ⟨0, 0x1FF, 0x1FF, 0, 4, 0, 0, 0, 0, 0, none⟩, .maxuF0 ⟨0, 0x1FF, 0x1FF, 0⟩, .maxuF1F2 ⟨0, 0x1FF, 0x1FF, 0, 4, 0, 0, 0, 0, 0, none⟩, .addsF0 ⟨0, 0x1FF, 0x1FF, 0⟩, .addsF1F2 ⟨0, 0x1FF, 0x1FF, 0, 4, 0, 0, 0, 0, 0, none⟩, .addsuF0 ⟨0, 0x1FF, 0x1FF, 0⟩, .addsuF1F2 ⟨0, 0x1FF, 0x1FF, 0, 4, 0, 0, 0, 0, 0, none⟩, .subsF0 ⟨0, 0x1FF, 0x1FF, 0⟩, .subsF1F2 ⟨0, 0x1FF, 0x1FF, 0, 4, 0, 0, 0, 0, 0, none⟩, .subsuF0 ⟨0, 0x1FF, 0x1FF, 0⟩, .subsuF1F2 ⟨0, 0x1FF, 0x1FF, 0, 4, 0, 0, 0, 0, 0, none⟩, .avgF0 ⟨0, 0x1FF, 0x1FF, 0⟩, .avgF1F2 ⟨0, 0x1FF, 0x1FF, 0, 4, 0, 0, 0, 0, 0, none⟩, .addshF0 ⟨0, 0x1FF, 0x1FF, 0⟩, .addshF1F2 ⟨0, 0x1FF, 0x1FF, 0, 4, 0, 0, 0, 0, 0, none⟩] : List Instr), Issues (one i) i fun x _ => stdWidthB x.ins.width := by
  exact issues_all (by decide +kernel)

theorem test_wit_Division : ∀ i ∈ ([.divsF0 ⟨0, 0x1FF, 0x1FF, 0⟩, .divsF1F2 ⟨0, 0x1FF, 0x1FF, 0, 4, 0, 0, 0, 0, 0, none⟩, .divuF0 ⟨0, 0x1FF, 0x1FF, 0⟩, .divuF1F2 ⟨0, 0x1FF, 0x1FF, 0, 4, 0, 0, 0, 0, 0, none⟩, .remsF0 ⟨0, 0x1FF, 0x1FF, 0⟩, .remsF1F2 ⟨0, 0x1FF, 0x1FF, 0, 4, 0, 0, 0, 0, 0, none⟩, .remuF0 ⟨0, 0x1FF, 0x1FF, 0⟩, .remuF1F2 ⟨0, 0x1FF, 0x1FF, 0, 4, 0, 0, 0, 0, 0, none⟩] : List Instr), Issues (one i) i fun x _ => stdWidthB x.ins.width := by
  exact issues_all (by decide +kernel)

theorem test_wit_LogicAndShifts : ∀ i ∈ ([.andF0 ⟨0, 0x1FF, 0x1FF, 0⟩, .andF1F2 ⟨0, 0x1FF, 0x1FF, 0, 4, 0, 0, 0, 0, 0, none⟩, .orF0 ⟨0, 0x1FF, 0x1FF, 0⟩, .orF1F2 ⟨0, 0x1FF, 0x1FF, 0, 4, 0, 0, 0, 0, 0, none⟩, .xorF0 ⟨0, 0x1FF, 0x1FF, 0⟩, .xorF1F2 ⟨0, 0x1FF, 0x1FF, 0, 4, 0, 0, 0, 0, 0, none⟩, .andnF0 ⟨0, 0x1FF, 0x1FF, 0⟩, .andnF1F2 ⟨0, 0x1FF, 0x1FF, 0, 4, 0, 0, 0, 0, 0, none⟩, .shlF0 ⟨0, 0x1FF, 0x1FF, 0⟩, .shlF1F2 ⟨0, 0x1FF, 0x1FF, 0, 4, 0, 0, 0, 0, 0, none⟩, .shrF0 ⟨0, 0x1FF, 0x1FF, 0⟩, .shrF1F2 ⟨0, 0x1FF, 0x1FF, 0, 4, 0, 0, 0, 0, 0, none⟩, .sarF0 ⟨0, 0x1FF, 0x1FF, 0⟩, .sarF1F2 ⟨0, 0x1FF, 0x1FF, 0, 4, 0, 0, 0, 0, 0, none⟩, .rotlF0 ⟨0, 0x1FF, 0x1FF, 0⟩, .rotlF1F2 ⟨0, 0x1FF, 0x1FF, 0, 4, 0, 0, 0, 0, 0, none⟩, .shliFi ⟨0, 0x1FF, 0⟩, .shliF2 ⟨0, 0x1FF, 0x1FF, 0, 4, 0, 0, 0, 0, 0, some 0⟩, .shriFi ⟨0, 0x1FF, 0⟩, .shriF2 ⟨0, 0x1FF, 0x1FF, 0, 4, 0, 0, 0, 0, 0, some 0⟩, .sariFi ⟨0, 0x1FF, 0⟩, .sariF2 ⟨0, 0x1FF, 0x1FF, 0, 4, 0, 0, 0, 0, 0, some 0⟩] : List Instr), Issues (one i) i fun x _ => stdWidthB x.ins.width := by
  exact issues_all (by decide +kernel)

theorem test_wit_BitOps : ∀ i ∈ ([.clzF0 ⟨0, 0x1FF, 0x1FF, 0⟩, .clzF1 ⟨0, 0x1FF, 0x1FF, 0, 4, 0, 0, 0, 0, 0, none⟩, .ctzF0 ⟨0, 0x1FF, 0x1FF, 0⟩, .ctzF1 ⟨0, 0x1FF, 0x1FF, 0, 4, 0, 0, 0, 0, 0, none⟩, .popcF0 ⟨0, 0x1FF, 0x1FF, 0⟩, .popcF1 ⟨0, 0x1FF, 0x1FF, 0, 4, 0, 0, 0, 0, 0, none⟩, .brevF0 ⟨0, 0x1FF, 0x1FF, 0⟩, .brevF1 ⟨0, 0x1FF, 0x1FF, 0, 4, 0, 0, 0, 0, 0, none⟩, .bswapF0 ⟨0, 0x1FF, 0x1FF, 0⟩, .bswapF1 ⟨0, 0x1FF, 0x1FF, 0, 4, 0, 0, 0, 0, 0, none⟩, .bfxF0 ⟨0, 0x1FF, 0x1FF, 0⟩, .bfxF1F2 ⟨0, 0x1FF, 0x1FF, 0, 4, 0, 0, 0, 0, 0, none⟩, .bfiF0 ⟨0, 0x1FF, 0x1FF, 0⟩, .bfiF1F2 ⟨0, 0x1FF, 0x1FF, 0, 4, 0, 0, 0, 0, 0, none⟩] : List Instr), Issues (one i) i fun x _ => stdWidthB x.ins.width := by
  exact issues_all (by decide +kernel)

theorem test_wit_Moves : ∀ i ∈ ([.movi ⟨0, 0x1FF, 0⟩, .movl ⟨0, 0x1FF, 0x1FF, 0, 4, 0, 0, 0, 0, 0, some 0⟩, .movF0 ⟨0, 0x1FF, 0x1FF, 0⟩, .movF1 ⟨0, 0x1FF, 0x1FF, 0, 4, 0, 0, 0, 0, 0, none⟩, .sext ⟨0, 0x1FF, 0x1FF, 0, 4, 0, 0, 0, 0, 0, none⟩, .zext ⟨0, 0x1FF, 0x1FF, 0, 4, 0, 0, 0, 0, 0, none⟩, .selF0 ⟨0, 0x1FF, 0x1FF, 0⟩, .selF1F2 ⟨0, 0x1FF, 0x1FF, 0, 0, 0, 0, 0, 0, 0, none⟩] : List Instr), Issues (one i) i fun x _ => stdWidthB x.ins.width := by
  exact issues_all (by decide +kernel)

theorem test_wit_IntegerCompares : ∀ i ∈ ([.ceqF0 ⟨0, 0x1FF, 0x1FF, 0⟩, .ceqF1F2 ⟨0, 0x1FF, 0x1FF, 0, 0, 0, 0, 0, 0, 0, none⟩, .cneF0 ⟨0, 0x1FF, 0x1FF, 0⟩, .cneF1F2 ⟨0, 0x1FF, 0x1FF, 0, 0, 0, 0, 0, 0, 0, none⟩, .cltF0 ⟨0, 0x1FF, 0x1FF, 0⟩, .cltF1F2 ⟨0, 0x1FF, 0x1FF, 0, 0, 0, 0, 0, 0, 0, none⟩, .cleF0 ⟨0, 0x1FF, 0x1FF, 0⟩, .cleF1F2 ⟨0, 0x1FF, 0x1FF, 0, 0, 0, 0, 0, 0, 0, none⟩, .cltuF0 ⟨0, 0x1FF, 0x1FF, 0⟩, .cltuF1F2 ⟨0, 0x1FF, 0x1FF, 0, 0, 0, 0, 0, 0, 0, none⟩, .cleuF0 ⟨0, 0x1FF, 0x1FF, 0⟩, .cleuF1F2 ⟨0, 0x1FF, 0x1FF, 0, 0, 0, 0, 0, 0, 0, none⟩, .ceqiFi ⟨0, 0x1FF, 0⟩, .ceqiF2 ⟨0, 0x1FF, 0x1FF, 0, 0, 0, 0, 0, 0, 0, some 0⟩, .cltiFi ⟨0, 0x1FF, 0⟩, .cltiF2 ⟨0, 0x1FF, 0x1FF, 0, 0, 0, 0, 0, 0, 0, some 0⟩] : List Instr), Issues (one i) i fun x _ => stdWidthB x.ins.width := by
  exact issues_all (by decide +kernel)

theorem test_wit_Predicates : ∀ i ∈ ([.pandF0 ⟨0, 0x1FF, 0x1FF, 0⟩, .pandF1F2 ⟨0, 0x1FF, 0x1FF, 0, 6, 0, 0, 0, 0, 0, none⟩, .porF0 ⟨0, 0x1FF, 0x1FF, 0⟩, .porF1F2 ⟨0, 0x1FF, 0x1FF, 0, 6, 0, 0, 0, 0, 0, none⟩, .pxorF0 ⟨0, 0x1FF, 0x1FF, 0⟩, .pxorF1F2 ⟨0, 0x1FF, 0x1FF, 0, 6, 0, 0, 0, 0, 0, none⟩, .pnotF0 ⟨0, 0x1FF, 0x1FF, 0⟩, .pnotF1 ⟨0, 0x1FF, 0x1FF, 0, 6, 0, 0, 0, 0, 0, none⟩, .panyF0 ⟨0, 0x1FF, 0x1FF, 0⟩, .panyF1 ⟨0, 0x1FF, 0x1FF, 0, 6, 0, 0, 0, 0, 0, none⟩, .pallF0 ⟨0, 0x1FF, 0x1FF, 0⟩, .pallF1 ⟨0, 0x1FF, 0x1FF, 0, 6, 0, 0, 0, 0, 0, none⟩, .pcntF0 ⟨0, 0x1FF, 0x1FF, 0⟩, .pcntF1 ⟨0, 0x1FF, 0x1FF, 0, 6, 0, 0, 0, 0, 0, none⟩] : List Instr), Issues (one i) i fun x _ => stdWidthB x.ins.width := by
  exact issues_all (by decide +kernel)

theorem test_wit_LaneMoves : ∀ i ∈ ([.bcastF0 ⟨0, 0x1FF, 0x1FF, 0⟩, .bcastF1F2 ⟨0, 0x1FF, 0x1FF, 0, 0, 0, 0, 0, 0, 0, none⟩, .lsetF0 ⟨0, 0x1FF, 0x1FF, 0⟩, .lsetF1F2 ⟨0, 0x1FF, 0x1FF, 0, 0, 0, 0, 0, 0, 0, none⟩, .permF0 ⟨0, 0x1FF, 0x1FF, 0⟩, .permF1F2 ⟨0, 0x1FF, 0x1FF, 0, 0, 0, 0, 0, 0, 0, none⟩, .lrotF0 ⟨0, 0x1FF, 0x1FF, 0⟩, .lrotF1F2 ⟨0, 0x1FF, 0x1FF, 0, 0, 0, 0, 0, 0, 0, none⟩, .zipF0 ⟨0, 0x1FF, 0x1FF, 0⟩, .zipF1F2 ⟨0, 0x1FF, 0x1FF, 0, 0, 0, 0, 0, 0, 0, none⟩, .unzipF0 ⟨0, 0x1FF, 0x1FF, 0⟩, .unzipF1F2 ⟨0, 0x1FF, 0x1FF, 0, 0, 0, 0, 0, 0, 0, none⟩, .compressF0 ⟨0, 0x1FF, 0x1FF, 0⟩, .compressF1F2 ⟨0, 0x1FF, 0x1FF, 0, 0, 0, 0, 0, 0, 0, none⟩, .expandF0 ⟨0, 0x1FF, 0x1FF, 0⟩, .expandF1F2 ⟨0, 0x1FF, 0x1FF, 0, 0, 0, 0, 0, 0, 0, none⟩, .lidx ⟨0, 0x1FF, 0x1FF, 0⟩] : List Instr), Issues (one i) i fun x _ => stdWidthB x.ins.width := by
  exact issues_all (by decide +kernel)

theorem test_wit_Reductions : ∀ i ∈ ([.raddF0 ⟨0, 0x1FF, 0x1FF, 0⟩, .raddF1 ⟨0, 0x1FF, 0x1FF, 0, 0, 0, 0, 0, 0, 0, none⟩, .rmaxF0 ⟨0, 0x1FF, 0x1FF, 0⟩, .rmaxF1 ⟨0, 0x1FF, 0x1FF, 0, 0, 0, 0, 0, 0, 0, none⟩, .rminF0 ⟨0, 0x1FF, 0x1FF, 0⟩, .rminF1 ⟨0, 0x1FF, 0x1FF, 0, 0, 0, 0, 0, 0, 0, none⟩, .rxorF0 ⟨0, 0x1FF, 0x1FF, 0⟩, .rxorF1 ⟨0, 0x1FF, 0x1FF, 0, 0, 0, 0, 0, 0, 0, none⟩] : List Instr), Issues (one i) i fun x _ => stdWidthB x.ins.width := by
  exact issues_all (by decide +kernel)

theorem test_wit_LaneScalars : ∀ i ∈ ([.scanF0 ⟨0, 0x1FF, 0x1FF, 0⟩, .scanF1 ⟨0, 0x1FF, 0x1FF, 0, 0, 0, 0, 0, 0, 0, none⟩, .lgetF0 ⟨0, 0x1FF, 0x1FF, 0⟩, .lgetF1F2 ⟨0, 0x1FF, 0x1FF, 0, 0, 0, 0, 0, 0, 0, none⟩, .dot4F0 ⟨0, 0x1FF, 0x1FF, 0⟩, .dot4F1F2 ⟨0, 0x1FF, 0x1FF, 0, 0, 0, 0, 0, 0, 0, none⟩] : List Instr), Issues (one i) i fun x _ => stdWidthB x.ins.width := by
  exact issues_all (by decide +kernel)

theorem test_wit_FloatArithmetic : ∀ i ∈ ([.faddF0 ⟨0, 0x1FF, 0x1FF, 0⟩, .faddF1F2 ⟨0, 0x1FF, 0x1FF, 0, 8, 0, 0, 0, 0, 0, none⟩, .fsubF0 ⟨0, 0x1FF, 0x1FF, 0⟩, .fsubF1F2 ⟨0, 0x1FF, 0x1FF, 0, 8, 0, 0, 0, 0, 0, none⟩, .fmulF0 ⟨0, 0x1FF, 0x1FF, 0⟩, .fmulF1F2 ⟨0, 0x1FF, 0x1FF, 0, 8, 0, 0, 0, 0, 0, none⟩, .fmaF0 ⟨0, 0x1FF, 0x1FF, 0⟩, .fmaF1F2 ⟨0, 0x1FF, 0x1FF, 0, 8, 0, 0, 0, 0, 0, none⟩, .fmsF0 ⟨0, 0x1FF, 0x1FF, 0⟩, .fmsF1F2 ⟨0, 0x1FF, 0x1FF, 0, 8, 0, 0, 0, 0, 0, none⟩, .fnmaF0 ⟨0, 0x1FF, 0x1FF, 0⟩, .fnmaF1F2 ⟨0, 0x1FF, 0x1FF, 0, 8, 0, 0, 0, 0, 0, none⟩, .bsclF0 ⟨0, 0x1FF, 0x1FF, 0⟩, .bsclF1F2 ⟨0, 0x1FF, 0x1FF, 0, 8, 0, 0, 0, 0, 0, none⟩] : List Instr), Issues (one i) i fun x _ => stdWidthB x.ins.width := by
  exact issues_all (by decide +kernel)

theorem test_wit_FloatSelection : ∀ i ∈ ([.fminF0 ⟨0, 0x1FF, 0x1FF, 0⟩, .fminF1F2 ⟨0, 0x1FF, 0x1FF, 0, 8, 0, 0, 0, 0, 0, none⟩, .fmaxF0 ⟨0, 0x1FF, 0x1FF, 0⟩, .fmaxF1F2 ⟨0, 0x1FF, 0x1FF, 0, 8, 0, 0, 0, 0, 0, none⟩, .fabsF0 ⟨0, 0x1FF, 0x1FF, 0⟩, .fabsF1 ⟨0, 0x1FF, 0x1FF, 0, 8, 0, 0, 0, 0, 0, none⟩, .fnegF0 ⟨0, 0x1FF, 0x1FF, 0⟩, .fnegF1 ⟨0, 0x1FF, 0x1FF, 0, 8, 0, 0, 0, 0, 0, none⟩, .fcsgnF0 ⟨0, 0x1FF, 0x1FF, 0⟩, .fcsgnF1F2 ⟨0, 0x1FF, 0x1FF, 0, 8, 0, 0, 0, 0, 0, none⟩, .fclampF0 ⟨0, 0x1FF, 0x1FF, 0⟩, .fclampF1F2 ⟨0, 0x1FF, 0x1FF, 0, 8, 0, 0, 0, 0, 0, none⟩] : List Instr), Issues (one i) i fun x _ => stdWidthB x.ins.width := by
  exact issues_all (by decide +kernel)

theorem test_wit_FloatCompares : ∀ i ∈ ([.feqF0 ⟨0, 0x1FF, 0x1FF, 0⟩, .feqF1F2 ⟨0, 0x1FF, 0x1FF, 0, 8, 0, 0, 0, 0, 0, none⟩, .fltF0 ⟨0, 0x1FF, 0x1FF, 0⟩, .fltF1F2 ⟨0, 0x1FF, 0x1FF, 0, 8, 0, 0, 0, 0, 0, none⟩, .fleF0 ⟨0, 0x1FF, 0x1FF, 0⟩, .fleF1F2 ⟨0, 0x1FF, 0x1FF, 0, 8, 0, 0, 0, 0, 0, none⟩, .funF0 ⟨0, 0x1FF, 0x1FF, 0⟩, .funF1F2 ⟨0, 0x1FF, 0x1FF, 0, 8, 0, 0, 0, 0, 0, none⟩] : List Instr), Issues (one i) i fun x _ => stdWidthB x.ins.width := by
  exact issues_all (by decide +kernel)

theorem test_wit_FloatSeeds : ∀ i ∈ ([.frcpF0 ⟨0, 0x1FF, 0x1FF, 0⟩, .frcpF1 ⟨0, 0x1FF, 0x1FF, 0, 8, 0, 0, 0, 0, 0, none⟩, .frsqF0 ⟨0, 0x1FF, 0x1FF, 0⟩, .frsqF1 ⟨0, 0x1FF, 0x1FF, 0, 8, 0, 0, 0, 0, 0, none⟩, .fexp2F0 ⟨0, 0x1FF, 0x1FF, 0⟩, .fexp2F1 ⟨0, 0x1FF, 0x1FF, 0, 8, 0, 0, 0, 0, 0, none⟩, .flog2F0 ⟨0, 0x1FF, 0x1FF, 0⟩, .flog2F1 ⟨0, 0x1FF, 0x1FF, 0, 8, 0, 0, 0, 0, 0, none⟩, .frcprF0 ⟨0, 0x1FF, 0x1FF, 0⟩, .frcprF1F2 ⟨0, 0x1FF, 0x1FF, 0, 8, 0, 0, 0, 0, 0, none⟩, .frsqrF0 ⟨0, 0x1FF, 0x1FF, 0⟩, .frsqrF1F2 ⟨0, 0x1FF, 0x1FF, 0, 8, 0, 0, 0, 0, 0, none⟩, .frndF0 ⟨0, 0x1FF, 0x1FF, 0⟩, .frndF1 ⟨0, 0x1FF, 0x1FF, 0, 8, 0, 0, 0, 0, 0, none⟩, .fsclF0 ⟨0, 0x1FF, 0x1FF, 0⟩, .fsclF1F2 ⟨0, 0x1FF, 0x1FF, 0, 8, 0, 0, 0, 0, 0, none⟩, .fclassF0 ⟨0, 0x1FF, 0x1FF, 0⟩, .fclassF1 ⟨0, 0x1FF, 0x1FF, 0, 8, 0, 0, 0, 0, 0, none⟩] : List Instr), Issues (one i) i fun x _ => stdWidthB x.ins.width := by
  exact issues_all (by decide +kernel)

theorem test_wit_Conversions : ∀ i ∈ ([.cvt ⟨0, 0x1FF, 0x1FF, 0, 8, 0, 0, 0, 0, 0, none⟩, .cvts ⟨0, 0x1FF, 0x1FF, 0, 9, 0, 0, 0, 0, 0, none⟩, .cbdec ⟨0, 0x1FF, 0x1FF, 0, 0, 0, 0, 0, 0, 0, none⟩] : List Instr), Issues (one i) i fun x _ => stdWidthB x.ins.width := by
  exact issues_all (by decide +kernel)

theorem test_wit_DotAndTwoSum : ∀ i ∈ ([.fdotF0 ⟨0, 0x1FF, 0x1FF, 0⟩, .fdotF1F2 ⟨0, 0x1FF, 0x1FF, 0, 8, 0, 0, 0, 0, 0, none⟩, .fsum2F0 ⟨0, 0x1FF, 0x1FF, 0⟩, .fsum2F1F2 ⟨0, 0x1FF, 0x1FF, 0, 8, 0, 0, 0, 0, 0, none⟩] : List Instr), Issues (one i) i fun x _ => stdWidthB x.ins.width := by
  exact issues_all (by decide +kernel)


/-! ### Well-formed terms (05 R80, R81, R91, R97): each check refuses a term -/

theorem test_wf_reserved_pm_F0 : (Instr.addF0 ⟨0, 0, 0, 3⟩).wf = false := rfl
theorem test_wf_reserved_pm_FI : (Instr.addiFi ⟨0, 0, 3⟩).wf = false := rfl
theorem test_wf_reserved_pm_FX : (Instr.addF1F2 ⟨0, 0, 0, 3, 0, 0, 0, 0, 0, 0, none⟩).wf = false := rfl
theorem test_wf_literal_in_F1_only : (Instr.negF1 ⟨0, 0, 0, 0, 0, 0, 0, 0, 0, 0, some 1⟩).wf = false := rfl
theorem test_wf_no_literal_in_F2_only : (Instr.movl ⟨0, 0, 0, 0, 0, 0, 0, 0, 0, 0, none⟩).wf = false := rfl
theorem test_wf_modifier_of_another_row : (Instr.qstat ⟨1, 0, 0, 0, 0, 0, 0, 0, 0, 0, none⟩).wf = false := rfl
theorem test_wf_good : (Instr.addF0 ⟨0, 0, 0, 2⟩).wf = true := rfl
theorem test_decode_refuses_reserved_pm : decode [0x00000C04] = .error .illegalOpcode := rfl
theorem test_decode_refuses_reserved_op : decode [0x000000BC] = .error .illegalOpcode := rfl
theorem test_decode_refuses_header : decode [0x00000007] = .error .misplacedHeader := rfl
theorem test_table_word : decodeTableWord 32 0x3FFFF1DC = some (.nop ⟨0, 0x1FF, 0x1FF, 0⟩) := rfl

/-! ### Witnesses: encodings -/

theorem test_wit_DecodeEncode : (Instr.addF0 ⟨3, 0x1FF, 0x1FF, 2⟩).wf = true ∧ (Instr.addF0 ⟨3, 0x1FF, 0x1FF, 2⟩).enc ≠ .event := by
  decide +kernel
theorem test_wit_EncodeDecode : decode [0xFFFFF804, 0] = .ok (.addF0 ⟨3, 0x1FF, 0x1FF, 2⟩, [0]) := rfl
theorem test_wit_OpcodeMap : (field (0xFFFFFFFF : Word) 0 2).toNat = 3 ∧
    ((field (0x0C04 : Word) 0 2).toNat < 3 ∧ field (0x0C04 : Word) 10 2 = 3) ∧
    ((field (0x0004 : Word) 0 2).toNat = 0 ∧ field (0x0004 : Word) 10 2 ≠ 3 ∧ (7 : Nat).testBit 0 = true) ∧
    ((field (0x00B9 : Word) 0 2).toNat = 1 ∧ field (0x00B9 : Word) 30 2 = 0 ∧ (3 : Nat).testBit 1 = true) := by decide +kernel

/-! ### Witnesses: memory, steps, operands and targets -/

theorem test_wit_MemoryLaws : Memory.wf ([] : List Host.Cell) = true ∧ Memory.wf (Mem.write [] 0 1) = true ∧
    Memory.wf (Mem.write (Mem.write [] 7 1) 7 0) = true ∧ Mem.write (Mem.write [] 7 1) 7 0 = [] := by decide +kernel
theorem test_wit_CanonicalMemory : State.reset.canonical ∧ ∃ t, step State.reset = .next t := ⟨⟨rfl, rfl⟩, _, rfl⟩

/-- A `nop` as the next instruction after reset. -/
def nopNext : State := State.reset.withFetchWord 32 0x3FFFF1DC

theorem test_wit_StepRuns_issue : nopNext.agenda = .issue (.thread 0 0) 1 :: [] ∧
    ({ nopNext.advance with agenda := [] } : State).issueWords (.thread 0 0) 1 = some [0x3FFFF1DC] ∧
    decode [0x3FFFF1DC] = .ok (.nop ⟨0, 0x1FF, 0x1FF, 0⟩, []) ∧
    ∃ t, exec (.nop ⟨0, 0x1FF, 0x1FF, 0⟩) (({ nopNext.advance with agenda := [] } : State).issueAt (.thread 0 0) 1) = .next t :=
  ⟨rfl, rfl, rfl, _, rfl⟩
theorem test_wit_StepRuns_event :
    ({ State.reset with agenda := [.event .ptsAdvance] } : State).agenda = .event .ptsAdvance :: [] ∧
    ∃ t, exec .ptsAdvance ({ ({ State.reset with agenda := [.event .ptsAdvance] } : State).advance with agenda := [] } : State) = .next t :=
  ⟨rfl, _, rfl⟩

/-- `one`, with the values of its three slots. -/
def oneWith (i : Instr) (a b c : Option Val) : State :=
  (one i).updBlock (.thread 0 0) fun k => { k with
    slots := (a.map fun v => ((1, 0), v)).toList ++ (b.map fun v => ((1, 1), v)).toList ++ (c.map fun v => ((1, 2), v)).toList }

def gatherOf (s : State) (i : Instr) : Option Gathered := (i.ins?.bind s.issuing).map Issue.gather

theorem test_wit_PredicatesAndOperands :
    ((Instr.addF0 ⟨0, 0x1FF, 0x1FF, 0⟩).ins?.bind State.reset.issuing = none) ∧
    gatherOf (oneWith (.addF0 ⟨0, 0x1FF, 0x1FF, 0⟩) (some .zero) none none) (.addF0 ⟨0, 0x1FF, 0x1FF, 0⟩) = some .notReady ∧
    gatherOf (oneWith (.addF0 ⟨0, 0x1FF, 0x1FF, 1⟩) (some .zero) (some .zero) (some .zero)) (.addF0 ⟨0, 0x1FF, 0x1FF, 1⟩) = some .decline ∧
    gatherOf (oneWith (.addF0 ⟨0, 0x1FF, 0x1FF, 2⟩) (some .zero) (some .zero) (some ⟨1, []⟩)) (.addF0 ⟨0, 0x1FF, 0x1FF, 2⟩) = some .decline ∧
    gatherOf (oneWith (.addF0 ⟨0, 0x1FF, 0x1FF, 1⟩) (some .zero) (some .zero) none) (.addF0 ⟨0, 0x1FF, 0x1FF, 1⟩) = some .notReady := by
  decide +kernel

/-- The agent and block of `one`. -/
def agentOf (s : State) : Agent := (s.agent? (.thread 0 0)).getD (.thread 0 0)
def blockIn (s : State) : Block := (agentOf s).block.getD (placedBlock [])

/-- A `mov` whose slot A holds a value, with a sticky count where asked. -/
def movSticky (k : BitVec 4) : Instr := .movF1 ⟨0, 0x1FF, 0x1FF, 0, 4, 0, 0, k, 0, 0, none⟩

theorem test_wit_ResultsReachTargets : (one (movSticky 15)).agent? (.thread 0 0) = some (agentOf (one (movSticky 15))) ∧
    (agentOf (one (movSticky 15))).block = some (blockIn (one (movSticky 15))) ∧
    (((blockIn (one (movSticky 15))).insAt 1).map (Ins.stkOf · 0)).getD 0 ≠ 0 ∧
    (((blockIn (one (movSticky 0))).insAt 1).map (Ins.stkOf · 0)).getD 0 = 0 ∧
    Tab.get? (blockIn (one (movSticky 0))).slots (1, 0) ≠ none ∧
    Tab.get? (blockIn (oneWith (movSticky 0) none none none)).slots (1, 0) = none := by decide +kernel

theorem test_wit_RegisterFile : ((48 : Nat) = 0 ∨ (48 : Nat) = 48) ∧ ((1 : Nat) ≠ 0 ∧ (1 : Nat) ≠ 48 ∧ (1 : Nat) < 56) ∧
    ((55 : Nat) ≠ 0 ∧ (55 : Nat) ≠ 48 ∧ (55 : Nat) < 56) := by decide

theorem test_wit_ValueFrame : Issues (one (.addF0 ⟨0, 0x1FF, 0x1B9, 0⟩)) (.addF0 ⟨0, 0x1FF, 0x1B9, 0⟩) (fun x _ =>
      x.ins.op < 0x70 && Target.of x.ins.t0 == .reg 57 && Target.of x.ins.t1 == .reg 127) ∧
    Issues (oneWith (movSticky 1) (some .zero) none none) (.movF1 ⟨0, 0x1FF, 0x001, 0, 4, 0, 0, 1, 0, 0, none⟩) (fun x _ =>
      x.ins.op < 0x70 && Target.of x.ins.t0 == .slot 0 1 && Target.of x.ins.t1 == .reg 127 &&
        ((x.b.insAt 1).map (Ins.stkOf · 0)).getD 0 != 0) := ⟨issues (by decide +kernel), issues (by decide +kernel)⟩

/-! ### Witnesses: taking a trap and returning from it -/

/-- A trap that suspends thread 0 of die 0. -/
def trapped : State := (one (.nop ⟨0, 0x1FF, 0x1FF, 0⟩)).takeTrap (.thread 0 0) 0x20 1 0 5 0

theorem test_wit_TrapTaken_payload : (⟨255, 255, 65535, 65535, 65535, 255, 255, 255, 255, 65535, 2 ^ 64 - 1, 2 ^ 64 - 1, 2 ^ 64 - 1, 2 ^ 64 - 1,
    2 ^ 64 - 1⟩ : Trap).payload.toNat / 2 ^ 384 % 2 ^ 64 = 2 ^ 64 - 1 := by decide +kernel

theorem test_wit_ReturnFromTrap : ∃ e, trapped.sched.traps = [] ++ e :: [] ∧ e.who = some (.thread 0 0) ∧ e.trap.handle ≠ 0 ∧ e.trap.ctx = 0 ∧
    (trapped.agent? (.thread 0 0)).map (·.phase) = some (.suspended 0 true) ∧ (1 : Nat) ≠ e.trap.ctx ∧ Level.S ≠ .M := by
  refine ⟨_, rfl, ?_⟩; decide +kernel

theorem test_wit_ReturnFromTrap_none : ∀ e ∈ State.reset.sched.traps, e.who = none ∨ e.trap.handle ≠ 1 := by decide

/-! ### Witnesses: instructions of a region -/

/-- A queue of a region of launch 1. -/
def q0 : Qid := .mu 1 0 0 0 0
def p8 : Qid := .port 1 0 0 0 0 8
def act : Aid := .actor 1 0 0 0 0

/-- The entries of a firing: a DATA record, a NULL, an `exc` record and a DRAIN. -/
def entries : List Record := [Record.data 7 5 false [], .null, Record.data 9 6 true [], .token kDRAIN]

/-- Launch 1 of context 0, RUNNING and started. -/
def launch1 : Launch := ⟨.running, 0, 1, 1, 0, false, none, 0, [], 0, false, 0, 0, [], false, 0, 0, true⟩
def region1 : Region := ⟨0, 0, 1, 1, 0, 0, 0, .none,
  [(0, 0, 0, ⟨0, 1, .queue⟩), (0, 0, 1, ⟨0, 4, .scratch⟩), (0, 0, 2, ⟨0, 4, .stash⟩), (0, 0, 3, ⟨0, 2, .agen⟩)], false, 0, 0, [], [], []⟩

/-- An actor of launch 1 in a firing. -/
def actor1 (k : Block) : Agent := { Agent.blank with
  mode := .win, vq := 0
  ins := [⟨0, .queue q0, 4⟩, ⟨1, .link q0, 1⟩], outs := [⟨8, .stream p8 q0, .max⟩, ⟨9, .join ⟨1, 0, 0, 5, 0⟩ 0, .inPort⟩]
  phase := .running, firing := some ⟨false, [⟨0, entries, [], false⟩], [], 3, false, [], [], [], []⟩, block := some k }

/-- One region of launch 1 with one actor, whose input and output queues are empty. -/
def withActor (k : Block) : State :=
  let s := State.reset
  { s with
    agents := [(act, actor1 k)]
    fab := { s.fab with queues := [(q0, .empty .default 0 1), (p8, .empty .default 0 2)], streams := [(p8, q0)] }
    sched := { s.sched with
      launches := [(1, launch1)], regions := [(1, region1)], contexts := [(0, { Context.reset with live := true })] }
    cur := some act }

/-- The actor about to issue an instruction. -/
def actorOne (i : Instr) : State := (withActor (placedBlock (encode i))).pick act 1

theorem issues_in {is : List Instr} {st : Instr → State} {c : Issue → Operands → Bool} (h : (is.all fun i => issuesB (st i) i c) = true) :
    ∀ i ∈ is, Issues (st i) i c := fun i hi => issues (List.all_eq_true.1 h i hi)

theorem issues_by {is : List Instr} {st : Instr → State} {c : State → Issue → Operands → Bool}
    (h : (is.all fun i => issuesB (st i) i (c (st i))) = true) : ∀ i ∈ is, Issues (st i) i (c (st i)) :=
  fun i hi => issues (List.all_eq_true.1 h i hi)

theorem test_wit_TrapTaken : (actorOne (.nop ⟨0, 0x1FF, 0x1FF, 0⟩)).agent? act = some (actor1 (placedBlock [0x3FFFF1DC])|> fun g => { g with idx := 1 }) ∧
    (actorOne (.nop ⟨0, 0x1FF, 0x1FF, 0⟩)).raiserRank act (actor1 (placedBlock [0x3FFFF1DC])) = 0 ∧
    (actorOne (.nop ⟨0, 0x1FF, 0x1FF, 0⟩)).sched.traps = [] := by decide +kernel

theorem test_wit_ExitsWaitForCommit : ∀ i ∈ ([.br ⟨0, 0x1FF, 0x1FF, 0, 7, 0, 0, 0, 0, 0, some 0⟩, .bri ⟨0, 0x1FF, 0x1FF, 0, 7, 0, 0, 0, 0, 0, none⟩, .ret ⟨0, 0x1FF, 0x1FF, 0⟩, .fend ⟨0, 0x1FF, 0x1FF, 0⟩, .halt ⟨0, 0x1FF, 0x1FF, 0⟩, .call ⟨0, 0x1FF, 0x1FF, 0, 7, 0, 0, 0, 0, 0, some 0⟩, .loopnFi ⟨0, 0x1FF, 0⟩, .loopnF2 ⟨0, 0x1FF, 0x1FF, 0, 7, 0, 0, 0, 0, 0, some 0⟩, .eret ⟨0, 0x1FF, 0x1FF, 0⟩] : List Instr), Issues (one i) i fun _ _ => true := issues_all (by decide +kernel)

/-- `one` in a block that resumes after a software trap. -/
def oneResumed (i : Instr) : State := (one i).updBlock (.thread 0 0) fun k => { k with noTrap := true }

theorem test_wit_SoftwareTraps : ∀ i ∈ ([.trap ⟨5, 0x1FF, 0⟩, .brk ⟨5, 0x1FF, 0⟩] : List Instr),
    Issues (one i) i (fun x _ => !x.b.noTrap) ∧ Issues (oneResumed i) i (fun x _ => x.b.noTrap) := by
  intro i hi
  exact ⟨issues_all (by decide +kernel) i hi, issues_in (st := oneResumed) (by decide +kernel) i hi⟩

theorem test_wit_ReadsOfState : ∀ i ∈ ([.nop ⟨0, 0x1FF, 0x1FF, 0⟩, .tick ⟨0, 0x1FF, 0x1FF, 0⟩] : List Instr), Issues (one i) i fun _ _ => true :=
  issues_all (by decide +kernel)

theorem test_wit_ReadsOfState_mfs : ∀ i ∈ ((List.range 13).map fun n => Instr.mfs ⟨BitVec.ofNat 11 n, 0x1FF, 0⟩),
    Issues (one i) i (fun x _ => x.aid.isThread && x.aid.rid == none) ∧
    Issues (actorOne i) i (fun x _ => !x.aid.isThread && x.aid.rid == some 1 && x.g.mode == .win) := by
  intro i hi
  exact ⟨issues_all (by decide +kernel) i hi, issues_in (st := actorOne) (by decide +kernel) i hi⟩

theorem test_wit_ReadsOfState_region : Tab.get? (actorOne (.mfs ⟨9, 0x1FF, 0⟩)).sched.regions 1 = some region1 := by decide +kernel

/-- `rdr` of the register that slot A names, whose write may be pending. -/
def rdrOf (x : Nat) (p : List PendingWrite) : State :=
  (oneWith (.rdr ⟨0, 0x1FF, 0x1FF, 0, 7, 0, 0, 0, 0, 0, none⟩) (some ⟨BitVec.ofNat 512 x, []⟩) (some .zero) (some .zero)).updAgent (.thread 0 0) fun g =>
    { g with pending := p, delay := [(64, [⟨3, []⟩])] }

theorem test_wit_ReadsOfState_rdr : (∀ x ∈ [0, 55, 64], Issues (rdrOf x []) (.rdr ⟨0, 0x1FF, 0x1FF, 0, 7, 0, 0, 0, 0, 0, none⟩) fun i o =>
      scalNat o.a.bits == x && !i.g.isPending x && (i.g.source x).isSome) ∧
    (∀ x ∈ [56, 63, 65, 72, 80], Issues (rdrOf x []) (.rdr ⟨0, 0x1FF, 0x1FF, 0, 7, 0, 0, 0, 0, 0, none⟩) fun i o => scalNat o.a.bits == x && (i.g.delayHead x).isNone &&
      (i.b.hdr.extractLsb' 29 8).toNat == 0) ∧
    Issues (rdrOf 5 [⟨5, 1, []⟩]) (.rdr ⟨0, 0x1FF, 0x1FF, 0, 7, 0, 0, 0, 0, 0, none⟩) (fun i o => scalNat o.a.bits == 5 && i.g.isPending 5) := by
  refine ⟨fun x hx => ?_, fun x hx => ?_, issues (by decide +kernel)⟩
  · fin_cases hx <;> exact issues (by decide +kernel)
  · fin_cases hx <;> exact issues (by decide +kernel)

/-- A thread whose instruction 1 waits for a tick. -/
def waiting (i : Instr) (w tick : Nat) : State :=
  let s := (one i).updAgent (.thread 0 0) fun g => { g with deadline := [(1, w, [])] }
  { s with clk := { s.clk with tick := tick } }

theorem test_wit_WaitsForATick : ∀ i ∈ ([.twaitF0 ⟨0, 0x1FF, 0x1FF, 0⟩, .twaitF1 ⟨0, 0x1FF, 0x1FF, 0, 7, 0, 0, 0, 0, 0, none⟩, .swaitF0 ⟨0, 0x1FF, 0x1FF, 0⟩, .swaitF1 ⟨0, 0x1FF, 0x1FF, 0, 7, 0, 0, 0, 0, 0, none⟩] : List Instr), Issues (one i) i fun _ _ => true :=
  issues_all (by decide +kernel)

def blockOp (s : State) : Option Nat := ((s.agent? (.thread 0 0)).bind (·.block)).bind fun k => (k.insAt 1).map (·.op)
def deadlines (s : State) : Option (Tab Nat (Nat × List Nat)) := (s.agent? (.thread 0 0)).map (·.deadline)

/-- Thread 0 with two calls in its queue. -/
def waitingCalled : State :=
  let s := waiting (.swaitF0 ⟨0, 0x1FF, 0x1FF, 0⟩) 9 8
  let q := Queue.empty .default 0 0
  s.setQueue (.call 0 0) { q with items := [⟨.token 0, 1, .storage, false, false, 0, false⟩, ⟨.token 0, 1, .storage, false, false, 1, false⟩] }

theorem test_wit_WaitsForATick_twait (tick : Nat) (_ : tick = 8 ∨ tick = 9) : blockOp (waiting (.twaitF0 ⟨0, 0x1FF, 0x1FF, 0⟩) 9 tick) = some 0x7B ∧
    deadlines (waiting (.twaitF0 ⟨0, 0x1FF, 0x1FF, 0⟩) 9 tick) = some [(1, 9, [])] ∧ (waiting (.twaitF0 ⟨0, 0x1FF, 0x1FF, 0⟩) 9 tick).agentAlive (.thread 0 0) = true := ⟨rfl, rfl, rfl⟩

theorem test_wit_WaitsForATick_swait (tick : Nat) (_ : tick = 8 ∨ tick = 9) : blockOp (waiting (.swaitF0 ⟨0, 0x1FF, 0x1FF, 0⟩) 9 tick) = some 0xD2 ∧
    deadlines (waiting (.swaitF0 ⟨0, 0x1FF, 0x1FF, 0⟩) 9 tick) = some [(1, 9, [])] ∧ ((waiting (.swaitF0 ⟨0, 0x1FF, 0x1FF, 0⟩) 9 tick).callQueue 0 0).items.length = 0 :=
  ⟨rfl, rfl, rfl⟩

theorem test_wit_WaitsForATick_called : (waitingCalled.callQueue 0 0).items.length = 2 ∧ deadlines waitingCalled = some [(1, 9, [])] :=
  ⟨rfl, rfl⟩

theorem test_wit_PutsWaitForCommit : ∀ i ∈ ([.nullF0 ⟨0, 0x1FF, 0x1FF, 0⟩, .putF0 ⟨0, 0x1FF, 0x1FF, 0⟩, .putF1 ⟨0, 0x1FF, 0x1FF, 0, 7, 0, 0, 0, 0, 0, none⟩, .putk ⟨0, 0x1FF, 0x1FF, 0, 7, 0, 0, 0, 0, 0, none⟩, .gap ⟨0, 0x1FF, 0x1FF, 0, 7, 0, 0, 0, 0, 0, none⟩, .wcloseF0 ⟨0, 0x1FF, 0x1FF, 0⟩, .wcloseF1 ⟨0, 0x1FF, 0x1FF, 0, 7, 0, 0, 0, 0, 0, none⟩, .eof ⟨0, 0x1FF, 0x1FF, 0, 7, 0, 0, 0, 0, 0, none⟩, .eofEnd ⟨1, 0x1FF, 0x1FF, 0, 7, 0, 0, 0, 0, 0, none⟩, .swapF0 ⟨0, 0x1FF, 0x1FF, 0⟩, .swapF1 ⟨0, 0x1FF, 0x1FF, 0, 7, 0, 0, 0, 0, 0, none⟩] : List Instr), Issues (actorOne i) i fun x _ => x.ins.op == 0x86 || x.ins.ports == [8] || x.ins.ports == [] := by
  exact issues_in (by decide +kernel)

/-- An instruction that names q8 as its target, and the head of port 0 as its source. -/
theorem test_wit_PutsWaitForCommit_forward : ∀ j ∈ ([0, 2, 3] : List (BitVec 4)), Issues (actorOne (.putF1 ⟨0, 0x1FF, 0x1B8, 0, 7, 0, j, 0, 0, 0xC8, none⟩))
      (.putF1 ⟨0, 0x1FF, 0x1B8, 0, 7, 0, j, 0, 0, 0xC8, none⟩) fun x _ => x.ins.ports == [8] &&
        (x.entry j.toNat).kind == (if j = 3 then kDRAIN else kDATA) := by
  intro j hj
  fin_cases hj <;> exact issues (by decide +kernel)

theorem test_wit_PutsWaitForCommit_putk : (∀ c ∈ [0x3C00], Issues (oneWith (.putk ⟨0, 0x1FF, 0x1FF, 0, 7, 0, 0, 0, 0, 0, none⟩) (some .zero) (some .zero) (some ⟨BitVec.ofNat 512 c, []⟩)) (.putk ⟨0, 0x1FF, 0x1FF, 0, 7, 0, 0, 0, 0, 0, none⟩)
      fun _ o => !(wt16Value (scalNat o.c.bits % 2 ^ 16)).isZero) ∧
    Issues (one (.putk ⟨0, 0x1FF, 0x1FF, 0, 7, 0, 0, 0, 0, 0, none⟩)) (.putk ⟨0, 0x1FF, 0x1FF, 0, 7, 0, 0, 0, 0, 0, none⟩) (fun _ o => (wt16Value (scalNat o.c.bits % 2 ^ 16)).isZero) :=
  ⟨fun c hc => by fin_cases hc; exact issues (by decide +kernel), issues (by decide +kernel)⟩

/-- A payload of a gap, and what the check of 10 R207 says of it. -/
def gapIs (bad : Bool) (_ : Issue) (o : Operands) : Bool :=
  let g := Gap.ofRecord { Record.token 8 with payload := o.a.bits }
  bad == (g.lost == 0 || !([1, 2, 4, 5, 6, 7, 8, 9, 10].contains g.cause) || badLostw g.lostw || (g.kr && g.kmax < g.kmin) || g.tmax < g.tmin)

theorem test_wit_PutsWaitForCommit_gap :
    Issues (oneWith (.gap ⟨0, 0x1FF, 0x1FF, 0, 7, 0, 0, 0, 0, 0, none⟩) (some ⟨(Gap.mk 1 0x3F800000 false 0 1 0 0 0 0 0 false []).record.payload, []⟩) none none) (.gap ⟨0, 0x1FF, 0x1FF, 0, 7, 0, 0, 0, 0, 0, none⟩) (gapIs false) ∧
    Issues (one (.gap ⟨0, 0x1FF, 0x1FF, 0, 7, 0, 0, 0, 0, 0, none⟩)) (.gap ⟨0, 0x1FF, 0x1FF, 0, 7, 0, 0, 0, 0, 0, none⟩) (gapIs true) := ⟨issues (by decide +kernel), issues (by decide +kernel)⟩

theorem test_wit_EntryReads : ∀ i ∈ ([.kget ⟨0, 0x1FF, 0x1FF, 0, 7, 0, 3, 0, 0, 0xC8, none⟩, .wget ⟨0, 0x1FF, 0x1FF, 0, 7, 0, 2, 0, 0, 0xC8, none⟩,
    .tget ⟨0, 0x1FF, 0x1FF, 0, 7, 0, 0, 0, 0, 0xC8, none⟩, .kind ⟨0, 0x1FF, 0x1FF, 0, 7, 0, 1, 0, 0, 0xC8, none⟩,
    .kind ⟨1, 0x1FF, 0x1FF, 0, 7, 0, 1, 0, 0, 0xC8, none⟩, .kind ⟨2, 0x1FF, 0x1FF, 0, 7, 0, 1, 0, 0, 0xC8, none⟩] : List Instr),
    Issues (actorOne i) i fun x _ => x.g.firing.isSome := issues_in (by decide +kernel)

/-- A queue instruction that names the port in slot A and a selector in slot B. -/
def queueOne (a b : Nat) (i : Instr) : State := (actorOne i).updBlock act fun k => { k with
  slots := [((1, 0), ⟨BitVec.ofNat 512 a, []⟩), ((1, 1), ⟨BitVec.ofNat 512 b, []⟩), ((1, 2), .zero)] }

theorem test_wit_QueueInstructions_skip : Issues (actorOne (.skip ⟨0, 0x1FF, 0x1FF, 0, 7, 0, 0, 0, 0, 0xC8, none⟩)) (.skip ⟨0, 0x1FF, 0x1FF, 0, 7, 0, 0, 0, 0, 0xC8, none⟩)
    (fun _ _ => true) := issues (by decide +kernel)

theorem test_wit_QueueInstructions : ∀ a ∈ [0, 1, 8, 9], ∀ i ∈ ([.qstat ⟨0, 0x1FF, 0x1FF, 0, 7, 0, 0, 0, 0, 0, none⟩, .qstatClr ⟨1, 0x1FF, 0x1FF, 0, 7, 0, 0, 0, 0, 0, none⟩, .qpol ⟨0, 0x1FF, 0x1FF, 0, 7, 0, 0, 0, 0, 0, none⟩] : List Instr),
    Issues (queueOne a 1 i) i fun x o => scalNat o.a.bits == a && (x.g.behind (scalNat o.a.bits)).isSome := by
  intro a ha
  fin_cases ha <;> exact issues_in (by decide +kernel)

theorem test_wit_QueueInstructions_selectors : ∀ b ∈ [1, 2, 4, 5], Issues (queueOne 0 b (.qstat ⟨0, 0x1FF, 0x1FF, 0, 7, 0, 0, 0, 0, 0, none⟩)) (.qstat ⟨0, 0x1FF, 0x1FF, 0, 7, 0, 0, 0, 0, 0, none⟩) fun x o =>
    scalNat o.b.bits == b && x.g.behind 0 == some (.queue q0) := by
  intro b hb
  fin_cases hb <;> exact issues (by decide +kernel)

theorem test_wit_QueueInstructions_refused : ∀ a ∈ [2, 15, 16], ∀ i ∈ ([.qstat ⟨0, 0x1FF, 0x1FF, 0, 7, 0, 0, 0, 0, 0, none⟩, .qstatClr ⟨1, 0x1FF, 0x1FF, 0, 7, 0, 0, 0, 0, 0, none⟩, .qpol ⟨0, 0x1FF, 0x1FF, 0, 7, 0, 0, 0, 0, 0, none⟩] : List Instr),
    Issues (queueOne a 1 i) i fun x o => scalNat o.a.bits == a && (16 ≤ a || (x.g.behind a).isNone) := by
  intro a ha
  fin_cases ha <;> exact issues_in (by decide +kernel)

/-! ### Witnesses: accesses -/

/-- Pages of 2^42 bytes: coherent at 0, an IO page, and one that may only be read. The lock word at 64 is context 0's. -/
def pages : List Cached := [⟨0, 0, 42, 0x7D⟩, ⟨0, 2 ^ 42, 42, 0x17D⟩, ⟨0, 2 ^ 43, 42, 0x2D⟩, ⟨0, 3 * 2 ^ 42, 42, 0xD⟩]

/-- An instruction with the address in slot A. -/
def memOne (a : Nat) (i : Instr) : State :=
  let s := oneWith i (some ⟨BitVec.ofNat 512 a, []⟩) (some .zero) (some .zero)
  { s with ms := { s.ms with tlbDie := [(0, pages)], mem := [(71, 0x80)] } }

def misaligned (x : Issue) (o : Operands) : Bool := (x.elements o).any fun e => e.2.1 % (x.ins.width / 8) != 0

/-- The checks of an instruction's elements fail, or pass with accesses of which `k` holds. -/
def faults (need : Need) (no : Access → Bool) (s : State) (x : Issue) (o : Operands) : Bool :=
  match (s.issued x o).checkElements x need no (x.elements o) with
  | (_, .error _) => true
  | _ => false
def reaches (need : Need) (no : Access → Bool) (k : List Access → Bool) (s : State) (x : Issue) (o : Operands) : Bool :=
  match (s.issued x o).checkElements x need no (x.elements o) with
  | (_, .ok xs) => k (xs.map Prod.snd)
  | _ => false
def io (x : Access) : Bool := x.mt == 2
def noScratch (x : Access) : Bool := x.mt == 2 || x.mt == 3

theorem test_wit_LoadsRequestTheirBytes : ∀ i ∈ ([.ld ⟨0, 0x1FF, 1, 0, 4, 0, 0, 0, 0, 0, none⟩, .ldv ⟨0, 0x1FF, 1, 0, 4, 0, 0, 0, 0, 0, none⟩,
      .ldg ⟨0, 0x1FF, 1, 0, 4, 0, 0, 0, 0, 0, none⟩, .ldsys ⟨0, 0x1FF, 1, 0, 4, 0, 0, 0, 0, 0, none⟩] : List Instr),
    Issues (memOne 1 i) i misaligned ∧ Issues (memOne (2 ^ 45) i) i (faults needRead (fun _ => false) (memOne (2 ^ 45) i)) ∧
    Issues (memOne 0 i) i (reaches needRead (fun _ => false) (fun xs => xs != []) (memOne 0 i)) ∧ Issues (memOne 0 i) i (fun x _ => !x.ins.isTouch && (memOne 0 i).vectorRoom x) := by
  intro i hi
  exact ⟨issues_in (st := memOne 1) (by decide +kernel) i hi, issues_by (st := memOne (2 ^ 45)) (c := faults needRead (fun _ => false)) (by decide +kernel) i hi,
    issues_by (st := memOne 0) (c := reaches needRead (fun _ => false) fun xs => xs != []) (by decide +kernel) i hi,
    issues_by (st := memOne 0) (c := fun s x _ => !x.ins.isTouch && s.vectorRoom x) (by decide +kernel) i hi⟩

/-- A touch: both targets are null. A vector load with no active element makes no access. -/
theorem test_wit_LoadsRequestTheirBytes_touch : ∀ i ∈ ([.ld ⟨0, 0x1FF, 0x180, 0, 7, 0, 0, 0, 0, 0, none⟩, .ldv ⟨0, 0x1FF, 0x180, 0, 7, 0, 0, 0, 0, 0, none⟩, .ldg ⟨0, 0x1FF, 0x180, 0, 7, 0, 0, 0, 0, 0, none⟩] : List Instr),
    Issues (memOne 0 i) i fun x o => x.ins.isTouch && reaches needRead (fun _ => false) (fun _ => true) (memOne 0 i) x o := by
  intro i hi
  exact issues_by (st := memOne 0) (c := fun s x o => x.ins.isTouch && reaches needRead (fun _ => false) (fun _ => true) s x o) (by decide +kernel) i hi

theorem test_wit_LoadsRequestTheirBytes_none : Issues (memOne 0 (.ldv ⟨0, 0x1FF, 1, 0, 4, 1, 0, 0, 0, 0, none⟩)) (.ldv ⟨0, 0x1FF, 1, 0, 4, 1, 0, 0, 0, 0, none⟩)
    (reaches needRead (fun _ => false) (fun xs => xs == []) (memOne 0 (.ldv ⟨0, 0x1FF, 1, 0, 4, 1, 0, 0, 0, 0, none⟩))) := issues (by decide +kernel)

/-- `ldg.b32` whose second element has no page or is misaligned, with line 1, which the first reads, uncorrectable or not. -/
def gatherBad (ue : List Nat) : State :=
  let s := oneWith (.ldg ⟨0, 0x1FF, 1, 0, 4, 0, 0, 0, 0, 0, none⟩) (some ⟨BitVec.ofNat 512 64, []⟩) (some ⟨BitVec.ofNat 512 (2 ^ 32), []⟩) (some .zero)
  { s with ms := { s.ms with tlbDie := [(0, pages)], ue := ue } }
/-- What the elements below the failing one give: an element whose line is uncorrectable stands among them, or not. -/
def belowBad (bad : Bool) (s : State) (x : Issue) (o : Operands) : Bool :=
  match (s.issued x o).checkElements x needRead (fun _ => false) (x.elements o) with
  | (t, .error (_, va)) => match t.checkElements x needRead (fun _ => false) ((x.elements o).takeWhile fun e => e.2.1 != va) with
    | (u, .ok xs) => xs != [] && xs.any (fun x => x.2.mt != 2 && u.accessUe x.2) == bad
    | _ => false
  | _ => false
theorem test_wit_LoadsRequestTheirBytes_below :
    Issues (gatherBad []) (.ldg ⟨0, 0x1FF, 1, 0, 4, 0, 0, 0, 0, 0, none⟩) (belowBad false (gatherBad [])) ∧
    Issues (gatherBad [1]) (.ldg ⟨0, 0x1FF, 1, 0, 4, 0, 0, 0, 0, 0, none⟩) (belowBad true (gatherBad [1])) :=
  ⟨issues (by decide +kernel), issues (by decide +kernel)⟩

theorem test_wit_StoresWaitForCommit : ∀ i ∈ ([.st ⟨0, 0x1FF, 0x1FF, 0, 7, 0, 0, 0, 0, 0, none⟩, .stsys ⟨0, 0x1FF, 0x1FF, 0, 7, 0, 0, 0, 0, 0, none⟩, .stv ⟨0, 0x1FF, 0x1FF, 0, 7, 0, 0, 0, 0, 0, none⟩, .sts ⟨0, 0x1FF, 0x1FF, 0, 7, 0, 0, 0, 0, 0, none⟩] : List Instr),
    Issues (memOne 1 i) i (fun x o => x.ins.width == 8 || misaligned x o) ∧ Issues (memOne (2 ^ 43) i) i (faults needWrite (fun _ => false) (memOne (2 ^ 43) i)) ∧
    Issues (memOne 8 i) i (reaches needWrite (fun _ => false) (fun xs => xs != []) (memOne 8 i)) := by
  intro i hi
  exact ⟨issues_in (st := memOne 1) (by decide +kernel) i hi, issues_by (st := memOne (2 ^ 43)) (c := faults needWrite (fun _ => false)) (by decide +kernel) i hi,
    issues_by (st := memOne 8) (c := reaches needWrite (fun _ => false) fun xs => xs != []) (by decide +kernel) i hi⟩

theorem test_wit_AtomicsWaitForCommit : ∀ i ∈ ([.aadd ⟨0, 0x1FF, 0x1FF, 0, 7, 0, 0, 0, 0, 0, none⟩, .amin ⟨0, 0x1FF, 0x1FF, 0, 7, 0, 0, 0, 0, 0, none⟩, .amax ⟨0, 0x1FF, 0x1FF, 0, 7, 0, 0, 0, 0, 0, none⟩, .aand ⟨0, 0x1FF, 0x1FF, 0, 7, 0, 0, 0, 0, 0, none⟩, .aor ⟨0, 0x1FF, 0x1FF, 0, 7, 0, 0, 0, 0, 0, none⟩, .axor ⟨0, 0x1FF, 0x1FF, 0, 7, 0, 0, 0, 0, 0, none⟩, .axchg ⟨0, 0x1FF, 0x1FF, 0, 7, 0, 0, 0, 0, 0, none⟩, .acas ⟨0, 0x1FF, 0x1FF, 0, 7, 0, 0, 0, 0, 0, none⟩, .afadd ⟨0, 0x1FF, 0x1FF, 0, 7, 0, 0, 0, 0, 0, none⟩, .aaddv ⟨0, 0x1FF, 0x1FF, 0, 7, 0, 0, 0, 0, 0, none⟩, .aminu ⟨0, 0x1FF, 0x1FF, 0, 7, 0, 0, 0, 0, 0, none⟩, .amaxu ⟨0, 0x1FF, 0x1FF, 0, 7, 0, 0, 0, 0, 0, none⟩, .lkacq ⟨0, 0x1FF, 0x1FF, 0, 7, 0, 0, 0, 0, 0, none⟩, .lkrel ⟨0, 0x1FF, 0x1FF, 0, 7, 0, 0, 0, 0, 0, none⟩] : List Instr),
    Issues (memOne 2 i) i misaligned ∧ Issues (memOne (2 ^ 43) i) i (faults needBoth io (memOne (2 ^ 43) i)) ∧
    Issues (memOne (2 ^ 42) i) i (faults needBoth io (memOne (2 ^ 42) i)) ∧
    Issues (memOne 8 i) i (reaches needBoth io (fun xs => xs.all fun x => x.mt == 0) (memOne 8 i)) := by
  intro i hi
  exact ⟨issues_in (st := memOne 2) (by decide +kernel) i hi, issues_by (st := memOne (2 ^ 43)) (c := faults needBoth io) (by decide +kernel) i hi,
    issues_by (st := memOne (2 ^ 42)) (c := faults needBoth io) (by decide +kernel) i hi,
    issues_by (st := memOne 8) (c := reaches needBoth io fun xs => xs.all fun x => x.mt == 0) (by decide +kernel) i hi⟩

/-- A lock word that context 0 owns is at 64, and one that no context owns at 128. -/
def lockWait (own : Bool) (s : State) (x : Issue) (o : Operands) : Bool :=
  x.va o % 8 == 0 && (match (s.issued x o).access x.aid (x.va o) 8 needBoth with
    | (t, .ok a) => a.mt < 2 && ((t.peekWord a.pa).testBit 63 && t.peekWord a.pa % 2 ^ 10 == x.g.ctx) == own
    | _ => false)

theorem test_wit_AtomicsWaitForCommit_lkwait : Issues (memOne 64 (.lkwait ⟨0, 0x1FF, 0x1FF, 0, 7, 0, 0, 0, 0, 0, none⟩)) (.lkwait ⟨0, 0x1FF, 0x1FF, 0, 7, 0, 0, 0, 0, 0, none⟩) (lockWait true (memOne 64 (.lkwait ⟨0, 0x1FF, 0x1FF, 0, 7, 0, 0, 0, 0, 0, none⟩))) ∧
    Issues (memOne 128 (.lkwait ⟨0, 0x1FF, 0x1FF, 0, 7, 0, 0, 0, 0, 0, none⟩)) (.lkwait ⟨0, 0x1FF, 0x1FF, 0, 7, 0, 0, 0, 0, 0, none⟩) (lockWait false (memOne 128 (.lkwait ⟨0, 0x1FF, 0x1FF, 0, 7, 0, 0, 0, 0, 0, none⟩))) := ⟨issues (by decide +kernel), issues (by decide +kernel)⟩

/-- A lock word in a scratch bank. -/
def scratchOne (i : Instr) : State := (actorOne i).updBlock act fun k => { k with
  slots := [((1, 0), ⟨0xFFFFFF0000020000, []⟩), ((1, 1), .zero), ((1, 2), .zero)] }

theorem test_wit_AtomicsWaitForCommit_scratch : ∀ i ∈ ([.lkacq ⟨0, 0x1FF, 0x1FF, 0, 7, 0, 0, 0, 0, 0, none⟩, .lkrel ⟨0, 0x1FF, 0x1FF, 0, 7, 0, 0, 0, 0, 0, none⟩] : List Instr),
    Issues (scratchOne i) i (faults needBoth noScratch (scratchOne i)) := by
  intro i hi
  exact issues_by (st := scratchOne) (c := faults needBoth noScratch) (by decide +kernel) i hi

theorem test_wit_EngineCommands : ∀ i ∈ ([.cpy ⟨0, 0x1FF, 0x1FF, 0, 7, 0, 0, 0, 0, 0, none⟩, .cpyt ⟨0, 0x1FF, 0x1FF, 0, 7, 0, 0, 0, 0, 0, none⟩, .mldL ⟨0, 0x1FF, 0x1FF, 0, 7, 0, 0, 0, 0, 0, none⟩, .mldA ⟨1, 0x1FF, 0x1FF, 0, 7, 0, 0, 0, 0, 0, none⟩, .mmul ⟨0, 0x1FF, 0x1FF, 0, 7, 0, 0, 0, 0, 0, none⟩, .mclrF0 ⟨0, 0x1FF, 0x1FF, 0⟩, .mclrF1 ⟨0, 0x1FF, 0x1FF, 0, 7, 0, 0, 0, 0, 0, none⟩, .mfmt ⟨0, 0x1FF, 0x1FF, 0, 7, 0, 0, 0, 0, 0, none⟩, .ufinit ⟨0, 0x1FF, 0x1FF, 0, 7, 0, 0, 0, 0, 0, none⟩, .unite ⟨0, 0x1FF, 0x1FF, 0, 7, 0, 0, 0, 0, 0, none⟩, .find ⟨0, 0x1FF, 0x1FF, 0, 7, 0, 0, 0, 0, 0, none⟩, .relabel ⟨0, 0x1FF, 0x1FF, 0, 7, 0, 0, 0, 0, 0, none⟩, .ccsize ⟨0, 0x1FF, 0x1FF, 0, 7, 0, 0, 0, 0, 0, none⟩, .ufsnap ⟨0, 0x1FF, 0x1FF, 0, 7, 0, 0, 0, 0, 0, none⟩, .ufsnapClose ⟨1, 0x1FF, 0x1FF, 0, 7, 0, 0, 0, 0, 0, none⟩, .ufundo ⟨0, 0x1FF, 0x1FF, 0, 7, 0, 0, 0, 0, 0, none⟩, .hacc ⟨0, 0x1FF, 0x1FF, 0, 7, 0, 0, 0, 0, 0, none⟩, .hflush ⟨0, 0x1FF, 0x1FF, 0, 7, 0, 0, 0, 0, 0, none⟩, .hstat ⟨0, 0x1FF, 0x1FF, 0, 7, 0, 0, 0, 0, 0, none⟩, .wrule ⟨0, 0x1FF, 0x1FF, 0, 7, 0, 0, 0, 0, 0, none⟩, .walk ⟨0, 0x1FF, 0x1FF, 0, 7, 0, 0, 0, 0, 0, none⟩, .wstatQ ⟨0, 0x1FF, 0x1FF, 0, 7, 0, 0, 0, 0, 0, none⟩, .wstatResume ⟨1, 0x1FF, 0x1FF, 0, 7, 0, 0, 0, 0, 0, none⟩, .wstatAbort ⟨2, 0x1FF, 0x1FF, 0, 7, 0, 0, 0, 0, 0, none⟩, .mrd ⟨0, 0x1FF, 0x1FF, 0, 7, 0, 0, 0, 0, 0, none⟩, .cpyx ⟨0, 0x1FF, 0x1FF, 0, 7, 0, 0, 0, 0, 0, none⟩] : List Instr), Issues (one i) i fun _ _ => true := issues_all (by decide +kernel)

theorem test_wit_EngineCommands_mrd : Issues (oneWith (.mrd ⟨0, 0x1FF, 0x1FF, 0, 7, 0, 0, 0, 0, 0, none⟩) (some ⟨127, []⟩) (some .zero) (some .zero)) (.mrd ⟨0, 0x1FF, 0x1FF, 0, 7, 0, 0, 0, 0, 0, none⟩) (fun _ o => scalNat o.a.bits == 127) ∧
    Issues (oneWith (.mrd ⟨0, 0x1FF, 0x1FF, 0, 7, 0, 0, 0, 0, 0, none⟩) (some ⟨128, []⟩) (some .zero) (some .zero)) (.mrd ⟨0, 0x1FF, 0x1FF, 0, 7, 0, 0, 0, 0, 0, none⟩) (fun _ o => scalNat o.a.bits == 128) :=
  ⟨issues (by decide +kernel), issues (by decide +kernel)⟩

theorem test_wit_EngineCommands_cpyx : Issues (one (.cpyx ⟨0, 0x001, 0x1FF, 0, 0, 0, 0, 0, 0, 0, none⟩)) (.cpyx ⟨0, 0x001, 0x1FF, 0, 0, 0, 0, 0, 0, 0, none⟩)
    (fun x _ => Target.of x.ins.t1 == .slot 0 1) := issues (by decide +kernel)

theorem test_wit_SystemInstructions : ∀ i ∈ ([.bar ⟨0, 0x1FF, 0x1FF, 0, 7, 0, 0, 0, 0, 0, some 0⟩, .bara ⟨0, 0x1FF, 0x1FF, 0, 7, 0, 0, 0, 0, 0, some 0⟩, .barw ⟨0, 0x1FF, 0x1FF, 0, 7, 0, 0, 0, 0, 0, some 0⟩, .genk ⟨0, 0x1FF, 0x1FF, 0, 7, 0, 0, 0, 0, 0, none⟩, .genkFlush ⟨1, 0x1FF, 0x1FF, 0, 7, 0, 0, 0, 0, 0, none⟩, .scall ⟨0, 0x1FF, 0x1FF, 0, 7, 0, 0, 0, 0, 0, none⟩, .snotify ⟨0, 0x1FF, 0x1FF, 0, 7, 0, 0, 0, 0, 0, none⟩, .tlbi ⟨0, 0x1FF, 0x1FF, 0, 7, 0, 0, 0, 0, 0, none⟩, .frz ⟨0, 0x1FF, 0x1FF, 0, 7, 0, 0, 0, 0, 0, none⟩, .drn ⟨0, 0x1FF, 0x1FF, 0, 7, 0, 0, 0, 0, 0, none⟩, .imgsv ⟨0, 0x1FF, 0x1FF, 0, 7, 0, 0, 0, 0, 0, none⟩, .imgsvDrop ⟨1, 0x1FF, 0x1FF, 0, 7, 0, 0, 0, 0, 0, none⟩, .imgld ⟨0, 0x1FF, 0x1FF, 0, 7, 0, 0, 0, 0, 0, none⟩, .rgrant ⟨0, 0x1FF, 0x1FF, 0, 7, 0, 0, 0, 0, 0, none⟩, .rfreeFree ⟨0, 0x1FF, 0x1FF, 0, 7, 0, 0, 0, 0, 0, none⟩, .rfreeKill ⟨1, 0x1FF, 0x1FF, 0, 7, 0, 0, 0, 0, 0, none⟩, .wdpetF0 ⟨0, 0x1FF, 0x1FF, 0⟩, .wdpetF1 ⟨0, 0x1FF, 0x1FF, 0, 7, 0, 0, 0, 0, 0, none⟩, .ecntSel ⟨1, 0x1FF, 0x1FF, 0, 7, 0, 0, 0, 0, 0, none⟩, .ecntClr ⟨2, 0x1FF, 0x1FF, 0, 7, 0, 0, 0, 0, 0, none⟩] : List Instr), Issues (one i) i fun _ o => scalNat o.a.bits == 0 && scalNat o.b.bits == 0 :=
  issues_all (by decide +kernel)

theorem test_wit_SystemInstructions_launch_below : ∀ i ∈ ([.frz ⟨0, 0x1FF, 0x1FF, 0, 7, 0, 0, 0, 0, 0, none⟩, .drn ⟨0, 0x1FF, 0x1FF, 0, 7, 0, 0, 0, 0, 0, none⟩, .imgsv ⟨0, 0x1FF, 0x1FF, 0, 7, 0, 0, 0, 0, 0, none⟩, .imgsvDrop ⟨1, 0x1FF, 0x1FF, 0, 7, 0, 0, 0, 0, 0, none⟩, .imgld ⟨0, 0x1FF, 0x1FF, 0, 7, 0, 0, 0, 0, 0, none⟩, .rgrant ⟨0, 0x1FF, 0x1FF, 0, 7, 0, 0, 0, 0, 0, none⟩, .rfreeFree ⟨0, 0x1FF, 0x1FF, 0, 7, 0, 0, 0, 0, 0, none⟩, .rfreeKill ⟨1, 0x1FF, 0x1FF, 0, 7, 0, 0, 0, 0, 0, none⟩] : List Instr),
    Issues (oneWith i (some ⟨17592186044415, []⟩) (some .zero) (some .zero)) i fun _ o => scalNat o.a.bits == 17592186044415 := issues_in (by decide +kernel)

theorem test_wit_SystemInstructions_launch_above : ∀ i ∈ ([.frz ⟨0, 0x1FF, 0x1FF, 0, 7, 0, 0, 0, 0, 0, none⟩, .drn ⟨0, 0x1FF, 0x1FF, 0, 7, 0, 0, 0, 0, 0, none⟩, .imgsv ⟨0, 0x1FF, 0x1FF, 0, 7, 0, 0, 0, 0, 0, none⟩, .imgsvDrop ⟨1, 0x1FF, 0x1FF, 0, 7, 0, 0, 0, 0, 0, none⟩, .imgld ⟨0, 0x1FF, 0x1FF, 0, 7, 0, 0, 0, 0, 0, none⟩, .rgrant ⟨0, 0x1FF, 0x1FF, 0, 7, 0, 0, 0, 0, 0, none⟩, .rfreeFree ⟨0, 0x1FF, 0x1FF, 0, 7, 0, 0, 0, 0, 0, none⟩, .rfreeKill ⟨1, 0x1FF, 0x1FF, 0, 7, 0, 0, 0, 0, 0, none⟩] : List Instr),
    Issues (oneWith i (some ⟨17592186044416, []⟩) (some .zero) (some .zero)) i fun _ o => scalNat o.a.bits == 17592186044416 := issues_in (by decide +kernel)

theorem test_wit_SystemInstructions_scall_below : Issues (oneWith (.scall ⟨0, 0x1FF, 0x1FF, 0, 7, 0, 0, 0, 0, 0, none⟩) (some ⟨255, []⟩) (some .zero) (some .zero)) (.scall ⟨0, 0x1FF, 0x1FF, 0, 7, 0, 0, 0, 0, 0, none⟩)
    (fun _ o => scalNat o.a.bits == 255) := issues (by decide +kernel)
theorem test_wit_SystemInstructions_scall_above : Issues (oneWith (.scall ⟨0, 0x1FF, 0x1FF, 0, 7, 0, 0, 0, 0, 0, none⟩) (some ⟨256, []⟩) (some .zero) (some .zero)) (.scall ⟨0, 0x1FF, 0x1FF, 0, 7, 0, 0, 0, 0, 0, none⟩)
    (fun _ o => scalNat o.a.bits == 256) := issues (by decide +kernel)
theorem test_wit_SystemInstructions_wdpetF0_below : Issues (oneWith (.wdpetF0 ⟨0, 0x1FF, 0x1FF, 0⟩) (some ⟨4095, []⟩) (some .zero) (some .zero)) (.wdpetF0 ⟨0, 0x1FF, 0x1FF, 0⟩)
    (fun _ o => scalNat o.a.bits == 4095) := issues (by decide +kernel)
theorem test_wit_SystemInstructions_wdpetF0_above : Issues (oneWith (.wdpetF0 ⟨0, 0x1FF, 0x1FF, 0⟩) (some ⟨4096, []⟩) (some .zero) (some .zero)) (.wdpetF0 ⟨0, 0x1FF, 0x1FF, 0⟩)
    (fun _ o => scalNat o.a.bits == 4096) := issues (by decide +kernel)
theorem test_wit_SystemInstructions_wdpetF1_below : Issues (oneWith (.wdpetF1 ⟨0, 0x1FF, 0x1FF, 0, 7, 0, 0, 0, 0, 0, none⟩) (some ⟨4095, []⟩) (some .zero) (some .zero)) (.wdpetF1 ⟨0, 0x1FF, 0x1FF, 0, 7, 0, 0, 0, 0, 0, none⟩)
    (fun _ o => scalNat o.a.bits == 4095) := issues (by decide +kernel)
theorem test_wit_SystemInstructions_wdpetF1_above : Issues (oneWith (.wdpetF1 ⟨0, 0x1FF, 0x1FF, 0, 7, 0, 0, 0, 0, 0, none⟩) (some ⟨4096, []⟩) (some .zero) (some .zero)) (.wdpetF1 ⟨0, 0x1FF, 0x1FF, 0, 7, 0, 0, 0, 0, 0, none⟩)
    (fun _ o => scalNat o.a.bits == 4096) := issues (by decide +kernel)
theorem test_wit_SystemInstructions_snotify_below : Issues (oneWith (.snotify ⟨0, 0x1FF, 0x1FF, 0, 7, 0, 0, 0, 0, 0, none⟩) (some ⟨4095, []⟩) (some .zero) (some .zero)) (.snotify ⟨0, 0x1FF, 0x1FF, 0, 7, 0, 0, 0, 0, 0, none⟩)
    (fun _ o => scalNat o.a.bits == 4095) := issues (by decide +kernel)
theorem test_wit_SystemInstructions_snotify_above : Issues (oneWith (.snotify ⟨0, 0x1FF, 0x1FF, 0, 7, 0, 0, 0, 0, 0, none⟩) (some ⟨4096, []⟩) (some .zero) (some .zero)) (.snotify ⟨0, 0x1FF, 0x1FF, 0, 7, 0, 0, 0, 0, 0, none⟩)
    (fun _ o => scalNat o.a.bits == 4096) := issues (by decide +kernel)
theorem test_wit_SystemInstructions_ecntSel_below : Issues (oneWith (.ecntSel ⟨1, 0x1FF, 0x1FF, 0, 7, 0, 0, 0, 0, 0, none⟩) (some ⟨1032511, []⟩) (some .zero) (some .zero)) (.ecntSel ⟨1, 0x1FF, 0x1FF, 0, 7, 0, 0, 0, 0, 0, none⟩)
    (fun _ o => scalNat o.a.bits == 1032511) := issues (by decide +kernel)
theorem test_wit_SystemInstructions_ecntSel_above : Issues (oneWith (.ecntSel ⟨1, 0x1FF, 0x1FF, 0, 7, 0, 0, 0, 0, 0, none⟩) (some ⟨1048576, []⟩) (some .zero) (some .zero)) (.ecntSel ⟨1, 0x1FF, 0x1FF, 0, 7, 0, 0, 0, 0, 0, none⟩)
    (fun _ o => scalNat o.a.bits == 1048576) := issues (by decide +kernel)
theorem test_wit_SystemInstructions_ecntClr_below : Issues (oneWith (.ecntClr ⟨2, 0x1FF, 0x1FF, 0, 7, 0, 0, 0, 0, 0, none⟩) (some ⟨1032511, []⟩) (some .zero) (some .zero)) (.ecntClr ⟨2, 0x1FF, 0x1FF, 0, 7, 0, 0, 0, 0, 0, none⟩)
    (fun _ o => scalNat o.a.bits == 1032511) := issues (by decide +kernel)
theorem test_wit_SystemInstructions_ecntClr_above : Issues (oneWith (.ecntClr ⟨2, 0x1FF, 0x1FF, 0, 7, 0, 0, 0, 0, 0, none⟩) (some ⟨1048576, []⟩) (some .zero) (some .zero)) (.ecntClr ⟨2, 0x1FF, 0x1FF, 0, 7, 0, 0, 0, 0, 0, none⟩)
    (fun _ o => scalNat o.a.bits == 1048576) := issues (by decide +kernel)
theorem test_wit_SystemInstructions_tlbi_below : Issues (oneWith (.tlbi ⟨0, 0x1FF, 0x1FF, 0, 7, 0, 0, 0, 0, 0, none⟩) (some .zero) (some ⟨2047, []⟩) (some .zero)) (.tlbi ⟨0, 0x1FF, 0x1FF, 0, 7, 0, 0, 0, 0, 0, none⟩)
    (fun _ o => scalNat o.b.bits == 2047) := issues (by decide +kernel)
theorem test_wit_SystemInstructions_tlbi_above : Issues (oneWith (.tlbi ⟨0, 0x1FF, 0x1FF, 0, 7, 0, 0, 0, 0, 0, none⟩) (some .zero) (some ⟨2048, []⟩) (some .zero)) (.tlbi ⟨0, 0x1FF, 0x1FF, 0, 7, 0, 0, 0, 0, 0, none⟩)
    (fun _ o => scalNat o.b.bits == 2048) := issues (by decide +kernel)

/-- A request of thread 0 that is on its way, and a posted write of it. -/
def busy (i : Instr) : State :=
  let s := (one i).updAgent (.thread 0 0) fun g => { g with
    copyQ := [.new 5 ⟨0xB0, 0, 0, 0, 0, 0, 0⟩ [] 1], fullerQ := [.new 6 ⟨0xC4, 0, 0, 0, 0, 0, 0⟩ [] 2] }
  { s with ms := { s.ms with ioWrites := [⟨9, some (.thread 0 0), 0, none, 0, [0], true, none, [], none, 1⟩], reqs := [⟨8, .thread 0 0, 0, 0, .read false, ⟨0, 0, 0, 4, none⟩, [⟨0, 4, 0⟩], [], .none, none, none, [], none, .none⟩] } }

/-- What a fence of the issuing block waits for. -/
def fenceClear (sys : Bool) (s : State) (x : Issue) (_ : Operands) : Bool :=
  s.ms.reqs.all (fun r => !r.isOwn x.aid || x.b.made.contains r.id) && (!sys || s.ms.ioWrites.all fun w => w.aid != some x.aid)

theorem test_wit_FencesAndStash_fence : ∀ n ∈ ([0, 5] : List (BitVec 11)), Issues (one (.fence ⟨n, 0x1FF, 0⟩)) (.fence ⟨n, 0x1FF, 0⟩)
      (fenceClear true (one (.fence ⟨n, 0x1FF, 0⟩))) ∧
    Issues (busy (.fence ⟨n, 0x1FF, 0⟩)) (.fence ⟨n, 0x1FF, 0⟩) (fun x o => !fenceClear (n == 5) (busy (.fence ⟨n, 0x1FF, 0⟩)) x o) := by
  intro n hn
  fin_cases hn <;> exact ⟨issues (by decide +kernel), issues (by decide +kernel)⟩

theorem test_wit_FencesAndStash_qfence : ∀ n ∈ ([0, 6, 15] : List (BitVec 11)), Issues (one (.qfence ⟨n, 0x1FF, 0⟩)) (.qfence ⟨n, 0x1FF, 0⟩)
      (fun x _ => x.g.copyQ == [] && x.g.matrixQ == [] && x.g.needleQ == [] && x.g.fullerQ == []) ∧
    Issues (busy (.qfence ⟨n, 0x1FF, 0⟩)) (.qfence ⟨n, 0x1FF, 0⟩) (fun x _ => x.g.copyQ != [] && x.g.fullerQ != [] && x.g.matrixQ == []) := by
  intro n hn
  fin_cases hn <;> exact ⟨issues (by decide +kernel), issues (by decide +kernel)⟩

/-- `pref` for reading and for writing. -/
def prefOf (rm : BitVec 2) : Instr := .pref ⟨rm, 0x1FF, 0x1FF, 0, 7, 0, 0, 0, 0, 0, none⟩

def accessOk (need : Need) (s : State) (x : Issue) (o : Operands) : Bool :=
  match (s.issued x o).access x.aid (x.va o) 8 need with
  | (t, .ok a) => !(a.mt != 2 && t.accessUe a)
  | _ => false

theorem test_wit_FencesAndStash_pref : ∀ rm ∈ ([0, 1] : List (BitVec 2)),
    Issues (memOne 4 (prefOf rm)) (prefOf rm) (fun x o => x.va o % 8 != 0) ∧
    Issues (memOne (2 ^ 45) (prefOf rm)) (prefOf rm) (fun x o => x.va o % 8 == 0 &&
      !accessOk needRead (memOne (2 ^ 45) (prefOf rm)) x o) ∧
    Issues (memOne 8 (prefOf rm)) (prefOf rm) (fun x o => x.va o % 8 == 0 &&
      accessOk needRead (memOne 8 (prefOf rm)) x o) ∧
    Issues (memOne (2 ^ 43) (prefOf rm)) (prefOf rm) (fun x o => accessOk needRead (memOne (2 ^ 43) (prefOf rm)) x o) := by
  intro rm hr
  fin_cases hr <;> exact ⟨issues (by decide +kernel), issues (by decide +kernel), issues (by decide +kernel), issues (by decide +kernel)⟩

theorem test_wit_FencesAndStash_stash : ∀ i ∈ ([.sinv ⟨0, 0x1FF, 0x1FF, 0, 7, 0, 0, 0, 0, 0, none⟩, .swb ⟨0, 0x1FF, 0x1FF, 0, 7, 0, 0, 0, 0, 0, none⟩] : List Instr), Issues (memOne 7 i) i (fun x o => x.va o % 8 != 0) ∧
    Issues (memOne 8 i) i (fun x o => x.va o % 8 == 0) := by
  intro i hi
  exact ⟨issues_in (st := memOne 7) (by decide +kernel) i hi, issues_in (st := memOne 8) (by decide +kernel) i hi⟩

/-- An instruction on a bank group: the VA in slot A, and the selector in slot B. -/
def bankOne (va b : Nat) (i : Instr) : State := (actorOne i).updBlock act fun k => { k with
  slots := [((1, 0), ⟨BitVec.ofNat 512 va, []⟩), ((1, 1), ⟨BitVec.ofNat 512 b, []⟩), ((1, 2), .zero)] }

/-- The bank group of the selector. -/
def groupIs (k : Option BankMode) (s : State) (x : Issue) (o : Operands) : Bool :=
  let b := scalNat o.b.bits
  ((s.issued x o).groupAt x.aid (bitsAt b 8 17) (bitsAt b 25 3)).map (fun e => e.2.mode) == k

theorem test_wit_FencesAndStash_smap : let i : Instr := .smap ⟨0, 0x1FF, 0x1FF, 0, 7, 0, 0, 0, 0, 0, none⟩
    Issues (bankOne 0 (12 + 4 * 256) i) i (groupIs none (bankOne 0 (12 + 4 * 256) i)) ∧
    Issues (bankOne 0 (12 + 1 * 256) i) i (groupIs (some .scratch) (bankOne 0 (12 + 1 * 256) i)) ∧
    Issues (bankOne 8 (16 + 2 * 256) i) i (fun x o => groupIs (some .stash) (bankOne 8 (16 + 2 * 256) i) x o && x.va o % 2 ^ 16 != 0) ∧
    Issues (bankOne (2 ^ 16) (16 + 2 * 256) i) i (fun x o => groupIs (some .stash) (bankOne (2 ^ 16) (16 + 2 * 256) i) x o && x.va o % 2 ^ 16 == 0) :=
  ⟨issues (by decide +kernel), issues (by decide +kernel), issues (by decide +kernel), issues (by decide +kernel)⟩

/-- `bankOne` with the pages of `memOne`. -/
def bankMem (va b : Nat) (i : Instr) : State :=
  let s := bankOne va b i
  { s with ms := { s.ms with tlbDie := [(0, pages)] } }

def spans (ok : Bool) (s : State) (x : Issue) (o : Operands) : Bool :=
  match (s.issued x o).accesses x.aid needRead (linePieces 3 (x.va o) 128) with
  | (_, .ok _) => ok
  | (_, .error _) => !ok

theorem test_wit_FencesAndStash_ldsh : let i : Instr := .ldsh ⟨0, 0x1FF, 0x1FF, 0, 7, 0, 0, 0, 0, 0, none⟩
    Issues (bankMem 8 (3 * 256) i) i (fun x o => groupIs (some .agen) (bankMem 8 (3 * 256) i) x o && x.va o % 64 != 0) ∧
    Issues (bankMem (2 ^ 45) (3 * 256) i) i (fun x o => groupIs (some .agen) (bankMem (2 ^ 45) (3 * 256) i) x o && x.va o % 64 == 0 &&
      spans false (bankMem (2 ^ 45) (3 * 256) i) x o) ∧
    Issues (bankMem 64 (3 * 256) i) i (fun x o => groupIs (some .agen) (bankMem 64 (3 * 256) i) x o && x.va o % 64 == 0 &&
      spans true (bankMem 64 (3 * 256) i) x o) := ⟨issues (by decide +kernel), issues (by decide +kernel), issues (by decide +kernel)⟩

/-- `one` at level S, whose thread may not touch what level M keeps. -/
def lowOne (a : Nat) (i : Instr) : State :=
  (oneWith i (some ⟨BitVec.ofNat 512 a, []⟩) (some .zero) (some .zero)).updAgent (.thread 0 0) fun g => { g with level := .S }
def highOne (a : Nat) (i : Instr) : State := oneWith i (some ⟨BitVec.ofNat 512 a, []⟩) (some .zero) (some .zero)

theorem test_wit_ControlRegisterInstructions : ∀ i ∈ ([.mfcr ⟨0, 0x1FF, 0x1FF, 0, 7, 0, 0, 0, 0, 0, none⟩, .mtcr ⟨0, 0x1FF, 0x1FF, 0, 7, 0, 0, 0, 0, 0, none⟩] : List Instr),
    Issues (highOne 4 i) i (fun _ o => scalNat o.a.bits % 8 != 0) ∧ Issues (highOne (2 ^ 20) i) i (fun _ o => scalNat o.a.bits == 2 ^ 20) := by
  intro i hi
  exact ⟨issues_in (st := highOne 4) (by decide +kernel) i hi, issues_in (st := highOne (2 ^ 20)) (by decide +kernel) i hi⟩

def mfcr0 : Instr := .mfcr ⟨0, 0x1FF, 0x1FF, 0, 7, 0, 0, 0, 0, 0, none⟩
def mtcr0 : Instr := .mtcr ⟨0, 0x1FF, 0x1FF, 0, 7, 0, 0, 0, 0, 0, none⟩

theorem test_wit_ControlRegisterInstructions_mfcr :
    Issues (lowOne 0xC0000 mfcr0) mfcr0 (fun x o => !((lowOne 0xC0000 mfcr0).issued x o).mayRead (x.g.level == .M) x.g.ctx 0xC0000) ∧
    Issues (highOne 0xC0000 mfcr0) mfcr0 (fun x _ => x.g.level == .M) := ⟨issues (by decide +kernel), issues (by decide +kernel)⟩

theorem test_wit_ControlRegisterInstructions_mtcr :
    Issues (lowOne 0xC0000 mtcr0) mtcr0 (fun x o => !((lowOne 0xC0000 mtcr0).issued x o).mayWrite (x.g.level == .M) x.g.ctx 0xC0000) ∧
    Issues (highOne 0xC0000 mtcr0) mtcr0 (fun x _ => x.g.level == .M) := ⟨issues (by decide +kernel), issues (by decide +kernel)⟩

theorem test_wit_ControlRegisterInstructions_ecnt : let i : Instr := .ecntRd ⟨0, 0x1FF, 0x1FF, 0, 7, 0, 0, 0, 0, 0, none⟩
    Issues (highOne 320 i) i (fun _ o => counterOf (scalNat o.a.bits) == none) ∧
    Issues (highOne 319 i) i (fun _ o => counterOf (scalNat o.a.bits) == some (0, 319, 0)) ∧
    Issues (highOne (63 * 2 ^ 14 + 7 * 2 ^ 9) i) i (fun _ o => counterOf (scalNat o.a.bits) == some (63, 0, 7)) :=
  ⟨issues (by decide +kernel), issues (by decide +kernel), issues (by decide +kernel)⟩


/-! ### Witnesses: firings, blocks, records and nodes -/

/-- A queue that holds records, and one that holds `n` of them. -/
def holding (rs : List Record) : Queue :=
  { Queue.empty .default 0 1 with items := rs.mapIdx fun k r => ⟨r, 8, .storage, false, false, k, false⟩, nextSerial := rs.length }
def dataR : Record := Record.data 7 5 false []

/-- Launch 1 with one agent and what its fabric and its input queue hold. -/
def world (g : Agent) (rs : List Record) (f : Fabric → Fabric) : State :=
  let s := withActor (placedBlock [])
  { s with
    clk := { s.clk with tick := 100 }
    agents := [(act, g)]
    fab := f { s.fab with queues := [(q0, holding rs), (p8, .empty .default 0 2)] } }

/-- The actor between firings. -/
def idleA : Agent := { actor1 (placedBlock []) with firing := none, block := none, phase := .idle, ins := [⟨0, .queue q0, 1⟩] }

theorem test_wit_FiringsAndRuns_data : (world idleA [dataR] id).mayFire act idleA = true ∧ (world idleA [dataR] id).chosen act idleA = true ∧ (world idleA [dataR] id).canControl idleA = false ∧
    ∀ e ∈ (world idleA [dataR] id).portsOf idleA, e.1.count ≤ e.2.length ∧
      ∀ r ∈ e.2.take e.1.count, isControlKind r.2.kind = false ∧ r.2.kind ≠ kCFG := by decide +kernel
/-- Two ready actors of a CU, of which the second has been ready for longer. -/
def rivalA : Agent := { idleA with slot := 1, readySince := some 3 }
theorem test_wit_FiringsAndRuns_rival : ((world idleA [dataR] id) |> fun (s : State) => ({ s with agents := s.agents ++ [(.actor 1 0 0 0 1, rivalA)] } : State)).chosen
    act idleA = false ∧ (actor1 (placedBlock [])).inFlight ≠ [] ∧ idleA.inFlight = [] := by decide +kernel
theorem test_wit_FiringsAndRuns_control : (world idleA [.token kEOF] id).mayFire act idleA = true ∧
    (world idleA [.token kEOF] id).chosen act idleA = true ∧
    (world idleA [.token kEOF] id).canControl idleA = true := by decide +kernel

def pacedA : Agent := { idleA with pace := some 4, nextPace := 100 }
theorem test_wit_FiringsAndRuns_pace : (world pacedA [] id).agent? act = some pacedA ∧ (world pacedA [] id).agentAlive act = true ∧
    pacedA.pace = some 4 ∧ pacedA.nextPace ≤ (world pacedA [] id).clk.tick := by decide +kernel

/-- Thread 0 of die 0 between runs with a call in its queue, enabled or not. -/
def called (en : Bool) : State :=
  let s := State.reset
  { s with
    agents := [(.thread 0 0, .thread 0 0)]
    fab := { s.fab with queues := [(.call 0 0, holding [dataR])] }
    sched := { s.sched with threads := [((0, 0), { ThreadCtl.reset with en := en })], contexts := [(0, { Context.reset with live := true })] } }

/-- A die outside row 0 runs no service thread before stage S2, nor one of row 0 once a repair of that row has failed (26 R453, R463). -/
theorem test_wit_FiringsAndRuns_serves : (called true).dieServes 0 = true ∧ State.reset.dieServes 8 = false := by decide +kernel
theorem test_wit_FiringsAndRuns_run : ∀ en : Bool, ((called en).agent? (.thread 0 0)).map (·.firing) = some none ∧
    ((called en).callQueue 0 0).ready.length = 1 ∧ ((called en).threadCtl 0 0).en = en ∧
    ((called en).context ((called en).threadCtl 0 0).ctx).live = true := by decide +kernel

def unfedA : Agent := { idleA with ins := [] }
theorem test_wit_FiringsAndRuns_wave : (world unfedA [] fun f => { f with waves := [(act, [5])] }).waveAt act unfedA = [5] ∧
    (world idleA [.token kCFG] id).waveAt act idleA = [0] ∧ (world idleA [.token kCFG] id).agentAlive act = true := by decide +kernel

/-- A trap of the actor that is to be delivered to thread 1 of die 0, and one that is not synchronous. -/
def trapOf (flags : Nat) (q : Queue) : State :=
  let s := world idleA [] fun f => { f with queues := [(.call 0 1, q)] }
  { s with sched := { s.sched with
    contexts := [(0, { Context.reset with live := true, fthr := 1 })]
    traps := [⟨3, ⟨0x10, flags, 0, 0, 0, 0, 0, 0, 0, 0, 0, 0, 0, 0, 77⟩, some act, [], false, false, false, false, none⟩] } }

theorem test_wit_FiringsAndRuns_trap : ∀ flags ∈ [0, 1], ((trapOf flags (holding [])).sched.traps.find? fun f => f.id == 3 && !f.delivered).map (·.who)
      = some (some act) ∧ ((trapOf flags (holding [])).partition ((trapOf flags (holding [])).partOf 0)).fnmode.testBit 3 = false ∧
    ((trapOf flags (holding [])).context 0).fdie = 0 ∧ ((trapOf flags (holding [])).context 0).fthr = 1 ∧
    8 ≤ ((trapOf flags (holding [])).callQueue 0 1).free := by decide +kernel
/-- Die 1 is in partition 3. -/
def foreign (s : State) : State := { s with sched := { s.sched with nbr := [(1, 3)] } }
theorem test_wit_FiringsAndRuns_trap_refused : (trapOf 0 (holding [])).refuses 0 0 = false ∧ (foreign (trapOf 0 (holding []))).refuses 0 1 = true := by
  decide +kernel
theorem test_wit_FiringsAndRuns_trap_full : ((trapOf 0 (holding (List.replicate 16 dataR))).callQueue 0 1).free < 8 := by decide +kernel
theorem test_wit_FiringsAndRuns_trap_kept : ((trapOf 1 (holding [])).arriveAt (.call 0 1) dataR).2 = .kept := by decide +kernel

/-- The code image of the block halfdiff of chapter 05, and the actor that enters it. -/
def halfdiff : List Word := [0x60612127, 0x1040, 0, 0, 0x3FE02145, 0x4000C9C8, 0x3FE820AE, 0x28000000, 0x3F000000, 0x7FFB8149, 0x40000000,
  0xFF7B90A8, 0x3FFFF1D0]
def entersA (addr : Nat) (code : List Word) : Agent := { idleA with
  ins := [⟨0, .queue q0, 1⟩, ⟨1, .queue q0, 1⟩], phase := .entering addr, starts := [0], code := code.mapIdx fun k w => (4 * k, w) }

def wordsAt (addr : Nat) (code : List Word) : Except (Nat × Nat) (BitVec 128 × List Word) :=
  ((world (entersA addr code) [] id).blockWords act (entersA addr code) addr).2

theorem test_wit_BlockEntryAndCommit_entry : (world (entersA 0 halfdiff) [] id).threadReady act (entersA 0 halfdiff) = true ∧
    wordsAt 0 halfdiff = .ok (BitVec.ofNat 128 (0x60612127 + 0x1040 * 2 ^ 32), halfdiff.drop 4) ∧
    (world (entersA 0 halfdiff) [] id).windowAdmits act (entersA 0 halfdiff) 6 = true ∧
    (match checkBlock ((world (entersA 0 halfdiff) [] id).nodeOf act (entersA 0 halfdiff)) (BitVec.ofNat 128 (0x60612127 + 0x1040 * 2 ^ 32))
      (halfdiff.drop 4) with | .ok c => c.length == 5 | .error _ => false) = true := by decide +kernel
theorem test_wit_BlockEntryAndCommit_entry_fails : wordsAt 16 halfdiff = .error (cHEADER, 0) ∧ (8 : Nat) % 16 ≠ 0 := by decide +kernel

/-- The same with the CU window full. -/
def crowded : State :=
  let s := world (entersA 0 halfdiff) [] id
  { s with agents := s.agents ++ [(.actor 1 0 0 0 1, { actor1 { placedBlock [] with code := List.replicate 123 [0] } with slot := 1 })] }
theorem test_wit_BlockEntryAndCommit_window : (crowded.blockWords act (entersA 0 halfdiff) 0).2 =
      .ok (BitVec.ofNat 128 (0x60612127 + 0x1040 * 2 ^ 32), halfdiff.drop 4) ∧
    crowded.windowAdmits act (entersA 0 halfdiff) 6 = false := by decide +kernel

/-- Blocks with one instruction still waiting, with one exit, with two, and with one that the copy engine holds. -/
def waitsB : Block := placedBlock [0x3FFFF1DC]
def doneB (xs : List (Nat × ExitTo)) : Block := { waitsB with stat := [(0, .fired), (1, .fired)], exits := xs }
def heldB : Block := { doneB [(1, .done)] with effects := [(0, .cmd .copy ⟨0xB0, 0, 0, 0, 0, 0, 0⟩ [] 0 none)] }
def fullA (k : Block) : Agent := { actor1 k with copyQ := List.replicate 16 (.new 5 ⟨0xB0, 0, 0, 0, 0, 0, 0⟩ [] 1) }

def settled (g : Agent) (k : Block) : Block := k.settleStarved g 3

theorem test_wit_BlockEntryAndCommit_commit :
    (settled (actor1 waitsB) waitsB).resolved = false ∧ (settled (actor1 (doneB [])) (doneB [])).exits = [] ∧
    (settled (actor1 (doneB [(1, .done)])) (doneB [(1, .done)])).resolved = true ∧
    (settled (actor1 (doneB [(1, .done)])) (doneB [(1, .done)])).exits = [(1, .done)] ∧
    (world (actor1 (doneB [(1, .done)])) [] id).commitHolds act (actor1 (doneB [(1, .done)])) (doneB [(1, .done)]) = false ∧
    (settled (fullA heldB) heldB).resolved = true ∧ (settled (fullA heldB) heldB).exits = [(1, .done)] ∧
    (world (fullA heldB) [] id).commitHolds act (fullA heldB) (settled (fullA heldB) heldB) = true ∧
    (settled (actor1 (doneB [])) (doneB [(0, .done), (1, .block 16)])).resolved = true ∧
    2 ≤ (settled (actor1 (doneB [])) (doneB [(0, .done), (1, .block 16)])).exits.length := by decide +kernel

/-- A fired store whose token a slot of its block takes: the block never commits (01 R17). -/
def feedsB : Block := { placedBlock (encode (.st ⟨0, 0, 0x1FF, 0, 7, 0, 0, 0, 0, 0, none⟩)) with stat := [(0, .fired), (1, .fired)] }
theorem test_wit_BlockEntryAndCommit_feeds : ((actor1 feedsB).focus 0).block = some feedsB ∧
    (feedsB.settleStarved ((actor1 feedsB).focus 0) (feedsB.code.length + 1)).feedsBack = true := by decide +kernel

/-- A pipe actor with an older firing. -/
def pipedA : Agent := { actor1 waitsB with older := [(⟨false, [], [], 1, false, [], [], [], []⟩, doneB [(1, .done)])] }
theorem test_wit_BlockEntryAndCommit_pipe : pipedA.block.isSome = true ∧ pipedA.older ≠ [] ∧ (pipedA.focus 0).block = some (doneB [(1, .done)]) ∧
    (actor1 waitsB).older = [] := by decide +kernel

def writesB : Block := { doneB [(1, .block 16)] with effects := [(1, .reg ⟨5, ⟨9, []⟩, 0⟩)] }
theorem test_wit_BlockEntryAndCommit_writes : (actor1 writesB).block = some writesB ∧ (world (actor1 writesB) [] id).agent? act = some (actor1 writesB) ∧
    writesB.effects = [(1, .reg ⟨5, ⟨9, []⟩, 0⟩)] := by decide +kernel

/-! Records. The stream leaves the region where its sink-side queue is of another launch. -/

def outQ : Qid := .mu 2 0 0 0 0
def sending (dst : Qid) (rs : List Record) (sink : Bool) : State :=
  world idleA [] fun f => { f with
    queues := [(p8, holding rs)] ++ (if sink then [(dst, holding [])] else []), streams := [(p8, dst)], exits := if dst = outQ then [dst] else [] }

theorem test_wit_RecordsMove_send : ∀ sink : Bool, Tab.get? (sending q0 [dataR] sink).fab.streams p8 = some q0 ∧
    (sending q0 [dataR] sink).queueOpen p8 = true ∧ (sending q0 [dataR] sink).queueImaged q0 = false ∧
    (sending q0 [dataR] sink).head? p8 = some dataR ∧ (sending q0 [dataR] sink).cfgRun p8 = [] ∧
    ((sending q0 [dataR] sink).queue? q0).isSome = sink := by decide +kernel
theorem test_wit_RecordsMove_send_imaged : ((sending outQ [dataR] true) |> fun (s : State) => ({ s with sched := { s.sched with
    launches := [(1, launch1), (2, { launch1 with state := .imaged })] } } : State)).queueAlive outQ = false ∧
    (sending outQ [.token kCFG, dataR] true).cfgRun p8 ≠ [] ∧ (sending q0 [.token kCFG, dataR] true).cfgRun p8 ≠ [] := by decide +kernel
/-- Launch 1 on a row of three quads, and packets between them. -/
def c0 : Qid := .mu 1 0 0 0 0
def c2 : Qid := .mu 1 0 2 0 0
def hopping (ps : List Packet) : State :=
  let s := world idleA [] fun f => { f with packets := ps }
  { s with sched := { s.sched with regions := [(1, { region1 with width := 3 })] } }
theorem test_wit_RecordsMove_inject : (hopping []).routerOf c0 = some (0, 0) ∧ (hopping []).routerOf c2 = some (0, 2) ∧
    (hopping []).refuses (quadAt 0 0).1 (quadAt 0 2).1 = false ∧ (foreign (hopping [])).refuses (quadAt 0 0).1 (quadAt 0 20).1 = true ∧
    (hopping []).routerOf (.call 0 0) = none := by decide +kernel
theorem test_wit_RecordsMove_hop : (hopping [⟨c2, [dataR], 5, 0, 0, 0⟩, ⟨c2, [dataR], 4, 0, 0, 0⟩, ⟨c2, [dataR], 4, 0, 2, 2⟩]).granted 1 = true ∧
    (hopping [⟨c2, [dataR], 5, 0, 0, 0⟩, ⟨c2, [dataR], 4, 0, 0, 0⟩, ⟨c2, [dataR], 4, 0, 2, 2⟩]).granted 2 = true ∧
    (hopping [⟨c2, [dataR], 5, 0, 0, 0⟩, ⟨c2, [dataR], 4, 0, 0, 0⟩, ⟨c2, [dataR], 4, 0, 2, 2⟩]).granted 0 = false := by decide +kernel
theorem test_wit_RecordsMove_send_leaves : (sending outQ [.token kDRAIN] true).fab.exits.contains outQ = true ∧
    ((sending outQ [.token kDRAIN] true).head? p8).map (·.kind) = some kDRAIN ∧ (sending outQ [.token kDRAIN] true).queueImaged outQ = false ∧
    (sending outQ [dataR] true).head? p8 = some dataR ∧ dataR.kind ≠ kDRAIN := by decide +kernel

def flying (r : Record) : State := world idleA [] fun f => { f with flight := [(q0, r)], linkFlight := [(q0, r)] }
theorem test_wit_RecordsMove_arrive : (flying dataR).sinkAt q0 = none ∧ (flying dataR).queueOpen q0 = true ∧
    takeFlight q0 (flying dataR).fab.flight = some (dataR, []) ∧ dataR.kind ≠ kCFG ∧ (flying dataR).queue? q0 = some (holding []) ∧
    isControlKind dataR.kind = false ∧ (holding []).occ < 8 * (holding []).desc.thr ∧ 8 ≤ (holding []).free := by decide +kernel

/-- A queue with a record in its spill ring, whose page is coherent memory. -/
def ringQ : Queue := { Queue.empty { QDesc.default with pol := 5, spsize := 4 } 0 1 with
  items := [⟨dataR, 8, .ring 0, false, false, 0, false⟩], wr := 1, summary := { RingSummary.empty with count := 1 } }
def spilled : State :=
  let s := world idleA [] fun f => { f with queues := [(q0, ringQ)] }
  { s with ms := { s.ms with tlbDie := [(0, pages)] } }
theorem test_wit_RecordsMove_refill : spilled.queueOpen q0 = true ∧ ringQ.ringHead? = some 0 ∧ 8 ≤ ringQ.free ∧
    (match spilled.muRead ringQ.die ringQ.vq 0 0 80 with | (_, .ok bs) => bs.length == 80 | _ => false) = true := by decide +kernel

def emptyLink : Link := ⟨0, [], none, none, false, 4, 0⟩
theorem test_wit_RecordsMove_link : takeFlight q0 (flying dataR).fab.linkFlight = some (dataR, []) ∧ emptyLink.isFull = false ∧
    Tab.get? (world idleA [] fun f => { f with links := [(q0, emptyLink)] }).fab.links q0 = some emptyLink := by decide +kernel

def n5 : Nid := ⟨1, 0, 0, 5, 0⟩
def gen (k : Nat) : Gen := ⟨1, 2, k, .stream p8 q0⟩
def generating (k : Nat) : State := world idleA [] fun f => { f with gens := [(n5, gen k)] }
theorem test_wit_RecordsMove_gen : ∀ k ∈ [2, 40], (generating k).nodeAlive n5 = true ∧ Tab.get? (generating k).fab.gens n5 = some (gen k) := by
  intro k hk; fin_cases hk <;> exact ⟨by decide +kernel, by decide +kernel⟩
theorem test_wit_RecordsMove_gen_limit : (generating 2).genLimit (gen 2) = 16 ∧ ((generating 2).queue? p8).isSome ∧
    ((generating 2).queue? q0).isSome := by decide +kernel
theorem test_wit_RecordsMove_cfg : State.reset.running 1 = false ∧ (world idleA [] id).running 1 = true ∧
    (world idleA [] id).region? 1 = some region1 ∧ (world idleA [] id).fab.gens = [] ∧ cfgOk region1 (BitVec.ofNat 512 (3 * 2 ^ 24 + 2 ^ 56)) = true := by decide +kernel

def joined (cs : List Nat) : State := world idleA [] fun f => { f with
  joins := [(n5, ⟨cs, [.stream p8 q0], []⟩)], arcFlight := [(n5, 1, .null)] }
theorem test_wit_JoinsCountAndFire_arrive : ∀ c ∈ [65534, 65535], takeArc n5 1 (joined [0, c]).fab.arcFlight = some (.null, []) ∧
    (joined [0, c]).nodeAlive n5 = true ∧ Tab.get? (joined [0, c]).fab.joins n5 = some ⟨[0, c], [.stream p8 q0], []⟩ := by
  intro c hc; fin_cases hc <;> exact ⟨by decide +kernel, by decide +kernel, by decide +kernel⟩
theorem test_wit_JoinsCountAndFire_fire : (∃ c ∈ [1, 0], c = 0) ∧ ([1, 2] ≠ [] ∧ ∀ c ∈ [1, 2], 1 ≤ c) := by decide

/-- A window that joins two queues, with the first at a record. -/
def n0 : Nid := ⟨1, 0, 0, 0, 0⟩
def win (closed : Nat) : Window := ⟨.join false, 10, 1, [q0, p8], [0, 0], [false, false], some (.stream p8 q0), [], [], closed, false, false⟩
def windowed (r : Record) (closed : Nat) : State := world idleA [r] fun f => { f with windows := [(n0, win closed)] }
theorem test_wit_NodesTakeRecords_window : ∀ r ∈ [dataR, .token kWCLOSE, .token kEND, .token kDRAIN, .token kEOF, .token kSWAP],
    (windowed r 0).nodeAlive n0 = true ∧ (windowed r 0).head? q0 = some r ∧ Tab.get? (windowed r 0).fab.windows n0 = some (win 0) := by decide +kernel
theorem test_wit_NodesTakeRecords_late : dataR.time / 10 < 1 ∧ (win 0).closed ≤ dataR.time / 10 ∧ (win 0).used < (win 0).cap ∧
    Tab.get? (((windowed dataR 1).dequeue q0 1).progress 1).fab.windows n0 = some (win 1) := by decide +kernel
theorem test_wit_NodesTakeRecords_drain : ∃ p ∈ (win 0).ins, ((windowed (.token kDRAIN) 0).head? p).map (·.kind) ≠ some kDRAIN := by
  decide +kernel

/-- An aggregate whose window 0 holds `k` results without a key, before a record with one or without. -/
def aggWin (k : Nat) : Window := { win 0 with fn := .agg 0 true false, opens := [⟨0, List.replicate k (.empty none), []⟩] }
def aggregated (k : Nat) (kv : Bool) : State :=
  world idleA [{ dataR with kv := kv, key := 6 }] fun f => { f with windows := [(n0, aggWin k)] }
theorem test_wit_NodesTakeRecords_aggregate : ∀ kv : Bool, (aggregated 1 kv).nodeAlive n0 = true ∧
    (aggregated 1 kv).head? q0 = some { dataR with kv := kv, key := 6 } ∧
    Tab.get? (((aggregated 1 kv).dequeue q0 1).progress 1).fab.windows n0 = some (aggWin 1) ∧ (aggWin 1).closed ≤ dataR.time / 10 ∧
    (∃ g ∈ ((aggWin 1).openOf (dataR.time / 10)).slots, g.key = none) ∧ (∀ g ∈ ((aggWin 1).openOf (dataR.time / 10)).slots, g.key ≠ some 6) ∧
    (aggWin 1).used < (aggWin 1).cap ∧ (aggWin 256).cap ≤ (aggWin 256).used ∧
    (∀ g ∈ ((aggWin 256).openOf (dataR.time / 10)).slots, g.key ≠ some 6) ∧
    Tab.get? (((aggregated 256 true).dequeue q0 1).progress 1).fab.windows n0 = some (aggWin 256) := by decide +kernel
/-- A join's window whose records fill its banks. -/
def fullWin : Window := { win 0 with opens := [⟨0, [], List.replicate 170 ⟨0, dataR⟩⟩] }
theorem test_wit_NodesTakeRecords_full : fullWin.cap ≤ fullWin.used ∧
    Tab.get? (((world idleA [dataR] fun f => { f with windows := [(n0, fullWin)] }).dequeue q0 1).progress 1).fab.windows n0 = some fullWin := by
  decide +kernel
/-- Marks at 30 and 25 and no input ended: windows 0 and 1 close. -/
def marked (w : Window) : State := world idleA [] fun f => { f with windows := [(n0, { w with marks := [30, 25] })] }
theorem test_wit_NodesTakeRecords_close : ∀ w ∈ [win 0, aggWin 1], Tab.get? (marked w).fab.windows n0 = some { w with marks := [30, 25] } ∧
    ({ w with marks := [30, 25] } : Window).ended.all id = false ∧
    ({ w with marks := [30, 25] } : Window).closed ≤ [30, 25].foldl min 30 / 10 := by decide +kernel

/-- A sink with a log of 8 entries at VA 64, of which `wr` have been written and none read. -/
def loggedSink (wr : Nat) : Sink := ⟨q0, 64, 8, wr, 0, false, 0⟩
def logged (wr : Nat) : State :=
  let s := world idleA [] fun f => { f with sinks := [(n0, loggedSink wr)] }
  { s with ms := { s.ms with tlbDie := [(0, pages)] } }
theorem test_wit_NodesTakeRecords_log : (∀ wr ∈ [7, 8], (logged wr).nodeQuad n0 = (0, 0) ∧
      (match (logged wr).muRead 0 0 0 56 8 with | (_, .ok bs) => bytesNat bs == 0 | _ => false) = true) ∧
    (loggedSink 8).size ≤ (loggedSink 8).wr - 0 ∧ (loggedSink 7).wr - 0 < (loggedSink 7).size ∧
    (match (logged 7).muWrite 0 0 0 (64 + 32 * 7) (sinkEntry 0 0 dataR) with | (_, .ok _) => true | _ => false) = true := by decide +kernel

def logSink : Sink := ⟨q0, 0, 8, 0, 0, false, 0⟩
theorem test_wit_NodesTakeRecords_sink : ∀ r ∈ [dataR, { dataR with exc := true }, { dataR with weight := 0 }, .token 10],
    Tab.get? (world idleA [] fun f => { f with sinks := [(n0, logSink)], flight := [(q0, r)] }).fab.sinks n0 = some logSink ∧
    (world idleA [] fun f => { f with sinks := [(n0, logSink)], flight := [(q0, r)] }).nodeAlive n0 = true ∧
    takeFlight logSink.exit [(q0, r)] = some (r, []) := by decide +kernel

def noTile : Tile := ⟨0, [], [], []⟩
def n4 : Nid := ⟨1, 0, 0, 4, 0⟩
def me (p : Option Pass) : Me := ⟨act, noTile, noTile, false, [], fNone, [], 0, p, some q0, none, 0, 0⟩
def strA : Agent := { idleA with matrixQ := [.new 5 ⟨0xB4, 0, 0, 0, BitVec.ofNat 512 (2 ^ 49), 0, 0⟩ [] 1] }
theorem test_wit_NodesTakeRecords_me : ∀ r ∈ [.token kDRAIN, dataR], (world strA [r] fun f => { f with mes := [(n4, me none)] }).head? q0 = some r ∧
    (world strA [r] fun f => { f with mes := [(n4, me none)] }).nodeAlive n4 = true := by decide +kernel
theorem test_wit_NodesTakeRecords_pass : ((world strA [dataR] fun f => { f with mes := [(n4, me (some ⟨5, false, false, [], [], 0, none⟩))] }).cmd?
    act .matrix 5).isSome = true ∧ (PassDesc.of (2 ^ 49)).str = true := by decide +kernel
theorem test_wit_NodesTakeRecords_swap : (⟨5, false, false, [], [], 1, none⟩ : Pass).swaps ≠ 0 ∧ (⟨5, false, false, [], [], 1, none⟩ : Pass).buffer = [] ∧
    (⟨5, false, false, [dataR], [], 1, none⟩ : Pass).buffer ≠ [] ∧ (world strA [.token kSWAP] id).head? q0 = some (.token kSWAP) := by decide +kernel

/-! ### Witnesses: engines, barriers and requests -/

def cmd (n op : Nat) : Cmd := .new n ⟨op, 0, 0, 0, 0, 0, 0⟩ [] 1
def engineA (m n : List Cmd) : Agent := { idleA with matrixQ := m, needleQ := n }
def engined (m n : List Cmd) : State := world (engineA m n) [] fun f => { f with mes := [(n4, me none)] }

theorem test_wit_EnginesAndBarriers_start : firstUnstarted [] ((engineA [cmd 5 0xB6] []).engineQ .matrix) = some (cmd 5 0xB6, []) ∧
    (engined [cmd 5 0xB6] []).nextStart act (engineA [cmd 5 0xB6] []) .matrix = some (cmd 5 0xB6) ∧
    (engined [cmd 5 0xB6] []).agentAlive act = true ∧ (cmd 5 0xB6).cancelled = false ∧ (engined [cmd 5 0xB6] []).meOf act = some (n4, me none) ∧
    (engined [] []).nextStart act (engineA [{ cmd 4 0xB6 with started := true }, cmd 5 0xB6] []) .matrix = none := by decide +kernel
theorem test_wit_EnginesAndBarriers_pass : (engineA [cmd 4 0xB3, cmd 5 0xB4] []).matrixQ = [cmd 4 0xB3, cmd 5 0xB4] ∧
    (cmd 4 0xB3).loadsWl = true ∧ ((engined [] []).updMe n4 fun m => { m with full := true }).startable act
      (engineA [cmd 4 0xB3, cmd 5 0xB4] []) .matrix (cmd 4 0xB3) [] = false := by decide +kernel
/-- A load of a tile that a `cpyx` links to copy 3, which has not ended. -/
theorem test_wit_EnginesAndBarriers_linked : (engined [] []).startable act
      { engineA [{ cmd 4 0xB3 with link := some 3, linked := true }, cmd 5 0xB4] [] with copyQ := [cmd 3 0xB0] } .matrix { cmd 4 0xB3 with link := some 3, linked := true } [] = false ∧
    (cmd 5 0xB4).link = none := by decide +kernel
theorem test_wit_EnginesAndBarriers_done : (((engineA [{ cmd 5 0xB6 with result := some 3 }] []).engineQ .matrix).find? fun c => c.result.isSome) =
      some { cmd 5 0xB6 with result := some 3 } ∧
    (((engineA [] [{ cmd 6 0xC7 with result := some 3 }]).engineQ .needle).find? fun c => c.result.isSome) =
      some { cmd 6 0xC7 with result := some 3 } := by decide +kernel

theorem test_wit_EnginesAndBarriers_cancelled : ({ cmd 4 0xB3 with cancelled := true } : Cmd).loadsWl = true ∧
    ({ cmd 4 0xB3 with cancelled := true } : Cmd).link = none := by decide +kernel

def barW (kind : Nat) (gen : Option Nat) (after : List Nat) : BarWait := ⟨7, act, kind, 2 * 2 ^ 16 + 2 ^ 12 + 5, gen, after, 0, false⟩
/-- An arrival at an entry, beside a request that has not been performed. -/
def waitsAt (w : BarWait) (e : Barrier) : State :=
  let s := world idleA [] fun f => { f with waits := [w] }
  let t := s.updFab fun f => { f with barriers := [(s.barKey w, e)] }
  { t with ms := { t.ms with reqs := [⟨8, act, 0, 0, .read false, ⟨0, 0, 0, 4, none⟩, [⟨0, 4, 0⟩], [], .none, none, none, [], none, .none⟩] } }
def waits (w : BarWait) (g : Nat) : State := waitsAt w ⟨0, g, 2, none, 0, 0⟩
/-- An arrival of three, or of two. -/
def barN (n : Nat) : BarWait := { barW 0 none [] with word := n * 2 ^ 16 + 2 ^ 12 + 5 }

theorem test_wit_EnginesAndBarriers_barrier : (waits (barW 0 none []) 0).fab.waits = [barW 0 none []] ∧
    (waits (barW 0 none []) 0).agent? act = some idleA ∧ ((waits (barW 0 none []) 0).barKey (barW 0 none [])).1 ≠ podInstance ∧ bitsAt (barW 0 none []).word 16 16 = 2 ∧
    ((waits (barW 0 none []) 0).barrier ((waits (barW 0 none []) 0).barKey (barW 0 none []))).count = 0 ∧
    (waits (barW 0 none [8]) 0).performed 8 = false ∧ genDone 4 3 = true ∧ genDone 3 3 = false ∧
    ((waits (barW 2 (some 3) []) 4).barrier ((waits (barW 2 (some 3) []) 4).barKey (barW 2 (some 3) []))).gen = 4 := by decide +kernel
theorem test_wit_EnginesAndBarriers_counts : ∀ e ∈ [(3, (⟨1, 0, 3, some 0, 0, 0⟩ : Barrier)), (2, ⟨1, 0, 2, some 0, 0, 0⟩), (2, ⟨1, 0, 2, some 1, 0, 0⟩)],
    (waitsAt (barN e.1) e.2).fab.waits = [barN e.1] ∧ (waitsAt (barN e.1) e.2).agent? act = some idleA ∧ idleA.ctx = 0 ∧
    ((waitsAt (barN e.1) e.2).barKey (barN e.1)).1 ≠ podInstance ∧
    (waitsAt (barN e.1) e.2).barrier ((waitsAt (barN e.1) e.2).barKey (barN e.1)) = e.2 ∧ bitsAt (barN e.1).word 16 16 = e.1 := by
  intro e he; fin_cases he <;> exact ⟨by decide +kernel, by decide +kernel, by decide +kernel, by decide +kernel, by decide +kernel, by decide +kernel⟩
def podW : BarWait := ⟨7, act, 0, 4 * 2 ^ 12 + 9, some 3, [], 0, false⟩
/-- A pod barrier homed here, or on another package of two. -/
def podBar (count : Nat) : State :=
  let s := waits { podW with gen := none } 3
  { s with out := { s.out with pod := { s.out.pod with count := count } } }
theorem test_wit_EnginesAndBarriers_home : (podBar 1).barHome 9 = (podBar 1).out.pod.index ∧ (podBar 2).barHome 9 ≠ (podBar 2).out.pod.index ∧
    ((podBar 2).barKey podW).1 = podInstance ∧ (podBar 2).fab.waits = [{ podW with gen := none }] ∧ (podBar 2).agent? act = some idleA := by decide +kernel
theorem test_wit_EnginesAndBarriers_podArrival : (podBar 1).barHome (bitsAt (2 * 2 ^ 16 + 9) 0 12) = (podBar 1).out.pod.index ∧
    ((podBar 1).barrier (podInstance, 9)).count = 0 ∧ bitsAt (2 * 2 ^ 16 + 9) 16 16 = 2 ∧
    ((podBar 1).updFab fun f => { f with barriers := [((podInstance, 9), ⟨1, 0, 3, some 5, 0, 0⟩)] }).barrier (podInstance, 9) = ⟨1, 0, 3, some 5, 0, 0⟩ := by
  decide +kernel
theorem test_wit_EnginesAndBarriers_pod : (waits podW 3).fab.waits = [podW] ∧ (waits podW 3).barKey podW = (4 * 2 ^ 20, 9 % 2 ^ 12) ∧
    (waits (barW 0 none []) 3).barKey (barW 0 none []) ≠ (4 * 2 ^ 20, 9 % 2 ^ 12) := by decide +kernel

/-- A request of a kind, and another that has not been performed. -/
def req (k : ReqKind) (after : List Nat) (o : Option Nat) : Req :=
  ⟨8, act, 0, 0, k, ⟨64, 64, 0, 8, none⟩, [⟨0, 8, 255⟩], after, .reg act 5 7 64, o, none, [], none, .none⟩
def reqs (rs : List Req) (mem : List Host.Cell) : State :=
  let s := world idleA [] id
  { s with ms := { s.ms with reqs := rs, mem := mem } }
/-- The tags of the actor's MU are all held by other requests. -/
def tagless (s : State) : State :=
  { s with ms := { s.ms with tags := [(muNumber 0 0 0, List.replicate 256 ⟨99, 0, false⟩)] } }
/-- A migration of partition 0 between two pages. -/
def moving (old new : Nat) (s : State) : State := s.updPartition 0 fun x => { x with migrun := some (0, old, new), migdone := false }
/-- Every die but the actor's is in partition 3. -/
def partedFrom (s : State) : State := { s with sched := { s.sched with nbr := (List.range 63).map fun k => (k + 1, 3) } }
/-- A read of an IO page for VF 3, whose limiter is empty. -/
def limitedRead : State :=
  let s := reqs [] []
  { s with
    sched := { s.sched with contexts := [(0, { Context.reset with live := true, vfv := true, vf := 3 })] }
    out := { s.out with vfs := [(3, { Vf.reset with rate := 5 })] } }

theorem test_wit_RequestsArePerformed_request : ∀ k ∈ [ReqKind.read true, .write false, .rmw .add 7 64],
    (reqs [req k [] none] []).ms.reqs.find? (fun q => q.id == 8) = some (req k [] none) ∧
    (reqs [req k [8] none] []).performed 8 = false ∧ (reqs [req k [] none] []).maySend (req k [] none) = true ∧
    k ≠ .engine ∧ (req k [] none).isLkwait = false ∧ (reqs [req k [] none] []).movingAt (req k [] none).acc = .still ∧
    (moving 0 (2 ^ 16) (reqs [req k [] none] [])).movingAt (req k [] none).acc = .moving ∧
    (moving (2 ^ 16) 0 (reqs [req k [] none] [])).movingAt (req k [] none).acc = .arriving := by
  intro k hk
  fin_cases hk <;> refine ⟨?_, ?_, ?_, ?_, ?_, ?_, ?_, ?_⟩ <;> decide +kernel
/-- A request has its tag or none is free, and its home is in its die's partition or not. -/
def far : Req := req (.read false) [] none
theorem test_wit_RequestsArePerformed_tags : (let u := (reqs [far] []).tagUpTo far
      u.tagHeld (u.reqMu far) 8 0 = true ∧ u.refusedBy far = none) ∧
    (let u := (tagless (reqs [far, { far with id := 99 }] [])).tagUpTo far
     u.tagHeld (u.reqMu far) 8 0 = false) ∧
    (let u := (partedFrom (reqs [far] [])).tagUpTo far
     u.tagHeld (u.reqMu far) 8 0 = true ∧ (u.refusedBy far).isSome = true) ∧
    limitedRead.maySend { far with acc := ⟨2 ^ 20, 2 ^ 20, 2, 8, none⟩ } = false := by
  refine ⟨?_, ?_, ?_, ?_⟩ <;> decide +kernel
theorem test_wit_RequestsArePerformed_read :
    ((reqs [] []).readAccess (.agent act) 0 ((req (.read true) [] none).part 0 8) true).2.2 = false ∧
    ({ reqs [] [] with ms := { State.reset.ms with ue := [1] } }.readAccess (.agent act) 0 ((req (.read true) [] none).part 0 8) true).2.2 = true := by
  decide +kernel
theorem test_wit_RequestsArePerformed_write : ∀ mt ∈ [0, 1, 3],
    ((reqs [] []).writeEnabled (.agent act) 0 ⟨64, 64, mt, 64, none⟩ (natBytes 64 8) 0b10111 false).2 = true := by decide +kernel
theorem test_wit_RequestsArePerformed_write_ue : ({ reqs [] [] with ms := { (reqs [] []).ms with ue := [1] } }.writeEnabled (.agent act) 0
      ((req (.write false) [] none).part 0 64) (natBytes 64 8) 255 false).2 = false ∧
    Memory.wf (reqs [] []).ms.mem = true ∧ Memory.wf (reqs [] []).ms.scratch = true ∧ 64 % 64 + (natBytes 64 8).length ≤ 64 ∧
    (reqs [] []).fab.stashes = [] ∧ (∀ o n, (reqs [] []).stashOf (.agent act) (Access.part ⟨64, 64, 0, 64, none⟩ o n) false = none) ∧
    ({ req (.write false) [] none with acc := ⟨64, 64, 2, 8, none⟩ } : Req).acc.mt = 2 := by
  refine ⟨by decide +kernel, by decide +kernel, by decide +kernel, by decide +kernel, by decide +kernel, fun o n => ?_, rfl⟩
  have h : (reqs [] []).fab.stashes = [] := by decide +kernel
  simp only [State.stashOf, State.stashFor, h, List.find?_nil]
  split
  · simp only [Issuer.aid?, Option.bind_some]
    split <;> rfl
  · rfl
theorem test_wit_RequestsArePerformed_rmw : ((reqs [] [(64, 5)]).rmwAccess (.agent act) 0 ((req (.read true) [] none).part 0 8)
    fun old => rmwNew .add 64 1 0 (holderForm 0 0) old).2 = some 5 := by decide +kernel
theorem test_wit_RequestsArePerformed_finish : (req (.read true) [] none).kind = .read true ∧ ({ req (.rmw .add 7 64) [] none with got := [(5, [])] } : Req).got = [(5, [])] ∧
    (req (.write false) [] none).acc.mt ≠ 2 ∧ (req (.write false) [] none).failed = none ∧
    ({ req (.rmw .add 7 64) [] none with failed := some (0, 64) } : Req).failed ≠ none := by decide +kernel
theorem test_wit_RequestsArePerformed_compare : sint 64 (2 ^ 64 - 1) < sint 64 0 ∧ sint 64 0 < sint 64 (2 ^ 63 - 1) := by decide

/-- A load that waits for one or two answers, and an answer of an incarnation, with or without an error. -/
def loadOf (waiting : List Nat) : LoadOp :=
  ⟨3, act, 1, ((Instr.ld ⟨0, 0x1FF, 1, 0, 7, 0, 0, 0, 0, 0, none⟩).ins?.getD (F0.ins 0x90 ⟨0, 0, 0, 0⟩)), 0, [], List.replicate 8 0, waiting, waiting, none⟩
def reply (a : Aid) (inc : Nat) (bad : Option (Nat × Nat)) : Reply := ⟨8, a, inc, .load act 3, [(0, [1, 2, 3, 4])], bad, none, 0, 0⟩
def answered (w : List Nat) (r : Reply) : State :=
  let s := world idleA [] id
  { s with ms := { s.ms with replies := [r], loads := [loadOf w] } }

theorem test_wit_RequestsArePerformed_reply : (answered [8] (reply (.actor 2 0 0 0 0) 0 none)).agent? (.actor 2 0 0 0 0) = none ∧
    (answered [8] (reply act 0 none)).agent? act = some idleA ∧ (answered [8] (reply act 0 none)).agentAlive act = true ∧
    (answered [8] (reply act 1 none)).incOf act idleA ≠ (reply act 1 none).inc ∧ (answered [8] (reply act 0 none)).incOf act idleA = (reply act 0 none).inc ∧
    (answered [8] (reply act 0 none)).tagHeld none 8 0 = true ∧ (answered [8] (reply act 0 none)).tagHeld (some 5) 8 0 = false ∧
    ((loadOf [8]).take (reply act 0 none)).waiting = [] ∧ ((loadOf [8]).take (reply act 0 none)).failed = none ∧
    ((loadOf [8, 9]).take (reply act 0 none)).waiting ≠ [] ∧ ((loadOf [8]).take (reply act 0 (some (1, 65)))).failed = some (1, 65) := by decide +kernel

def lockReq : Req := req (.rmw .lkwait 7 64) [] (some 2)
theorem test_wit_RequestsArePerformed_lkwait : (reqs [lockReq] []).ms.reqs.find? (fun q => q.id == 8 && q.isLkwait) = some lockReq ∧
    (reqs [lockReq] []).peekWord 64 = 0 ∧ (reqs [lockReq] []).accessUe lockReq.acc = false ∧
    (reqs [lockReq] []).movingAt lockReq.acc = .still ∧ (∀ q ∈ (reqs [lockReq] []).ms.reqs, ∀ k ∈ q.waitOrder, 2 ≤ k) ∧
    (reqs [lockReq] [(71, 0x80)]).peekWord 64 ≠ 0 ∧ (reqs [lockReq] [(71, 0x80)]).holderDead ((reqs [lockReq] [(71, 0x80)]).peekWord 64) = false ∧
    ((reqs [lockReq] [(64, 7), (71, 0x80)]).peekWord 64).testBit 63 = true ∧
    (reqs [lockReq] [(64, 7), (71, 0x80)]).holderDead ((reqs [lockReq] [(64, 7), (71, 0x80)]).peekWord 64) = true := by
  decide +kernel

/-- A dirty line whose lease ends at 4, held by the actor at a timestamp. -/
def dirtyLine : StashLine := ⟨1, 64, 0, List.replicate 64 9, true, true, 0, 4, some (act, none), false⟩
def stashed (pts : Nat) : State := world { idleA with pts := pts } [] fun f => { f with stashes := [(⟨1, 0, 0, 2, 0⟩, ⟨0, 16, true, [dirtyLine]⟩)] }
theorem test_wit_RequestsArePerformed_stash : (stashed 4).stashOf (.agent act) ⟨64, 64, 0, 8, none⟩ false = some ⟨1, 0, 0, 2, 0⟩ ∧
    Tab.get? (stashed 4).fab.stashes ⟨1, 0, 0, 2, 0⟩ = some ⟨0, 16, true, [dirtyLine]⟩ ∧ (dirtyLine.holds 64 && dirtyLine.owned) = true ∧
    dirtyLine.bad = false ∧ dirtyLine.data.length = 64 ∧ Memory.wf (stashed 4).ms.mem = true := by decide +kernel
theorem test_wit_RequestsArePerformed_readAccess : (reqs [] []).accessUe ⟨64, 64, 0, 8, none⟩ = false ∧
    (reqs [] []).stashOf (.agent act) ⟨64, 64, 0, 8, none⟩ false = none := by decide +kernel
theorem test_wit_RequestsArePerformed_lease : dirtyLine.lease < (stashed 5).ptsOf (holderIssuer (act, none)) ∧
    (stashed 4).ptsOf (holderIssuer (act, none)) ≤ dirtyLine.lease ∧
    ((stashed 4).fab.stashes.map fun e => e.2.lines.find? fun l => l.pa == 1 && l.dirty) = [some dirtyLine] := by decide +kernel
theorem test_wit_RequestsArePerformed_rebase : (world idleA [] id).agentIn 0 (act, idleA) = true ∧ (world idleA [] id).agentIn 1 (act, idleA) = false ∧
    State.reset.lineIn 0 5 = true ∧ State.reset.lineIn 1 5 = false := by decide +kernel
theorem test_wit_RequestsArePerformed_walk : (lookupCache (Tab.getD spilled.ms.tlbDie 0 []) 0 0).isSome = true ∧
    lookupCache (Tab.getD State.reset.ms.tlbDie 0 []) 0 0 = none := by decide +kernel

/-! ### Witnesses: launches, regions and contexts -/

theorem test_wit_LaunchesRun_tail : 2 ^ (State.reset.lq 0).lsize < wrap 32 (Int.ofNat ((2 : BitVec 64).toNat % 2 ^ 32) - (State.reset.lq 0).done) ∧
    wrap 32 (Int.ofNat ((1 : BitVec 64).toNat % 2 ^ 32) - (State.reset.lq 0).done) ≤ 2 ^ (State.reset.lq 0).lsize := by decide +kernel

/-- Queue 0 with one descriptor at its head: one quad, and `k` dependences on its own first launch. -/
def queued (k : Byte) (stage : Nat) : State :=
  let s := State.reset
  { s with
    ms := { s.ms with tlbDie := [(0, pages)], mem := [(8, 1), (10, 1)] ++ if k = 0 then [] else [(13, k)] }
    sched := { s.sched with lqs := [(0, { Lq.reset with en := true, tail := 1, dies := 1 })], contexts := [(0, { Context.reset with live := true })] }
    out := { s.out with stage := stage } }
def headOf (s : State) : State × Except (Nat × Nat) (List Byte) := s.muRead 0 0x1FF 0 0 192
def descOf (s : State) : Descriptor := match (headOf s).2 with
  | .ok bs => .of bs
  | .error _ => .of []

theorem test_wit_LaunchesRun_disabled : (State.reset.lq 0).en = false := rfl
theorem test_wit_LaunchesRun_admit : (queued 0 3).mayAdmit 0 = true ∧ (queued 0 3).assisted ((queued 0 3).lqPart 0) 0 = false ∧
    (descOf (queued 0 3)).ok (headOf (queued 0 3)).1 ((queued 0 3).lqPart 0) = true ∧ (descOf (queued 0 3)).needs = [] ∧
    (descOf (queued 0 3)).flags.testBit 3 = false ∧ (queued 0 3).out.stage = 3 ∧
    shapeFits ((headOf (queued 0 3)).1.lqDies 0) (descOf (queued 0 3)).height (descOf (queued 0 3)).width = true := by decide +kernel
theorem test_wit_LaunchesRun_stage : (queued 0 2).mayAdmit 0 = true ∧ (descOf (queued 0 2)).ok (headOf (queued 0 2)).1 ((queued 0 2).lqPart 0) = true ∧
    (queued 0 2).out.stage < 3 := by decide +kernel
/-- A die of row 0 has lost more than its spare quads, in stage S1 (26 R453). -/
theorem test_wit_LaunchesRun_rowZero : (let s := queued 0 1
    ({ s with out := { s.out with rfail := true, ras := [(7, { RasDie.reset with repair := List.range 11 })] } } : State).rowZeroFails) = true ∧
    (queued 0 3).rowZeroFails = false := by decide +kernel
theorem test_wit_LaunchesRun_unmet : (descOf (queued 1 3)).ok (headOf (queued 1 3)).1 ((queued 1 3).lqPart 0) = true ∧
    ∃ x ∈ (descOf (queued 1 3)).needs, (queued 1 3).depMet x = false := by decide +kernel

theorem test_wit_LaunchesRun_asked : ({ queued 0 3 with sched := { (queued 0 3).sched with assists := [⟨0, 1, 0, 0, 0, 0, []⟩] } } : State).asked 0 0
    ((queued 0 3).lq 0).head = true ∧ (queued 0 3).asked 0 0 ((queued 0 3).lq 0).head = false := by decide +kernel
/-- Launch 1 not started, at a tick. -/
def unstarted (t : Option Nat) : State :=
  let s := world idleA [] id
  { s with sched := { s.sched with launches := [(1, { launch1 with started := false, startTick := t })] } }
theorem test_wit_LaunchesRun_start : ((unstarted (some 101)).launch? 1).map (·.startTick) = some (some 101) ∧ (unstarted (some 101)).clk.tick < 101 ∧
    ((unstarted (some 100)).launch? 1).map (·.startTick) = some (some 100) ∧ 100 ≤ (unstarted (some 100)).clk.tick ∧
    (∀ e ∈ (unstarted (some 100)).agents, inRid 1 e.1 = true → e.2.pace = none) ∧
    ((unstarted none).launch? 1).map (fun l => (l.state, l.started, l.startTick)) = some (.running, false, none) ∧
    pacedA.pace = some 4 ∧ inRid 1 act = true := by decide +kernel
theorem test_wit_LaunchesRun_complete : (world idleA [] id).launch? 1 = some launch1 ∧ (world idleA [] id).region? 1 = some region1 ∧
    launch1.state = .running ∧ launch1.started = true ∧ region1.op = .none ∧ (world idleA [] id).quiescent 1 = true ∧
    (world idleA [dataR] id).quiescent 1 = false := by decide +kernel

/-- Context 1 has a floor and a launch that waits for the whole device, where launch 1 of context 0 holds a quad. -/
def starving (op : RegionOp) (tick : Nat) : State :=
  let s := world idleA [] id
  { s with
    clk := { s.clk with tick := tick }
    sched := { s.sched with
      lqs := [(1, { Lq.reset with en := true, ctx := 1, dies := 0xFFFFFFFFFFFFFFFF })]
      launches := [(1, launch1), (ridOf 1 0, { launch1 with state := .waiting, height := 128, width := 160, ctx := 1, started := false })]
      regions := [(1, { region1 with op := op })]
      contexts := [(0, { Context.reset with live := true }), (1, { Context.reset with live := true, sharemin := 4 })]
      credits := [((0, 1), ⟨0, 0, some 10, none⟩)] } }
theorem test_wit_LaunchesRun_floor : ((starving .none 6759).credit 0 1).floorSince = some 10 ∧ (starving .none 6759).starves 0 1 = true ∧
    ((starving .none 6759).schedcfg 0).2 = 6750 ∧ (starving .none 6759).clk.tick < 10 + 6750 := by decide +kernel
theorem test_wit_LaunchesRun_victim : 10 + 6750 ≤ (starving .none 6760).clk.tick ∧ ((starving .none 6760).victim 0 1).map Prod.fst = some 1 ∧
    (starving .none 6760).assisted ((starving .none 6760).partOf 0) 2 = false ∧ (starving .none 6760).starves 0 1 = true ∧
    (starving .none 6760).sched.assists = [] := by decide +kernel
theorem test_wit_LaunchesRun_novictim : (starving (.drain 9 .software none) 6760).victim 0 1 = none ∧
    (starving (.drain 9 .software none) 6760).starves 0 1 = true := by decide +kernel

/-- A request to the host of a function. -/
def askedHost (s : State) (fn : Nat) : State := { s with sched := { s.sched with assists := [⟨0, 2, fn, 0, 0, 0, [9]⟩] } }
theorem test_wit_LaunchesRun_answer : (∀ fn ∈ [0, 2], ((askedHost (queued 0 3) fn).sched.assists.find? fun b => b.p == 0 && b.slot == 2).map (·.fn) =
      some fn ∧ (askedHost (queued 0 3) fn).swapping = false) ∧ (askedHost (queued 0 3) 0).mayAdmit 0 = true ∧
    ((askedHost (queued 0 3) 0).lq 0).head = 0 := by
  refine ⟨?_, by decide +kernel, by decide +kernel⟩
  intro fn hf; fin_cases hf <;> exact ⟨by decide +kernel, by decide +kernel⟩
theorem test_wit_LaunchesRun_answer_victim : ridOf 0 1 = 1 ∧ (askedHost (world idleA [] id) 2).region? 1 = some region1 ∧
    (askedHost (world idleA [] id) 2).running 1 = true ∧ region1.op = .none ∧ (askedHost (world idleA [] id) 2).partOf region1.ctx = 0 := by
  decide +kernel

/-- Launch 1 in a change. -/
def changing (op : RegionOp) (tick cycle : Nat) (g : Agent) (fl : List (Qid × Record)) : State :=
  let s := world g [] fun f => { f with flight := fl }
  { s with clk := { s.clk with tick := tick, cycle := cycle }, sched := { s.sched with regions := [(1, { region1 with op := op })] } }
def drainOp : RegionOp := .drain 50 .software (some (.thread 0 0, 3, 8))
def freezeOp : RegionOp := .freeze 50 (some (.thread 0 0, 3, 8)) false
theorem test_wit_RegionsAndContextsChange_drain : ((changing drainOp 49 0 idleA []).region? 1).map (·.op) = some drainOp ∧
    (changing drainOp 49 0 idleA []).running 1 = true ∧ (changing drainOp 49 0 idleA []).drained 1 region1 = true ∧
    (changing drainOp 49 0 idleA []).settled 1 = true ∧ (changing drainOp 49 0 { idleA with copyQ := [{ cmd 3 0xB0 with started := true }] } []).drained 1 region1 = false ∧
    (changing drainOp 49 0 idleA []).clk.tick < 50 ∧ 50 ≤ (changing drainOp 50 3 idleA []).clk.tick ∧
    (changing drainOp 50 3 idleA []).tickEnds = true ∧ (changing drainOp 50 2 idleA []).tickEnds = false := by decide +kernel
theorem test_wit_RegionsAndContextsChange_drain_allocator :
    ((changing (.drain 50 .allocator none) 50 3 idleA []).region? 1).map (·.op) = some (.drain 50 .allocator none) ∧
    (changing (.drain 50 .allocator none) 50 3 idleA []).tickEnds = true := by decide +kernel
theorem test_wit_RegionsAndContextsChange_freeze : ((changing freezeOp 0 99 idleA []).region? 1).map (·.op) = some freezeOp ∧
    (changing freezeOp 0 99 idleA []).clk.dieCycle 0 < 50 + (region1.height - 1) + (region1.width - 1) ∧
    50 + (region1.height - 1) + (region1.width - 1) ≤ (changing freezeOp 0 100 idleA []).clk.dieCycle 0 ∧
    (changing freezeOp 0 100 idleA []).settled 1 = true ∧ (changing freezeOp 0 100 idleA [(q0, dataR)]).settled 1 = false := by decide +kernel
theorem test_wit_RegionsAndContextsChange_kill : (0 : BitVec 64).getLsbD 0 = false ∧ (1 : BitVec 64).getLsbD 0 = true ∧
    (∀ e ∈ (world idleA [] id).sched.regions, e.2.ctx ≠ 1) ∧ (world idleA [] id).sched.calls = [] ∧
    (world idleA [] id).killsDone 1 = true ∧ ({ world idleA [] id with sched := { (world idleA [] id).sched with kills := [1] } } : State).killsDone 0 = false := by
  decide +kernel
/-- A posted write of context 0 that has not been acknowledged, or nothing at all, when `CTXPT` of context 0 is written. -/
theorem test_wit_RegionsAndContextsChange_ctxpt : (let s : State := { State.reset with ms := { State.reset.ms with
        ioWrites := [⟨9, none, 0, none, 0, [0], true, none, [], none, 1⟩] } }
    s.sched.sysWaits = [] ∧ ∃ w ∈ s.ms.ioWrites, w.ctx = 0 ∧ s.performed w.id = false) ∧
    State.reset.sched.sysWaits = [] ∧ State.reset.ms.reqs = [] ∧ State.reset.ms.ioWrites = [] ∧ (∀ e ∈ State.reset.agents, e.2.ctx ≠ 0) ∧
    (∀ e ∈ State.reset.out.requesters, e.2.items = []) ∧ Tab.get? State.reset.out.shots State.reset.nextId = none := by decide +kernel
/-- Launch 1 runs, is in memory, is completed, or has no region. -/
def lived (st : LState) : State :=
  let s := world idleA [] id
  { s with sched := { s.sched with launches := [(1, { launch1 with state := st })] } }
theorem test_wit_RegionsAndContextsChange_regionOp : (lived .running).region? 1 = some region1 ∧ (lived .running).frozen 1 = false ∧
    ((lived .running).launch? 1).map (·.state) = some .running ∧ ((lived .exported).launch? 1).map (·.state) = some .exported ∧
    ((lived .completed).launch? 1).map (·.state) = some .completed ∧ (lived .running).region? 2 = none ∧ (2 : Nat) ≠ 1 := by decide +kernel
theorem test_wit_RegionsAndContextsChange_pchg : State.reset.sched.pchg.done = true ∧
    ({ State.reset with sched := { State.reset.sched with pchg := ⟨false, 0, 0⟩ } } : State).sched.pchg.done = false ∧
    contiguous (pchgRows 0x0001000100000001 1) = false ∧ contiguous (pchgRows 0x0101010100000000 1) = true ∧
    (∀ p < 8, contiguous (pchgRows 0x0101010100000000 p) = true) ∧ State.reset.notIdle [0] (List.range 64) = none ∧
    (queued 0 3).notIdle [0] (List.range 64) = some 0 := by decide +kernel
theorem test_partition_change : (State.reset.pchg 0x0101010100000000).readCr 0xE0008 = 3 ∧
    ((State.reset.pchg 0x0101010100000000).pchgRest).readCr 0xE0008 = 0x01000000 ∧
    ((State.reset.pchg 0x0101010100000000).pchgRest).readCr 0xC0100 = 0x803C := by decide +kernel
def migrating (old new : Nat) (done : Bool) : State := State.reset.updPartition 0 fun x => { x with migold := old, mignew := new, migdone := done }
theorem test_wit_RegionsAndContextsChange_migration : (0x8000000000000000 : BitVec 64).getLsbD 63 = true ∧
    (0x7FFFFFFFFFFFFFFF : BitVec 64).getLsbD 63 = false ∧ ((migrating 0 (2 ^ 16) true).partition 0).migdone = true ∧
    ((migrating 0 (2 ^ 16) true).partition 0).migva % 2 ^ 16 = 0 ∧ (migrating 0 (2 ^ 16) true).ms.reqs = [] ∧
    ((migrating 0 (2 ^ 16) false).partition 0).migdone = false ∧
    8 * 2 ^ 37 ≤ ((migrating 0 (2 ^ 40) true).partition 0).mignew ∧ ((migrating 0 (2 ^ 40 - 2 ^ 16) true).partition 0).mignew < 8 * 2 ^ 37 ∧
    ((migrating 0 (2 ^ 40) true).partition 0).rows.length = 8 ∧ (migrating 0 0 true).partition 0 = (migrating 0 0 true).partition 0 ∧
    (((migrating 0 (2 ^ 16) true).migrate 0 (2 ^ 63 + 5)).partition 0).migrun = some (0, 0, 2 ^ 16) ∧
    State.reset.fab.stashes = [] ∧ Memory.wf State.reset.ms.mem = true := by decide +kernel

/-! ### Witnesses: the host -/

def heldBy (q : Nat) (is : List IopItem) : State :=
  let s := State.reset
  { s with out := { s.out with requesters := [(q, ⟨is, []⟩)] } }
def lineAt (pa : Nat) : Access := ⟨pa, pa, 0, 4, none⟩
def wr (route : Nat) (sent : Bool) : IopItem := .write (lineAt 64) 0 [1, 2, 3, 4] route sent

theorem test_wit_HostAccesses_registers : (State.reset.requester 257).items = [] ∧ (0xFFFFF : Nat) < 0x100000 ∧ (State.reset.vf 255).rate = 0 ∧
    (State.reset.requester 256).items = [] ∧ State.reset.boundCtx 255 = none ∧ (heldBy 257 [wr 0 false]).requester 257 = ⟨[wr 0 false], []⟩ ∧
    (heldBy 256 [wr 0 false]).requester 256 = ⟨[wr 0 false], []⟩ ∧ (heldBy 256 [wr 0 false]).vf 255 = Vf.reset ∧
    ({ State.reset with out := { State.reset.out with vfs := [(255, { Vf.reset with rate := 5 })] } } : State).vf 255 ≠ Vf.reset := by
  refine ⟨?_, ?_, ?_, ?_, ?_, ?_, ?_, ?_, ?_⟩ <;> decide +kernel
theorem test_wit_HostAccesses_ranges : (2 ^ 36 - 1 : Nat) < 2 ^ 36 ∧ (255 : Nat) < 256 ∧ (1023 : Nat) < 1024 ∧
    (0xFFFFFFFFFF : BitVec 64).toNat < 2 ^ 40 ∧ (0x1FFFFF : Nat) = 0x100000 + 4096 * 255 + 4095 ∧ (7 : Nat) < 8 ∧ (8 : Nat) ≤ 8 ∧
    Reg.at 0xE0000 ≠ some (.cqNotify 0 0) := by refine ⟨?_, ?_, ?_, ?_, ?_, ?_, ?_, ?_⟩ <;> decide +kernel
theorem test_wit_HostAccesses_send : ((heldBy 5 [wr 0 false, wr 1 false]).requester 5).items = wr 0 false :: [wr 1 false] ∧
    (∀ r ∈ [0, 1], ((heldBy 5 [wr 0 true, wr r false]).requester 5).items = wr 0 true :: wr r false :: []) ∧ (1 : Nat) ≠ 0 := by
  refine ⟨rfl, ?_, by decide⟩
  intro r _; rfl
theorem test_wit_HostAccesses_change : (heldBy 5 [wr 0 false]).changing (memPart 64) = false ∧
    ((heldBy 5 [wr 0 false]).pchg 0x0101010100000000).changing (memPart 64) = true ∧ Reg.at 0xE0000 = some .pchg := by
  refine ⟨?_, ?_, ?_⟩ <;> decide +kernel
/-- A requester of a context whose root is valid, with a page of VA 0 in the caches of the IOP's die. -/
def mapped (q : Nat) (is : List IopItem) : State :=
  let s := heldBy q is
  { s with ms := { s.ms with tlbDie := [(0, pages)] } }
theorem test_wit_HostAccesses_translate : ((mapped 1024 [.raw none 0 64 [1, 2]]).requester 1024).items = .raw none 0 64 [1, 2] :: [] ∧
    (match (mapped 1024 []).iopAccess 0 64 2 true with | (_, .ok xs) => xs != [] | _ => false) = true ∧
    (match (mapped 1024 []).iopAccess 0 (2 ^ 45) 2 true with | (_, .error _) => true | _ => false) = true ∧
    (match (mapped 1024 []).iopAccess 0 (2 ^ 45) 2 false with | (_, .error _) => true | _ => false) = true := by
  refine ⟨rfl, ?_, ?_, ?_⟩ <;> decide +kernel
theorem test_wit_HostAccesses_reading : ((mapped 5 [.reading 0 [lineAt 64] [] false]).requester 5).items = .reading 0 (lineAt 64 :: []) [] false :: [] ∧
    (match (mapped 5 []).iopAccess 0 64 4 false with | (u, .ok (x :: _)) => u.movingAt x == .still &&
      ((u.readAccess (.route (u.iopOf 5) (u.routeOf x)) 0 x false).2.2 == false) | _ => false) = true ∧
    (match ({ mapped 5 [] with ms := { (mapped 5 []).ms with ue := [1] } } : State).iopAccess 0 64 4 false with
      | (u, .ok (x :: _)) => (u.readAccess (.route (u.iopOf 5) (u.routeOf x)) 0 x false).2.2 == true | _ => false) = true := by
  refine ⟨rfl, ?_, ?_⟩ <;> decide +kernel
theorem test_wit_HostAccesses_aperture : State.reset.aperture 3 0 = none ∧
    ((heldBy 4 [.raw (some 3) 0 0 [1]]).requester 4).items = .raw (some 3) 0 0 [1] :: [] ∧
    ((heldBy 4 [.read (some 3) 0 0 8 false]).requester 4).items = .read (some 3) 0 0 8 false :: [] := by
  refine ⟨?_, ?_, ?_⟩ <;> rfl
theorem test_wit_HostAccesses_ack : ((heldBy 5 []).writeAccess (.route 0 0) 0 (lineAt 64) [1, 2, 3, 4] true).2 = true ∧
    (({ heldBy 5 [] with ms := { (heldBy 5 []).ms with ue := [1] } } : State).writeAccess (.route 0 0) 0 (lineAt 64) [1, 2, 3, 4] true).2 = false ∧
    ((heldBy 5 [wr 0 true]).requester 5).items = wr 0 true :: [] ∧ ((heldBy 5 [wr 0 false]).requester 5).items = wr 0 false :: [] ∧
    (heldBy 5 [wr 0 true]).movingAt (lineAt 64) = .still ∧ (moving 0 (2 ^ 16) (heldBy 5 [wr 0 true])).movingAt (lineAt 64) = .moving ∧
    (moving (2 ^ 16) 0 (heldBy 5 [wr 0 true])).movingAt (lineAt 64) = .arriving := by
  refine ⟨?_, ?_, ?_, ?_, ?_, ?_, ?_⟩ <;> decide +kernel

/-- A posted write of VF 7 that waits, or has left, with a limit and a bucket. -/
def posted (sent : Bool) (after : List Nat) (rate : Nat) (bucket : Int) (vec : Option Nat) : State :=
  let s := State.reset
  { s with
    ms := { s.ms with ioWrites := [⟨9, some (.thread 0 0), 0, some 7, 2 ^ 40, [1], sent, some (.thread 0 0, 3, 8), after, vec, 1⟩]
                      reqs := [req (.read false) [] none] }
    out := { s.out with vfs := [(7, { Vf.reset with rate := rate, bucket := bucket })] } }
theorem test_wit_HostAccesses_limit : ((posted false [] 5 0 none).vf 7).rate ≠ 0 ∧ ((posted false [] 5 0 none).vf 7).bucket ≤ 0 ∧
    0 < ((posted false [] 5 1 none).vf 7).bucket ∧ ((posted false [] 0 0 none).vf 7).rate = 0 ∧ (posted false [8] 0 0 none).performed 8 = false ∧
    (posted false [77] 5 1 none).performed 77 = true ∧
    (∀ vec ∈ [none, some 3], ((posted false [] 5 1 vec).ms.ioWrites.map fun w => (w.sent, w.vf, w.vec, w.size)) = [(false, some 7, vec, 1)]) ∧
    ((posted true [] 0 0 none).ms.ioWrites.map fun w => (w.sent, w.reg)) = [(true, some (.thread 0 0, 3, 8))] := by decide +kernel
/-- Limited VF with 1 unit in its bucket: its write of one byte takes 675 units. -/
theorem test_limit_charge : (((posted false [] 5 1 none).charge (some 7) 1).vf 7).bucket = -674 := by decide +kernel
/-- A read of a register waits, and an APC hart accesses a coherent line whose home is in the partition of die 0 or not. -/
def hartLine : Access := ⟨64, 64, 0, 8, none⟩
theorem test_wit_HostAccesses_hart : ((heldBy 257 [.regRead none 8]).requester 257).items = .regRead none 8 :: [] ∧
    State.reset.refuses 0 (State.reset.homeDie hartLine) = false ∧
    ({ State.reset with sched := { State.reset.sched with nbr := [(0, 1), (1, 0)] } } : State).refuses 0 1 = true ∧
    (State.reset.readAccess (.hart 0) 1024 hartLine false).2.2 = false := by decide +kernel

/-! ### Witnesses: text, the pod, power, repairs and firmware -/

def voc : Vocab := ⟨[], 1⟩
/-- Session 6 of connection 2, open or not, with released bytes since tick 100. -/
def session (isOpen : Bool) (out : List Byte) : Session := ⟨2, false, 3, 0, 0, voc, isOpen, 1, [], 0, none, 0, 0, 0, [], out, 0, 100⟩
/-- VF 3 bound to context 0, whose launch holds its text queue or not; sessions and vocabularies. -/
def texted (tick : Nat) (ss : Tab Nat Session) (holds : Bool) (vs : Tab (Nat × Nat) Vocab) : State :=
  let s := world (if holds then { idleA with ins := [⟨0, .queue (.text 0), 1⟩] } else idleA) [] fun f => { f with queues := f.queues ++ [(.text 0, holding [])] }
  { s with
    clk := { s.clk with tick := tick }
    sched := { s.sched with contexts := [(0, { Context.reset with live := true, vfv := true, vf := 3 })] }
    out := { s.out with sessions := ss, vocabs := vs } }

theorem test_wit_TextService_bad : frameOk [] = false ∧ frameOk (frameBytes 8 3 6 0 0 []) = false ∧ (frameBytes 8 3 6 0 0 []).length = 32 ∧
    fieldAt (frameBytes 8 3 6 0 0 []) 6 2 < 256 := by decide +kernel
theorem test_wit_TextService_open : frameOk (frameBytes 2 3 6 0 1 [0x61]) = true ∧
    (texted 100 [(6, session true [])] true []).session? 6 = some (session true []) ∧ (session true []).conn = 2 ∧
    fieldAt (frameBytes 2 3 6 0 1 [0x61]) 20 4 = (session true []).fseq ∧ (fieldAt (frameBytes 2 3 6 0 1 [0x61]) 5 1).testBit 0 = false ∧
    fieldAt (frameBytes 2 3 6 0 2 [0x61]) 20 4 ≠ (session true []).fseq ∧
    ((texted 100 [(6, session true [])] true []).charge (some 3) 33).session? 6 = some (session true []) := by decide +kernel
theorem test_wit_TextService_start : frameOk (frameBytes 5 3 6 0 0 [0x61]) = true ∧ (fieldAt (frameBytes 5 3 6 0 0 [0x61]) 5 1).testBit 0 = true ∧
    (fieldAt (frameBytes 5 3 6 0 0 [0x61]) 5 1).testBit 1 = false ∧ fieldAt (frameBytes 5 3 6 0 0 [0x61]) 20 4 = 0 ∧
    (State.reset.charge (some 3) 33).boundCtx 3 = none ∧ ((texted 100 [] false []).charge (some 3) 33).boundCtx 3 = some 0 ∧
    ((texted 100 [] false []).charge (some 3) 33).holdsText 0 = false ∧ ((texted 100 [] true []).charge (some 3) 33).holdsText 0 = true ∧
    Tab.get? ((texted 100 [] true []).charge (some 3) 33).out.vocabs (3, 0) = none ∧
    Tab.get? ((texted 100 [] true [((3, 0), voc)]).charge (some 3) 33).out.vocabs (3, 0) = some voc ∧
    ((texted 100 [] true [((3, 0), voc)]).charge (some 3) 33).session? 6 = none := by decide +kernel

/-- A vocabulary of one ID. -/
def voc1 : Vocab := ⟨List.replicate 4 0 ++ [1], 1⟩
def blocking (r : List Record) : State :=
  let s := world idleA r fun f => { f with texts := [q0] }
  { s with out := { s.out with sessions := [(6, { session true [] with vocab := voc1 })] } }
def tokR : Record := { dataR with payload := 0, key := 6, kv := true }
theorem test_wit_TextService_blocker : (State.reset.fab.texts.find? fun _ => true) = none ∧
    ((blocking [tokR]).fab.texts.find? fun q => ((blocking [tokR]).queue? q).any (fun x => x.ctx == 0) && ((blocking [tokR]).head? q).isSome) = some q0 ∧
    ((blocking [tokR]).takeHead q0).2 = some tokR ∧ tokR.kind = kDATA ∧ tokR.kv = true ∧ lane32 tokR.payload 0 < voc1.ntok ∧
    (((blocking [tokR]).takeHead q0).1.session? 6).map (·.vocab) = some voc1 ∧
    (((blocking [dataR]).takeHead q0).2.map fun r => (r.kind, r.kv)) = some (kDATA, false) := by decide +kernel
theorem test_wit_TextService_timeout : (texted 2799 [(6, session true [0x61])] true []).session? 6 = some (session true [0x61]) ∧
    (texted 2799 [(6, session true [0x61])] true []).clk.tick < (session true [0x61]).since + 2700 ∧
    (session true [0x61]).since + 2700 ≤ (texted 2800 [(6, session true [0x61])] true []).clk.tick ∧ (session true [0x61]).released ≠ [] ∧
    (session true []).released = [] := by decide +kernel

/-- A call of VOCLOAD or VOCDROP that reads a page of zeros. -/
def vocCalled (fn : Nat) (ctx : Nat) (ss : Tab Nat Session) : State :=
  let s := texted 100 ss true [((3, 0), ⟨[], 2⟩)]
  { s with
    sched := { s.sched with calls := [⟨4, act, 5, ctx, .thread 0 0, 0, some (fn, 0)⟩] }
    ms := { s.ms with tlbDie := [(0, pages)] } }
/-- Session 6 holds the token 9 and no piece; a core of the firmware swaps. -/
def holdsToken : Session := { session true [] with held := some (9, 40) }
theorem test_wit_TextService_held : (texted 100 [(6, holdsToken)] true []).session? 6 = some holdsToken ∧ holdsToken.held = some (9, 40) ∧ holdsToken.piece = [] ∧
    (let u := (((texted 100 [(6, holdsToken)] true []).putToken 6 9 40 false).updSession 6 fun k => { k with held := none }).updSession 6
        fun k => { k with piece := k.piece ++ [0x61] }
     (u.session? 6).all fun k => k.piece.length < 256) = true := by decide +kernel
def swapped (w : Swap) (s : State) : State := { s with out := { s.out with fw := { s.out.fw with swap := w } } }
theorem test_wit_TextService_swap : (swapped (.released 5 ⟨[], [], []⟩) (vocCalled 1 0 [])).swapping = true ∧ (vocCalled 1 0 []).swapping = false ∧
    ((swapped (.released 5 ⟨[], [], []⟩) (vocCalled 1 0 [])).vocCall 4 1).map (fun e => e.2.2) = some (some 3, 0) := by decide +kernel
theorem test_wit_TextService_vocabularies : ((vocCalled 1 0 []).vocCall 4 1).map (fun e => e.2.2) = some (some 3, 0) ∧
    ((vocCalled 2 0 []).vocCall 4 2).map (fun e => e.2.2) = some (some 3, 0) ∧ ((vocCalled 1 1 []).vocCall 4 1).map (fun e => e.2.2) = some (none, 0) ∧
    ((vocCalled 2 1 []).vocCall 4 2).map (fun e => e.2.2) = some (none, 0) ∧ (vocCalled 1 0 []).slotBusy 3 0 = false ∧
    (vocCalled 1 0 [(6, session true [])]).slotBusy 3 0 = true ∧
    (match ((vocCalled 1 0 []).vocRead 0 0).2 with | .ok bs => !(Vocab.ok ⟨bs, 1⟩) | .error _ => false) = true := by decide +kernel

def podded (p : Pod) (tick : Nat) : State :=
  { State.reset with clk := { State.reset.clk with tick := tick }, out := { State.reset.out with pod := p } }
theorem test_wit_PodAndPower_claims : (State.reset.out.pod.standing = some (0, 0)) ∧ (1 : Nat) ≠ State.reset.out.pod.serial ∧
    ((0 : Nat) = 0 ∧ (0 : Nat) < 1) ∧ ((0 : Nat) < 1 ∨ (1 : Nat) = 0 ∧ (1 : Nat) ≤ 0) ∧
    ({ Pod.reset with role := .candidate } : Pod).role = .candidate ∧
    (podded { Pod.reset with role := .follower, leader := none } 0).out.pod.standing = none := by decide +kernel
theorem test_wit_PodAndPower_beats : (podded .reset 0).out.pod.role = .leader ∧ (podded .reset 0).out.pod.nextBeat ≤ (podded .reset 0).clk.tick ∧
    (podded { Pod.reset with nextBeat := 675000 } 674999).clk.tick < 675000 ∧
    (podded { Pod.reset with role := .follower } 6749999).clk.tick < 0 + 6750000 ∧
    0 + 6750000 ≤ (podded { Pod.reset with role := .follower } 6750000).clk.tick ∧
    (podded { Pod.reset with role := .follower } 6750000).out.pod.role = .follower := by decide +kernel
/-- A leader of packages 0 and 1 in term 0, which has the record of package 1 or not, and package 1 as its follower. -/
def leads (rs : Tab Nat Nat) : Pod := { Pod.reset with list := [0, 1], records := rs }
def follows (n : Nat) : Pod := { Pod.reset with serial := 1, role := .follower, list := [0, 1], progress := n }
theorem test_wit_PodAndPower_steps : (leads [(1, 2)]).role = .leader ∧ 1 ∈ (leads [(1, 2)]).list ∧ (leads [(1, 2)]).leader.map Prod.fst = some 0 ∧
    (leads [(1, 2)]).serial ≠ 1 ∧ Tab.get? (leads [(1, 2)]).records 1 = some 2 ∧ Tab.get? (leads [(1, 1)]).records 1 = some 1 ∧
    Tab.get? (leads []).records 1 = none ∧ 3 ≤ 2 + 1 ∧ 1 + 1 < 3 ∧ (follows 2).role ≠ .leader ∧ (follows 2).serial = 1 ∧ 1 ∈ (follows 2).list ∧
    (follows 2).leader.map Prod.fst = some 0 ∧ 3 ≤ (follows 2).progress + 1 ∧ (follows 1).progress + 1 < 3 ∧ (follows 1).leader.map Prod.fst ≠ some 1 := by
  decide +kernel

/-- Die 0 at a power, in step 1, under its share since tick 10. -/
def powered (tick stage : Nat) : State :=
  { State.reset with
    clk := { State.reset.clk with tick := tick }
    out := { State.reset.out with stage := stage, power := ⟨7500, 950, [(0, ⟨0, 0, 1, some 10, 0⟩)]⟩ } }
def atPower (w tick stage : Nat) : State := (powered tick stage).updPowerDie 0 fun x => { x with pwr := w % 2 ^ 16 }
theorem test_wit_PodAndPower_power : (atPower 951 0 3).overBudget 0 = true ∧ (atPower 950 0 3).overBudget 0 = false ∧
    9 * 950 ≤ 10 * ((atPower 855 0 3).powerDie 0).pwr ∧ 10 * ((atPower 854 0 3).powerDie 0).pwr < 9 * 950 ∧
    (atPower 854 675010 3).overBudget 0 = false ∧ ((atPower 854 675010 3).powerDie 0).under = some 10 ∧ (powered 675010 3).out.stage = 3 ∧
    10 + 675000 ≤ (powered 675010 3).clk.tick ∧ (powered 675009 3).clk.tick < 10 + 675000 := by decide +kernel
/-- A reading at, above and under 90 % of the share, with the module in its budget or over it. -/
theorem test_wit_PodAndPower_reading : (powered 20 3).modulePower = 14200 ∧ (powered 20 3).out.power.mbudget = 7500 ∧
    9 * 950 ≤ 10 * 855 ∧ 10 * 854 < 9 * 950 ∧ (atPower 854 20 3).modulePower ≤ 10 * 7500 ∧ 10 * 7500 < (atPower 60801 20 3).modulePower ∧
    (((powered 20 3).powerReading 0 854).powerDie 0).under = some 10 ∧ (((powered 20 3).powerReading 0 855).powerDie 0).under = none := by decide +kernel
theorem test_wit_PodAndPower_thermal : (109 < 110 ∧ 110 ≤ 110 ∧ 119 < 120 ∧ 120 ≤ (120 : Nat)) := by decide
theorem test_wit_PodAndPower_stage : State.reset.out.rfail = false ∧ State.reset.out.stage < 3 ∧ 3 ≤ (powered 0 3).out.stage ∧
    ({ State.reset.out with rfail := true } : Outside).rfail = true := by decide +kernel

def linked (x : LinkState) : State := { State.reset with out := { State.reset.out with links := [(5, x)] } }
theorem test_wit_RepairsAndFirmware_links : lineOf 64 ∉ State.reset.ms.ue ∧
    lineOf 64 ∈ ({ State.reset with ms := { State.reset.ms with ue := [1] } } : State).ms.ue ∧
    lineOf 64 ∈ ({ State.reset with ms := { State.reset.ms with ce := [1] } } : State).ms.ce ∧ lineOf 64 ∉ State.reset.ms.ce ∧
    ((linked ⟨16, true, 1⟩).linkState 5).retraining = true ∧ ((linked ⟨16, true, 1⟩).linkState 5).failed + 1 ≠ 3 ∧
    ((linked ⟨16, true, 2⟩).linkState 5).failed + 1 = 3 ∧ ((linked ⟨16, false, 0⟩).linkState 5).retraining = false ∧
    16 ≤ ((linked ⟨16, false, 0⟩).linkState 5).replays ∧ ((linked ⟨15, false, 0⟩).linkState 5).replays < 16 := by decide +kernel

def struck (q : Nat) : State := ((world idleA [] id).count 0 none 0x61).quadError 0 q
theorem test_wit_RepairsAndFirmware_region : (world idleA [] id).physQuad 0 0 = some 0 ∧ (world idleA [] id).physQuad 0 319 = some 319 ∧
    ((struck 0).placed.find? fun e => e.2.cells.any fun c => e.2.quad c.1 c.2 == (0, 0)).map Prod.fst = some 1 ∧
    (struck 319).placed.find? (fun e => e.2.cells.any fun c => e.2.quad c.1 c.2 == (0, 319)) = none := by decide +kernel

/-- Queue 0 with launch 1 RUNNING, at a step of its ladder, in a cycle of a tick. -/
def laddered (idle step tick cycle : Nat) : State :=
  let s := world idleA [] id
  { s with clk := { s.clk with tick := tick, cycle := cycle }, sched := { s.sched with ladders := [(0, ⟨idle, step, 0⟩)] } }
theorem test_wit_RepairsAndFirmware_ladder : ((laddered 675000000 0 0 3).budgets ((laddered 675000000 0 0 3).lqPart 0)) = .reset ∧
    (laddered 675000000 0 0 3).runningOf 0 ≠ [] ∧ Budgets.reset.b1 ≤ ((laddered 675000000 0 0 3).ladder 0).idle ∧
    ((laddered 674999999 0 0 3).ladder 0).idle < Budgets.reset.b1 ∧ ((laddered 0 1 675000000 3).ladder 0).step = 1 ∧ Budgets.reset.b1 ≠ 0 ∧
    (laddered 675000000 0 0 3).tickEnds = true ∧ (laddered 675000000 0 0 2).tickEnds = false ∧
    ((laddered 0 1 675000000 3).ladder 0).since + Budgets.reset.b2 ≤ (laddered 0 1 675000000 3).clk.tick ∧
    (laddered 0 1 674999999 3).clk.tick < ((laddered 0 1 674999999 3).ladder 0).since + Budgets.reset.b2 ∧
    ((laddered 0 3 675000 3).ladder 0).since + Budgets.reset.b3 ≤ (laddered 0 3 675000 3).clk.tick ∧
    (laddered 0 3 674999 3).clk.tick < ((laddered 0 3 674999 3).ladder 0).since + Budgets.reset.b3 ∧
    ((laddered 0 4 67500000 3).ladder 0).since + Budgets.reset.b4 ≤ (laddered 0 4 67500000 3).clk.tick ∧
    (laddered 0 4 67499999 3).clk.tick < ((laddered 0 4 67499999 3).ladder 0).since + Budgets.reset.b4 ∧
    (laddered 0 1 0 3).assisted ((laddered 0 1 0 3).lqPart 0) fnWDOG = false ∧ (laddered 0 1 0 3).sched.assists = [] := by decide +kernel
/-- `B1` is 0: the ladder is disabled. -/
def unladdered (step tick : Nat) : State :=
  let s := laddered 0 step tick 3
  { s with sched := { s.sched with budgets := [(0, { Budgets.reset with b1 := 0 })] } }
theorem test_wit_RepairsAndFirmware_disabled : ∀ e ∈ [(1, 675000000), (3, 675000), (4, 67500000)],
    ((unladdered e.1 e.2).budgets ((unladdered e.1 e.2).lqPart 0)).b1 = 0 ∧ (unladdered e.1 e.2).tickEnds = true ∧
    (unladdered e.1 e.2).runningOf 0 ≠ [] ∧ ((unladdered e.1 e.2).ladder 0).step = e.1 := by
  intro e he; fin_cases he <;> exact ⟨by decide +kernel, by decide +kernel, by decide +kernel, by decide +kernel⟩

def firmed (w : Firmware) (tick : Nat) : State :=
  { State.reset with clk := { State.reset.clk with tick := tick }, out := { State.reset.out with fw := w } }
theorem test_wit_RepairsAndFirmware_cores : (State.reset.cp 1).role = 1 ∧ (State.reset.cp 0).role ≠ 1 ∧
    (firmed .reset (2 ^ 24 - 1)).clk.tick < ((firmed .reset (2 ^ 24 - 1)).cp 0).wdog ∧
    ((firmed .reset (2 ^ 24)).cp 0).wdog ≤ (firmed .reset (2 ^ 24)).clk.tick := by decide +kernel
theorem test_wit_RepairsAndFirmware_commands : (firmed { Firmware.reset with done := false } 0).out.fw.done = false ∧ State.reset.out.fw.done = true ∧
    State.reset.out.fw.act = 0 ∧ (firmed { Firmware.reset with verified := [1] } 0).slotStatus 1 = 0 ∧ State.reset.slotStatus 1 ≠ 0 := by
  decide +kernel
/-- Seven of the eight cores have set RELEASE or READY; the write of the last core of the active set, or of the standby set, completes it. -/
def cored (w : Swap) (tick : Nat) (bit : CpCore → CpCore) : State :=
  (List.range 6).foldl (fun s c => s.updCp c bit) (firmed { Firmware.reset with swap := w, done := false } tick)
def releases (c : CpCore) : CpCore := { c with release := true }
def readies (c : CpCore) : CpCore := { c with ready := true }
def noRecord : SwapRecord := ⟨[], [], []⟩
theorem test_wit_RepairsAndFirmware_swap : State.reset.out.fw.swap = .none ∧
    (cored .starting 10 releases).out.fw.swap = .starting ∧
    ((cored .starting 10 releases).updCp 6 fun x => { x with ready := false, release := true }).everyCp 0 CpCore.release = true ∧
    ((cored .starting 10 releases).updCp 6 fun x => { x with ready := true, release := false }).everyCp 0 CpCore.release = false ∧
    (cored (.released 10 noRecord) 11 readies).out.fw.swap = .released 10 noRecord ∧
    ((cored (.released 10 noRecord) 11 readies).updCp 7 fun x => { x with ready := true, release := false }).everyCp 1 CpCore.ready = true ∧
    ((cored (.released 10 noRecord) 11 readies).updCp 7 fun x => { x with ready := false, release := true }).everyCp 1 CpCore.ready = false ∧
    (firmed { Firmware.reset with swap := .released 10 noRecord } 1350009).clk.tick < 10 + 1350000 ∧
    10 + 1350000 ≤ (firmed { Firmware.reset with swap := .released 10 noRecord } 1350010).clk.tick ∧
    ((1 : BitVec 64).getLsbD 0 = true ∧ (2 : BitVec 64).getLsbD 1 = true) := by decide +kernel
/-- The stacks beside the dies of a row (02 R28). -/
theorem test_stacks : (stackDie 0, stackDie 1, stackDie 14, stackDie 15) = (0, 7, 56, 63) := by decide
/-- A lone NaN in a reduction is made canonical (03 R38). -/
theorem test_reduce_nan : first 32 (laneRmax { ops 8 32 0 .l32 0xFFC00001 0 0 with mask := 15 }) = 0x7FC00000 := by decide +kernel
/-- A cycle at 1.35 GHz lasts twice one at 2.7 GHz (02 R30, R32): reset is stage S1. -/
theorem test_cycles : ({ State.reset.clk with cycle := 100 } : Clock).dieCycle 5 = 50 := by decide +kernel

/-- The published digest of "abc" (26 R460; FIPS 180-4). -/
theorem test_sha384_abc : bigEndian (sha384 [0x61, 0x62, 0x63]) =
    0xcb00753f45a35e8bb5a03d699ac65007272c32ab0eded1631a8b605a43ff5bed8086072ba1e7cc2358baeca134c825a7 := by decide +kernel
/-- The base point of P-384 and its double are points of the curve (26 R460). -/
theorem test_p384 : onCurve p384Gx p384Gy = true ∧ (match addPoints (some (p384Gx, p384Gy)) (some (p384Gx, p384Gy)) with
    | some (x, y) => onCurve x y && x != p384Gx
    | none => false) = true := by decide +kernel

end

end Sys2Proof.Tests
end

section
/-! PROOF. Byte memory: strings of bytes read back, the canonical form is the only one, and numbers are laid out with their low byte
first. Settles O7 and O9. -/
namespace Sys2Proof.Machine

/-! ### Reads after writes -/

theorem read_write {m : List Host.Cell} (h : Memory.wf m = true) (a : Nat) (b : Byte) (c : Nat) :
    Mem.read (Mem.write m a b) c = if c = a then b else Mem.read m c := readFrom_write h

/-- A byte of a written string is the string's, and any other is as before. -/
theorem read_writeBytes {m : List Host.Cell} (h : Memory.wf m = true) (a : Nat) (bs : List Byte) (c : Nat) :
    Mem.read (Mem.writeBytes m a bs) c = if a ≤ c then bs.getD (c - a) (Mem.read m c) else Mem.read m c := by
  induction bs generalizing m a with
  | nil => simp [Mem.writeBytes]
  | cons b bs ih =>
    rw [Mem.writeBytes, ih (wf_write h), read_write h]
    rcases Nat.lt_trichotomy c a with lt | rfl | gt
    · simp [show ¬a + 1 ≤ c by omega, show ¬a ≤ c by omega, show c ≠ a by omega]
    · simp
    · have e : c - a = (c - (a + 1)) + 1 := by omega
      simp [show a + 1 ≤ c by omega, show a ≤ c by omega, show c ≠ a by omega, e]

theorem read_writeBytes_outside {m : List Host.Cell} (h : Memory.wf m = true) {a : Nat} {bs : List Byte} {c : Nat}
    (out : c < a ∨ a + bs.length ≤ c) : Mem.read (Mem.writeBytes m a bs) c = Mem.read m c := by
  rw [read_writeBytes h]
  split
  · rw [List.getD_eq_default _ _ (by omega)]
  · rfl

/-- A string of bytes reads back. -/
theorem readBytes_writeBytes {m : List Host.Cell} (h : Memory.wf m = true) (a : Nat) (bs : List Byte) :
    Mem.readBytes (Mem.writeBytes m a bs) a bs.length = bs := by
  refine List.ext_getElem (by simp [Mem.readBytes]) fun k hk _ => ?_
  have lt : k < bs.length := by simpa [Mem.readBytes] using hk
  simp [Mem.readBytes, read_writeBytes h, lt]

/-! ### The canonical form is the only one -/

/-- The lowest entry of a canonical memory reads as it is listed, which is not as an unlisted byte. -/
theorem read_head {k : Nat} {b : Byte} {m : List Host.Cell} : Mem.read ((k, b) :: m) k = b := by simp [Mem.read]

/-- Canonical memories that read alike are equal: their lowest entries have the same address, since below the other's lowest entry a memory
reads as unlisted; and without those entries they still read alike. -/
theorem eq_of_read_eq {m n : List Host.Cell} {lo : Nat} (hm : Mem.wfFrom lo m = true) (hn : Mem.wfFrom lo n = true)
    (same : ∀ a, Mem.read m a = Mem.read n a) : m = n := by
  induction m generalizing n lo with
  | nil =>
    cases n with
    | nil => rfl
    | cons e n =>
      obtain ⟨k, b⟩ := e
      simp only [Mem.wfFrom, Bool.and_eq_true, decide_eq_true_eq] at hn
      exact absurd (read_head.symm.trans (same k).symm) hn.1.2
  | cons d m ih =>
    obtain ⟨j, c⟩ := d
    simp only [Mem.wfFrom, Bool.and_eq_true, decide_eq_true_eq] at hm
    obtain ⟨⟨hj, hc⟩, hm⟩ := hm
    cases n with
    | nil => exact absurd (read_head.symm.trans (same j)) hc
    | cons e n =>
      obtain ⟨k, b⟩ := e
      simp only [Mem.wfFrom, Bool.and_eq_true, decide_eq_true_eq] at hn
      obtain ⟨⟨hk, hb⟩, hn⟩ := hn
      have below : ∀ {i l : Nat} {x : Byte} {p : List Host.Cell}, Mem.wfFrom (l + 1) p = true → i < l →
          Mem.read ((l, x) :: p) i = Mem.unlisted := fun wf lt => by
        rw [Mem.read, if_neg (by omega), read_below wf (by omega)]
      have addr : j = k := by
        rcases Nat.lt_trichotomy j k with lt | eq | gt
        · exact absurd (read_head.symm.trans ((same j).trans (below hn lt))) hc
        · exact eq
        · exact absurd (read_head.symm.trans ((same k).symm.trans (below hm gt))) hb
      subst addr
      have byte : c = b := read_head.symm.trans ((same j).trans read_head)
      have rest : ∀ a, Mem.read m a = Mem.read n a := fun a => by
        by_cases eq : j = a
        · rw [read_below hm (by omega), read_below hn (by omega)]
        · simpa [Mem.read, eq] using same a
      rw [byte, ih hm hn rest]

/-! ### Numbers as bytes -/

@[simp] theorem natBytes_length (n v : Nat) : (natBytes n v).length = n := by
  induction n generalizing v with
  | zero => rfl
  | succ n ih => simp [natBytes, ih]

theorem bytesNat_natBytes (n v : Nat) : bytesNat (natBytes n v) = v % 256 ^ n := by
  induction n generalizing v with
  | zero => simp [natBytes, bytesNat, Nat.mod_one]
  | succ n ih =>
    rw [natBytes, bytesNat, ih, BitVec.toNat_ofNat, Nat.pow_succ' (n := n), Nat.mod_mul]

/-- The low byte comes first. -/
theorem natBytes_getD {n k : Nat} (v : Nat) (lt : k < n) : ((natBytes n v).getD k 0).toNat = v / 256 ^ k % 256 := by
  induction n generalizing v k with
  | zero => omega
  | succ n ih =>
    cases k with
    | zero => simp [natBytes]
    | succ k =>
      rw [natBytes, List.getD_cons_succ, ih _ (by omega), Nat.div_div_eq_div_mul, Nat.pow_succ, Nat.mul_comm 256]

/-- Settles O7: each law by induction on the list of entries or of bytes. -/
theorem memoryLaws : Obligations.MemoryLaws := by
  unfold Obligations.MemoryLaws
  refine ⟨fun m a b h => ⟨wf_write h, read_write h a b⟩,
    fun m a bs h => ⟨wf_writeBytes h, readBytes_writeBytes h a bs, fun c out => read_writeBytes_outside h out⟩,
    fun m n hm hn => eq_of_read_eq hm hn, fun a => rfl,
    fun n v => ⟨natBytes_length n v, bytesNat_natBytes n v, fun k => natBytes_getD v⟩⟩

/-- Settles O9: at reset both memories list nothing. -/
theorem resetCanonical : Obligations.ResetCanonical := ⟨⟨rfl, rfl⟩, fun _ => rfl⟩

end Sys2Proof.Machine
end

section
/-! PROOF. Every step keeps both memories in canonical form. The form speaks of device memory and of the banks alone: what leaves both keeps
it (`State.canonical.of_ms`, `State.canonical.updMs`), and the few functions that write them write bytes or drop entries, which keeps the
form of a memory (`State.canonical.updMs_wf`). One lemma for each function of the state, in the order of the model: the branches of its
definition, each by the lemmas of the functions it calls. Settles O8. -/

-- Elaborated one after another: in parallel the threads of so many short proofs take more memory than the check allows.
set_option Elab.async false

namespace Sys2Proof.Machine
variable {s t : State}

/-! ### The canonical form and changes of the state -/

/-- An answer is canonical when the state it goes on with, if any, is. -/
def Answer.canonical (e : Answer) : Prop := ∀ t, e = .next t → t.canonical

theorem Answer.canonical.next (ht : t.canonical) : Answer.canonical (.next t) := fun _ e => by
  cases e
  exact ht

theorem Answer.canonical.fault (r : Fault) : Answer.canonical (.fault r) := fun _ e => nomatch e

theorem Answer.canonical.refused (r : Refusal) : Answer.canonical (.refused r) := fun _ e => nomatch e

/-- The state of a pair that is taken apart. -/
theorem State.canonical.fst_eq {α : Type} {p : State × α} {x : α} (h : p.1.canonical) (e : p = (t, x)) : t.canonical := by
  rw [e] at h
  exact h

theorem State.canonical.snd_eq {α : Type} {p : α × State} {x : α} (h : p.2.canonical) (e : p = (x, t)) : t.canonical := by
  rw [e] at h
  exact h

theorem State.canonical.ite {c : Prop} [Decidable c] (hs : s.canonical) (ht : t.canonical) :
    State.canonical (if c then s else t) := by
  split
  · exact hs
  · exact ht

theorem State.canonical.ite_fst {α : Type} {c : Prop} [Decidable c] {p q : State × α} (hp : p.1.canonical) (hq : q.1.canonical) :
    (if c then p else q).1.canonical := by
  split
  · exact hp
  · exact hq

theorem State.canonical.foldl {α : Type} {f : State → α → State} {l : List α} (hs : s.canonical)
    (hf : ∀ (t : State) (x : α), t.canonical → (f t x).canonical) : (l.foldl f s).canonical :=
  List.foldlRecOn l f hs fun t ht x _ => hf t x ht

theorem State.canonical.foldl_fst {α β : Type} {f : State × β → α → State × β} {p : State × β} {l : List α}
    (hp : p.1.canonical) (hf : ∀ (p : State × β) (x : α), p.1.canonical → (f p x).1.canonical) : (l.foldl f p).1.canonical :=
  List.foldlRecOn (motive := fun p => p.1.canonical) l f hp fun p hp x _ => hf p x hp

/-- The supply of free values is no memory. -/
theorem State.canonical.withFresh {n : Nat} (hs : s.canonical) : ({ s with fresh := n } : State).canonical := hs

/-- A change of the memory system that leaves both memories. -/
theorem State.canonical.updMs {f : MemSys → MemSys} (hs : s.canonical) (hm : (f s.ms).mem = s.ms.mem := by rfl)
    (hc : (f s.ms).scratch = s.ms.scratch := by rfl) : (s.updMs f).canonical := by
  simpa [State.canonical, hm, hc] using hs

/-- A change of the memory system that keeps each memory's form. -/
theorem State.canonical.updMs_wf {f : MemSys → MemSys} (hs : s.canonical)
    (hm : Memory.wf s.ms.mem = true → Memory.wf (f s.ms).mem = true)
    (hc : Memory.wf s.ms.scratch = true → Memory.wf (f s.ms).scratch = true) : (s.updMs f).canonical := ⟨hm hs.1, hc hs.2⟩

/-- Bytes written one by one keep the form. -/
theorem wf_writes {α : Type} {m : List Host.Cell} {a : α → Nat} {b : α → Byte} {l : List α} (h : Memory.wf m = true) :
    Memory.wf (l.foldl (fun m x => Mem.write m (a x) (b x)) m) = true :=
  List.foldlRecOn (motive := fun m => Memory.wf m = true) l _ h fun _ hm _ _ => wf_write hm

theorem State.canonical.of_ms (hs : s.canonical) (e : t.ms = s.ms) : t.canonical := by
  simpa [State.canonical, e] using hs

theorem State.canonical.updAgent {a : Aid} {f : Agent → Agent} (hs : s.canonical) : (s.updAgent a f).canonical :=
  hs.of_ms (updAgent_ms ..)

theorem State.canonical.updQueue {q : Qid} {f : Queue → Queue} (hs : s.canonical) : (s.updQueue q f).canonical :=
  hs.of_ms (updQueue_ms ..)

/-! ### Changes of the state, traps and the address translation (Machine/Ops.lean) -/

theorem State.canonical.setAgent {a : Aid} {g : Agent} (hs : s.canonical) : (s.setAgent a g).canonical := hs

theorem State.canonical.updFab {f : Fabric → Fabric} (hs : s.canonical) : (s.updFab f).canonical := hs

theorem State.canonical.updSched {f : Sched → Sched} (hs : s.canonical) : (s.updSched f).canonical := hs

theorem State.canonical.updOut {f : Outside → Outside} (hs : s.canonical) : (s.updOut f).canonical := hs

theorem State.canonical.send {m : Out} (hs : s.canonical) : (s.send m).canonical := hs.updOut

theorem State.canonical.takeId (hs : s.canonical) : s.takeId.2.canonical := hs

theorem State.canonical.free (hs : s.canonical) : s.free.2.canonical := hs

theorem State.canonical.updContext {c : Nat} {f : Context → Context} (hs : s.canonical) :
    (s.updContext c f).canonical := hs.updSched

theorem State.canonical.updPartition {p : Nat} {f : Partition → Partition} (hs : s.canonical) : (s.updPartition p f).canonical :=
  hs.updSched

theorem State.canonical.updLq {n : Nat} {f : Lq → Lq} (hs : s.canonical) : (s.updLq n f).canonical := hs.updSched

theorem State.canonical.updLadder {n : Nat} {f : Ladder → Ladder} (hs : s.canonical) : (s.updLadder n f).canonical := hs.updSched

theorem State.canonical.updThreadCtl {d t : Nat} {f : ThreadCtl → ThreadCtl} (hs : s.canonical) :
    (s.updThreadCtl d t f).canonical :=
  hs.updSched

theorem State.canonical.updLaunch {r : Nat} {f : Launch → Launch} (hs : s.canonical) : (s.updLaunch r f).canonical := hs.updSched

theorem State.canonical.updRegion {r : Nat} {f : Region → Region} (hs : s.canonical) : (s.updRegion r f).canonical := hs.updSched

theorem State.canonical.updVf {v : Nat} {f : Vf → Vf} (hs : s.canonical) : (s.updVf v f).canonical := hs.updOut

theorem State.canonical.updRas {d : Nat} {f : RasDie → RasDie} (hs : s.canonical) : (s.updRas d f).canonical := hs.updOut

theorem State.canonical.setQueue {q : Qid} {x : Queue} (hs : s.canonical) : (s.setQueue q x).canonical := hs.updFab

theorem State.canonical.count {die : Nat} {vq : Option Nat} {code n : Nat} (hs : s.canonical) : (s.count die vq code n).canonical :=
  .updSched (.ite hs.updRas hs)

theorem State.canonical.countAt {g : Agent} {code n : Nat} (hs : s.canonical) : (s.countAt g code n).canonical := hs.count

theorem State.canonical.refuse {dst : Nat} (hs : s.canonical) : (s.refuse dst).canonical := hs.count

theorem State.canonical.arrive {a : Aid} {code id value : Nat} {dep : List Nat} (hs : s.canonical) :
    (s.arrive a code id value dep).canonical := hs.updAgent

theorem State.canonical.progress {rid : Nat} (hs : s.canonical) : (s.progress rid).canonical := hs.updLadder

theorem State.canonical.agentProgress {a : Aid} (hs : s.canonical) : (s.agentProgress a).canonical := by
  unfold State.agentProgress
  split
  · exact hs.progress
  · exact hs

theorem State.canonical.postTrap {t : Trap} {who : Option Aid} {management host : Bool} (hs : s.canonical) :
    (s.postTrap t who management host).canonical := hs.takeId.updSched

theorem State.canonical.asyncRecord {cause ctx inc die vq unit va : Nat} (hs : s.canonical) :
    (s.asyncRecord cause ctx inc die vq unit va).canonical := hs.postTrap

theorem State.canonical.postRaised {a : Aid} {g : Agent} {t : Trap} {who : Option Aid} (hs : s.canonical) :
    (s.postRaised a g t who).canonical := .ite hs.postTrap hs.postTrap

theorem State.canonical.agentRecord {a : Aid} {o : Origin} {cause va : Nat} (hs : s.canonical) :
    (s.agentRecord a o cause va).canonical := by
  unfold State.agentRecord
  split
  · exact hs.postRaised
  · exact hs

theorem State.canonical.managementRecord {cause ctx part detail : Nat} (hs : s.canonical) :
    (s.managementRecord cause ctx part detail).canonical := hs.postTrap

theorem State.canonical.dropBlock {a : Aid} (hs : s.canonical) : (s.dropBlock a).canonical := hs.updAgent.updMs

theorem State.canonical.withdraw {rid : Nat} (hs : s.canonical) : (s.withdraw rid).canonical := by
  unfold State.withdraw
  refine .updSched (.foldl hs fun t _ ht => ?_)
  split
  · exact ht.updQueue
  · exact ht

theorem State.canonical.startFreeze {rid : Nat} {who : Option (Aid × Nat × Nat)} (hs : s.canonical) :
    (s.startFreeze rid who).canonical := by
  unfold State.startFreeze
  split
  · exact hs
  · split
    · exact hs
    · split
      · exact hs.updRegion.withdraw.arrive
      · exact hs.updRegion.withdraw
    · exact hs.updRegion.withdraw

theorem State.canonical.takeTrap {a : Aid} {cause iidx baddr va detail : Nat} (hs : s.canonical) :
    (s.takeTrap a cause iidx baddr va detail).canonical := by
  unfold State.takeTrap
  split
  · exact hs
  · extract_lets block u inc trap
    have hu : u.canonical := hs.dropBlock.updAgent
    clear_value block u inc trap
    refine .ite hu.postRaised ?_
    split
    · exact .ite hu.updSched hu.startFreeze.postTrap
    · exact hu.postTrap

theorem State.canonical.resumeAgent {a : Aid} (hs : s.canonical) : (s.resumeAgent a).canonical := hs.updAgent

theorem State.canonical.returnFromTrap {issuerCtx : Nat} {level : Level} {handle : Nat} (hs : s.canonical) :
    (s.returnFromTrap issuerCtx level handle).1.canonical := by
  unfold State.returnFromTrap
  split
  · exact hs
  · exact .ite_fst hs (.foldl hs.updSched fun _ _ ht => ht.resumeAgent)

/-! ### Accesses to memory, the stashes and the home (Machine/Access.lean) -/

theorem State.canonical.charge {v : Option Nat} {n : Nat} (hs : s.canonical) : (s.charge v n).canonical := by
  unfold State.charge
  split
  · exact .ite hs hs.updVf
  · exact hs

theorem State.canonical.setLineTs {pa wts rts : Nat} (hs : s.canonical) : (s.setLineTs pa wts rts).canonical := hs.updMs

theorem State.canonical.fetchLine {pa : Nat} {pin : Option (Nat × Nat)} (hs : s.canonical) : (s.fetchLine pa pin).canonical := by
  unfold State.fetchLine
  split
  · exact hs
  · exact hs.updMs

theorem State.canonical.updRequester {r : Nat} {f : Requester → Requester} (hs : s.canonical) :
    (s.updRequester r f).canonical := hs.updOut

theorem State.canonical.raisePts {i : Issuer} {t : Nat} (hs : s.canonical) : (s.raisePts i t).canonical := by
  unfold State.raisePts
  split
  · exact hs.updAgent
  · exact hs.updAgent
  · exact hs.updOut
  · exact hs.updOut

theorem State.canonical.setStamp {id ts part : Nat} (hs : s.canonical) : (s.setStamp id ts part).canonical := hs.updMs

theorem State.canonical.takeStamp {ts part : Nat} (hs : s.canonical) : (s.takeStamp ts part).2.canonical := hs.takeId.setStamp

/-- A writeback writes the line's bytes into device memory. -/
theorem State.canonical.putLine {l : StashLine} (hs : s.canonical) : (s.putLine l).canonical := by
  unfold State.putLine
  exact .setLineTs (hs.updMs_wf wf_writeBytes id)

theorem State.canonical.recall {pa : Nat} (hs : s.canonical) : (s.recall pa).canonical := by
  unfold State.recall
  refine .foldl hs fun t _ ht => ?_
  split
  · exact .updFab (.ite ht.putLine ht.setLineTs)
  · exact ht

theorem State.canonical.recallRange {pa n : Nat} (hs : s.canonical) :
    (s.recallRange pa n).canonical := .foldl hs fun _ _ ht => ht.recall

theorem State.canonical.corrected {pa : Nat} (hs : s.canonical) : (s.corrected pa).canonical := .ite hs.count.updMs hs

theorem State.canonical.quadError {d pq : Nat} (hs : s.canonical) : (s.quadError d pq).canonical := hs.updRas

theorem State.canonical.quadUe {d vq : Nat} (hs : s.canonical) : (s.quadUe d vq).canonical := by
  unfold State.quadUe
  dsimp only
  split
  · exact hs.count.quadError
  · exact hs.count

theorem State.canonical.recallWalk {part va fuel level table : Nat} (hs : s.canonical) :
    (s.recallWalk part va fuel level table).canonical := by
  induction fuel generalizing s level table with
  | zero => exact hs
  | succ fuel ih =>
    unfold State.recallWalk
    exact .ite hs.recall.corrected.count (.ite (ih hs.recall.corrected) hs.recall.corrected)

theorem State.canonical.leafFor {die vq ctx va : Nat} (hs : s.canonical) : (s.leafFor die vq ctx va).1.canonical := by
  unfold State.leafFor
  extract_lets quad qs ds setQ setD u v c w
  have hq : ∀ {t : State} {cs : List Cached}, t.canonical → (setQ t cs).canonical := fun ht => .ite ht.updMs ht
  have hd : ∀ {t : State} {cs : List Cached}, t.canonical → (setD t cs).canonical := fun ht => ht.updMs
  clear_value setQ setD
  split
  · exact hq hs
  · have hu : u.canonical := .ite hs.count hs
    have hv : v.canonical := hu.count.count
    have hw : w.canonical := hv.recallWalk
    split
    · exact hq (hd hu)
    · refine .ite_fst hv ?_
      split
      · exact hw
      · exact hq (hd hw)

theorem State.canonical.translate {die vq ctx va len : Nat} {need : Need} (hs : s.canonical) :
    (s.translate die vq ctx va len need).1.canonical := by
  unfold State.translate
  split
  next e => exact hs.leafFor.fst_eq e
  next e => exact .ite_fst (hs.leafFor.fst_eq e) (hs.leafFor.fst_eq e)

theorem State.canonical.access {a : Aid} {va len : Nat} {need : Need} (hs : s.canonical) :
    (s.access a va len need).1.canonical := by
  unfold State.access
  split
  · exact hs
  · exact .ite_fst hs hs.translate

theorem State.canonical.accesses {a : Aid} {need : Need} {xs : List (Nat × Nat)} (hs : s.canonical) :
    (s.accesses a need xs).1.canonical := by
  induction xs generalizing s with
  | nil => exact hs
  | cons x xs ih =>
    unfold State.accesses
    split
    next e => exact hs.access.fst_eq e
    next e =>
      have he := hs.access.fst_eq e
      split
      next e2 => exact (ih he).fst_eq e2
      next e2 => exact (ih he).fst_eq e2

theorem State.canonical.flushStash {on : Nat → Bool} {hit : StashLine → Bool} (hs : s.canonical) :
    (s.flushStash on hit).canonical :=
  .foldl hs fun _ _ ht => .ite ht (.updFab (.foldl ht fun _ _ ht => .ite ht.putLine ht))

theorem State.canonical.shootDown {ctx : Nat} {va die : Option Nat} (hs : s.canonical) : (s.shootDown ctx va die).canonical :=
  hs.flushStash.updMs

theorem State.canonical.stashFill {n : Nid} {sets : Nat} {l : StashLine} (hs : s.canonical) : (s.stashFill n sets l).canonical := by
  unfold State.stashFill
  split
  · exact hs
  · refine .updFab ?_
    split
    · exact .ite hs.putLine hs
    · exact hs

theorem State.canonical.homeRead {i : Issuer} {pa n lease : Nat} {sys : Bool} (hs : s.canonical) :
    (s.homeRead i pa n lease sys).1.canonical := hs.recallRange.corrected.raisePts.setLineTs

/-- A write at the home writes device memory. -/
theorem State.canonical.homeWrite {i : Issuer} {ctx pa : Nat} {bytes : List Byte} (hs : s.canonical) :
    (s.homeWrite i ctx pa bytes).canonical := by
  unfold State.homeWrite
  exact .updMs_wf hs.recallRange.corrected.raisePts.setLineTs wf_writeBytes id

theorem State.canonical.renewed {i : Issuer} {stale : Option StashLine} {wts : Nat} (hs : s.canonical) :
    (s.renewed i stale wts).canonical := by
  unfold State.renewed
  split
  · exact .ite hs.countAt hs
  · exact hs

theorem State.canonical.ueMet {acc : Access} (hs : s.canonical) : (s.ueMet acc).canonical := .ite hs.quadUe hs.count

theorem State.canonical.ueRead {acc : Access} (hs : s.canonical) : (s.ueRead acc).1.canonical := hs.ueMet

theorem State.canonical.stashRead {i : Issuer} {ctx : Nat} {n : Nid} {acc : Access} (hs : s.canonical) :
    (s.stashRead i ctx n acc).1.canonical := by
  unfold State.stashRead
  extract_lets sets off lines
  clear_value lines
  split
  · exact .ite_fst hs.quadUe hs.raisePts.stashFill
  · exact .ite_fst hs.recall.ueRead hs.recall.homeRead.renewed.stashFill

theorem State.canonical.stashWrite {i : Issuer} {ctx : Nat} {n : Nid} {acc : Access} {bytes : List Byte} (hs : s.canonical) :
    (s.stashWrite i ctx n acc bytes).1.canonical := by
  unfold State.stashWrite
  extract_lets sets full own
  clear_value own
  split
  next u l e =>
  have hu : u.canonical := by
    split at e
    · cases e
      exact hs
    · cases e
      exact hs.recall.corrected
  exact .ite_fst (.ite hu.quadUe hu.ueMet) hu.updMs.raisePts.stashFill

theorem State.canonical.cachedRead {i : Issuer} {ctx : Nat} {cs : List StashLine} {acc : Access} (hs : s.canonical) :
    (s.cachedRead i ctx cs acc).1.canonical := by
  unfold State.cachedRead
  split
  · exact .ite_fst hs.ueMet hs.raisePts
  · exact .ite_fst hs.recall.ueMet hs.recall.homeRead.renewed

theorem State.canonical.svpRead {i : Issuer} {die ctx : Nat} {acc : Access} (hs : s.canonical) :
    (s.svpRead i die ctx acc).1.canonical := hs.cachedRead.updMs

theorem State.canonical.apcRead {i : Issuer} {ctx : Nat} {acc : Access} (hs : s.canonical) : (s.apcRead i ctx acc).1.canonical :=
  hs.cachedRead.updOut

theorem State.canonical.scratchRead {i : Issuer} {pa n : Nat} (hs : s.canonical) : (s.scratchRead i pa n).1.canonical :=
  hs.corrected.raisePts.setLineTs

/-- A write of scratch writes the banks. -/
theorem State.canonical.scratchWrite {i : Issuer} {pa : Nat} {bytes : List Byte} (hs : s.canonical) :
    (s.scratchWrite i pa bytes).canonical := by
  unfold State.scratchWrite
  exact .updMs_wf hs.corrected.raisePts.setLineTs id wf_writeBytes

theorem State.canonical.fetched {acc : Access} (hs : s.canonical) : (s.fetched acc).canonical := .ite hs.fetchLine hs

theorem State.canonical.lineRead {i : Issuer} {ctx : Nat} {acc : Access} {sys : Bool} (hs : s.canonical) :
    (s.lineRead i ctx acc sys).1.canonical := by
  unfold State.lineRead
  split
  · exact .ite_fst hs.svpRead (.ite_fst hs.recallRange.ueRead hs.recallRange.homeRead)
  · exact .ite_fst hs.apcRead (.ite_fst hs.recallRange.ueRead hs.recallRange.homeRead)
  · exact .ite_fst hs.recallRange.ueRead hs.recallRange.homeRead
  · exact .ite_fst hs.recallRange.ueRead hs.recallRange.homeRead
  · exact .ite_fst hs.recallRange.ueRead hs.recallRange.homeRead

theorem State.canonical.readAccess {i : Issuer} {ctx : Nat} {acc : Access} {sys : Bool} (hs : s.canonical) :
    (s.readAccess i ctx acc sys).1.canonical := by
  unfold State.readAccess
  split
  · exact .ite_fst hs.ueRead (hs.scratchRead (n := acc.len))
  · exact hs.charge.send.free
  · split
    · exact hs.fetched.stashRead
    · exact hs.fetched.lineRead

theorem State.canonical.lineWrite {i : Issuer} {ctx : Nat} {acc : Access} {bytes : List Byte} (hs : s.canonical) :
    (s.lineWrite i ctx acc bytes).1.canonical := by
  unfold State.lineWrite
  extract_lets u full v
  have hu : u.canonical := .ite hs hs.recallRange
  have hv : v.canonical := .ite hu.updMs hu
  exact .ite_fst hu.ueMet (.ite hv.scratchWrite hv.homeWrite)

theorem State.canonical.writeAccess {i : Issuer} {ctx : Nat} {acc : Access} {bytes : List Byte} {sys : Bool} (hs : s.canonical) :
    (s.writeAccess i ctx acc bytes sys).1.canonical := by
  unfold State.writeAccess
  split
  · exact hs.fetched.stashWrite
  · exact hs.fetched.lineWrite

theorem State.canonical.predict {i : Issuer} {acc : Access} (hs : s.canonical) : (s.predict i acc).canonical := by
  unfold State.predict
  refine .ite ?_ hs
  dsimp only
  split
  · exact hs.updMs.countAt
  · exact hs.updMs

theorem State.canonical.rmwAccess {i : Issuer} {ctx : Nat} {acc : Access} {f : Nat → Nat} (hs : s.canonical) :
    (s.rmwAccess i ctx acc f).1.canonical := by
  unfold State.rmwAccess
  extract_lets fetched u
  have hf : fetched.canonical := hs.fetched
  have hu : u.canonical := .ite hf hf.recall
  clear_value u
  exact .ite_fst hu.ueMet (.ite_fst (hu.scratchRead (i := i)).scratchWrite hu.predict.corrected.raisePts.homeWrite)

theorem State.canonical.evictLine {line : Nat} (hs : s.canonical) : (s.evictLine line).canonical := by
  unfold State.evictLine
  dsimp only
  split
  · exact hs.recall
  · exact hs.recall.updMs

theorem State.canonical.bitError {line : Nat} {correctable : Bool} (hs : s.canonical) : (s.bitError line correctable).canonical :=
  .ite hs.updMs (.ite hs.evictLine hs.updMs)

theorem State.canonical.copyError {die vq line : Nat} {correctable : Bool} (hs : s.canonical) :
    (s.copyError die vq line correctable).canonical := .ite hs.count (.ite hs.updFab hs.updMs)

theorem State.canonical.parityError {die vq va : Nat} (hs : s.canonical) : (s.parityError die vq va).canonical :=
  .ite hs.updMs.updFab hs.updMs

/-! ### The banks of the memory units (Machine/Banks.lean) -/

theorem State.canonical.putGroupData {n : Nid} {b : List Byte} (hs : s.canonical) (e : s.putGroupData n b = some t) :
    t.canonical := by
  unfold State.putGroupData at e
  split at e
  · cases e
    exact hs.updFab
  · cases e
    exact hs.updFab
  · cases e
    exact hs.updFab
  · cases e
    exact hs.updFab
  · cases e

/-! ### Queues and their shear policies (Machine/Shear.lean) -/

theorem State.canonical.muAccess {die vq ctx va len : Nat} {need : Need} (hs : s.canonical) :
    (s.muAccess die vq ctx va len need).1.canonical := by
  unfold State.muAccess
  refine .ite_fst hs (.foldl_fst hs fun ⟨t, r⟩ _ ht => ?_)
  split
  next e => exact ht.fst_eq e
  next e =>
    have he := ht.fst_eq e
    split
    next e2 => exact he.translate.fst_eq e2
    next e2 =>
      have he2 := he.translate.fst_eq e2
      exact .ite_fst he2 he2

theorem State.canonical.muReadAs {i : Issuer} {die vq ctx va len : Nat} (hs : s.canonical) :
    (s.muReadAs i die vq ctx va len).1.canonical := by
  unfold State.muReadAs
  split
  next e => exact hs.muAccess.fst_eq e
  next e =>
    refine .foldl_fst (hs.muAccess.fst_eq e) fun ⟨t, r⟩ _ ht => ?_
    split
    next e2 => exact ht.fst_eq e2
    next e2 => exact (ht.fst_eq e2).readAccess

theorem State.canonical.muWriteAs {i : Issuer} {die vq ctx va : Nat} {bytes : List Byte} (hs : s.canonical) :
    (s.muWriteAs i die vq ctx va bytes).1.canonical := by
  unfold State.muWriteAs
  split
  next e => exact hs.muAccess.fst_eq e
  next e =>
    refine .foldl_fst (hs.muAccess.fst_eq e) fun ⟨t, r⟩ _ ht => ?_
    split
    next e2 => exact ht.fst_eq e2
    next e2 => exact (ht.fst_eq e2).writeAccess

theorem State.canonical.muRead {die vq ctx va len : Nat} (hs : s.canonical) :
    (s.muRead die vq ctx va len).1.canonical := hs.muReadAs

theorem State.canonical.muWrite {die vq ctx va : Nat} {bytes : List Byte} (hs : s.canonical) :
    (s.muWrite die vq ctx va bytes).1.canonical := hs.muWriteAs

theorem State.canonical.spillFails {q : Queue} {inc va : Nat} (hs : s.canonical) : (s.spillFails q inc va).1.canonical :=
  .ite_fst hs hs.asyncRecord

theorem State.canonical.ringWrite {id : Qid} {q : Queue} {r : Record} (hs : s.canonical) : (s.ringWrite id q r).1.canonical := by
  unfold State.ringWrite
  refine .ite_fst hs ?_
  dsimp only
  split
  next e => exact (hs.muWrite.fst_eq e).spillFails
  next e => exact hs.muWrite.fst_eq e

theorem State.canonical.refill {id : Qid} {q : Queue} (hs : s.canonical) : (s.refill id q).1.canonical := by
  unfold State.refill
  split
  · exact hs
  · refine .ite_fst hs ?_
    dsimp only
    split
    next e => exact hs.muRead.fst_eq e
    next e =>
      have he := hs.muRead.fst_eq e
      exact .ite he.spillFails.count he.spillFails

theorem State.canonical.lose {q : Queue} {pos step : Nat} {r : Record} (hs : s.canonical) : (s.lose q pos step r).1.canonical :=
  .ite hs.count hs

theorem State.canonical.displace {id : Qid} {q : Queue} {fuel : Nat} (hs : s.canonical) : (s.displace id q fuel).1.canonical := by
  induction fuel generalizing s q with
  | zero => exact hs
  | succ fuel ih =>
    unfold State.displace
    split
    · exact hs
    · split
      · exact hs
      · split
        · exact hs
        · exact ih hs.lose.refill

theorem State.canonical.keep {id : Qid} {q : Queue} {a : Record} (hs : s.canonical) : (s.keep id q a).1.canonical := by
  unfold State.keep
  refine .ite_fst ?_ hs
  split
  next e => exact hs.ringWrite.fst_eq e
  next e => exact (hs.ringWrite.fst_eq e).lose

theorem State.canonical.fallback {id : Qid} {q : Queue} {p : Nat} {a : Record} (hs : s.canonical) :
    (s.fallback id q p a).1.canonical := by
  unfold State.fallback
  split
  · dsimp only
    exact hs.displace.keep
  · extract_lets c q'
    clear_value q'
    split
    · dsimp only
      refine .keep ?_
      split
      · exact hs.displace
      · exact hs
    · exact hs
  · exact hs.lose

theorem State.canonical.spill {id : Qid} {q : Queue} {a : Record} (hs : s.canonical) : (s.spill id q a).1.canonical := by
  unfold State.spill
  split
  next e => exact hs.ringWrite.fst_eq e
  next e => exact (hs.ringWrite.fst_eq e).fallback

theorem State.canonical.storeControl {id : Qid} {q : Queue} {a : Record} (hs : s.canonical) :
    (s.storeControl id q a).1.canonical := by
  unfold State.storeControl
  extract_lets add raise lastWclose newest upstream wclose
  have hadd : ∀ {t : State} {q : Queue} {p : Place}, t.canonical → (add t q p).1.canonical := fun ht => ht
  clear_value add raise lastWclose upstream wclose
  refine .ite_fst hs (.ite_fst (hadd hs) ?_)
  split
  · exact hs
  · exact hs
  · split
    next e => exact .ite_fst (hadd (hs.displace.fst_eq e)) (hs.displace.fst_eq e).count

theorem State.canonical.countShed {q : Queue} {p : Nat} (hs : s.canonical) : (s.countShed q p).canonical := hs.count

/-- A configuration record may write a bank's bytes. -/
theorem State.canonical.putBankData {rid : Nat} {r : Region} {w : CfgWrite} (hs : s.canonical) :
    (s.putBankData rid r w).canonical := by
  unfold State.putBankData
  dsimp only
  split
  · exact hs.count
  · split
    · exact hs.count
    · refine .ite hs.count (.updRegion ?_)
      split
      next e =>
        obtain ⟨_, _, e⟩ := Option.bind_eq_some_iff.1 e
        exact hs.putGroupData e
      · exact hs.updMs_wf id wf_writeBytes

theorem State.canonical.nodeBanks {n : Nid} {rs : List Record} (hs : s.canonical) : (s.nodeBanks n rs).canonical := by
  unfold State.nodeBanks
  refine .foldl hs fun t _ ht => ?_
  split
  · exact .ite ht.putBankData ht
  · exact ht

theorem State.canonical.passCfg {id : Qid} {q : Queue} {a : Record} (hs : s.canonical) : (s.passCfg id q a).1.canonical := by
  unfold State.passCfg
  refine .ite_fst hs ?_
  split
  · exact hs
  · exact hs.count

theorem State.canonical.judge {id : Qid} {q : Queue} {a : Record} (hs : s.canonical) : (s.judge id q a).1.canonical := by
  unfold State.judge
  refine .ite_fst hs.spill (.ite_fst hs ?_)
  split
  · split
    · exact hs.countShed
    · exact hs.countShed.fallback
  · exact .ite_fst hs.countShed hs.countShed.fallback
  · exact hs.countShed.spill
  · exact hs.countShed.fallback

theorem State.canonical.shear {id : Qid} {q : Queue} {a : Record} (hs : s.canonical) : (s.shear id q a).1.canonical :=
  .ite_fst hs.storeControl (.ite_fst hs.passCfg hs.judge)

theorem State.canonical.arriveAt {id : Qid} {a : Record} (hs : s.canonical) : (s.arriveAt id a).1.canonical := by
  unfold State.arriveAt
  split
  · exact hs
  · exact hs.shear.setQueue

/-! ### Taking an instruction (Machine/Issue.lean) -/

theorem State.canonical.updBlock {a : Aid} {f : Block → Block} (hs : s.canonical) : (s.updBlock a f).canonical := hs.updAgent

theorem State.canonical.sendTo {a : Aid} {idx : Nat} {t : Target} {v : Val} {keep : Vec} (hs : s.canonical) :
    (s.sendTo a idx t v keep).canonical := by
  unfold State.sendTo
  split
  · exact hs
  · split
    · exact hs
    · split
      · exact .ite hs.takeTrap hs.updBlock
      · exact .ite hs (.ite hs.updBlock hs.updBlock)

theorem State.canonical.deliver {i : Issue} {v0 v1 : Val} {keep : Vec} (hs : s.canonical) : (s.deliver i v0 v1 keep).canonical := by
  unfold State.deliver
  dsimp only
  split
  · exact .ite hs.updBlock.sendTo.sendTo hs.updBlock.sendTo
  · exact hs.updBlock.sendTo

theorem State.canonical.decline {i : Issue} (hs : s.canonical) : (s.decline i).canonical := hs.updBlock

theorem State.canonical.note {i : Issue} {exc : Bool} {flags : FlagSet} (hs : s.canonical) : (s.note i exc flags).canonical :=
  hs.countAt.updBlock

/-- A body that keeps the form keeps it as an instruction's effect. -/
theorem State.canonical.issue {ins : Ins} {body : Issue → Operands → State → State} (hs : s.canonical)
    (hb : ∀ (i : Issue) (o : Operands) (t : State), t.canonical → (body i o t).canonical) : (s.issue ins body).canonical := by
  unfold State.issue
  split
  · exact hs
  · split
    · exact hs
    · exact hs.decline
    · exact hb _ _ _ hs.note

theorem State.canonical.issueWhen {ins : Ins} {when_ : Issue → Bool} {body : Issue → Operands → State → State} (hs : s.canonical)
    (hb : ∀ (i : Issue) (o : Operands) (t : State), t.canonical → (body i o t).canonical) :
    (s.issueWhen ins when_ body).canonical := by
  unfold State.issueWhen
  split
  · exact hs
  · split
    · exact hs
    · exact hs.decline
    · exact .ite (hb _ _ _ hs.note) hs

theorem State.canonical.raiseFlags {i : Issue} {flags : FlagSet} (hs : s.canonical) :
    (s.raiseFlags i flags).canonical := hs.updBlock

theorem State.canonical.valueBody {f : Opnds → Res} {i : Issue} {o : Operands} (hs : s.canonical) : (valueBody f i o s).canonical :=
  hs.raiseFlags.deliver

theorem State.canonical.execVal {ins : Ins} {f : Opnds → Res} (hs : s.canonical) : Answer.canonical (execVal ins f s) :=
  .next (.issue hs fun _ _ _ ht => ht.valueBody)

/-! ### Puts (Machine/Ports.lean) -/

theorem State.canonical.putOn {d : OutDest} {r : Record} (hs : s.canonical) : (s.putOn d r).canonical := by
  unfold State.putOn
  split
  · exact hs.arriveAt
  · exact hs.updFab
  · exact hs.updFab

theorem State.canonical.putOn? {d : Option OutDest} {r : Record} (hs : s.canonical) : (s.putOn? d r).canonical := by
  unfold State.putOn?
  split
  · exact hs.putOn
  · exact hs

theorem State.canonical.dequeue {id : Qid} {n : Nat} (hs : s.canonical) : (s.dequeue id n).canonical := by
  unfold State.dequeue
  split
  · exact hs
  · exact .setQueue (.foldl_fst hs fun _ _ ht => ht.refill)

theorem State.canonical.takeHead {id : Qid} (hs : s.canonical) : (s.takeHead id).1.canonical := by
  unfold State.takeHead
  split
  · exact hs.dequeue
  · exact hs

theorem State.canonical.arriveVal {a : Aid} {code id : Nat} {v : Val} (hs : s.canonical) : (s.arriveVal a code id v).canonical :=
  hs.updAgent

/-! ### Stream instructions (Machine/Stream.lean) -/

theorem State.canonical.readEntry {f : Record → Vec} {i : Issue} {o : Operands} (hs : s.canonical) :
    (readEntry f i o s).canonical :=
  hs.updBlock.deliver

theorem State.canonical.execKind {f : FX} (hs : s.canonical) : Answer.canonical (execKind f s) :=
  .next (.issue hs fun _ _ _ ht => ht.readEntry)

theorem State.canonical.putAll {i : Issue} {r : Nat → Record} (hs : s.canonical) : (s.putAll i r).canonical :=
  .foldl hs.updBlock fun _ _ ht => ht.updBlock

theorem State.canonical.putNothing {i : Issue} (hs : s.canonical) : (s.putNothing i).canonical := hs.updBlock

theorem State.canonical.putBody {i : Issue} {o : Operands} (hs : s.canonical) : (putBody i o s).canonical :=
  .ite (.ite hs.updBlock.putNothing hs.updBlock.putAll) hs.putAll

theorem State.canonical.execPutk {f : FX} (hs : s.canonical) : Answer.canonical (execPutk f s) :=
  .next (.issue hs fun _ _ _ ht => .ite ht.raiseFlags.putNothing ht.putAll)

theorem State.canonical.execGap {f : FX} (hs : s.canonical) : Answer.canonical (execGap f s) :=
  .next (.issue hs fun _ _ _ ht => .ite ht.raiseFlags.putNothing ht.putAll)

theorem State.canonical.wcloseBody {i : Issue} {o : Operands} (hs : s.canonical) : (wcloseBody i o s).canonical := hs.putAll

theorem State.canonical.execSkip {f : FX} (hs : s.canonical) : Answer.canonical (execSkip f s) :=
  .next (.issue hs fun _ _ _ ht => ht.updBlock.deliver)

theorem State.canonical.withPort {i : Issue} {o : Operands} {f : Nat → Behind → State} (hs : s.canonical)
    (hf : ∀ (n : Nat) (p : Behind), (f n p).canonical) : (s.withPort i o f).canonical := by
  unfold State.withPort
  dsimp only
  split
  · exact hf _ _
  · exact hs.takeTrap

theorem State.canonical.execQstat {f : FX} (hs : s.canonical) : Answer.canonical (execQstat f s) :=
  .next (.issue hs fun _ _ _ ht => .withPort ht fun _ _ => ht.deliver)

theorem State.canonical.execQstatClr {f : FX} (hs : s.canonical) : Answer.canonical (execQstatClr f s) :=
  .next (.issue hs fun _ _ _ ht => .withPort ht fun _ _ => ht.updBlock.deliver)

theorem State.canonical.execQpol {f : FX} (hs : s.canonical) : Answer.canonical (execQpol f s) :=
  .next (.issue hs fun _ _ _ ht => .withPort ht fun _ _ => ht.updBlock)

theorem State.canonical.applyQpol {g : Agent} {n : Nat} {w0only : Bool} {b : Vec} (hs : s.canonical) :
    (s.applyQpol g n w0only b).1.canonical := by
  unfold State.applyQpol
  split
  · exact hs
  · split
    · exact hs
    · exact .ite hs.setQueue hs

theorem State.canonical.applyQclr {g : Agent} {n sel v : Nat} (hs : s.canonical) : (s.applyQclr g n sel v).canonical := by
  unfold State.applyQclr
  split
  · exact hs
  · exact hs.updQueue

/-! ### Control instructions (Machine/Control.lean) -/

theorem State.canonical.exitTo {i : Issue} {x : ExitTo} (hs : s.canonical) : (s.exitTo i x).canonical := hs.updBlock

theorem State.canonical.execCall {f : FX} (hs : s.canonical) : Answer.canonical (execCall f s) :=
  .next (.issue hs fun _ _ _ ht => ht.deliver.exitTo)

theorem State.canonical.sendAtCommit {i : Issue} {v : Val} (hs : s.canonical) : (s.sendAtCommit i v).canonical := by
  unfold State.sendAtCommit
  split
  · exact hs.deliver
  · exact hs.updBlock

theorem State.canonical.loopnBody {i : Issue} {o : Operands} (hs : s.canonical) :
    (loopnBody i o s).canonical := hs.sendAtCommit.exitTo

theorem State.canonical.trapBody {cause : Nat} {i : Issue} {x : Operands} (hs : s.canonical) : (trapBody cause i x s).canonical :=
  .ite hs.decline hs.takeTrap

theorem State.canonical.execRdr {f : FX} (hs : s.canonical) : Answer.canonical (execRdr f s) :=
  .next (.issue hs fun _ _ _ ht => .ite ht.takeTrap (.ite hs ht.updBlock.deliver))

theorem State.canonical.execMfs {f : FI} (hs : s.canonical) : Answer.canonical (execMfs f s) :=
  .next (.issue hs fun _ _ _ ht => .deliver (.ite ht.updBlock ht))

theorem State.canonical.execTick {f : F0} (hs : s.canonical) : Answer.canonical (execTick f s) :=
  .next (.issue hs fun _ _ _ ht => ht.deliver)

theorem State.canonical.awaitDeadline {i : Issue} {w : Nat} {dep : List Nat} (hs : s.canonical) :
    (s.awaitDeadline i w dep).canonical := hs.updAgent

theorem State.canonical.execTwaitF1 {f : FX} (hs : s.canonical) : Answer.canonical (execTwaitF1 f s) :=
  .next (.issue hs fun _ _ _ ht => ht.awaitDeadline)

theorem State.canonical.wake {a : Aid} {value : Nat} {e : Nat × List Nat} (hs : s.canonical) : (s.wake a value e).canonical := by
  unfold State.wake
  split
  · exact hs
  · exact hs.updAgent.deliver

theorem State.canonical.execTwaitDeadline {a : Aid} (hs : s.canonical) : Answer.canonical (execTwaitDeadline a s) :=
  .next (.ite (.foldl hs fun _ _ ht => ht.wake) hs)

/-! ### Memory instructions (Machine/Memory.lean) -/

theorem State.canonical.faultAt {i : Issue} {cause va : Nat} (hs : s.canonical) : (s.faultAt i cause va).canonical := hs.takeTrap

theorem State.canonical.checkElements {i : Issue} {need : Need} {refuses : Access → Bool} {xs : List (Nat × Nat × Nat)}
    (hs : s.canonical) : (s.checkElements i need refuses xs).1.canonical := by
  induction xs generalizing s with
  | nil => exact hs
  | cons x xs ih =>
    unfold State.checkElements
    split
    · exact hs
    · split
      next e => exact hs.access.fst_eq e
      next e =>
        have he := hs.access.fst_eq e
        split
        · exact he
        · split
          next e2 => exact (ih he).fst_eq e2
          next e2 => exact (ih he).fst_eq e2

theorem State.canonical.startLoad {i : Issue} {o : Operands} {parts : List (Access × List Elem)} {size : Nat} {base : List Nat}
    {sys : Bool} (hs : s.canonical) :
    (s.startLoad i o parts size base sys).canonical := .updBlock (.updMs (.foldl_fst hs.takeId fun _ _ ht => ht.takeId.updMs))

theorem State.canonical.deliverLoad {i : Issue} {v : Val} {keep : Vec} {dep : List Nat} (hs : s.canonical) :
    (s.deliverLoad i v keep dep).canonical := by
  unfold State.deliverLoad
  dsimp only
  split
  · exact .ite hs.updBlock.sendTo.sendTo hs.updBlock.sendTo
  · exact hs.updBlock.sendTo

theorem State.canonical.finishLoad {l : LoadOp} (hs : s.canonical) : (s.finishLoad l).canonical := by
  unfold State.finishLoad
  split
  · exact hs
  · exact hs.deliverLoad

theorem State.canonical.touchLine {i : Issue} {own : Bool} {x : Access} (hs : s.canonical) : (s.touchLine i own x).canonical := by
  unfold State.touchLine
  refine .ite hs ?_
  split
  · exact hs
  · exact hs.fetched.recall.setLineTs.stashFill

theorem State.canonical.touchLines {i : Issue} {xs : List Access} {own : Bool} (hs : s.canonical) :
    (s.touchLines i xs own).canonical := .foldl hs fun _ _ ht => ht.touchLine

theorem State.canonical.loadFault {i : Issue} {o : Operands} {c va : Nat} (hs : s.canonical) :
    (s.loadFault i o c va).canonical := by
  unfold State.loadFault
  split
  next e => exact (hs.checkElements.fst_eq e).faultAt
  next e =>
    have he := hs.checkElements.fst_eq e
    split
    · exact he.ueMet.faultAt
    · exact he.faultAt

theorem State.canonical.loadBody {sys : Bool} {i : Issue} {o : Operands} (hs : s.canonical) : (loadBody sys i o s).canonical := by
  unfold Machine.loadBody
  split
  next e =>
    have he := hs.checkElements.fst_eq e
    exact .ite he.countAt.deliver he.loadFault
  next e =>
    have he := hs.checkElements.fst_eq e
    exact .ite (.ite he.countAt.deliver he.touchLines.deliver) (.ite he.deliverLoad he.startLoad)

theorem State.canonical.execPref {f : FX} (hs : s.canonical) : Answer.canonical (execPref f s) := by
  unfold Machine.execPref
  refine .next (.issue hs fun _ _ t ht => (.ite ht.countAt.updBlock ?_))
  split
  next e => exact (ht.access.fst_eq e).countAt.updBlock
  next e =>
    have he := ht.access.fst_eq e
    exact .ite he.countAt.updBlock he.touchLines.updBlock

theorem State.canonical.storeBody {sys : Bool} {i : Issue} {o : Operands} (hs : s.canonical) : (storeBody sys i o s).canonical := by
  unfold Machine.storeBody
  split
  next e => exact (hs.checkElements.fst_eq e).faultAt
  next e => exact (hs.checkElements.fst_eq e).updBlock

theorem State.canonical.fenceToken {i : Issue} {o : Operands} {ts : Nat} (hs : s.canonical) : (s.fenceToken i o ts).canonical :=
  hs.takeStamp.deliver

theorem State.canonical.execFence {f : FI} (hs : s.canonical) : Answer.canonical (execFence f s) :=
  .next (.issueWhen hs fun _ _ _ ht => ht.fenceToken)

theorem State.canonical.execQfence {f : FI} (hs : s.canonical) : Answer.canonical (execQfence f s) :=
  .next (.issueWhen hs fun _ _ _ ht => ht.fenceToken)

theorem State.canonical.stashBody {i : Issue} {o : Operands} (hs : s.canonical) : (stashBody i o s).canonical :=
  .ite hs.faultAt hs.updBlock

theorem State.canonical.execSmap {f : FX} (hs : s.canonical) : Answer.canonical (execSmap f s) := by
  unfold Machine.execSmap
  refine .next (.issue hs fun _ _ t ht => ?_)
  dsimp only
  split
  · exact ht.faultAt
  · exact .ite ht.faultAt (.ite ht.faultAt (.ite ht.faultAt ht.updBlock))

theorem State.canonical.execLdsh {f : FX} (hs : s.canonical) : Answer.canonical (execLdsh f s) := by
  unfold Machine.execLdsh
  refine .next (.issue hs fun _ _ t ht => ?_)
  dsimp only
  split
  · exact ht.faultAt
  · refine .ite ht.faultAt (.ite ht.faultAt (.ite ht.faultAt ?_))
    split
    next e => exact (ht.accesses.fst_eq e).faultAt
    next e => exact (ht.accesses.fst_eq e).startLoad

theorem State.canonical.atomicBody {op : MemOp} {lock : Bool} {i : Issue} {o : Operands} (hs : s.canonical) :
    (atomicBody op lock i o s).canonical := by
  unfold Machine.atomicBody
  split
  next e => exact (hs.checkElements.fst_eq e).faultAt
  next e => exact (hs.checkElements.fst_eq e).updBlock

theorem State.canonical.execLkwait {f : FX} (hs : s.canonical) : Answer.canonical (execLkwait f s) :=
  .next (.issue hs fun _ _ _ ht => .ite ht.faultAt ht.atomicBody)

/-! ### Engine commands and the copy engine (Machine/Engine.lean) -/

theorem State.canonical.cmdBody {q : EngineKind} {args : Issue → Operands → CmdArgs} {i : Issue} {o : Operands} (hs : s.canonical) :
    (cmdBody q args i o s).canonical := hs.updBlock

theorem State.canonical.execCpyx {f : FX} (hs : s.canonical) : Answer.canonical (execCpyx f s) :=
  .next (.issue hs fun _ _ _ ht => ht.updBlock.sendTo)

theorem State.canonical.execMrd {f : FX} (hs : s.canonical) : Answer.canonical (execMrd f s) :=
  .next (.issue hs fun _ _ _ ht => .ite ht.faultAt ht.cmdBody)

theorem State.canonical.barBody {kind : Nat} {i : Issue} {o : Operands} (hs : s.canonical) :
    (barBody kind i o s).canonical := hs.updBlock

theorem State.canonical.genkBody {i : Issue} {o : Operands} (hs : s.canonical) : (genkBody i o s).canonical := hs.updBlock

theorem State.canonical.updCmd {a : Aid} {e : EngineKind} {id : Nat} {f : Cmd → Cmd} (hs : s.canonical) :
    (s.updCmd a e id f).canonical := hs.updAgent

theorem State.canonical.cmdDone {a : Aid} {e : EngineKind} {id : Nat} {v : Vec} (hs : s.canonical) :
    (s.cmdDone a e id v).canonical :=
  hs.updCmd

theorem State.canonical.cmdBad {a : Aid} {e : EngineKind} {id sub : Nat} (hs : s.canonical) :
    (s.cmdBad a e id sub).canonical := hs.cmdDone

theorem State.canonical.cmdFault {a : Aid} {e : EngineKind} {id cause prog : Nat} (hs : s.canonical) :
    (s.cmdFault a e id cause prog).canonical := hs.cmdDone

theorem State.canonical.askEngine {a : Aid} {e : EngineKind} {c : Cmd} (hs : s.canonical) : (s.askEngine a e c).canonical := by
  unfold State.askEngine
  split
  · exact hs
  · exact hs.updMs

theorem State.canonical.updMe {n : Nid} {f : Me → Me} (hs : s.canonical) : (s.updMe n f).canonical := hs.updFab

theorem State.canonical.engineRead {a : Aid} {e : EngineKind} {va len : Nat} (hs : s.canonical) :
    (s.engineRead a e va len).1.canonical := by
  unfold State.engineRead
  split
  next e => exact hs.access.fst_eq e
  next e => exact (hs.access.fst_eq e).readAccess

theorem State.canonical.writeEnabled {i : Issuer} {ctx : Nat} {x : Access} {bytes : List Byte} {en : Nat} {sys : Bool}
    (hs : s.canonical) : (s.writeEnabled i ctx x bytes en sys).1.canonical := .foldl_fst hs fun _ _ ht => .ite_fst ht.writeAccess ht

theorem State.canonical.engineWrite {a : Aid} {e : EngineKind} {id va : Nat} {bytes : List Byte} {en : Nat} (hs : s.canonical) :
    (s.engineWrite a e id va bytes en).1.canonical := by
  unfold State.engineWrite
  split
  next e => exact hs.access.fst_eq e
  next e =>
    have he := hs.access.fst_eq e
    refine .ite_fst he.takeId.updMs ?_
    split
    next e2 => exact he.writeEnabled.fst_eq e2
    next e2 => exact he.writeEnabled.fst_eq e2

theorem State.canonical.copyUnit {a : Aid} {c : Cmd} (hs : s.canonical) : (s.copyUnit a c).canonical := by
  unfold State.copyUnit
  refine .ite hs.cmdDone ?_
  refine .ite ?_ ?_
  · refine .ite hs ?_
    split
    next e => exact (hs.engineRead.fst_eq e).cmdFault
    next e =>
      have he := hs.engineRead.fst_eq e
      exact .ite (.updCmd he) he.updCmd
  · split
    next e => exact (hs.engineWrite.fst_eq e).cmdFault
    next e =>
      have he := hs.engineWrite.fst_eq e
      exact .ite he.updCmd.cmdDone he.updCmd

theorem State.canonical.updAgen {n : Nid} {f : Agen → Agen} (hs : s.canonical) : (s.updAgen n f).canonical := hs.updFab

theorem State.canonical.takeParam {n : Nid} {q : Qid} {fuel : Nat} (hs : s.canonical) : (s.takeParam n q fuel).canonical := by
  induction fuel generalizing s with
  | zero => exact hs
  | succ fuel ih =>
    unfold State.takeParam
    split
    next e => exact hs.takeHead.fst_eq e
    next e =>
      have he := hs.takeHead.fst_eq e
      dsimp only
      refine .ite (ih he) ?_
      split
      · exact he.count
      · split
        · exact he.updAgen
        · exact .ite he.count (ih he.count)

theorem State.canonical.installShape {n : Nid} {e : Shape × Aid × Nat × Nat × List Nat} (hs : s.canonical) :
    (s.installShape n e).canonical := hs.updAgen.arrive

theorem State.canonical.roundBoundary {n : Nid} (hs : s.canonical) : (s.roundBoundary n).canonical := by
  unfold State.roundBoundary
  split
  · exact hs
  · split
    · exact .takeParam (.foldl hs.updAgen fun _ _ ht => ht.installShape)
    · exact .foldl hs.updAgen fun _ _ ht => ht.installShape

theorem State.canonical.loadShape {n : Nid} {bytes : List Byte} {a : Aid} {reg id : Nat} {dep : List Nat} (hs : s.canonical) :
    (s.loadShape n bytes a reg id dep).canonical := by
  unfold State.loadShape
  split
  · exact hs.arrive
  · exact hs.arrive
  · exact .ite hs.installShape hs.updAgen

theorem State.canonical.releaseAgen {n : Nid} (hs : s.canonical) : (s.releaseAgen n).canonical :=
  .foldl hs.updAgen fun _ _ ht => ht.installShape

theorem State.canonical.releaseRound {id : Nat} (hs : s.canonical) : (s.releaseRound id).canonical :=
  .foldl hs fun _ _ ht => ht.releaseAgen

theorem State.canonical.cpytFails {a : Aid} {c : Cmd} {d q : Nid} {cause sub : Nat} (hs : s.canonical) :
    (s.cpytFails a c d q cause sub).canonical := hs.releaseAgen.releaseAgen.cmdDone

theorem State.canonical.cpytUnit {a : Aid} {c : Cmd} (hs : s.canonical) : (s.cpytUnit a c).canonical := by
  unfold State.cpytUnit
  split
  · exact hs.cmdBad
  · exact hs.cmdBad
  · refine .ite hs.cmdDone ?_
    extract_lets mine free starting r u v
    have hr : r.canonical := hs.roundBoundary
    have hu : u.canonical := .ite (.ite hr hr.roundBoundary) hs
    have hv : v.canonical := hu.updAgen.updAgen
    clear_value v u
    refine .ite hs ?_
    split
    · refine .ite hu.cpytFails (.ite hu.cpytFails (.ite hv ?_))
      split
      · refine .ite hv ?_
        split
        next e => exact (hv.engineRead.fst_eq e).cpytFails
        next e =>
          have he := hv.engineRead.fst_eq e
          exact .ite he.updCmd he.withFresh.updCmd
      · split
        · exact hv
        · split
          split
          next e => exact (hv.engineWrite.fst_eq e).cpytFails
          next e =>
            extract_lets n last w x
            have hw : w.canonical := (hv.engineWrite.fst_eq e).updCmd
            have hx : x.canonical := .ite hw.releaseAgen.releaseAgen hw
            exact .ite hx.cmdDone hx
    · exact hu.cpytFails

theorem State.canonical.startCopy {a : Aid} {c : Cmd} (hs : s.canonical) : (s.startCopy a c).canonical := by
  unfold State.startCopy
  refine .ite ?_ (.ite hs.cmdBad hs.askEngine)
  split
  · exact hs.cmdBad
  · exact hs.cmdBad
  · exact .ite hs.cmdBad hs.askEngine

/-! ### The matrix engine (Machine/Matrix.lean) -/

theorem State.canonical.finishRow {n : Nid} {d : PassDesc} {row : Nat} {bytes : List Byte} {time : Option Nat} {exc : Bool}
    {sr : List Nat} (hs : s.canonical) : (s.finishRow n d row bytes time exc sr).canonical := by
  unfold State.finishRow
  split
  · exact hs
  · exact .ite (.foldl hs.updMe fun _ _ ht => ht.putOn?) hs.updMe

theorem State.canonical.swapTiles {n : Nid} (hs : s.canonical) : (s.swapTiles n).1.canonical := by
  unfold State.swapTiles
  split
  · exact hs
  · exact .ite_fst hs (.ite_fst hs hs.updMe)

theorem State.canonical.endPass {n : Nid} {a : Aid} {id v : Nat} (hs : s.canonical) :
    (s.endPass n a id v).canonical := hs.updMe.cmdDone

theorem State.canonical.readRow {n : Nid} {a : Aid} {c : Cmd} {size : Nat} {go : State → List Byte → State} (hs : s.canonical)
    (hg : ∀ (t : State) (bs : List Byte), t.canonical → (go t bs).canonical) : (s.readRow n a c size go).canonical := by
  unfold State.readRow
  refine .ite hs ?_
  split
  next e => exact (hs.engineRead.fst_eq e).endPass
  next e => exact hg _ _ (hs.engineRead.fst_eq e)

theorem State.canonical.mmulUnit {a : Aid} {c : Cmd} (hs : s.canonical) : (s.mmulUnit a c).canonical := by
  unfold State.mmulUnit
  split
  · exact hs.cmdBad
  · extract_lets d size swapped needs finish
    have hf : ∀ {t : State} {buf : List Byte}, t.canonical → (finish t buf).canonical := fun ht =>
      .ite ht.finishRow.updCmd.endPass ht.finishRow.updCmd
    clear_value finish needs
    split
    next u outcome e =>
    have hu : u.canonical := State.canonical.fst_eq (.ite_fst hs.swapTiles hs) e
    split
    · exact .ite (hu.readRow fun _ _ ht => ht.updCmd) hu.updMe
    · exact hu.endPass
    · extract_lets v
      have hv : v.canonical := .ite hu.updMe hu
      exact .ite (hf hv) (hv.readRow fun _ _ ht => .ite ht.updCmd (hf ht))

theorem State.canonical.mldUnit {a : Aid} {c : Cmd} (hs : s.canonical) : (s.mldUnit a c).canonical := by
  unfold State.mldUnit
  split
  · exact hs.cmdBad
  · refine .ite hs (.ite hs ?_)
    split
    next e => exact (hs.engineRead.fst_eq e).cmdFault
    next e =>
      have he := hs.engineRead.fst_eq e
      extract_lets buf size tile u v
      have hv : v.canonical := he.updMe.cmdDone
      clear_value v
      refine .ite he.updCmd ?_
      split
      · refine .ite ?_ hv
        split
        · exact hv.updMe.askEngine
        · exact hv
      · exact hv

theorem State.canonical.updPass {n : Nid} {f : Pass → Pass} (hs : s.canonical) : (s.updPass n f).canonical := hs.updMe

theorem State.canonical.endStream {n : Nid} {a : Aid} {id v : Nat} (hs : s.canonical) : (s.endStream n a id v).canonical := by
  unfold State.endStream
  dsimp only
  split
  · exact hs.endPass.putOn?
  · exact hs.endPass

theorem State.canonical.boundary {n : Nid} {a : Aid} {id rows done : Nat} (hs : s.canonical) :
    (s.boundary n a id rows done).canonical := by
  unfold State.boundary
  split
  · exact .ite hs.endStream hs
  · exact hs

theorem State.canonical.trySwap {n : Nid} {a : Aid} {id rows done : Nat} (hs : s.canonical) :
    (s.trySwap n a id rows done).canonical := by
  unfold State.trySwap
  split
  next e => exact (hs.swapTiles.fst_eq e).updPass.boundary
  next e => exact hs.swapTiles.fst_eq e
  next e => exact (hs.swapTiles.fst_eq e).endStream

theorem State.canonical.afterRow {n : Nid} {a : Aid} {id rows done : Nat} (hs : s.canonical) :
    (s.afterRow n a id rows done).canonical := by
  unfold State.afterRow
  split
  · exact hs
  · exact .ite (.boundary (.updPass (.foldl hs fun _ _ ht => ht.putOn?))) (.trySwap (.updPass (.foldl hs fun _ _ ht => ht.putOn?)))

theorem State.canonical.streamRow {n : Nid} {a : Aid} {c : Cmd} {rs : List Record} (hs : s.canonical) :
    (s.streamRow n a c rs).canonical := by
  unfold State.streamRow
  split
  · exact hs.finishRow.updCmd.afterRow
  · exact hs

theorem State.canonical.meTake {n : Nid} {m : Me} {p : Pass} {c : Cmd} {q : Qid} {r : Record} (hs : s.canonical) :
    (s.meTake n m p c q r).canonical := by
  unfold State.meTake
  extract_lets go
  have hg : go.canonical := hs.dequeue.progress
  clear_value go
  split
  · exact .ite hg.updPass hg.putOn?
  · exact .ite hg.updPass hg.putOn?
  · exact .ite hg.updPass hg.putOn?
  · have hc : ∀ {d n : Nat} {v : Option Nat} {c : Prop} [Decidable c], (if c then go.count d v n else go).canonical :=
      .ite hg.count hg
    exact .ite hc.updPass hc.updPass.trySwap
  · exact .ite hg.updPass.streamRow hg.updPass.boundary
  · exact hg.putOn?
  · exact .foldl hg.nodeBanks fun _ _ ht => ht.putOn?
  · exact hg
  · exact hg
  · exact .ite hg.updPass.streamRow hg.updPass

theorem State.canonical.meStream {n : Nid} (hs : s.canonical) : (s.meStream n).canonical := by
  unfold State.meStream
  split
  · exact hs
  · dsimp only
    split
    · refine .ite hs.trySwap ?_
      split
      · exact hs.meTake
      · exact hs
    · exact .ite hs.dequeue.putOn? (.ite (.foldl hs.dequeue.nodeBanks fun _ _ ht => ht.putOn?) hs)
    · exact hs

theorem State.canonical.startMatrix {a : Aid} {c : Cmd} (hs : s.canonical) : (s.startMatrix a c).canonical := by
  unfold State.startMatrix
  split
  · exact hs.cmdBad
  · refine .ite hs.cmdBad ?_
    split
    · exact .ite hs.cmdBad (.ite hs.cmdFault hs.askEngine)
    · exact .ite hs.cmdBad (.ite hs.cmdFault (.ite hs.updMe hs.updMe.askEngine))
    · exact hs.cmdDone
    · exact hs.updMe.cmdDone
    · exact .ite hs.cmdBad hs.updMe.cmdDone

/-! ### The forest and accumulator engine (Machine/Fuller.lean) -/

theorem State.canonical.fullerAccess {a : Aid} {va len : Nat} {need : Need} (hs : s.canonical) :
    (s.fullerAccess a va len need).1.canonical := by
  unfold State.fullerAccess
  refine .ite_fst hs ?_
  split
  next e => exact hs.access.fst_eq e
  next e =>
    have he := hs.access.fst_eq e
    exact .ite_fst he he

theorem State.canonical.fullerRead {a : Aid} {va len : Nat} (hs : s.canonical) : (s.fullerRead a va len).1.canonical := by
  unfold State.fullerRead
  split
  next e => exact hs.fullerAccess.fst_eq e
  next e => exact (hs.fullerAccess.fst_eq e).readAccess

theorem State.canonical.fullerWrite {a : Aid} {va len v : Nat} (hs : s.canonical) : (s.fullerWrite a va len v).1.canonical := by
  unfold State.fullerWrite
  split
  next e => exact hs.fullerAccess.fst_eq e
  next e =>
    have he := hs.fullerAccess.fst_eq e
    split
    next e2 => exact he.writeAccess.fst_eq e2
    next e2 => exact he.writeAccess.fst_eq e2

theorem State.canonical.fullerRmw {a : Aid} {va len : Nat} {f : Nat → Option Nat} (hs : s.canonical) :
    (s.fullerRmw a va len f).1.canonical := by
  unfold State.fullerRmw
  split
  next e => exact hs.fullerAccess.fst_eq e
  next e =>
    have he := hs.fullerAccess.fst_eq e
    split
    next e2 => exact he.readAccess.fst_eq e2
    next e2 =>
      have he2 := he.readAccess.fst_eq e2
      split
      · exact he2.homeWrite
      · exact he2

theorem State.canonical.fullerReserve {a : Aid} {f : Forest} {k : Nat} (hs : s.canonical) :
    (s.fullerReserve a f k).1.canonical := by
  unfold State.fullerReserve
  split
  next e => exact hs.fullerRead.fst_eq e
  next e =>
    split
    · exact hs.fullerRead.fst_eq e
    · exact hs.fullerRmw

/-- The state of an engine unit is canonical. -/
def Unit_.canonical (u : Unit_) : Prop := u.s.canonical

section
variable {u : Unit_} {a : Aid} {f : Forest}

theorem Unit_.canonical.andThen {α β : Type} {r : Part α} {f : Unit_ → α → Part β} (hr : r.1.canonical)
    (hf : ∀ (u : Unit_) (x : α), u.canonical → (f u x).1.canonical) : (r.andThen f).1.canonical := by
  obtain ⟨u, e | x⟩ := r
  · exact hr
  · exact hf u x hr

theorem Unit_.canonical.ite {α : Type} {c : Prop} [Decidable c] {p q : Part α} (hp : p.1.canonical) (hq : q.1.canonical) :
    (if c then p else q).1.canonical := by
  split
  · exact hp
  · exact hq

theorem Unit_.canonical.event {va : Nat} {perform : State → State × EngineEvent} (hu : u.canonical)
    (hp : ∀ t : State, t.canonical → (perform t).1.canonical) : (u.event va perform).1.canonical := by
  unfold Unit_.event
  split
  · exact hu
  · exact .ite hu (hp _ hu)

theorem Unit_.canonical.fRead {va len : Nat} (hu : u.canonical) : (u.fRead a va len).1.canonical :=
  hu.event fun _ ht => ht.fullerRead

theorem Unit_.canonical.fWrite {va len v : Nat} (hu : u.canonical) : (u.fWrite a va len v).1.canonical :=
  hu.event fun _ ht => ht.fullerWrite

theorem Unit_.canonical.fRmw {va len : Nat} {f : Nat → Option Nat} (hu : u.canonical) : (u.fRmw a va len f).1.canonical :=
  hu.event fun _ ht => ht.fullerRmw

theorem Unit_.canonical.forest {va : Nat} (hu : u.canonical) : (u.forest a va).1.canonical := by
  unfold Unit_.forest
  exact .ite hu (.andThen hu.fRead fun _ _ hu => .ite hu (.ite hu hu))

theorem Unit_.canonical.reserve {k : Nat} (hu : u.canonical) : (u.reserve a f k).1.canonical := by
  unfold Unit_.reserve
  exact .andThen (hu.event fun _ ht => ht.fullerReserve) fun _ _ hu => .ite hu (.ite hu hu)

theorem Unit_.canonical.logWrite {slot : Option Nat} {i old : Nat} (hu : u.canonical) :
    (u.logWrite a f slot i old).1.canonical := by
  unfold Unit_.logWrite
  split
  · exact hu
  · exact .andThen hu.fWrite fun _ _ hu => hu

theorem Unit_.canonical.logVoid {slot : Option Nat} (hu : u.canonical) : (u.logVoid a f slot).1.canonical := hu.logWrite

theorem Unit_.canonical.casEntry {i old new : Nat} (hu : u.canonical) : (u.casEntry a f i old new).1.canonical :=
  .andThen hu.fRmw fun _ _ hu => hu

theorem Unit_.canonical.climb {fuel x : Nat} {path : List (Nat × Nat)} (hu : u.canonical) :
    (u.climb a f fuel x path).1.canonical := by
  induction fuel generalizing u x path with
  | zero => exact hu
  | succ fuel ih => exact .andThen hu.fRead fun _ _ hu => .ite hu (ih hu)

theorem Unit_.canonical.compress {root : Nat} {path : List (Nat × Nat)} (hu : u.canonical) :
    (u.compress a f root path).1.canonical := by
  induction path generalizing u with
  | nil => exact hu
  | cons y path ih =>
    refine .ite (ih hu) (.andThen hu.reserve fun _ r hu => ?_)
    cases r with
    | none => exact hu
    | some slot =>
      exact .andThen hu.casEntry fun _ _ hu => .andThen (.ite hu.logWrite hu.logVoid) fun _ _ hu => ih hu

theorem Unit_.canonical.findRoot {x : Nat} (hu : u.canonical) : (u.findRoot a f x).1.canonical := by
  unfold Unit_.findRoot
  exact .ite hu (.andThen hu.climb fun _ _ hu => .andThen hu.compress fun _ _ hu => hu)

theorem Unit_.canonical.addSize {slot : Option Nat} {k fuel w : Nat} (hu : u.canonical) :
    (u.addSize a f slot k fuel w).1.canonical := by
  induction fuel generalizing u w with
  | zero => exact hu
  | succ fuel ih =>
    exact .andThen hu.fRmw fun _ _ hu => .ite hu.logWrite (.andThen hu.findRoot fun _ _ hu => ih hu)

theorem Unit_.canonical.uniteLoop {x y : Nat} {slot : Option Nat} {fuel : Nat} (hu : u.canonical) :
    (u.uniteLoop a f x y slot fuel).1.canonical := by
  induction fuel generalizing u with
  | zero => exact hu
  | succ fuel ih =>
    unfold Unit_.uniteLoop
    refine .andThen hu.findRoot fun _ _ hu => .andThen hu.findRoot fun _ _ hu => .ite ?_ ?_
    · exact .andThen hu.logVoid fun _ _ hu => .andThen hu.logVoid fun _ _ hu => hu
    · dsimp only
      exact .andThen hu.casEntry fun _ _ hu => .ite
        (.andThen hu.logWrite fun _ _ hu => .andThen hu.addSize fun _ _ hu => hu) (ih hu)

theorem Unit_.canonical.unite {x y : Nat} (hu : u.canonical) : (u.unite a f x y).1.canonical := by
  unfold Unit_.unite
  refine .andThen hu.reserve fun _ r hu => ?_
  cases r with
  | none => exact hu
  | some slot => exact hu.uniteLoop

theorem Unit_.canonical.forEach {one : Unit_ → Nat → Nat → Part Nat} {fuel k last acc : Nat} (hu : u.canonical)
    (ho : ∀ (u : Unit_) (k acc : Nat), u.canonical → (one u k acc).1.canonical) :
    (u.forEach one fuel k last acc).1.canonical := by
  induction fuel generalizing u k acc with
  | zero => exact hu
  | succ fuel ih => exact .ite hu (.andThen (ho _ _ _ hu) fun _ _ hu => ih hu)

theorem Unit_.canonical.ufinit {va n rule : Nat} (hu : u.canonical) : (u.ufinit a va n rule).1.canonical := by
  unfold Unit_.ufinit
  exact .ite hu (.andThen hu.fRead fun _ _ hu => .ite hu (.ite hu
    (.andThen (.forEach hu fun _ _ _ hu => hu.fWrite) fun _ _ hu => .andThen hu.fWrite fun _ _ hu => hu)))

theorem Unit_.canonical.relabel {rec ty rm : Nat} (hu : u.canonical) : (u.relabel a f rec ty rm).1.canonical := by
  unfold Unit_.relabel
  exact .ite hu (.andThen hu.fRead fun _ _ hu => .ite hu (.ite hu (.ite hu
    (.andThen (.forEach hu fun _ _ _ hu => .andThen hu.findRoot fun _ _ hu => .andThen hu.fRead fun _ _ hu => hu.fRmw)
      fun _ _ hu => hu))))

theorem Unit_.canonical.ufsnap {close : Bool} (hu : u.canonical) : (u.ufsnap a f close).1.canonical := by
  unfold Unit_.ufsnap
  exact .ite hu (.andThen hu.fRmw fun _ _ hu => .ite (.ite hu hu) hu)

theorem Unit_.canonical.ufundo {mark : Nat} (hu : u.canonical) : (u.ufundo a f mark).1.canonical := by
  unfold Unit_.ufundo
  exact .andThen hu.fRead fun _ _ hu => .ite hu (.ite hu (.andThen (.forEach hu fun _ _ _ hu =>
    .andThen hu.fRead fun _ _ hu => .ite hu (.andThen hu.fWrite fun _ _ hu => hu)) fun _ _ hu =>
      .andThen hu.fRmw fun _ _ hu => hu))

theorem Unit_.canonical.command {c : CmdArgs} (hu : u.canonical) : (u.command a c).1.canonical := by
  unfold Unit_.command
  refine .ite hu.ufinit (.andThen hu.forest fun _ _ hu => ?_)
  split
  · exact hu.unite
  · exact .andThen hu.findRoot fun _ _ hu => hu
  · exact hu.relabel
  · exact .andThen hu.findRoot fun _ _ hu => hu
  · exact hu.ufsnap
  · exact hu.ufundo

theorem Unit_.canonical.voidSlots {ks : List Nat} (hu : u.canonical) : (u.voidSlots a ks).1.canonical := by
  induction ks generalizing u with
  | nil => exact hu
  | cons k ks ih =>
    have hw : (u.fWrite a k 16 voidEntry).1.canonical := hu.fWrite
    unfold Unit_.voidSlots
    split
    next e => rwa [e] at hw
    next e =>
      rw [e] at hw
      exact ih hw

theorem Unit_.canonical.run {c : CmdArgs} (hu : u.canonical) : (u.run a c).1.canonical := by
  have hc : (u.command a c).1.canonical := hu.command
  unfold Unit_.run
  split
  next e =>
    rw [e] at hc
    exact .andThen hc.voidSlots fun _ _ hu => hu
  · exact hc

end

theorem State.canonical.fullerUnit {a : Aid} {c : Cmd} (hs : s.canonical) : (s.fullerUnit a c).canonical := by
  have hr : ((Unit_.mk s c.log none true [] none).run a c.args).1.canonical := Unit_.canonical.run hs
  unfold State.fullerUnit
  split
  next e =>
    rw [e] at hr
    exact State.canonical.cmdDone hr
  next e =>
    rw [e] at hr
    exact State.canonical.cmdDone hr
  next e =>
    rw [e] at hr
    exact State.canonical.updCmd hr

theorem State.canonical.cutFuller {a : Aid} (hs : s.canonical) : (s.cutFuller a).canonical := by
  unfold State.cutFuller
  split
  · exact hs
  · exact .foldl hs fun _ _ ht => .foldl ht fun _ _ ht => ht.fullerWrite

/-! ### The walk engine (Machine/Needle.lean) -/

theorem State.canonical.updWalk {w : Walk} (hs : s.canonical) : (s.updWalk w).canonical := hs.updMs

theorem State.canonical.endWalk {w : Walk} {token next : Nat} (hs : s.canonical) :
    (s.endWalk w token next).canonical := hs.updMs.cmdDone

theorem State.canonical.walkLoad {a : Aid} {node got : Nat} (hs : s.canonical) : (s.walkLoad a node got).1.canonical := by
  unfold State.walkLoad
  refine .ite_fst hs (.ite_fst hs ?_)
  split
  next e => exact hs.access.fst_eq e
  next e =>
    have he := hs.access.fst_eq e
    exact .ite_fst he he.readAccess

theorem State.canonical.serviceRecord {a : Aid} {o : Origin} {cause va handle : Nat} (hs : s.canonical) :
    (s.serviceRecord a o cause va handle).canonical := by
  unfold State.serviceRecord
  split
  · exact hs.postRaised
  · exact hs

theorem State.canonical.walkFaults {w : Walk} {cause va : Nat} (hs : s.canonical) : (s.walkFaults w cause va).canonical := by
  unfold State.walkFaults
  split
  · exact hs.endWalk
  · exact hs.agentRecord.endWalk
  · exact hs.updWalk.serviceRecord

theorem State.canonical.walkUnit {a : Aid} {c : Cmd} (hs : s.canonical) : (s.walkUnit a c).canonical := by
  unfold State.walkUnit
  split
  · exact hs.cmdBad
  · split
    · split
      · exact hs.endWalk
      · split
        next e => exact (hs.walkLoad.fst_eq e).updCmd.walkFaults
        next e =>
          have he := hs.walkLoad.fst_eq e
          exact .ite he.updCmd.updWalk he.updCmd.updWalk

theorem State.canonical.wruleUnit {a : Aid} {c : Cmd} (hs : s.canonical) : (s.wruleUnit a c).canonical := by
  unfold State.wruleUnit
  split
  next e => exact (hs.engineRead.fst_eq e).cmdFault
  next e =>
    have he := hs.engineRead.fst_eq e
    exact .ite he.updCmd (.ite he.cmdBad he.updAgent.cmdDone)

theorem State.canonical.wstat {a : Aid} {c : Cmd} (hs : s.canonical) : (s.wstat a c).canonical := by
  unfold State.wstat
  dsimp only
  split
  · exact hs.cmdDone
  · exact hs.cmdDone
  · refine .ite hs.cmdBad ?_
    refine .ite ?_ hs.endWalk.cmdDone
    refine .cmdDone ?_
    split
    · exact hs.updWalk.askEngine
    · exact hs.updWalk
  · exact hs.cmdBad

theorem State.canonical.startNeedle {a : Aid} {c : Cmd} (hs : s.canonical) : (s.startNeedle a c).canonical := by
  unfold State.startNeedle
  split
  · exact .ite hs.cmdDone hs.takeId.updMs.askEngine
  · exact .ite hs.cmdBad (.ite hs.cmdFault hs.askEngine)
  · exact hs.wstat

theorem State.canonical.updHacc {n : Nid} {f : Hacc → Hacc} (hs : s.canonical) : (s.updHacc n f).canonical := hs.updFab

theorem State.canonical.haccAdd {i : Issuer} {n : Nid} {c x w : Nat} (hs : s.canonical) : (s.haccAdd i n c x w).canonical := by
  unfold State.haccAdd
  split
  · exact hs
  · split
    · exact hs.updHacc
    · refine .ite hs.updHacc ?_
      split
      next e => exact (hs.muWriteAs.fst_eq e).updHacc
      next e => exact (hs.muWriteAs.fst_eq e).updHacc

theorem State.canonical.haccFlush {n : Nid} {bs : List Byte} {failed : Bool} (hs : s.canonical) :
    (s.haccFlush n bs failed).1.canonical := by
  unfold State.haccFlush
  split
  · exact hs
  · exact .updHacc (.putOn? (.ite (.foldl hs.free fun _ _ ht => ht.putOn?) (.putOn? (.foldl hs.free fun _ _ ht => ht.putOn?))))

theorem State.canonical.startFuller {a : Aid} {c : Cmd} (hs : s.canonical) : (s.startFuller a c).canonical := by
  unfold State.startFuller
  refine .ite hs.askEngine ?_
  split
  · exact hs.cmdBad
  · exact .ite hs.cmdBad (.ite hs.cmdBad hs.askEngine)

theorem State.canonical.haccUnit {a : Aid} {c : Cmd} (hs : s.canonical) : (s.haccUnit a c).canonical := by
  unfold State.haccUnit
  split
  · exact hs.cmdBad
  · split
    · exact hs.cmdBad
    · split
      · exact .ite hs (.ite hs.cmdDone hs.haccAdd.cmdDone)
      · refine .ite hs (.ite hs.haccFlush.cmdDone ?_)
        dsimp only
        split
        next e => exact (hs.updHacc.muReadAs.fst_eq e).updCmd
        next e => exact (hs.updHacc.muReadAs.fst_eq e).haccFlush.cmdDone
      · exact hs.cmdDone

/-! ### The nodes of the fabric (Machine/Nodes.lean) -/

theorem State.canonical.countNode {n : Nid} {code : Nat} (hs : s.canonical) : (s.countNode n code).canonical := hs.count

theorem State.canonical.hop {k : Nat} (hs : s.canonical) : (s.hop k).canonical := by
  unfold State.hop
  split
  · exact hs
  · exact .ite hs (.ite hs.updFab hs.updFab)

theorem State.canonical.inject {src dst : Qid} {rs : List Record} (hs : s.canonical) : (s.inject src dst rs).canonical := by
  unfold State.inject
  split
  · exact .ite hs.refuse hs.updFab
  · exact hs.updFab

theorem State.canonical.removeDrain {q : Qid} (hs : s.canonical) : (s.removeDrain q).canonical := by
  unfold State.removeDrain
  split
  · exact hs.dequeue.updRegion
  · exact hs.dequeue

theorem State.canonical.execRecordSend {q : Qid} (hs : s.canonical) : Answer.canonical (execRecordSend q s) := by
  unfold Machine.execRecordSend
  refine .next ?_
  split
  · exact hs
  · refine .ite hs (.ite hs.removeDrain (.ite hs.dequeue (.ite (.ite hs hs.dequeue.updQueue) ?_)))
    refine .ite hs.dequeue.inject ?_
    split
    next e => exact (hs.takeHead.fst_eq e).inject
    next e => exact hs.takeHead.fst_eq e

theorem State.canonical.arriveRun {q : Qid} {n : Nat} (hs : s.canonical) : (s.arriveRun q n).canonical := by
  induction n generalizing s with
  | zero => exact hs
  | succ n ih =>
    unfold State.arriveRun
    split
    · exact .ite (ih (.arriveAt hs.updFab)) hs
    · exact hs

theorem State.canonical.execRecordArrival {q : Qid} (hs : s.canonical) : Answer.canonical (execRecordArrival q s) := by
  unfold Machine.execRecordArrival
  refine .next (.ite hs ?_)
  split
  · exact .ite hs.arriveRun hs.updFab.arriveAt
  · exact hs

theorem State.canonical.execSpillRefill {q : Qid} (hs : s.canonical) : Answer.canonical (execSpillRefill q s) := by
  unfold Machine.execSpillRefill
  refine .next (.ite hs ?_)
  split
  · exact hs.refill.setQueue
  · exact hs

theorem State.canonical.linkArrive {q : Qid} (hs : s.canonical) : (s.linkArrive q).canonical := by
  unfold State.linkArrive
  split
  · exact .ite hs (.ite hs.updFab.count hs.updFab)
  · exact hs

theorem State.canonical.linkRun {q : Qid} {n : Nat} (hs : s.canonical) : (s.linkRun q n).canonical := by
  induction n generalizing s with
  | zero => exact hs
  | succ n ih =>
    unfold State.linkRun
    split
    · exact .ite (ih hs.linkArrive) hs
    · exact hs

theorem State.canonical.execLinkArrival {q : Qid} (hs : s.canonical) : Answer.canonical (execLinkArrival q s) := by
  unfold Machine.execLinkArrival
  refine .next (.ite hs ?_)
  split
  · exact .ite hs.linkRun hs.linkArrive
  · exact hs

theorem State.canonical.execJoinArcArrival {n : Nid} {arc : Nat} (hs : s.canonical) :
    Answer.canonical (execJoinArcArrival n arc s) := by
  unfold Machine.execJoinArcArrival
  refine .next (.ite hs ?_)
  split
  · exact .ite hs.updFab.countNode hs.updFab.updFab
  · exact hs

theorem State.canonical.execJoinFire {n : Nid} (hs : s.canonical) : Answer.canonical (execJoinFire n s) := by
  unfold Machine.execJoinFire
  refine .next ?_
  split
  · exact hs
  · exact .ite hs (.foldl hs.updFab fun _ _ ht => ht.putOn)

theorem State.canonical.execGeneratorPut {n : Nid} (hs : s.canonical) : Answer.canonical (execGeneratorPut n s) := by
  unfold Machine.execGeneratorPut
  refine .next ?_
  split
  · exact hs
  · exact .ite hs hs.updFab.putOn

theorem State.canonical.applyGenk {a : Aid} {sel : Nat} {key ctr : Dword} {flush : Bool} (hs : s.canonical) :
    (s.applyGenk a sel key ctr flush).1.canonical := by
  unfold State.applyGenk
  split
  · exact hs
  · split
    · exact hs
    · refine .ite_fst hs.updFab ?_
      split
      · exact hs.updFab.updQueue.updQueue.updFab
      · exact hs.updFab

theorem State.canonical.updWindow {n : Nid} {f : Window → Window} (hs : s.canonical) : (s.updWindow n f).canonical := hs.updFab

theorem State.canonical.winPut {n : Nid} {r : Record} (hs : s.canonical) : (s.winPut n r).canonical := by
  unfold State.winPut
  split
  · exact hs
  · exact hs.updWindow.putOn?

theorem State.canonical.winGap {n : Nid} {g : WinGap} (hs : s.canonical) : (s.winGap n g).canonical := by
  unfold State.winGap
  split
  · exact hs
  · exact .ite hs.countNode.updWindow hs.updWindow

theorem State.canonical.winData {n : Nid} {side : Nat} {r : Record} (hs : s.canonical) : (s.winData n side r).canonical := by
  unfold State.winData
  split
  · exact hs
  · refine .ite hs.countNode.updWindow ?_
    split
    · exact .ite hs.countNode.winGap hs.updWindow
    · exact .ite hs.updWindow (.ite hs.countNode.winGap hs.updWindow)

theorem State.canonical.closeWindow {n : Nid} {i : Nat} (hs : s.canonical) : (s.closeWindow n i).canonical := by
  unfold State.closeWindow
  split
  · exact hs
  · exact .foldl hs.updWindow fun _ _ ht => ht.winPut

theorem State.canonical.closeWindows {n : Nid} (hs : s.canonical) : (s.closeWindows n).canonical := by
  unfold State.closeWindows
  split
  · exact hs
  · extract_lets done mark token u v
    have hu : u.canonical := .foldl hs fun _ _ ht => ht.closeWindow.winPut
    have hv : v.canonical := hu.updWindow
    exact .ite hv.winPut hv

theorem State.canonical.execWindowInput {n : Nid} {input : Nat} (hs : s.canonical) :
    Answer.canonical (execWindowInput n input s) := by
  unfold Machine.execWindowInput
  refine .next ?_
  split
  · exact hs
  · split
    · exact hs
    · split
      · exact hs
      · extract_lets u
        have hu : u.canonical := hs.dequeue.progress
        clear_value u
        refine .ite ?drain (.ite ?cfg (.ite hu.winData (.ite hu.winGap ?mark)))
        case drain => exact .ite (.winPut (.foldl hs fun _ _ ht => ht.dequeue)) hs
        case cfg => exact .ite (.foldl hs fun _ _ ht => .foldl ht.dequeue.nodeBanks fun _ _ ht => ht.winPut) hs
        case mark =>
          exact .ite hu.updWindow.closeWindows (.ite (.ite hu hu.updWindow.closeWindows) (.ite hu.winPut hu))

theorem State.canonical.sinkFails {n : Nid} {k : Sink} {cause va : Nat} (hs : s.canonical) : (s.sinkFails n k cause va).canonical :=
  .countNode (.updFab (.ite hs hs.asyncRecord))

theorem State.canonical.sinkLog {n : Nid} {k : Sink} {r : Record} (hs : s.canonical) : (s.sinkLog n k r).canonical := by
  unfold State.sinkLog
  split
  · split
    next e => exact (hs.muRead.fst_eq e).sinkFails
    next e =>
      have he := hs.muRead.fst_eq e
      refine .ite he.updFab.countNode ?_
      split
      next e2 => exact (he.updFab.muWrite.fst_eq e2).sinkFails
      next e2 => exact (he.updFab.muWrite.fst_eq e2).updFab

theorem State.canonical.execSinkRecord {n : Nid} (hs : s.canonical) : Answer.canonical (execSinkRecord n s) := by
  unfold Machine.execSinkRecord
  refine .next ?_
  split
  · exact hs
  · split
    · exact hs
    · exact .arriveAt (.updFab (.ite hs.updFab.sinkLog hs.updFab))

theorem State.canonical.execMeStreamRecord {n : Nid} (hs : s.canonical) : Answer.canonical (execMeStreamRecord n s) :=
  .next (.ite hs.meStream hs)

/-! ### Requests and replies (Machine/Requests.lean) -/

theorem State.canonical.endShot {w : SysWait} (hs : s.canonical) : (s.endShot w).canonical := by
  unfold State.endShot
  split
  · exact hs.arrive
  · exact hs.shootDown.updContext
  · exact hs.send

theorem State.canonical.settleSys (hs : s.canonical) : s.settleSys.canonical := .foldl hs.updSched fun _ _ ht => ht.updOut.endShot

theorem State.canonical.beginShot {x : Shot} {id : Nat} {ends : ShotEnd} (hs : s.canonical) : (s.beginShot x id ends).canonical :=
  .settleSys (.updSched (.ite hs.shootDown.updOut hs.shootDown))

theorem State.canonical.askPod {id ctx : Nat} {va : Option Nat} (hs : s.canonical) : (s.askPod id ctx va).canonical :=
  .ite hs hs.updOut.send

theorem State.canonical.podShoot {pkg id ctx : Nat} {va : Option Nat} (hs : s.canonical) : (s.podShoot pkg id ctx va).canonical :=
  hs.takeId.beginShot

theorem State.canonical.podShootDone {pkg id : Nat} (hs : s.canonical) : (s.podShootDone pkg id).canonical := hs.updOut.settleSys

theorem State.canonical.retire {r : Req} (hs : s.canonical) : (s.retire r).canonical := hs.updMs.setStamp.settleSys

theorem State.canonical.podRefused {a : Aid} {id cause : Nat} (hs : s.canonical) : (s.podRefused a id cause).canonical := by
  unfold State.podRefused
  split
  · exact .ite hs hs.updMs.releaseRound.setStamp.settleSys.cmdFault
  · exact hs

theorem State.canonical.answerGroup {grp : Nat} {failed : Bool} (hs : s.canonical) : (s.answerGroup grp failed).canonical := by
  unfold State.answerGroup
  split
  · exact hs
  · exact .ite hs.updMs.arrive hs.updMs

theorem State.canonical.answer {r : Req} {v : Nat} (hs : s.canonical) : (s.answer r v).canonical := by
  unfold State.answer
  split
  · exact hs.arrive
  · exact hs.answerGroup
  · exact hs

theorem State.canonical.takeTag {mu : Option Nat} {id inc : Nat} (hs : s.canonical) : (s.takeTag mu id inc).canonical := by
  unfold State.takeTag
  split
  · exact hs.updMs
  · exact hs

theorem State.canonical.tagReplied {mu : Option Nat} {id : Nat} (hs : s.canonical) : (s.tagReplied mu id).canonical := by
  unfold State.tagReplied
  split
  · exact hs.updMs
  · exact hs

theorem State.canonical.tagUpTo {r : Req} (hs : s.canonical) : (s.tagUpTo r).canonical :=
  .ite hs (.foldl hs fun _ _ ht => .ite ht ht.takeTag)

theorem State.canonical.retried {die vq ctx : Nat} {x : Access} (hs : s.canonical) : (s.retried die vq ctx x).1.canonical := by
  unfold State.retried
  dsimp only
  split
  next e => exact hs.count.updMs.translate.fst_eq e
  next e => exact hs.count.updMs.translate.fst_eq e

theorem State.canonical.retryReq {r : Req} (hs : s.canonical) : (s.retryReq r).canonical := by
  unfold State.retryReq
  split
  · exact hs
  · exact hs.retried.updMs

theorem State.canonical.elementFails {r : Req} {va : Nat} (hs : s.canonical) : (s.elementFails r va).1.canonical := hs.agentRecord

theorem State.canonical.storeElement {r : Req} {e : Elem} {sys : Bool} (hs : s.canonical) :
    (s.storeElement r e sys).1.canonical := by
  unfold State.storeElement
  refine .ite_fst hs.updMs ?_
  split
  next e => exact hs.writeEnabled.fst_eq e
  next e => exact (hs.writeEnabled.fst_eq e).elementFails

theorem State.canonical.endDonation {r : Req} {op : MemOp} {old : Nat} (hs : s.canonical) : (s.endDonation r op old).canonical := by
  unfold State.endDonation
  split
  · exact .ite hs.updLaunch hs
  · exact hs

theorem State.canonical.readElement {r : Req} {e : Elem} {sys : Bool} (hs : s.canonical) : (s.readElement r e sys).1.canonical :=
  hs.readAccess

theorem State.canonical.atomicElement {r : Req} {e : Elem} {op : MemOp} {ty W : Nat} (hs : s.canonical) :
    (s.atomicElement r e op ty W).1.canonical := by
  unfold State.atomicElement
  dsimp only
  split
  next e =>
    have he := hs.rmwAccess.fst_eq e
    split
    · exact he.endDonation.updMs
    · exact he.endDonation
  next e => exact (hs.rmwAccess.fst_eq e).elementFails

theorem State.canonical.finishRequest {r : Req} (hs : s.canonical) : (s.finishRequest r).canonical := by
  unfold State.finishRequest
  extract_lets mu
  clear_value mu
  split
  · exact hs.updMs.retire
  · exact .ite hs.tagReplied.retire hs.tagReplied.retire.answer
  · exact hs.tagReplied.retire.answer
  · exact hs

theorem State.canonical.perform {r : Req} (hs : s.canonical) : (s.perform r).canonical := by
  unfold State.perform
  split
  · exact hs.raisePts.finishRequest
  · refine .ite ?_ ?_
    · refine .finishRequest ?_
      split
      · exact hs.raisePts.readElement
      · exact hs.raisePts.storeElement
      · exact hs.raisePts.atomicElement
      · exact hs.raisePts
    · refine .updMs ?_
      split
      · exact hs.raisePts.readElement
      · exact hs.raisePts.storeElement
      · exact hs.raisePts.atomicElement
      · exact hs.raisePts

theorem State.canonical.engineUnit {a : Aid} {e : EngineKind} {id : Nat} (hs : s.canonical) : (s.engineUnit a e id).canonical := by
  unfold State.engineUnit
  split
  · exact hs.updMs
  · extract_lets u v done holds waits w
    have hu : u.canonical := hs.raisePts
    have hv : v.canonical := by
      dsimp only [v]
      split
      · exact hu.cpytUnit
      · exact hu.copyUnit
      · exact hu.mldUnit
      · exact hu.mmulUnit
      · exact hu.walkUnit
      · exact hu.wruleUnit
      · exact .ite hu.fullerUnit hu.haccUnit
    have hw : w.canonical := hv.updMs
    exact .ite (.ite hw.setStamp hw) hv

theorem State.canonical.loseRequest {r : Req} {die : Nat} (hs : s.canonical) : (s.loseRequest r die).canonical := hs.refuse.updMs

theorem State.canonical.sendRequest {r : Req} (hs : s.canonical) : (s.sendRequest r).canonical := by
  unfold State.sendRequest
  refine .ite hs (.ite hs.tagUpTo ?_)
  split
  · exact hs.tagUpTo.loseRequest
  · exact hs.tagUpTo.perform

theorem State.canonical.serveEngine {a : Aid} {e : EngineKind} {c : Cmd} {r : Req} (hs : s.canonical) :
    (s.serveEngine a e c r).canonical := by
  unfold State.serveEngine
  dsimp only
  split
  · exact hs.engineUnit
  · split
    · exact hs.retried
    · exact hs
    · exact .ite hs hs.takeTag.tagReplied.engineUnit

theorem State.canonical.execMemoryRequest {id : Nat} (hs : s.canonical) : Answer.canonical (execMemoryRequest id s) := by
  unfold Machine.execMemoryRequest
  refine .next ?_
  split
  · exact hs
  · refine .ite hs ?_
    split
    · split
      · exact .ite hs.serveEngine hs
      · exact hs.engineUnit
    · split
      · exact hs.retryReq
      · exact hs
      · refine .ite ?_ hs.sendRequest
        refine .ite hs (.ite hs.tagUpTo ?_)
        split
        · exact hs.tagUpTo.loseRequest
        · exact hs.tagUpTo.takeId.updMs

theorem State.canonical.orphan {r : Req} (hs : s.canonical) :
    (s.orphan r).canonical := hs.raisePts.rmwAccess.tagReplied.retire.answer

theorem State.canonical.execLkwaitAcquire {id : Nat} (hs : s.canonical) : Answer.canonical (execLkwaitAcquire id s) := by
  unfold Machine.execLkwaitAcquire
  refine .next ?_
  split
  · exact hs
  · split
    · exact hs
    · exact .ite (.ite hs.retryReq hs) (.ite hs.perform (.ite (.ite hs.perform hs) (.ite hs.orphan hs)))

theorem State.canonical.loadComplete {l : LoadOp} (hs : s.canonical) : (s.loadComplete l).canonical := by
  unfold State.loadComplete
  split
  · exact hs.updMs.updBlock
  · exact hs.updMs.finishLoad

theorem State.canonical.execLoadReply {id : Nat} (hs : s.canonical) : Answer.canonical (execLoadReply id s) := by
  unfold Machine.execLoadReply
  refine .next ?_
  split
  · exact hs
  · dsimp only
    split
    · refine .ite hs.updMs.tagReplied.count ?_
      split
      · exact hs.updMs.tagReplied
      · refine .ite hs.updMs.tagReplied.updMs ?_
        split
        · exact hs.updMs.tagReplied.takeTrap
        · exact hs.updMs.tagReplied.loadComplete
    · exact hs.updMs.tagReplied.count

theorem State.canonical.dropWait {id : Nat} (hs : s.canonical) : (s.dropWait id).canonical := hs.updFab

theorem State.canonical.barToken {w : BarWait} {v ts : Nat} (hs : s.canonical) : (s.barToken w v ts).canonical :=
  hs.setStamp.dropWait.arrive

theorem State.canonical.barRelease {k : Nat × Nat} {gen ts : Nat} (hs : s.canonical) : (s.barRelease k gen ts).canonical :=
  .ite (.send (.foldl hs fun _ _ ht => ht.barToken)) (.foldl hs fun _ _ ht => ht.barToken)

theorem State.canonical.barCount {w : BarWait} {g : Agent} {k : Nat × Nat} (hs : s.canonical) : (s.barCount w g k).canonical := by
  unfold State.barCount
  split
  · dsimp only
    split
    · exact hs.barToken
    · exact .ite (.barRelease (.barToken (.updFab (.ite hs.countAt hs)))) (.barToken (.updFab (.ite hs.countAt hs)))
  · dsimp only
    split
    · exact hs.barToken
    · exact .ite (.barRelease (.updFab (.ite hs.countAt hs))) (.updFab (.ite hs.countAt hs))

theorem State.canonical.barSend {w : BarWait} {g : Agent} {k : Nat × Nat} {home : Nat} (hs : s.canonical) :
    (s.barSend w g k home).canonical := hs.updFab.send

theorem State.canonical.execBarrierArrival {id : Nat} (hs : s.canonical) : Answer.canonical (execBarrierArrival id s) := by
  unfold Machine.execBarrierArrival
  refine .next ?_
  split
  · exact hs
  · split
    · exact hs
    · exact .ite (.ite hs.barToken hs) (.ite hs (.ite hs.barSend hs.barCount))

theorem State.canonical.podArrival {pkg word kind ctx id : Nat} (hs : s.canonical) :
    (s.podArrival pkg word kind ctx id).canonical := by
  unfold State.podArrival
  refine .ite hs ?_
  split
  · exact hs.send
  · exact .ite (.barRelease (.send (.updFab (.ite hs.count hs)))) (.send (.updFab (.ite hs.count hs)))

theorem State.canonical.podAnswer {id value : Nat} (hs : s.canonical) : (s.podAnswer id value).canonical := by
  unfold State.podAnswer
  split
  · exact hs
  · exact .ite hs.barToken (.ite hs.barToken hs.updFab)

theorem State.canonical.execPodBarrierRelease {bid_ gen : Nat} (hs : s.canonical) :
    Answer.canonical (execPodBarrierRelease bid_ gen s) :=
  .next (.foldl hs.updFab fun _ _ ht => .ite (.ite ht.barToken ht) (.ite ht.barToken ht))

theorem State.canonical.execEngineCommandStart {a : Aid} {e : EngineKind} (hs : s.canonical) :
    Answer.canonical (execEngineCommandStart a e s) := by
  unfold Machine.execEngineCommandStart
  refine .next ?_
  split
  · exact hs
  · split
    · exact hs
    · refine .ite hs ?_
      split
      · exact hs.updCmd.startCopy
      · exact hs.updCmd.startMatrix
      · exact hs.updCmd.startNeedle
      · exact hs.updCmd.startFuller

theorem State.canonical.execEngineCompletion {a : Aid} {e : EngineKind} (hs : s.canonical) :
    Answer.canonical (execEngineCompletion a e s) := by
  unfold Machine.execEngineCompletion
  refine .next ?_
  split
  · exact hs
  · split
    · exact hs
    · split
      · exact .ite hs.raisePts.setStamp.updAgent.agentProgress.arriveVal hs.raisePts.setStamp.updAgent.agentProgress.arriveVal.updAgent
      · exact hs.raisePts.setStamp.updAgent.agentProgress.arrive.arrive
      · exact hs.raisePts.setStamp.updAgent.agentProgress.arrive.updAgent

theorem State.canonical.execLeaseExpiryWriteback {rid row col mu bank line : Nat} (hs : s.canonical) :
    Answer.canonical (execLeaseExpiryWriteback rid row col mu bank line s) := by
  unfold Machine.execLeaseExpiryWriteback
  refine .next ?_
  dsimp only
  split
  · exact hs
  · exact .ite hs hs.putLine.updFab

theorem State.canonical.ptsAdvance {on : Nat → Bool} (hs : s.canonical) : (s.ptsAdvance on).canonical := hs

theorem State.canonical.execPtsAdvance (hs : s.canonical) : Answer.canonical (execPtsAdvance s) := .next hs.ptsAdvance

theorem State.canonical.execTimestampRebase {p delta : Nat} (hs : s.canonical) : Answer.canonical (execTimestampRebase p delta s) :=
  .next hs

theorem State.canonical.execTranslationWalk {die quad ctx : Nat} {va : BitVec 64} (hs : s.canonical) :
    Answer.canonical (execTranslationWalk die quad ctx va s) := .next (.ite hs hs.leafFor)

/-! ### Launches, kills and contexts (Machine/Lifecycle.lean) -/

theorem State.canonical.retireLq {n fuel : Nat} (hs : s.canonical) : (s.retireLq n fuel).canonical := by
  induction fuel generalizing s with
  | zero => exact hs
  | succ fuel ih =>
    unfold State.retireLq
    dsimp only
    split
    · exact .ite (ih (.ite hs.updLq.updSched hs.updLq)) hs
    · exact hs

theorem State.canonical.orderLaunch {rid ctx : Nat} (hs : s.canonical) : (s.orderLaunch rid ctx).canonical := hs.raisePts

theorem State.canonical.deviceWrite {die ctx va : Nat} {bytes : List Byte} (hs : s.canonical) :
    (s.deviceWrite die ctx va bytes).1.canonical := by
  unfold State.deviceWrite
  refine .ite_fst hs ?_
  split
  next e => exact hs.translate.fst_eq e
  next e =>
    have he := hs.translate.fst_eq e
    refine .ite_fst he.takeId.updMs ?_
    split
    next e2 => exact he.writeAccess.fst_eq e2
    next e2 => exact he.writeAccess.fst_eq e2

theorem State.canonical.writeCompletion {rid : Nat} {l : Launch} {status cause : Nat} (hs : s.canonical) :
    (s.writeCompletion rid l status cause).canonical := by
  unfold State.writeCompletion
  refine .ite hs (.ite hs.orderLaunch.asyncRecord ?_)
  split
  next e => exact hs.orderLaunch.deviceWrite.fst_eq e
  next e => exact (hs.orderLaunch.deviceWrite.fst_eq e).asyncRecord

theorem State.canonical.completeLaunch {rid status cause : Nat} (hs : s.canonical) :
    (s.completeLaunch rid status cause).canonical := by
  unfold State.completeLaunch
  split
  · exact hs
  · exact .ite hs hs.writeCompletion.updLaunch.retireLq

theorem State.canonical.flushRegionStashes {rid : Nat} (hs : s.canonical) : (s.flushRegionStashes rid).canonical :=
  .foldl hs fun _ _ ht => .ite ht (.updFab (.foldl ht fun _ _ ht => .ite ht.putLine ht))

theorem State.canonical.killMarker {src dst : Qid} (hs : s.canonical) : (s.killMarker src dst).canonical := by
  unfold State.killMarker
  split
  · exact hs
  · dsimp only
    split
    · exact .updFab (.foldl hs fun _ _ ht => ht.arriveAt)
    · exact .arriveAt (.updFab (.foldl hs fun _ _ ht => ht.arriveAt))

theorem State.canonical.dropRegion {rid : Nat} {keepExits : Bool} (hs : s.canonical) : (s.dropRegion rid keepExits).canonical :=
  .settleSys (.flushRegionStashes (.foldl hs fun _ _ ht => ht.cutFuller))

theorem State.canonical.retireInc {ctx inc : Nat} (hs : s.canonical) : (s.retireInc ctx inc).canonical := hs.updSched

theorem State.canonical.takeInc {ctx : Nat} (hs : s.canonical) : (s.takeInc ctx).2.canonical := hs.updContext

theorem State.canonical.clearTags {ctx inc : Nat} (hs : s.canonical) : (s.clearTags ctx inc).canonical := hs.updSched

theorem State.canonical.forgetLaunch {rid : Nat} (hs : s.canonical) : (s.forgetLaunch rid).canonical := by
  unfold State.forgetLaunch
  split
  · exact .ite hs.updSched hs
  · exact hs

theorem State.canonical.freeRegion {rid : Nat} (hs : s.canonical) : (s.freeRegion rid).canonical := by
  unfold State.freeRegion
  split
  · exact hs
  · exact hs.dropRegion.clearTags.retireInc.forgetLaunch

theorem State.canonical.answerRegionOp {r : Region} {status : Nat} (hs : s.canonical) : (s.answerRegionOp r status).canonical := by
  unfold State.answerRegionOp
  split
  · exact hs.arrive
  · exact hs.arrive
  · exact hs

theorem State.canonical.endRegionOp {r : Region} (hs : s.canonical) : (s.endRegionOp r).canonical := hs.answerRegionOp

theorem State.canonical.killNow {rid : Nat} (hs : s.canonical) : (s.killNow rid).canonical := by
  unfold State.killNow
  split
  · exact hs
  · split
    · exact hs.completeLaunch
    · extract_lets u outs marked v
      have hu : u.canonical := hs.endRegionOp.orderLaunch
      have hm : marked.canonical := .foldl hu fun _ _ ht => ht.killMarker
      have hv : v.canonical := .ite hm.takeInc.updSched.dropRegion.retireInc.retireInc hu.dropRegion.clearTags.retireInc
      exact hv.updSched.completeLaunch.forgetLaunch

theorem State.canonical.killLaunch {rid : Nat} (hs : s.canonical) :
    (s.killLaunch rid).canonical := .ite hs.updSched hs.updSched.killNow

theorem State.canonical.completeCall {c : Call} {status : Nat} {dep : List Nat} (hs : s.canonical) :
    (s.completeCall c status dep).canonical := hs.updSched.arrive

theorem State.canonical.finishContext {ctx : Nat} (hs : s.canonical) : (s.finishContext ctx).canonical :=
  .foldl hs.updContext fun _ _ ht => ht.completeCall

theorem State.canonical.endContext {ctx : Nat} {clear : Bool} (hs : s.canonical) : (s.endContext ctx clear).canonical := by
  have hk : ((s.heldLaunches ctx).foldl (fun s r => s.killLaunch r) s).canonical := .foldl hs fun _ _ ht => ht.killLaunch
  exact .ite hk (.ite hk.finishContext hk.updSched)

theorem State.canonical.retryKills (hs : s.canonical) : s.retryKills.canonical :=
  .foldl (.foldl hs fun _ _ ht => ht.killLaunch) fun _ _ ht => ht.updSched.finishContext

theorem State.canonical.closeCapture {rid kind : Nat} {drnp preempted : Bool} (hs : s.canonical) :
    (s.closeCapture rid kind drnp preempted).canonical := by
  unfold State.closeCapture
  split
  · exact hs
  · exact .updLaunch (.updSched (.updRegion (.updMs hs.flushRegionStashes.withdraw)))

theorem State.canonical.ladderNotice {lq step what : Nat} (hs : s.canonical) :
    (s.ladderNotice lq step what).canonical := hs.updQueue

theorem State.canonical.ladderIdle {lq : Nat} (hs : s.canonical) : (s.ladderIdle lq).canonical := hs.updLadder

theorem State.canonical.ladderKill {rid : Nat} (hs : s.canonical) : (s.ladderKill rid).canonical := by
  unfold State.ladderKill
  extract_lets lq u v
  have hu : u.canonical := .ite hs.killLaunch hs
  have hv : v.canonical := hu.updSched
  exact .ite hu (.ite hv hv.ladderNotice.ladderIdle)

theorem State.canonical.ladderKillsDue (hs : s.canonical) : s.ladderKillsDue.canonical := .foldl hs fun _ _ ht => ht.ladderKill

theorem State.canonical.execFreezeCaptureClose {rid : Nat} (hs : s.canonical) :
    Answer.canonical (execFreezeCaptureClose rid s) := by
  unfold Machine.execFreezeCaptureClose
  refine .next ?_
  split
  · split
    · refine .ite ?_ hs
      split
      · exact hs.closeCapture.arrive
      · exact hs.closeCapture
    · exact hs
  · exact hs

theorem State.canonical.putDrains {g : Agent} (hs : s.canonical) : (s.putDrains g).canonical := .foldl hs fun _ _ ht => ht.putOn

theorem State.canonical.startDrain {rid deadline : Nat} {by_ : Asker} {who : Option (Aid × Nat × Nat)} (hs : s.canonical) :
    (s.startDrain rid deadline by_ who).canonical := .foldl (.foldl hs.updRegion fun _ _ ht => ht.arriveAt) fun _ _ ht => ht.putDrains

theorem State.canonical.execDrainComplete {rid : Nat} (hs : s.canonical) : Answer.canonical (execDrainComplete rid s) := by
  unfold Machine.execDrainComplete
  refine .next ?_
  split
  · split
    · refine .ite ?_ hs
      extract_lets exits u v w lq
      have hv : v.canonical := .closeCapture (.foldl hs fun _ _ ht => ht.removeDrain)
      have hw : w.canonical := by
        clear_value v
        dsimp only [w]
        split
        · exact hv.arrive
        · exact hv
      exact .ite hw.ladderNotice.ladderIdle hw
    · exact hs
  · exact hs

theorem State.canonical.dropDrains {rid : Nat} (hs : s.canonical) : (s.dropDrains rid).canonical := hs

/-! ### Migration and partition change (Machine/Changes.lean) -/

/-- A flush drops entries of device memory. -/
theorem State.canonical.flushSlices {p : Nat} (hs : s.canonical) : (s.flushSlices p).canonical := by
  unfold State.flushSlices
  exact ⟨wf_filter _ hs.1, hs.2⟩

theorem State.canonical.rewriteVpt {d : Nat} (hs : s.canonical) : (s.rewriteVpt d).canonical := .ite hs.updRas.updOut hs.updRas

theorem State.canonical.shootAll (hs : s.canonical) : s.shootAll.canonical := hs.flushStash.updMs

theorem State.canonical.pchg {v : Nat} (hs : s.canonical) : (s.pchg v).canonical := by
  unfold State.pchg
  refine .ite hs (.ite hs.updSched ?_)
  split <;> exact hs.updSched

theorem State.canonical.pchgRest (hs : s.canonical) : s.pchgRest.canonical := by
  unfold State.pchgRest
  split
  · exact hs
  · extract_lets affected dies flushed changed linked rewritten
    have hf : flushed.canonical := .foldl hs fun _ _ ht => ht.flushSlices
    have hl : linked.canonical := .updSched (.foldl hf fun _ _ ht => ht.updPartition)
    have hr : rewritten.canonical := .foldl hl fun _ _ ht => ht.rewriteVpt
    exact hr.shootAll.updSched

theorem State.canonical.execPchgWrite {v : BitVec 64} (hs : s.canonical) : Answer.canonical (execPchgWrite v s) := .next hs.pchg

theorem State.canonical.mapState {α : Type} {f : State → α → State × α} {xs : List α} (hs : s.canonical)
    (hf : ∀ (t : State) (x : α), t.canonical → (f t x).1.canonical) : (Machine.mapState f s xs).1.canonical := by
  unfold Machine.mapState
  exact .foldl_fst hs fun p x hp => hf p.1 x hp

theorem State.canonical.retriedOld {old die vq ctx : Nat} {x : Access} (hs : s.canonical) :
    (s.retriedOld old die vq ctx x).1.canonical := .ite_fst hs hs.retried

theorem State.canonical.retryMoved {old : Nat} {r : Req} (hs : s.canonical) : (s.retryMoved old r).canonical := .ite hs hs.retryReq

theorem State.canonical.retryBlock {old : Nat} {g : Agent} {e : Firing × Block} (hs : s.canonical) :
    (Machine.State.retryBlock old g s e).1.canonical := by
  unfold State.retryBlock
  refine .mapState hs fun t f ht => ?_
  dsimp only
  split
  · exact .mapState ht fun _ _ hu => hu.retriedOld
  · exact ht

theorem State.canonical.retryAgent {old : Nat} {a : Aid} {g : Agent} (hs : s.canonical) : (s.retryAgent old a g).canonical := by
  unfold State.retryAgent
  dsimp only
  refine .updAgent ?_
  have hm : (Machine.mapState (Machine.State.retryBlock old g) (Machine.mapState (Machine.State.retryBlock old g) s g.older).1
      g.younger).1.canonical := .mapState (.mapState hs fun _ _ ht => ht.retryBlock) fun _ _ ht => ht.retryBlock
  split
  · exact hm.retryBlock
  · exact hm

theorem State.canonical.retryItem {old : Nat} {i : IopItem} (hs : s.canonical) : (s.retryItem old i).1.canonical := by
  unfold State.retryItem
  split
  · exact hs.retriedOld
  · exact hs

theorem State.canonical.retryAll {old : Nat} (hs : s.canonical) : (s.retryAll old).canonical := by
  unfold State.retryAll
  extract_lets requests agents
  have hr : requests.canonical := .foldl hs fun _ _ ht => ht.retryMoved
  have ha : agents.canonical := .foldl hr fun _ _ ht => ht.retryAgent
  refine .foldl ha fun _ _ ht => ?_
  dsimp only
  exact .updRequester (.mapState ht fun _ _ ht => ht.retryItem)

/-- A migrated page is written at its new place. -/
theorem State.canonical.copyPage {old new : Nat} (hs : s.canonical) : (s.copyPage old new).canonical := by
  unfold State.copyPage
  extract_lets t u v
  have hv : v.canonical := .foldl hs.recallRange.recallRange fun _ _ ht => ht.corrected
  clear_value v
  exact hv.updMs_wf (fun h => wf_writeBytes h) id

theorem State.canonical.migrate {p v : Nat} (hs : s.canonical) : (s.migrate p v).canonical :=
  .ite hs (.ite hs.updPartition (.ite hs.updPartition hs.updPartition))

theorem State.canonical.migrateRest {p : Nat} (hs : s.canonical) : (s.migrateRest p).canonical := by
  unfold State.migrateRest
  dsimp only
  split
  · exact hs
  · exact hs.shootDown.copyPage.retryAll.updPartition

theorem State.canonical.execMigrationGo {p : Nat} {v : BitVec 64} (hs : s.canonical) : Answer.canonical (execMigrationGo p v s) :=
  .next hs.migrate

theorem State.canonical.leaseLost {ctx : Nat} (hs : s.canonical) : (s.leaseLost ctx).canonical := hs.endContext.managementRecord

theorem State.canonical.settleLost (hs : s.canonical) : s.settleLost.canonical := by
  unfold State.settleLost
  split
  · exact hs
  · exact .foldl hs.updMs fun _ _ ht => ht.leaseLost

theorem State.canonical.abandonThread {d t : Nat} (hs : s.canonical) : (s.abandonThread d t).canonical := hs.updAgent.updQueue

theorem State.canonical.resetPartition {p : Nat} (hs : s.canonical) : (s.resetPartition p).canonical := by
  unfold State.resetPartition
  extract_lets x stop stopped ctxs ended running called threads abandoned flushed rewritten u
  have he : ended.canonical := .foldl hs.updSched fun _ _ ht => ht.endContext
  have ha : abandoned.canonical := .foldl he fun _ _ ht => ht.abandonThread
  have hr : rewritten.canonical := .foldl ha.flushSlices fun _ _ ht => ht.rewriteVpt
  have hu : u.canonical := .foldl hr fun _ _ ht => ht.shootDown
  exact hu.updSched

/-! ### The control processor and firmware (Machine/Firmware.lean) -/

theorem State.canonical.updFw {f : Firmware → Firmware} (hs : s.canonical) : (s.updFw f).canonical := hs.updOut

theorem State.canonical.updCp {c : Nat} {f : CpCore → CpCore} (hs : s.canonical) : (s.updCp c f).canonical := hs.updFw

theorem State.canonical.updCps {f : CpCore → CpCore} (hs : s.canonical) : (s.updCps f).canonical := .foldl hs fun _ _ ht => ht.updCp

theorem State.canonical.cpRead {pa n : Nat} (hs : s.canonical) : (s.cpRead pa n).1.canonical := by
  unfold State.cpRead
  extract_lets a t bytes free u
  split
  · exact hs.recallRange
  · exact .withFresh hs.recallRange.count

theorem State.canonical.fwDone {cmd st : Nat} (hs : s.canonical) : (s.fwDone cmd st).canonical := hs.updFw

theorem State.canonical.fwCommand {cmd slot : Nat} {act : State → State} (hs : s.canonical) (ha : (act s).canonical) :
    (s.fwCommand cmd slot act).canonical := by
  unfold State.fwCommand
  exact .ite hs.updFw (.ite hs.fwDone ha)

theorem State.canonical.fwStage {slot : Nat} (hs : s.canonical) : (s.fwStage slot).canonical := by
  unfold State.fwStage
  refine .fwCommand hs ?_
  extract_lets src
  split
  rename_i e
  have he := hs.cpRead.fst_eq e
  extract_lets len
  split
  rename_i e2
  refine .fwDone (.updFw ?_)
  split at e2
  · cases e2
    exact he
  · exact he.cpRead.fst_eq e2

theorem State.canonical.fwSwap {slot : Nat} (hs : s.canonical) : (s.fwSwap slot).canonical :=
  .fwCommand hs (.ite hs.fwDone hs.updCps.updFw)

theorem State.canonical.fwBootsel {slot : Nat} (hs : s.canonical) : (s.fwBootsel slot).canonical :=
  .fwCommand hs (.fwDone (.ite hs.updFw hs))

theorem State.canonical.fwSvnlock {slot : Nat} (hs : s.canonical) : (s.fwSvnlock slot).canonical := .fwCommand hs hs.updFw.fwDone

theorem State.canonical.fwctl {v : Nat} (hs : s.canonical) : (s.fwctl v).canonical := by
  unfold State.fwctl
  split
  · exact hs.fwStage
  · exact hs.fwSwap
  · exact hs.fwBootsel
  · exact hs.fwSvnlock
  · exact hs

theorem State.canonical.execStage {slot : Nat} (hs : s.canonical) : Answer.canonical (execStage slot s) := .next hs.fwStage

theorem State.canonical.execSwapFirmware {slot : Nat} (hs : s.canonical) :
    Answer.canonical (execSwapFirmware slot s) := .next hs.fwSwap

theorem State.canonical.execBootsel {slot : Nat} (hs : s.canonical) : Answer.canonical (execBootsel slot s) := .next hs.fwBootsel

theorem State.canonical.execSvnlock {slot : Nat} (hs : s.canonical) : Answer.canonical (execSvnlock slot s) := .next hs.fwSvnlock

theorem State.canonical.resumeRecord {r : SwapRecord} (hs : s.canonical) : (s.resumeRecord r).canonical :=
  .updOut (.updSched (.foldl hs fun _ _ ht => ht.updPartition))

theorem State.canonical.execBvswapWrite {core : Nat} {v : BitVec 64} (hs : s.canonical) :
    Answer.canonical (execBvswapWrite core v s) := by
  unfold Machine.execBvswapWrite
  refine .next (.ite hs ?_)
  dsimp only
  split
  · exact .ite hs.updCp.updCps.updFw hs.updCp
  · exact .ite hs.updCp.updCps.resumeRecord.updFw.fwDone hs.updCp
  · exact hs.updCp

theorem State.canonical.execTakeover (hs : s.canonical) : Answer.canonical (execTakeover s) := by
  unfold Machine.execTakeover
  refine .next ?_
  split
  · exact .ite hs hs.updCps.resumeRecord.updFw.fwDone
  · exact hs

theorem State.canonical.execBvcpwdWrite {core : Nat} (hs : s.canonical) : Answer.canonical (execBvcpwdWrite core s) :=
  .next (.ite hs.updCp hs)

theorem State.canonical.execCpWatchdogExpiry {core : Nat} (hs : s.canonical) : Answer.canonical (execCpWatchdogExpiry core s) :=
  .next (.ite hs hs.updCp.updCp.updFw)

theorem State.canonical.csrAccess {core addr : Nat} {write : Option Nat} (hs : s.canonical) :
    (s.csrAccess core addr write).canonical := by
  unfold State.csrAccess
  refine .ite hs ?_
  split
  · exact hs.send
  · split
    · exact hs.updCp
    · split
      next e => exact hs.execBvswapWrite _ e
      · exact hs
    · exact hs.updCp
    · exact hs

/-! ### Control registers (Machine/Registers.lean) -/

theorem State.canonical.writeLqTail {n v : Nat} (hs : s.canonical) : (s.writeLqTail n v).canonical := .ite hs.count hs.updLq

theorem State.canonical.notify {d t v : Nat} {sr : List Nat} (hs : s.canonical) : (s.notify d t v sr).1.canonical := by
  unfold State.notify
  split
  next e => exact (hs.arriveAt.fst_eq e).count
  · exact hs.arriveAt

theorem State.canonical.notifyFrom {part d t v : Nat} {sr : List Nat} (hs : s.canonical) : (s.notifyFrom part d t v sr).canonical :=
  .ite hs.refuse hs.notify

theorem State.canonical.writeCtxpt {c v : Nat} (hs : s.canonical) : (s.writeCtxpt c v).canonical := hs.takeId.beginShot

theorem State.canonical.writeCtxkill {c v : Nat} (hs : s.canonical) : (s.writeCtxkill c v).canonical := .ite hs.endContext hs

theorem State.canonical.writeCtxctl {c v : Nat} (hs : s.canonical) : (s.writeCtxctl c v).canonical := hs.updContext

theorem State.canonical.writeCtxsched {c v : Nat} {atM : Bool} (hs : s.canonical) : (s.writeCtxsched c v atM).canonical :=
  .ite hs.updContext hs.updContext.updContext

theorem State.canonical.writeCqdesc {d t v : Nat} (hs : s.canonical) : (s.writeCqdesc d t v).canonical := hs.updQueue

theorem State.canonical.writeCqctl {d t v : Nat} (hs : s.canonical) : (s.writeCqctl d t v).canonical := hs.updThreadCtl

theorem State.canonical.writeLqctl {n v : Nat} (hs : s.canonical) : (s.writeLqctl n v).canonical := hs.updLq

theorem State.canonical.updBudgets {p : Nat} {f : Budgets → Budgets} (hs : s.canonical) :
    (s.updBudgets p f).canonical := hs.updSched

theorem State.canonical.writeReg {r : Reg} {v : Nat} {atM : Bool} (hs : s.canonical) : (s.writeReg r v atM).canonical := by
  unfold State.writeReg
  split
  · exact hs.updLq
  · exact hs.writeLqctl
  · exact hs.updLq
  · exact hs.writeLqTail
  · exact hs.writeCtxctl
  · exact hs.writeCtxpt
  · exact hs.writeCtxsched
  · exact hs.writeCtxkill
  · exact hs.updContext
  · exact hs.writeCqctl
  · exact hs.writeCqdesc
  · exact hs.notify
  · exact .ite hs.updThreadCtl hs
  · exact hs.updPartition
  · exact hs.updPartition
  · exact hs.updPartition
  · exact hs.updPartition
  · exact hs.updPartition
  · exact hs.updPartition
  · exact hs.updPartition
  · exact hs.migrate
  · exact hs.updSched
  · exact hs.pchg
  · exact hs.updBudgets
  · exact hs.updBudgets
  · exact hs.updBudgets
  · exact hs.updFw
  · exact hs.fwctl
  · exact hs.updOut
  · exact hs.updRas
  all_goals exact hs

theorem State.canonical.writeCr {a v : Nat} {atM : Bool} (hs : s.canonical) : (s.writeCr a v atM).canonical := by
  unfold State.writeCr
  split
  · exact hs.writeReg
  · exact hs

theorem State.canonical.writeCrFrom {part a v : Nat} {atM : Bool} (hs : s.canonical) : (s.writeCrFrom part a v atM).canonical := by
  unfold State.writeCrFrom
  split
  · exact hs.notifyFrom
  · exact hs.writeCr

theorem State.canonical.functionWrite {who : Option Nat} {a v : Nat} {atM : Bool} (hs : s.canonical) :
    (s.functionWrite who a v atM).canonical := by
  unfold State.functionWrite
  split
  · exact hs.takeStamp.notifyFrom
  · exact hs.writeCr

theorem State.canonical.raiseVector {who : Option Nat} {vec : Nat} (hs : s.canonical) : (s.raiseVector who vec).canonical :=
  .ite hs.updVf hs.send

theorem State.canonical.writeMsix {who : Option Nat} {off v : Nat} (hs : s.canonical) : (s.writeMsix who off v).canonical :=
  .ite hs.updVf (.ite hs (.ite hs.updVf.updVf (.ite hs.updVf.updVf.send hs.updVf.updVf)))

theorem State.canonical.writeLocal {v off x : Nat} {pf : Bool} (hs : s.canonical) : (s.writeLocal v off x pf).canonical := by
  unfold State.writeLocal
  split
  · exact hs.updVf
  · exact hs.updVf
  · exact hs.updVf
  · exact .ite hs.updVf hs
  · exact hs

theorem State.canonical.hostRegWrite {who : Option Nat} {a v : Nat} (hs : s.canonical) : (s.hostRegWrite who a v).canonical := by
  unfold State.hostRegWrite
  refine .ite hs ?_
  split
  · exact .ite hs.functionWrite (.ite hs.writeLocal (.ite hs.writeMsix hs))
  · refine .ite ?_ (.ite hs.writeLocal (.ite hs.writeMsix hs))
    split
    · exact .ite hs.functionWrite hs
    · exact hs

theorem State.canonical.execLqTailWrite {lq : Nat} {v : BitVec 64} (hs : s.canonical) : Answer.canonical (execLqTailWrite lq v s) :=
  .next hs.writeLqTail

theorem State.canonical.execCqnotifyWrite {die t : Nat} {v : BitVec 64} (hs : s.canonical) :
    Answer.canonical (execCqnotifyWrite die t v s) := .next hs.notify

theorem State.canonical.execCtxkillWrite {ctx : Nat} {v : BitVec 64} (hs : s.canonical) :
    Answer.canonical (execCtxkillWrite ctx v s) := .next hs.writeCtxkill

theorem State.canonical.execCtxptWrite {ctx : Nat} {v : BitVec 64} (hs : s.canonical) : Answer.canonical (execCtxptWrite ctx v s) :=
  .next hs.writeCtxpt

/-! ### Firings and block entry (Machine/Firing.lean) -/

theorem State.canonical.noteReady (hs : s.canonical) : s.noteReady.canonical := hs

theorem State.canonical.beginFiring {a : Aid} {control : Bool} {ds : List Delivered} (hs : s.canonical) :
    (s.beginFiring a control ds).canonical := by
  unfold State.beginFiring
  split
  · dsimp only
    split
    · exact hs.updAgent.updAgent.countAt.countAt
    · exact hs.updAgent.updAgent
  · dsimp only
    split
    · exact hs.updAgent.updAgent.countAt
    · exact hs.updAgent.updAgent

theorem State.canonical.execFiringStart {a : Aid} (hs : s.canonical) : Answer.canonical (execFiringStart a s) := by
  unfold Machine.execFiringStart
  refine .next ?_
  split
  · exact .ite hs.beginFiring hs
  · exact hs

theorem State.canonical.execControlFiring {a : Aid} (hs : s.canonical) : Answer.canonical (execControlFiring a s) := by
  unfold Machine.execControlFiring
  refine .next ?_
  split
  · exact .ite hs.beginFiring hs
  · exact hs

theorem State.canonical.execPacePoint {a : Aid} (hs : s.canonical) : Answer.canonical (execPacePoint a s) := by
  unfold Machine.execPacePoint
  refine .next ?_
  split
  · split
    · exact .ite hs hs.updAgent
    · exact hs
  · exact hs

theorem State.canonical.execRunBegin {die t : Nat} (hs : s.canonical) : Answer.canonical (execRunBegin die t s) := by
  unfold Machine.execRunBegin
  refine .next ?_
  dsimp only
  split
  · exact .ite hs hs.updAgent.updSched
  · exact hs

theorem State.canonical.execSwaitWake {a : Aid} (hs : s.canonical) : Answer.canonical (execSwaitWake a s) := by
  unfold Machine.execSwaitWake
  refine .next ?_
  split
  · exact .foldl hs fun _ _ ht => ht.wake
  · exact hs

theorem State.canonical.fetch {a : Aid} {va n : Nat} (hs : s.canonical) : (s.fetch a va n).1.canonical := by
  unfold State.fetch
  split
  next e => exact hs.accesses.fst_eq e
  next e =>
    refine .foldl_fst (hs.accesses.fst_eq e) fun ⟨t, r⟩ _ ht => ?_
    split
    next e2 => exact ht.fst_eq e2
    next e2 =>
      have he2 := ht.fst_eq e2
      exact .ite_fst he2.free (.ite_fst he2.ueMet he2.recallRange.corrected)

theorem State.canonical.blockWords {a : Aid} {g : Agent} {addr : Nat} (hs : s.canonical) : (s.blockWords a g addr).1.canonical := by
  unfold State.blockWords
  -- With `fetch` for `State.fetch`, checking the case split does not compute what is fetched.
  obtain ⟨fetch, e⟩ : ∃ f, State.fetch = f := ⟨_, rfl⟩
  have hf : ∀ (t : State) (addr n : Nat), t.canonical → (fetch t a addr n).1.canonical := fun _ _ _ ht => by
    rw [← e]
    exact ht.fetch
  rw [e]
  split
  · exact hs
  · split
    · split
      next e => exact (hf _ _ _ hs).fst_eq e
      next e =>
        have he := (hf _ _ _ hs).fst_eq e
        dsimp only
        split
        next e2 => exact (hf _ _ _ he).fst_eq e2
        next e2 => exact (hf _ _ _ he).fst_eq e2
    · split
      · exact hs
      · split
        · exact hs
        · dsimp only
          split
          · exact hs
          · exact hs

theorem State.canonical.execBlockEntry {a : Aid} (hs : s.canonical) : Answer.canonical (execBlockEntry a s) := by
  unfold Machine.execBlockEntry
  refine .next ?_
  split
  · exact hs
  · extract_lets go
    clear_value go
    split
    · exact hs
    · refine .ite hs ?_
      split
      next e => exact (hs.blockWords.fst_eq e).takeTrap
      next e =>
        have he := hs.blockWords.fst_eq e
        refine .ite he.updAgent ?_
        dsimp only
        split
        · exact he.updAgent
        · exact he.updAgent.takeTrap

theorem State.canonical.hostFault {p : Nat} {payload : Vec} (hs : s.canonical) : (s.hostFault p payload).canonical :=
  hs.deviceWrite.updPartition.raiseVector

theorem State.canonical.markDelivered {e : TrapEntry} {at_ : Option (Qid × Nat)} (hs : s.canonical) :
    (s.markDelivered e at_).canonical := hs.updSched

theorem State.canonical.execTrapDelivery {i : Nat} (hs : s.canonical) : Answer.canonical (execTrapDelivery i s) := by
  unfold Machine.execTrapDelivery
  refine .next ?_
  split
  · exact hs
  · refine .ite hs.hostFault.markDelivered (.ite hs.refuse.markDelivered ?_)
    refine .ite ?_ (.ite hs.updQueue.markDelivered hs)
    split
    next e => exact (hs.arriveAt.fst_eq e).markDelivered
    next e => exact (hs.arriveAt.fst_eq e).count.markDelivered

/-! ### Placement of launches (Machine/Place.lean) -/

theorem State.canonical.keepBank {rid key mu bank : Nat} (hs : s.canonical) : (s.keepBank rid key mu bank).canonical := hs.updRegion

theorem State.canonical.saveBank {key : Nat} (hs : s.canonical) : (s.saveBank key).canonical := by
  unfold State.saveBank
  split
  · exact hs
  · refine .ite hs ?_
    split
    · exact hs
    · split
      · exact hs
      · split
        next e =>
          have he := hs.free.snd_eq e
          split
          · dsimp only
            split
            · exact .asyncRecord (.updRegion (.ite he.quadUe he))
            · exact he.keepBank

/-- A claimed bank loses what it listed. -/
theorem State.canonical.claimBank {ctx inc key : Nat} (hs : s.canonical) : (s.claimBank ctx inc key).canonical := by
  unfold State.claimBank
  exact .updSched (.updMs_wf hs.saveBank id (wf_filter _))

theorem State.canonical.install {rid : Nat} {r : Region} {g : Graph} {args : List Nat} (hs : s.canonical) :
    (s.install rid r g args).canonical := .foldl hs fun _ _ ht => ht.claimBank

theorem State.canonical.configRecord {r : Region} {f : ConfigFault} (hs : s.canonical) :
    (s.configRecord r f).canonical := hs.postTrap

theorem State.canonical.clearCounters {r : Region} (hs : s.canonical) : (s.clearCounters r).canonical := hs.updSched

theorem State.canonical.placeNew {rid y x : Nat} (hs : s.canonical) : (s.placeNew rid y x).canonical := by
  unfold State.placeNew
  split
  · exact hs
  · split
    next e =>
      have he := hs.takeInc.snd_eq e
      dsimp only
      split
      · exact he.updSched.clearCounters.install.updLaunch
      · exact he.updSched.clearCounters.configRecord.completeLaunch.freeRegion
      · exact he.updSched.clearCounters

theorem State.canonical.relocate {rid : Nat} {r : Region} (hs : s.canonical) : (s.relocate rid r).canonical := hs

theorem State.canonical.renewWalks {rid : Nat} (hs : s.canonical) : (s.renewWalks rid).canonical := by
  unfold State.renewWalks
  refine .foldl hs fun t _ ht => ?_
  split
  next e =>
    have he := ht.takeId.snd_eq e
    dsimp only
    split
    · exact he.updMs.askEngine
    · exact he.updMs

theorem State.canonical.saveResidents {r : Region} (hs : s.canonical) : (s.saveResidents r).canonical :=
  .foldl hs fun _ _ ht => ht.saveBank

theorem State.canonical.failResume {rid cause : Nat} (hs : s.canonical) : (s.failResume rid cause).canonical :=
  hs.completeLaunch.freeRegion

/-- A resumed image drops what its banks listed and writes them anew. -/
theorem State.canonical.resumeImage {rid y x : Nat} (hs : s.canonical) : (s.resumeImage rid y x).canonical := by
  unfold State.resumeImage
  split
  · exact hs
  · refine .updLaunch (.renewWalks (.clearCounters (.dropDrains (.relocate (.updSched (.foldl (.foldl ?_ ?_) ?_))))))
    · exact .updMs_wf hs.updSched id (wf_filter _)
    · exact fun _ _ ht => ht.claimBank
    · exact fun _ _ ht => ht.updMs_wf id wf_writes

theorem State.canonical.resumeAt {rid y x : Nat} (hs : s.canonical) : (s.resumeAt rid y x).canonical := by
  unfold State.resumeAt
  split
  · exact hs
  · extract_lets u
    have hu : u.canonical := .ite hs hs.saveResidents
    split
    · exact hu.failResume
    · exact hu.resumeImage

theorem State.canonical.placeLaunch {rid y x : Nat} (hs : s.canonical) : (s.placeLaunch rid y x).canonical := by
  unfold State.placeLaunch
  split
  · exact .ite hs.resumeAt hs.placeNew
  · exact hs

theorem State.canonical.execLaunchComplete {rid : Nat} (hs : s.canonical) : Answer.canonical (execLaunchComplete rid s) := by
  unfold Machine.execLaunchComplete
  refine .next ?_
  split
  · exact .ite hs (.ite hs.completeLaunch hs.completeLaunch.freeRegion)
  · exact hs

/-! ### The watchdog ladder (Machine/Ladder.lean) -/

theorem State.canonical.ladderTick {ticks : Nat} (hs : s.canonical) : (s.ladderTick ticks).canonical :=
  .foldl hs fun _ _ ht => ht.updLadder

theorem State.canonical.ladderStop {lq : Nat} (hs : s.canonical) : (s.ladderStop lq).canonical := hs.updLadder

theorem State.canonical.ladderVoid {lq : Nat} (hs : s.canonical) : (s.ladderVoid lq).canonical := .ite hs.ladderIdle hs

theorem State.canonical.ladderStep {lq step : Nat} (hs : s.canonical) : (s.ladderStep lq step).canonical := hs.count.updLadder

theorem State.canonical.ladderL2 {lq : Nat} (hs : s.canonical) : (s.ladderL2 lq).canonical := by
  unfold State.ladderL2
  split
  · exact hs.ladderIdle
  · refine .foldl hs.ladderStep.updLq.ladderNotice fun t _ ht => ?_
    split
    · exact .ite ht ht.answerRegionOp.startDrain
    · exact ht

theorem State.canonical.ladderL3 {lq : Nat} (hs : s.canonical) : (s.ladderL3 lq).canonical := by
  unfold State.ladderL3
  split
  · exact .ite hs.ladderIdle hs
  · exact .updSched (.ladderNotice (.ladderStep (.foldl hs fun _ _ ht => ht.startFreeze)))

theorem State.canonical.ladderL4 {lq : Nat} (hs : s.canonical) : (s.ladderL4 lq).canonical :=
  .ite hs.ladderIdle (.ite hs.ladderStep.resetPartition.hostFault.ladderIdle hs.ladderStep.resetPartition.hostFault.updLadder)

theorem State.canonical.ladderNext {lq : Nat} (hs : s.canonical) : (s.ladderNext lq).canonical := by
  unfold State.ladderNext
  split
  · exact hs.ladderL2
  · exact hs.ladderL3
  · exact hs.ladderL4
  · exact hs

theorem State.canonical.ladderAgain {lq : Nat} (hs : s.canonical) : (s.ladderAgain lq).canonical := by
  unfold State.ladderAgain
  split
  · exact .foldl hs fun _ _ ht => ht.updRegion
  · exact hs.updLadder
  · exact hs.updLadder
  · exact hs

/-! ### The allocator (Machine/Alloc.lean) -/

theorem State.canonical.admits {lq : Nat} {l : Launch} (hs : s.canonical) : (s.admits lq l).canonical := hs.updSched.updLq

theorem State.canonical.admitHead {lq : Nat} (hs : s.canonical) : (s.admitHead lq).canonical := by
  unfold State.admitHead
  dsimp only
  split
  next e => exact (hs.muRead.fst_eq e).admits.completeLaunch.asyncRecord
  next e =>
    have he := hs.muRead.fst_eq e
    exact .ite he.admits.completeLaunch (.ite hs (.ite he.admits.completeLaunch he.admits))

theorem State.canonical.postAssist {p fn die rid : Nat} {cand : List Nat} (hs : s.canonical) :
    (s.postAssist p fn die rid cand).canonical := .ite hs hs.deviceWrite.updPartition.updSched

theorem State.canonical.execLaunchAdmit {lq : Nat} (hs : s.canonical) : Answer.canonical (execLaunchAdmit lq s) :=
  .next (.ite hs (.ite hs (.ite hs.postAssist hs.admitHead)))

theorem State.canonical.updCredit {d ctx : Nat} {f : Credit → Credit} (hs : s.canonical) :
    (s.updCredit d ctx f).canonical := hs.updSched

theorem State.canonical.robin {d : Nat} {cs : List Candidate} {fuel : Nat} (hs : s.canonical) :
    (s.robin d cs fuel).1.canonical := by
  induction fuel generalizing s with
  | zero => exact hs
  | succ fuel ih =>
    unfold State.robin
    dsimp only
    split
    · exact hs
    · split
      · exact hs
      · exact ih (.foldl hs fun _ _ ht => ht.updCredit)

theorem State.canonical.choose {d : Nat} {cs : List Candidate} (hs : s.canonical) :
    (s.choose d cs).1.canonical := .ite_fst hs hs.robin

theorem State.canonical.pay {d : Nat} {c : Candidate} (hs : s.canonical) : (s.pay d c).canonical := .ite hs hs.updCredit

theorem State.canonical.grant {d : Nat} {c : Candidate} (hs : s.canonical) : (s.grant d c).canonical :=
  hs.pay.updCredit.updSched.placeLaunch

theorem State.canonical.placeRound {d : Nat} {skip : List Nat} {fuel : Nat} (hs : s.canonical) :
    (s.placeRound d skip fuel).canonical := by
  induction fuel generalizing s skip with
  | zero => exact hs
  | succ fuel ih =>
    unfold State.placeRound
    split
    next e => exact hs.choose.fst_eq e
    next e =>
      have he := hs.choose.fst_eq e
      exact .ite (ih he) (.ite (ih he.postAssist) (ih he.grant))

theorem State.canonical.donateAlong {prio n : Nat} {e : Nat × Nat × Nat} (hs : s.canonical) :
    (s.donateAlong prio n e).canonical := by
  induction n generalizing s e with
  | zero => exact hs
  | succ n ih =>
    unfold State.donateAlong
    exact .foldl hs.updLaunch fun _ _ ht => ih ht

theorem State.canonical.donateRoom {e : Nat × Nat × Nat} (hs : s.canonical) : (s.donateRoom e).canonical := by
  unfold State.donateRoom
  split
  · exact .ite hs (.ite (.ite hs.placeLaunch hs) (.ite hs.updLaunch.startFreeze hs))
  · exact hs

theorem State.canonical.donate (hs : s.canonical) : s.donate.canonical :=
  .foldl (.foldl hs fun _ _ ht => ht.donateAlong) fun _ _ ht => ht.donateRoom

theorem State.canonical.markFloors {d : Nat} (hs : s.canonical) : (s.markFloors d).canonical := .foldl hs fun _ _ ht => ht.updCredit

theorem State.canonical.execAllocatorRound {die : Nat} (hs : s.canonical) : Answer.canonical (execAllocatorRound die s) :=
  .next hs.donate.placeRound.markFloors

theorem State.canonical.drainVictim {d ctx rid : Nat} (hs : s.canonical) :
    (s.drainVictim d ctx rid).canonical := hs.startDrain.updCredit

theorem State.canonical.execFloorPreempt {die ctx : Nat} (hs : s.canonical) : Answer.canonical (execFloorPreempt die ctx s) := by
  unfold Machine.execFloorPreempt
  refine .next ?_
  split
  · exact hs
  · refine .ite hs ?_
    split
    · exact hs
    · exact .ite hs.postAssist hs.drainVictim

theorem State.canonical.execLaunchStart {rid : Nat} (hs : s.canonical) : Answer.canonical (execLaunchStart rid s) := by
  unfold Machine.execLaunchStart
  refine .next ?_
  split
  · exact hs
  · exact .ite hs (.updLaunch hs)

theorem State.canonical.execHostAssistAnswer {p slot : Nat} {ok : Bool} {y x : Nat} (hs : s.canonical) :
    Answer.canonical (execHostAssistAnswer p slot ok y x s) := by
  unfold Machine.execHostAssistAnswer
  refine .next ?_
  split
  · exact hs
  · refine .ite hs (.ite (.ite hs.updSched.ladderAgain hs.updSched) ?_)
    split
    · exact .ite hs.updSched.admitHead hs.updSched
    · split
      · exact hs.updSched
      · exact .ite hs.updSched.grant hs.updSched
    · dsimp only
      split
      · exact .ite hs.updSched.drainVictim hs.updSched
      · exact hs.updSched
    · exact .ite hs.updSched.ladderNext hs.updSched

/-! ### Images of regions (Machine/Image.lean) -/

theorem State.canonical.putCode {rid row col cu : Nat} {body : List Byte} (hs : s.canonical) :
    (s.putCode rid row col cu body).canonical := .foldl hs fun _ _ ht => ht.updAgent

theorem State.canonical.redeliver {rid : Nat} (hs : s.canonical) : (s.redeliver rid).canonical := by
  unfold State.redeliver
  refine .foldl hs fun t _ ht => ?_
  split
  · exact ht.updAgent
  · exact ht

theorem State.canonical.putEngq {a : Aid} {b : List Byte} (hs : s.canonical) : (s.putEngq a b).canonical := by
  unfold State.putEngq
  split
  · exact hs
  · extract_lets e n held
    split
    extract_lets make
    have hm : ∀ (x : State × List Cmd) (j : Nat), x.1.canonical → (make x j).1.canonical := fun x j hx => by
      dsimp only [make]
      split
      · exact .ite_fst hx hx.takeId
      · exact hx.takeId
    clear_value make
    split
    next e2 =>
    have he2 := (State.canonical.foldl_fst hs hm).fst_eq e2
    extract_lets gone fresh u v w
    have hw : w.canonical := .foldl he2.updAgent.updMs fun _ _ ht => ht.askEngine
    clear_value w
    refine .ite hw ?_
    split
    next e3 =>
    refine .updAgent (.updMs (.fst_eq (.foldl_fst hw fun ⟨t, r⟩ _ ht => ?_) e3))
    split
    · exact ht
    · exact ht.takeId

theorem State.canonical.addWait {a : Aid} {g : Agent} {b : List Byte} (hs : s.canonical) : (s.addWait a g b).canonical := by
  unfold State.addWait
  refine .ite ?_ (.updFab (.ite hs.takeId hs.takeId.updAgent))
  split
  next e =>
    have he := State.canonical.fst_eq (by exact .access hs) e
    exact .updMs (.ite he he.updAgent)
  next e => exact State.canonical.fst_eq (by exact .access hs) e

theorem State.canonical.putWait {a : Aid} {b : List Byte} (hs : s.canonical) : (s.putWait a b).canonical := by
  unfold State.putWait
  split
  · exact hs
  · exact .foldl hs.updMs.updFab.updAgent fun _ _ ht => ht.addWait

theorem State.canonical.putBanks {rid : Nat} {r : Region} {x : Section} (hs : s.canonical) : (s.putBanks rid r x).canonical := by
  unfold State.putBanks
  refine .ite hs (.ite hs.updRegion ?_)
  split
  next e => exact hs.putGroupData e
  · exact hs.updRegion

theorem State.canonical.putSection {rid : Nat} {r : Region} {x : Section} (hs : s.canonical) :
    (s.putSection rid r x).canonical := by
  unfold State.putSection
  split
  · exact hs.putCode
  · exact hs.updAgent
  · split
    · exact hs.updQueue
    · exact hs
  · exact hs.putBanks
  · split
    · exact hs.updFab
    · exact hs
  · exact hs.updFab
  · exact hs.updFab
  · dsimp only
    split
    · split
      · exact hs.updFab.updCmd
      · exact hs.updFab
    · exact hs.updFab
  · exact hs.putEngq
  · exact hs.putWait
  · exact hs.updFab
  · exact hs.updLaunch
  · exact hs

theorem State.canonical.dropSection {rid : Nat} {x : Section} (hs : s.canonical) : (s.dropSection rid x).canonical := by
  unfold State.dropSection
  split
  · exact hs.putEngq
  · exact hs.putWait
  · exact hs

theorem State.canonical.loadImage {rid : Nat} {r : Region} {l : Launch} {bs : List Byte} (hs : s.canonical) :
    (s.loadImage rid r l bs).canonical :=
  .ite hs (.updFab (.redeliver (.foldl (.foldl hs fun _ _ ht => ht.dropSection) fun _ _ ht => ht.putSection)))

/-! ### System instructions (Machine/System.lean) -/

theorem State.canonical.sysBody {ok : Nat → Vec → Bool} {i : Issue} {o : Operands} (hs : s.canonical) :
    (sysBody ok i o s).canonical :=
  .ite hs.faultAt hs.updBlock

theorem State.canonical.execMfcr {f : FX} (hs : s.canonical) : Answer.canonical (execMfcr f s) :=
  .next (.issue hs fun _ _ _ ht => .ite ht.faultAt (.ite ht.faultAt ht.deliver))

theorem State.canonical.execMtcr {f : FX} (hs : s.canonical) : Answer.canonical (execMtcr f s) :=
  .next (.issue hs fun _ _ _ ht => .ite ht.faultAt ht.sysBody)

theorem State.canonical.execEret {f : F0} (hs : s.canonical) : Answer.canonical (execEret f s) :=
  .next (.issue hs fun _ _ _ ht => ht.updBlock.exitTo)

theorem State.canonical.execEcntRd {f : FX} (hs : s.canonical) : Answer.canonical (execEcntRd f s) := by
  unfold Machine.execEcntRd
  refine .next (.issue hs fun _ _ t ht => ?_)
  split
  · exact ht.faultAt
  · exact ht.deliver

theorem State.canonical.hostCall {a : Aid} {g : Agent} {o : SysOp} {vec id : Nat} {sr : List Nat} (hs : s.canonical) :
    (s.hostCall a g o vec id sr).canonical := by
  unfold State.hostCall
  split
  · exact hs.arrive
  · exact .ite hs.arrive (.ite hs.arrive hs.updMs.updVf)

theorem State.canonical.threadCall {a : Aid} {g : Agent} {o : SysOp} {d t id : Nat} {sr : List Nat} (hs : s.canonical) :
    (s.threadCall a g o d t id sr).canonical := by
  unfold State.threadCall
  refine .ite hs.arrive (.ite hs.refuse.free.arrive ?_)
  split
  next e => exact (hs.arriveAt.fst_eq e).arrive
  next e => exact hs.arriveAt.fst_eq e
  next e =>
    have he := hs.arriveAt.fst_eq e
    split
    · exact he.updSched
    · exact he

theorem State.canonical.applyScall {a : Aid} {g : Agent} {o : SysOp} {id : Nat} {sr : List Nat} (hs : s.canonical) :
    (s.applyScall a g o id sr).canonical := by
  unfold State.applyScall
  refine .ite hs.arrive ?_
  split
  next e => exact (hs.muRead.fst_eq e).arrive
  next e =>
    have he := hs.muRead.fst_eq e
    exact .ite he.arrive (.ite (.ite he.arrive he.hostCall) (.ite (.ite he.updSched he.arrive) he.threadCall))

theorem State.canonical.completeCalls {c status : Nat} {dep : List Nat} (hs : s.canonical) :
    (s.completeCalls c status dep).canonical := by
  unfold State.completeCalls
  split
  · exact hs
  · exact .foldl hs fun _ _ ht => ht.completeCall

theorem State.canonical.applySnotify {a : Aid} {g : Agent} {o : SysOp} {id : Nat} (hs : s.canonical) :
    (s.applySnotify a g o id).canonical := by
  unfold State.applySnotify
  refine .ite ?_ ?_
  · refine .arrive ?_
    split
    · exact hs.completeCalls.updAgent
    · exact hs
  · refine .ite hs.arrive (.ite hs.arrive (.ite hs.refuse.free.arrive ?_))
    split
    next e => exact (hs.notify.fst_eq e).arrive
    next e => exact (hs.notify.fst_eq e).arrive
    next e => exact (hs.notify.fst_eq e).free.arrive

theorem State.canonical.applyTlbi {a : Aid} {g : Agent} {o : SysOp} {id : Nat} (hs : s.canonical) :
    (s.applyTlbi a g o id).canonical :=
  .ite hs.arrive (.beginShot (.ite hs.askPod hs))

theorem State.canonical.writeOut {a : Aid} {ctx va : Nat} {bs : List Byte} (hs : s.canonical) :
    (s.writeOut a ctx va bs).1.canonical := by
  unfold State.writeOut
  refine .foldl_fst hs fun ⟨t, r⟩ _ ht => ?_
  split
  next e => exact ht.fst_eq e
  next e =>
    have he := ht.fst_eq e
    split
    next e2 => exact he.access.fst_eq e2
    next e2 =>
      have he2 := he.access.fst_eq e2
      refine .ite_fst he2.takeId.updMs ?_
      split
      next e3 => exact he2.writeAccess.fst_eq e3
      next e3 => exact he2.writeAccess.fst_eq e3

theorem State.canonical.readIn {a : Aid} {ctx va n : Nat} (hs : s.canonical) : (s.readIn a ctx va n).1.canonical := by
  unfold State.readIn
  refine .foldl_fst hs fun ⟨t, r⟩ _ ht => ?_
  split
  next e => exact ht.fst_eq e
  next e =>
    have he := ht.fst_eq e
    split
    next e2 => exact he.access.fst_eq e2
    next e2 =>
      have he2 := he.access.fst_eq e2
      split
      next e3 => exact he2.readAccess.fst_eq e3
      next e3 => exact he2.readAccess.fst_eq e3

/-- Banks that are saved lose what they listed. -/
theorem State.canonical.saveResident {rid : Nat} {r : Region} (hs : s.canonical) : (s.saveResident rid r).canonical := by
  unfold State.saveResident
  exact .clearTags (.updMs_wf (.foldl hs fun _ _ ht => .ite ht.keepBank ht) id (wf_filter _))

theorem State.canonical.imgsv {a : Aid} {g : Agent} {rid : Nat} {r : Region} {l : Launch} {va : Nat} {drop : Bool}
    (hs : s.canonical) : (s.imgsv a g rid r l va drop).1.canonical := by
  unfold State.imgsv
  refine .ite_fst hs ?_
  dsimp only
  split
  next e => exact hs.writeOut.fst_eq e
  next e =>
    have he := hs.writeOut.fst_eq e
    exact .ite_fst he he.saveResident.updLaunch.updSched

theorem State.canonical.takeImage {rid : Nat} {r : Region} {l : Launch} {bs : List Byte} (hs : s.canonical) :
    (s.takeImage rid r l bs).1.canonical := .ite_fst hs.completeLaunch.freeRegion.updSched (.ite_fst hs hs.updSched.loadImage.updLaunch)

theorem State.canonical.beginImgld {a : Aid} {reg id rid va : Nat} (hs : s.canonical) : (s.beginImgld a reg id rid va).canonical :=
  hs.updSched

theorem State.canonical.imageRead {id : Nat} (hs : s.canonical) : (s.imageRead id).canonical := by
  unfold State.imageRead
  split
  · exact hs
  · refine .ite ?_ ?_
    · split
      · exact .ite hs.updSched.arrive hs.takeImage.updSched.arrive
      · exact hs.updSched.arrive
    · refine .ite hs ?_
      split
      next e => exact (hs.readIn.fst_eq e).updSched.arrive
      next e => exact (hs.readIn.fst_eq e).updSched

theorem State.canonical.regionOp {a : Aid} {g : Agent} {o : SysOp} {id rid : Nat} {l : Launch} (hs : s.canonical) :
    (s.regionOp a g o id rid l).canonical := by
  unfold State.regionOp
  extract_lets b who say op running
  have hsay : ∀ {t : State} {v : Nat}, t.canonical → (say t v).canonical := fun ht => ht.arrive
  clear_value say running
  split
  · exact .ite hs.startFreeze (hsay hs)
  · exact .ite (hsay hs) (.startDrain (.ite hs hs.answerRegionOp))
  · refine .ite (hsay hs) ?_
    dsimp only
    exact hsay hs.imgsv
  · exact .ite (hsay hs) hs.beginImgld
  · exact .ite (hsay hs) (.ite (hsay hs.placeLaunch) (hsay hs))
  · refine .ite (.ite (hsay hs) (hsay hs.killLaunch)) (.ite ?_ (hsay hs))
    exact hsay (.freeRegion (.completeLaunch hs.answerRegionOp))
  · exact hsay hs

theorem State.canonical.applyRegionOp {a : Aid} {g : Agent} {o : SysOp} {id : Nat} (hs : s.canonical) :
    (s.applyRegionOp a g o id).canonical := by
  unfold State.applyRegionOp
  split
  · exact hs.arrive
  · exact .ite hs.arrive (.ite hs.arrive hs.regionOp)

theorem State.canonical.applySys {a : Aid} {o : SysOp} {id : Nat} {sr : List Nat} (hs : s.canonical) :
    (s.applySys a o id sr).canonical := by
  unfold State.applySys
  split
  · exact hs
  · split
    · exact hs.applyGenk.arrive
    · exact hs.applyScall
    · exact hs.applySnotify
    · exact hs.writeCrFrom.arrive
    · exact hs.returnFromTrap.arrive
    · exact hs.applyTlbi
    · exact .ite hs.arrive hs.updLadder.arrive
    · split
      · exact hs
      · exact .ite hs.arrive hs.updSched.arrive
    · exact hs.applyRegionOp

/-! ### The commit of a block (Machine/Commit.lean) -/

theorem State.canonical.addPending {a : Aid} {code id : Nat} {after : List Nat} (hs : s.canonical) :
    (s.addPending a code id after).canonical := .ite hs hs.updAgent

theorem State.canonical.commitPut {a : Aid} {x : Committing} {port : Nat} {r : Record} (hs : s.canonical) :
    (s.commitPut a x port r).canonical := by
  unfold State.commitPut
  split
  · exact hs.putOn
  · exact hs

theorem State.canonical.storeToken {a : Aid} {x : Committing} {code : Nat} {ids : List Nat} (hs : s.canonical) :
    (s.storeToken a x code ids).canonical := by
  unfold State.storeToken
  refine .ite hs ?_
  refine .ite ?_ hs.updAgent
  split
  · exact hs.commitPut
  · exact hs

theorem State.canonical.commitMem {a : Aid} {g : Agent} {x : Committing} {op : MemOp} {ty W : Nat}
    {acc : List (Access × List Elem)} {vector : Bool} {after : List Nat} {reg reg1 : Nat} {ids : List Nat} {o : Origin} (hs : s.canonical) :
    (s.commitMem a g x op ty W acc vector after reg reg1 ids o).canonical := by
  unfold State.commitMem
  refine .ite hs.updMs.addPending ?_
  split
  · exact hs.updMs.storeToken.storeToken
  · exact .ite hs.updMs.addPending.arrive hs.updMs.addPending.updMs

theorem State.canonical.commitCmd {a : Aid} {x : Committing} {q : EngineKind} {args : CmdArgs} {after : List Nat} {reg : Nat}
    {link : Option Nat} {id : Nat} {o : Origin} (hs : s.canonical) :
    (s.commitCmd a x q args after reg link id o).canonical := .ite hs.updAgent.addPending.addPending hs.updAgent.addPending

theorem State.canonical.commitStash {a : Aid} {op va len bank mu : Nat} (hs : s.canonical) :
    (s.commitStash a op va len bank mu).canonical := by
  unfold State.commitStash
  split
  · exact hs
  · refine .ite ?_ (.foldl hs fun _ _ ht => .ite ht (.ite (.updFab (.foldl ht fun _ _ ht => .ite ht.putLine ht)) ht.updFab))
    split
    · exact hs
    · exact .updFab (.updFab (.foldl hs fun _ _ ht => .ite ht.putLine ht))

theorem State.canonical.commitBar {a : Aid} {kind word gen : Nat} {after : List Nat} {reg id : Nat} (hs : s.canonical) :
    (s.commitBar a kind word gen after reg id).canonical := .ite hs.addPending.arrive (.ite hs.addPending.arrive hs.addPending.updFab)

theorem State.canonical.commitShape {a : Aid} {bank mu : Nat} {bytes : List Byte} {after : List Nat} {reg id : Nat}
    (hs : s.canonical) : (s.commitShape a bank mu bytes after reg id).canonical := by
  unfold State.commitShape
  dsimp only
  split
  · exact hs.addPending.loadShape
  · exact hs.addPending.arrive

theorem State.canonical.strongSr {a : Aid} {g : Agent} {x : Committing} {o : SysOp} (hs : s.canonical) :
    (s.strongSr a g x o).1.canonical := .ite_fst hs.takeStamp hs

theorem State.canonical.commitEffect {a : Aid} {x : Committing} {e : Nat × Effect × List Nat} (hs : s.canonical) :
    (s.commitEffect a x e).canonical := by
  unfold State.commitEffect
  split
  · exact hs
  · split
    · exact hs.updAgent
    · exact hs.commitPut
    · exact hs.commitMem
    · exact hs.commitCmd
    · exact hs.strongSr.addPending.applySys
    · exact hs.updAgent
    · exact hs.commitStash.addPending.arrive
    · exact hs.commitShape
    · exact hs.applyQclr
    · exact hs.applyQpol.updAgent
    · exact hs
    · exact hs

theorem State.canonical.commitFirst {a : Aid} {e : Nat × Effect × List Nat} (hs : s.canonical) : (s.commitFirst a e).canonical := by
  unfold State.commitFirst
  split
  · exact hs.updAgent
  · exact hs

theorem State.canonical.commitLast {a : Aid} {e : Nat × Effect × List Nat} (hs : s.canonical) : (s.commitLast a e).canonical := by
  unfold State.commitLast
  split
  · exact hs.commitBar
  · exact hs

theorem State.canonical.demand {src : InSource} {n : Nat} (hs : s.canonical) : (s.demand src n).canonical := hs.updFab

theorem State.canonical.consumeQueue {id : Qid} {serials : List Nat} (hs : s.canonical) :
    (s.consumeQueue id serials).canonical := by
  unfold State.consumeQueue
  split
  · exact hs
  · exact .setQueue (.foldl_fst hs fun _ _ ht => ht.refill)

theorem State.canonical.consumeLink {id : Qid} {serials : List Nat} (hs : s.canonical) :
    (s.consumeLink id serials).canonical := hs.updFab

theorem State.canonical.consumePort {g : Agent} {f : Firing} {d : Delivered} (hs : s.canonical) :
    (s.consumePort g f d).canonical := by
  unfold State.consumePort
  split
  · exact hs
  · refine .ite ?_ ?_
    · split
      · exact hs.consumeQueue
      · exact hs.consumeLink
    · refine .demand ?_
      split
      · exact hs.consumeQueue
      · exact hs.consumeLink

theorem State.canonical.endFiring {a : Aid} {halts : Bool} (hs : s.canonical) : (s.endFiring a halts).canonical := by
  unfold State.endFiring
  split
  · exact hs
  · split
    · exact hs
    · extract_lets drains u v w kept lines x y z
      have hv : v.canonical := .foldl (.ite hs.putDrains hs) fun _ _ ht => ht.consumePort
      have hw : w.canonical := by
        clear_value v
        dsimp only [w]
        split
        · exact hv.completeCalls
        · exact hv
      have hz : z.canonical := by
        clear_value w
        dsimp only [z]
        split
        · exact .ite hw.updAgent.updAgent.updThreadCtl hw.updAgent.updAgent
        · exact hw.updAgent.updAgent
      exact hz.agentProgress

theorem State.canonical.transfer {a : Aid} {goal : ExitTo} (hs : s.canonical) : (s.transfer a goal).canonical := by
  unfold State.transfer
  split
  · exact hs.updAgent
  · exact hs.endFiring
  · exact hs.endFiring

theorem State.canonical.shotCommitted {b : Aid × Nat} {ids : List Nat} (hs : s.canonical) : (s.shotCommitted b ids).canonical :=
  hs.updSched

theorem State.canonical.commit {a : Aid} {g : Agent} {b : Block} {goal : ExitTo} (hs : s.canonical) :
    (s.commit a g b goal).canonical := by
  unfold State.commit
  extract_lets es total numbered mine
  have hn : numbered.canonical := hs
  clear_value numbered
  dsimp only
  refine .transfer (.updAgent (.shotCommitted (.foldl (.foldl (.foldl hn ?_) ?_) ?_)))
  · exact fun _ _ ht => ht.commitFirst
  · exact fun _ _ ht => ht.commitEffect
  · exact fun _ _ ht => ht.commitLast

theorem State.canonical.execBlockCommit {a : Aid} (hs : s.canonical) : Answer.canonical (execBlockCommit a s) := by
  unfold Machine.execBlockCommit
  refine .next ?_
  split
  · exact hs
  · split
    · exact hs
    · refine .ite hs (.ite hs.updAgent.updBlock ?_)
      split
      · exact hs.updAgent.updBlock
      · exact .ite hs.updAgent.updBlock hs.updAgent.updBlock.commit
      · exact hs.updAgent.updBlock.takeTrap

/-! ### Conversions (Machine/Convert.lean) -/

theorem State.canonical.execCvts {f : FX} (hs : s.canonical) : Answer.canonical (execCvts f s) :=
  .next (.issue hs fun _ _ _ ht => ht.valueBody)

/-! ### The host interface (Machine/Host.lean) -/

theorem State.canonical.iopAdd {q : Nat} {i : IopItem} (hs : s.canonical) : (s.iopAdd q i).canonical := hs.updRequester

theorem State.canonical.iopAccess {ctx va len : Nat} {write : Bool} (hs : s.canonical) :
    (s.iopAccess ctx va len write).1.canonical :=
  hs.muAccess

theorem State.canonical.execHostApertureWrite {vf off : Nat} {bytes : List (BitVec 8)} (hs : s.canonical) :
    Answer.canonical (execHostApertureWrite vf off bytes s) := .next hs.charge.iopAdd

theorem State.canonical.askAperture {vf off size : Nat} {relaxed : Bool} (hs : s.canonical) :
    (s.askAperture vf off size relaxed).canonical := hs.charge.iopAdd

theorem State.canonical.execHostApertureRead {vf off size : Nat} (hs : s.canonical) :
    Answer.canonical (execHostApertureRead vf off size s) := .next hs.askAperture

theorem State.canonical.askRegister {who : Option Nat} {addr : Nat} (hs : s.canonical) : (s.askRegister who addr).canonical :=
  hs.charge.iopAdd

theorem State.canonical.execControlRegisterWrite {who : Option Nat} {addr : Nat} {v : BitVec 64} (hs : s.canonical) :
    Answer.canonical (execControlRegisterWrite who addr v s) := .next (.ite hs.charge.hostRegWrite hs.charge.iopAdd)

theorem State.canonical.iopFault {ctx cause va : Nat} (hs : s.canonical) :
    (s.iopFault ctx cause va).canonical := hs.count.asyncRecord

theorem State.canonical.setItems {q : Nat} {is : List IopItem} (hs : s.canonical) : (s.setItems q is).canonical := hs.updRequester

theorem State.canonical.iopExpand {q : Nat} {before : List IopItem} {ctx va : Nat} {bytes : List Byte} {after : List IopItem}
    (hs : s.canonical) : (s.iopExpand q before ctx va bytes after).canonical := by
  unfold State.iopExpand
  split
  next e =>
    have he := hs.iopAccess.fst_eq e
    exact .setItems (.ite he.send he.iopFault)
  next e => exact (hs.iopAccess.fst_eq e).setItems

theorem State.canonical.iopReadLine {q ctx : Nat} {left : List Access} {got : List Byte} {relaxed : Bool}
    {before tail : List IopItem} (hs : s.canonical) : (s.iopReadLine q ctx left got relaxed before tail).canonical := by
  unfold State.iopReadLine
  split
  · exact hs.setItems.send
  · split
    next e => exact (hs.iopAccess.fst_eq e).setItems.send
    next e => exact (hs.iopAccess.fst_eq e).setItems
    next e =>
      have he := hs.iopAccess.fst_eq e
      split
      · exact he.retried.setItems
      · exact he.setItems
      · dsimp only
        split
        next e2 => exact (he.raisePts.readAccess.fst_eq e2).setItems.send
        next e2 =>
          have he2 := he.raisePts.readAccess.fst_eq e2
          exact .ite he2.setItems.send he2.setItems

theorem State.canonical.iopBeginRead {q : Nat} {vf : Option Nat} {ctx va size : Nat} {relaxed : Bool} {before tail : List IopItem}
    (hs : s.canonical) : (s.iopBeginRead q vf ctx va size relaxed before tail).canonical := by
  unfold State.iopBeginRead
  extract_lets target
  clear_value target
  split
  · exact hs.setItems.send
  · split
    next e => exact (hs.iopAccess.fst_eq e).iopReadLine
    next e => exact (hs.iopAccess.fst_eq e).setItems.send

theorem State.canonical.execIopWriteSend {req : Nat} (hs : s.canonical) : Answer.canonical (execIopWriteSend req s) := by
  unfold Machine.execIopWriteSend
  refine .next ?_
  dsimp only
  split
  · exact hs
  · split
    · split
      · exact hs.iopExpand
      · exact hs.setItems
    · exact hs.iopExpand
  · exact .ite hs (.ite hs.raisePts.setItems hs)
  · exact .ite hs.setItems.hostRegWrite hs
  · exact .ite hs.setItems.send hs
  · exact .ite hs.setItems.send hs
  · exact .ite hs.iopBeginRead hs
  · exact .ite hs.iopReadLine hs

theorem State.canonical.readAhead {req k : Nat} (hs : s.canonical) : (s.readAhead req k).canonical := by
  unfold State.readAhead
  refine .ite hs ?_
  split
  · exact hs.iopBeginRead
  · exact hs.iopReadLine
  · exact hs

theorem State.canonical.ackSent {req : Nat} (hs : s.canonical) : (s.ackSent req).canonical := hs.updSched

theorem State.canonical.noteAck {req route : Nat} (hs : s.canonical) : (s.noteAck req route).canonical := hs.updRequester

theorem State.canonical.execIopAck {req : Nat} (hs : s.canonical) : Answer.canonical (execIopAck req s) := by
  unfold Machine.execIopAck
  refine .next ?_
  split
  · split
    · exact hs.retried.setItems
    · exact hs
    · dsimp only
      split
      next e =>
        have he := hs.setItems.ackSent.writeAccess.fst_eq e
        exact .settleSys (.ite he.noteAck.send he.noteAck)
      next e => exact (hs.setItems.ackSent.writeAccess.fst_eq e).asyncRecord.settleSys
  · exact hs

theorem State.canonical.releaseFrame {vf : Nat} (hs : s.canonical) : (s.releaseFrame vf).canonical := by
  unfold State.releaseFrame
  split
  · exact hs
  · split
    · exact hs.charge.updOut.send
    · exact hs

theorem State.canonical.execRateLimitRelease {vf : Nat} (hs : s.canonical) : Answer.canonical (execRateLimitRelease vf s) := by
  unfold Machine.execRateLimitRelease
  refine .next (.ite hs ?_)
  split
  · exact hs.releaseFrame
  · split
    · exact hs
    · extract_lets u v w
      have hw : w.canonical := hs.charge.updMs.send
      clear_value w
      split
      · exact hw.raiseVector
      · exact hw

theorem State.canonical.execIoWriteAck {id : Nat} (hs : s.canonical) : Answer.canonical (execIoWriteAck id s) := by
  unfold Machine.execIoWriteAck
  refine .next ?_
  split
  · exact hs
  · split
    · exact hs
    · refine .settleSys ?_
      split
      · exact hs.updMs.arrive
      · exact hs.updMs

theorem State.canonical.hartAccess {h mt pa : Nat} {op : HartOp} (hs : s.canonical) : (s.hartAccess h mt pa op).canonical := by
  unfold State.hartAccess
  refine .ite hs.iopAdd (.ite hs (.ite hs.refuse.send ?_))
  split
  · exact hs.readAccess.send
  · exact hs.writeAccess.send
  · dsimp only
    split
    next e => exact (hs.rmwAccess.fst_eq e).send
    next e => exact (hs.rmwAccess.fst_eq e).send

theorem State.canonical.quietFunction {who : Option Nat} (hs : s.canonical) : (s.quietFunction who).canonical := hs.updRequester

theorem State.canonical.resetVf {vf : Nat} (hs : s.canonical) : (s.resetVf vf).canonical := by
  unfold State.resetVf
  refine .managementRecord (.updVf ?_)
  split
  · exact hs.quietFunction.updSched.endContext
  · exact hs.quietFunction

theorem State.canonical.execFunctionLevelReset {vf : Nat} (hs : s.canonical) : Answer.canonical (execFunctionLevelReset vf s) :=
  .next (.ite hs.resetVf (.ite hs (.foldl hs.quietFunction.updVf fun _ _ ht => ht.resetVf)))

/-! ### Text sessions (Machine/Text.lean) -/

theorem State.canonical.textBad {conn : Nat} (hs : s.canonical) : (s.textBad conn).canonical := hs.count

theorem State.canonical.textBadId {conn : Nat} (hs : s.canonical) : (s.textBadId conn).canonical := hs.count

theorem State.canonical.execRodPortFailure {port : Nat} (hs : s.canonical) : Answer.canonical (execRodPortFailure port s) :=
  .next hs.updOut

theorem State.canonical.vocRead {ctx va : Nat} (hs : s.canonical) : (s.vocRead ctx va).1.canonical := by
  unfold State.vocRead
  extract_lets die read
  have hr : ∀ (t : State) (n : Nat), t.canonical → (read t n).1.canonical := fun t n ht => by
    refine .foldl_fst ht fun ⟨u, r⟩ x hu => ?_
    split
    next e => exact hu.fst_eq e
    next e =>
      have he := hu.fst_eq e
      split
      next e2 => exact he.muRead.fst_eq e2
      next e2 => exact he.muRead.fst_eq e2
  clear_value read
  split
  next e => exact (hr _ _ hs).fst_eq e
  next e => exact hr _ _ ((hr _ _ hs).fst_eq e)

theorem State.canonical.execVocload {call : Nat} (hs : s.canonical) : Answer.canonical (execVocload call s) := by
  unfold Machine.execVocload
  refine .next ?_
  split
  · exact hs
  · exact hs.completeCall
  · refine .ite hs (.ite hs.completeCall ?_)
    split
    next e => exact (hs.vocRead.fst_eq e).completeCall
    next e =>
      have he := hs.vocRead.fst_eq e
      exact .ite he.takeId.updOut.completeCall he.takeId.completeCall

theorem State.canonical.execVocdrop {call : Nat} (hs : s.canonical) : Answer.canonical (execVocdrop call s) := by
  unfold Machine.execVocdrop
  refine .next ?_
  split
  · exact hs
  · exact hs.completeCall
  · exact .ite hs (.ite hs.completeCall hs.updOut.completeCall)

theorem State.canonical.sendFrame {conn vf : Nat} {closed : Bool} {bytes : List Byte} (hs : s.canonical) :
    (s.sendFrame conn vf closed bytes).canonical := .ite hs.textBad (.ite hs.updOut hs.charge.send)

theorem State.canonical.rejectFrame {conn vf session vslot : Nat} {closed : Bool} (hs : s.canonical) :
    (s.rejectFrame conn vf session vslot closed).canonical := hs.sendFrame

theorem State.canonical.updSession {n : Nat} {f : Session → Session} (hs : s.canonical) : (s.updSession n f).canonical := hs.updOut

theorem State.canonical.putToken {session id time : Nat} {last : Bool} (hs : s.canonical) :
    (s.putToken session id time last).canonical := by
  unfold State.putToken
  split
  · exact hs
  · refine .ite hs.updSession ?_
    dsimp only
    split
    · exact hs.updSession.countShed.setQueue.updSession
    · rename_i e _
      exact hs.updSession.arriveAt.fst_eq e

theorem State.canonical.addToken {session id time : Nat} (hs : s.canonical) : (s.addToken session id time).canonical := by
  unfold State.addToken
  split
  · exact hs
  · refine .updSession ?_
    split
    · exact hs.putToken
    · exact hs

theorem State.canonical.putHeld {session : Nat} (hs : s.canonical) : (s.putHeld session).canonical := by
  unfold State.putHeld
  split
  · exact hs.putToken.updSession
  · exact hs

theorem State.canonical.flushPiece {session : Nat} (hs : s.canonical) : (s.flushPiece session).canonical := by
  unfold State.flushPiece
  split
  · exact hs
  · exact .foldl hs.updSession fun _ _ ht => ht.addToken

theorem State.canonical.feedByte {session : Nat} {y : Byte} (hs : s.canonical) : (s.feedByte session y).canonical := by
  unfold State.feedByte
  split
  · exact hs
  · extract_lets u v w
    have hu : u.canonical := by
      dsimp only [u]
      split
      · exact .ite hs.flushPiece hs
      · exact hs
    have hw : w.canonical := hu.putHeld.updSession
    clear_value w
    split
    · exact .ite hw.flushPiece hw
    · exact hw

theorem State.canonical.endRequest {session : Nat} (hs : s.canonical) : (s.endRequest session).canonical := by
  unfold State.endRequest
  dsimp only
  split
  · exact hs.flushPiece
  · split
    · split <;> exact hs.flushPiece.putToken
    · refine .ite ?_ ?_
      · refine .updSession ?_
        split <;> exact hs.flushPiece.putToken
      · refine .rejectFrame (.arriveAt (.updSession ?_))
        split <;> exact hs.flushPiece.putToken

theorem State.canonical.feedFrame {session : Nat} {payload : List Byte} {ends : Bool} (hs : s.canonical) :
    (s.feedFrame session payload ends).canonical :=
  .ite (.endRequest (.foldl hs fun _ _ ht => ht.feedByte)) (.foldl hs fun _ _ ht => ht.feedByte)

theorem State.canonical.startRequest {conn session vf vslot : Nat} {payload : List Byte} {ends : Bool} (hs : s.canonical) :
    (s.startRequest conn session vf vslot payload ends).canonical := by
  unfold State.startRequest
  split
  · exact hs.rejectFrame
  · split
    · exact hs.rejectFrame
    · exact hs.updOut.feedFrame

theorem State.canonical.execTextFrame {conn : Nat} {bytes : List (BitVec 8)} (hs : s.canonical) :
    Answer.canonical (execTextFrame conn bytes s) := by
  unfold Machine.execTextFrame
  extract_lets u flags vf session vslot fseq payload ends opened
  have hu : u.canonical := .ite hs.charge hs
  clear_value u opened
  refine .next (.ite hu.textBad ?_)
  split
  · exact .ite hu.textBad hu.updSession.feedFrame
  · exact .ite hu.textBad hu.startRequest

theorem State.canonical.replyFrame {session : Nat} {k : Session} {payload : List Byte} {ends : Bool} (hs : s.canonical) :
    (s.replyFrame session k payload ends).canonical := hs.updSession.sendFrame

theorem State.canonical.fullFrames {session fuel : Nat} (hs : s.canonical) : (s.fullFrames session fuel).canonical := by
  induction fuel generalizing s with
  | zero => exact hs
  | succ fuel ih =>
    unfold State.fullFrames
    split
    · exact hs
    · exact .ite hs (ih hs.replyFrame)

theorem State.canonical.release {session : Nat} {bytes : List Byte} {ends : Bool} (hs : s.canonical) :
    (s.release session bytes ends).canonical := by
  unfold State.release
  split
  · exact hs
  · split
    · dsimp only
      split
      · exact hs.updSession.fullFrames.replyFrame
      · exact hs.updSession.fullFrames
    · dsimp only
      split <;> exact hs.updSession.fullFrames

theorem State.canonical.blockRecord {r : Record} (hs : s.canonical) : (s.blockRecord r).canonical := by
  unfold State.blockRecord
  split
  · exact hs.textBad
  · exact .release (.ite hs.textBadId hs)

theorem State.canonical.execBlockerRecord {ctx : Nat} (hs : s.canonical) : Answer.canonical (execBlockerRecord ctx s) := by
  unfold Machine.execBlockerRecord
  refine .next ?_
  split
  · exact hs
  · split
    next e => exact (hs.takeHead.fst_eq e).blockRecord
    next e => exact hs.takeHead.fst_eq e

theorem State.canonical.execTextReplyTimeout {session : Nat} (hs : s.canonical) :
    Answer.canonical (execTextReplyTimeout session s) := by
  unfold Machine.execTextReplyTimeout
  refine .next ?_
  split
  · exact hs
  · exact .ite hs hs.replyFrame

theorem State.canonical.execConnectionClosed {conn : Nat} (hs : s.canonical) : Answer.canonical (execConnectionClosed conn s) :=
  .next (.updOut (.foldl hs fun _ _ ht => ht.textBad))

/-! ### Packages and the pod (Machine/Package.lean) -/

theorem State.canonical.updPod {f : Pod → Pod} (hs : s.canonical) : (s.updPod f).canonical := hs.updOut

theorem State.canonical.execPodMemoryAccess {pkg ctx : Nat} {va : BitVec 64} {write : Option (List (BitVec 8))} {size : Nat}
    (hs : s.canonical) : Answer.canonical (execPodMemoryAccess pkg ctx va write size s) := by
  unfold Machine.execPodMemoryAccess
  refine .next ?_
  split <;> exact hs.iopAdd

theorem State.canonical.execTimeSyncMessage {ofs : Int} (hs : s.canonical) : Answer.canonical (execTimeSyncMessage ofs s) :=
  .next (.ite hs.count hs)

theorem State.canonical.execClaim {term serial : Nat} (hs : s.canonical) : Answer.canonical (execClaim term serial s) :=
  .next (.ite hs hs.updPod.send)

theorem State.canonical.tryLead (hs : s.canonical) : s.tryLead.canonical := .ite (.foldl hs.updPod fun _ _ ht => ht.send) hs

theorem State.canonical.execClaimAck {serial : Nat} (hs : s.canonical) : Answer.canonical (execClaimAck serial s) :=
  .next (.ite hs.updPod.tryLead hs)

theorem State.canonical.execHeartbeat {term serial : Nat} (hs : s.canonical) : Answer.canonical (execHeartbeat term serial s) :=
  .next (.ite hs hs.updPod)

theorem State.canonical.execHeartbeatSend (hs : s.canonical) :
    Answer.canonical (execHeartbeatSend s) := .next (.ite hs.updPod.send hs)

theorem State.canonical.execHeartbeatMiss (hs : s.canonical) : Answer.canonical (execHeartbeatMiss s) :=
  .next (.ite hs.updPod.send.tryLead hs)

theorem State.canonical.execFollowerLoadStep {serial n term : Nat} (hs : s.canonical) :
    Answer.canonical (execFollowerLoadStep serial n term s) := by
  unfold Machine.execFollowerLoadStep
  refine .next (.ite hs ?_)
  split
  · split
    · exact .ite hs hs.send
    · exact hs
  · exact .ite hs hs.updPod.send

theorem State.canonical.execProgressRecordQuery {serial : Nat} (hs : s.canonical) :
    Answer.canonical (execProgressRecordQuery serial s) := by
  unfold Machine.execProgressRecordQuery
  refine .next ?_
  dsimp only
  split
  · exact .ite hs hs.send
  · exact hs.send

theorem State.canonical.podProgress {serial step : Nat} (hs : s.canonical) :
    (s.podProgress serial step).canonical := .ite hs.updPod hs

/-- Power on lists nothing, whatever was before. -/
theorem State.canonical.powerOn {s : State} : s.powerOn.canonical := by
  unfold State.powerOn
  exact .foldl ⟨rfl, rfl⟩ fun _ _ ht => ht.rewriteVpt

theorem State.canonical.execPowerOnReset : Answer.canonical (execPowerOnReset s) := .next .powerOn

theorem State.canonical.updPowerDie {d : Nat} {f : PowerDie → PowerDie} (hs : s.canonical) :
    (s.updPowerDie d f).canonical := hs.updOut

theorem State.canonical.retime {d : Nat} (hs : s.canonical) : (s.retime d).canonical := hs

theorem State.canonical.powerStep {d step : Nat} (hs : s.canonical) :
    (s.powerStep d step).canonical := .ite hs hs.updPowerDie.count.retime

theorem State.canonical.powerReading {die pwr : Nat} (hs : s.canonical) : (s.powerReading die pwr).canonical :=
  .updPowerDie (.ite hs.updPowerDie.updOut hs.updPowerDie)

theorem State.canonical.execPowerStepDown {die pwr : Nat} (hs : s.canonical) : Answer.canonical (execPowerStepDown die pwr s) :=
  .next (.ite hs.powerReading.powerStep hs.powerReading)

theorem State.canonical.execPowerStepUp {die pwr : Nat} (hs : s.canonical) : Answer.canonical (execPowerStepUp die pwr s) := by
  unfold Machine.execPowerStepUp
  refine .next ?_
  dsimp only
  split
  · exact .ite hs.powerReading.powerStep hs.powerReading
  · exact hs.powerReading

theorem State.canonical.thermalReading {die tj : Nat} (hs : s.canonical) : (s.thermalReading die tj).canonical :=
  .ite (.powerOn) (.ite hs.updPowerDie.powerStep hs.updPowerDie)

theorem State.canonical.execThermalP3 {die tj : Nat} (hs : s.canonical) : Answer.canonical (execThermalP3 die tj s) :=
  .next hs.thermalReading

theorem State.canonical.execThermalReset {die tj : Nat} (hs : s.canonical) : Answer.canonical (execThermalReset die tj s) :=
  .next hs.thermalReading

theorem State.canonical.execServiceStageAdvance (hs : s.canonical) : Answer.canonical (execServiceStageAdvance s) :=
  .next (.ite hs (.foldl hs.updOut fun _ _ ht => ht.retime))

theorem State.canonical.execScrub {pa : Nat} (hs : s.canonical) : Answer.canonical (execScrub pa s) :=
  .next (.ite (.count (.ite hs.count.corrected hs)) (.ite hs.count.corrected hs))

theorem State.canonical.scrubDue {old : Nat} (hs : s.canonical) : (s.scrubDue old).canonical := by
  unfold State.scrubDue
  refine .foldl hs fun t _ ht => ?_
  split
  next e => exact ht.execScrub _ e
  · exact ht

theorem State.canonical.stateError {die : Nat} (hs : s.canonical) : (s.stateError die).canonical := hs.count

theorem State.canonical.updLinkState {l : Nat} {f : LinkState → LinkState} (hs : s.canonical) :
    (s.updLinkState l f).canonical := hs.updOut

theorem State.canonical.execLinkCrcFailure {link : Nat} (hs : s.canonical) : Answer.canonical (execLinkCrcFailure link s) :=
  .next (.ite hs (.ite hs.updLinkState hs.count.updLinkState))

theorem State.canonical.replayed {link : Nat} (hs : s.canonical) : (s.replayed link).canonical := .ite hs hs.updLinkState

theorem State.canonical.linkFails {l : Nat} (hs : s.canonical) : (s.linkFails l).canonical :=
  .updRas (.foldl hs fun _ _ ht => ht.resetPartition)

theorem State.canonical.execLinkRetrainDone {link : Nat} {ok : Bool} (hs : s.canonical) :
    Answer.canonical (execLinkRetrainDone link ok s) :=
  .next (.ite hs (.ite hs.updLinkState (.ite hs.updLinkState.linkFails hs.updLinkState)))

theorem State.canonical.execRegionStateUe {die vq cu : Nat} (hs : s.canonical) :
    Answer.canonical (execRegionStateUe die vq cu s) := by
  unfold Machine.execRegionStateUe
  refine .next ?_
  dsimp only
  split
  · exact hs.quadUe.killLaunch.asyncRecord
  · exact hs.quadUe

theorem State.canonical.ladderAct {lq : Nat} {act : State → State} (hs : s.canonical) (ha : (act s).canonical) :
    (s.ladderAct lq act).canonical := by
  unfold State.ladderAct
  split
  · exact hs.ladderIdle
  · exact .ite hs.ladderStop (.ite hs (.ite hs.postAssist ha))

theorem State.canonical.execWatchdogL1 {lq : Nat} (hs : s.canonical) : Answer.canonical (execWatchdogL1 lq s) :=
  .next (.ite hs (.ite hs.ladderIdle hs.ladderStep.asyncRecord))

theorem State.canonical.execWatchdogL2 {lq : Nat} (hs : s.canonical) : Answer.canonical (execWatchdogL2 lq s) :=
  .next (.ite hs (.ladderAct hs hs.ladderL2))

theorem State.canonical.execWatchdogL4 {lq : Nat} (hs : s.canonical) : Answer.canonical (execWatchdogL4 lq s) :=
  .next (.ite hs (.ladderAct hs hs.ladderL4))

theorem State.canonical.execWatchdogL5 {lq : Nat} (hs : s.canonical) : Answer.canonical (execWatchdogL5 lq s) :=
  .next (.ite hs (.ite hs.ladderIdle (.ite hs.ladderStop (.send (.powerOn)))))

theorem State.canonical.execDrainTimeout {rid : Nat} (hs : s.canonical) : Answer.canonical (execDrainTimeout rid s) := by
  unfold Machine.execDrainTimeout
  refine .next ?_
  split
  · split
    · refine .ite hs ?_
      split
      · dsimp only
        split
        · exact hs.updRegion.arrive
        · exact hs.updRegion
      · exact hs.updRegion.updLaunch.startFreeze
      · have hn : ∀ {lq : Nat}, (s.ladderNotice lq 2 2).canonical := hs.ladderNotice
        exact .ite (.ite hs.updRegion (.ite hs.updRegion.ladderNotice.ladderStop hs.updRegion.ladderNotice))
          (.ite hs (.ladderAct hn hn.ladderL3))
    · exact hs
  · exact hs

/-! ### Configuration waves (Machine/Wave.lean) -/

theorem State.canonical.putCodeOf {rid : Nat} {a : Aid} {g : Agent} {ws : List CfgWrite} (hs : s.canonical) :
    (s.putCodeOf rid a g ws).canonical := by
  unfold State.putCodeOf
  refine .ite hs ?_
  dsimp only
  split
  · exact hs.updAgent
  · exact hs

theorem State.canonical.reconfigure {rid : Nat} {a : Aid} {g : Agent} {ws : List CfgWrite} (hs : s.canonical) :
    (s.reconfigure rid a g ws).canonical := by
  unfold State.reconfigure
  refine .updAgent ?_
  split
  · exact .foldl (.ite hs.putCodeOf hs.putCodeOf.updAgent) fun _ _ ht => ht.putBankData
  · exact .ite hs.putCodeOf hs.putCodeOf.updAgent

theorem State.canonical.takeWave {a : Aid} {g : Agent} (hs : s.canonical) : (s.takeWave a g).canonical := by
  unfold State.takeWave
  refine .foldl hs.updFab fun t _ ht => ?_
  split
  · exact ht.consumeQueue
  · exact ht.consumeLink

theorem State.canonical.execNodeReconfigure {a : Aid} (hs : s.canonical) : Answer.canonical (execNodeReconfigure a s) := by
  unfold Machine.execNodeReconfigure
  refine .next ?_
  split
  · exact .ite hs (.foldl hs.takeWave.reconfigure fun _ _ ht => .foldl ht fun _ _ ht => ht.putOn)
  · exact hs

theorem State.canonical.genWave {n : Nid} {ps : List Vec} (hs : s.canonical) : (s.genWave n ps).canonical := by
  unfold State.genWave
  split
  · exact hs
  · exact .foldl hs.updFab.nodeBanks fun _ _ ht => ht.putOn

theorem State.canonical.execCfgWaveInject {rid : Nat} {recs : List (BitVec 512)} (hs : s.canonical) :
    Answer.canonical (execCfgWaveInject rid recs s) := by
  unfold Machine.execCfgWaveInject
  refine .next ?_
  split
  · exact hs
  · extract_lets bad good counted fed made
    have hc : counted.canonical := .foldl hs fun _ _ ht => ht.count
    have hf : fed.canonical := .foldl hc fun _ _ ht => .foldl ht fun _ _ ht => ht.arriveAt
    have hm : made.canonical := .foldl hf fun _ _ ht => ht.genWave
    exact .ite hs (.ite hc (.foldl hm fun _ _ ht => ht.updFab))

/-! ### What time brings (Machine/Schedule.lean) -/

/-- What an event answers is canonical when the event keeps the form. -/
theorem State.canonical.after {f : State → Host.Outcome State Fault Refusal} (hs : s.canonical)
    (hf : ∀ t : State, t.canonical → Answer.canonical (f t)) : (s.after (f s)).canonical := by
  unfold State.after
  split
  next e => exact hf s hs _ e
  · exact hs

theorem State.canonical.countCycles {old : Clock} (hs : s.canonical) : (s.countCycles old).canonical := hs.updSched

theorem State.canonical.ticked {n : Nat} (hs : s.canonical) : (s.ticked n).canonical := .ite hs hs.updOut.ladderTick

theorem State.canonical.passTime {old : Clock} (hs : s.canonical) : (s.passTime old).canonical :=
  .foldl (.ite hs.ptsAdvance hs) fun _ _ ht => .after ht fun _ ht => ht.execTimestampRebase

theorem State.canonical.wakeDue (hs : s.canonical) : s.wakeDue.canonical :=
  .foldl hs fun _ _ ht => .ite ht (.after (.after ht fun _ ht => ht.execTwaitDeadline) fun _ ht => ht.execSwaitWake)

theorem State.canonical.ladderDue (hs : s.canonical) : s.ladderDue.canonical := by
  unfold State.ladderDue
  extract_lets steps voids killed stepped drained
  have hstep : ∀ (t : State) (e : Nat × Ladder), t.canonical → (steps t e).canonical := fun _ _ ht =>
    .after (.after (.after (.after ht fun _ ht => ht.execWatchdogL1) fun _ ht => ht.execWatchdogL2)
      fun _ ht => ht.execWatchdogL4) fun _ ht => ht.execWatchdogL5
  have hk : killed.canonical := hs.ladderKillsDue
  have hd : drained.canonical := .foldl (.foldl hk hstep) fun _ _ ht => .after ht fun _ ht => ht.execDrainTimeout
  exact .foldl hd fun _ _ ht => ht.ladderVoid

theorem State.canonical.tickDue (hs : s.canonical) : s.tickDue.canonical := by
  unfold State.tickDue
  extract_lets launches agents credits sessions takeover watchdogs sent
  have h1 : launches.canonical := .foldl hs fun _ _ ht => .after ht fun _ ht => ht.execLaunchStart
  have h2 : agents.canonical := .foldl h1 fun _ _ ht => .ite (.after ht fun _ ht => ht.execPacePoint) ht
  have h3 : credits.canonical := .foldl h2 fun _ _ ht => .ite (.after ht fun _ ht => ht.execFloorPreempt) ht
  have h4 : sessions.canonical := .foldl h3 fun _ _ ht => .after ht fun _ ht => ht.execTextReplyTimeout
  have h5 : takeover.canonical := .after h4 fun _ ht => ht.execTakeover
  have h6 : watchdogs.canonical := .foldl h5 fun _ _ ht => .after ht fun _ ht => ht.execCpWatchdogExpiry
  have h7 : sent.canonical := .after h6 fun _ ht => ht.execHeartbeatSend
  exact .after h7 fun _ ht => ht.execHeartbeatMiss

theorem State.canonical.advance (hs : s.canonical) : s.advance.canonical := by
  unfold State.advance
  extract_lets turns t old c u
  have ht : t.canonical := .ite hs.ladderDue hs
  have hc : State.canonical { t with clk := c } := ht
  have hu : u.canonical := hc.countCycles.ticked.scrubDue.passTime.wakeDue
  exact .ite hu.tickDue hu

theorem State.canonical.pick {a : Aid} {i : Nat} (hs : s.canonical) : (s.pick a i).canonical := .updAgent hs

theorem State.canonical.issueAt {a : Aid} {i : Nat} (hs : s.canonical) : (s.issueAt a i).canonical := by
  unfold State.issueAt
  split
  · exact hs.pick
  · dsimp only
    refine .pick ?_
    split
    · refine .updSched ?_
      split
      · exact hs.updFab
      · exact hs
    · split
      · exact hs.updFab
      · exact hs

theorem State.canonical.nextTodo (hs : s.canonical) : s.nextTodo.2.canonical := by
  unfold State.nextTodo
  split <;> exact hs

theorem State.canonical.settleStep (hs : s.canonical) :
    s.settleStep.canonical := .noteReady (.settleSys (.retryKills (.settleLost hs)))

/-! ### Instructions, events and steps (Machine/Dispatch.lean, Machine/Step.lean) -/

/-- Every instruction and event keeps the form. -/
theorem State.canonical.exec (hs : s.canonical) : ∀ i : Instr, Answer.canonical (exec i s)
  | .addF0 _ | .addF1F2 _ | .subF0 _ | .subF1F2 _ | .addiFi _ | .addiF2 _ | .mulF0 _ | .mulF1F2 _ | .mulhF0 _ | .mulhF1F2 _
  | .mulhuF0 _ | .mulhuF1F2 _ | .madF0 _ | .madF1F2 _ | .divsF0 _ | .divsF1F2 _ | .divuF0 _ | .divuF1F2 _ | .remsF0 _ | .remsF1F2 _
  | .remuF0 _ | .remuF1F2 _ | .negF0 _ | .negF1 _ | .absF0 _ | .absF1 _ | .minF0 _ | .minF1F2 _ | .maxF0 _ | .maxF1F2 _ | .minuF0 _
  | .minuF1F2 _ | .maxuF0 _ | .maxuF1F2 _ | .addsF0 _ | .addsF1F2 _ | .addsuF0 _ | .addsuF1F2 _ | .subsF0 _ | .subsF1F2 _ | .subsuF0 _
  | .subsuF1F2 _ | .avgF0 _ | .avgF1F2 _ | .andF0 _ | .andF1F2 _ | .orF0 _ | .orF1F2 _ | .xorF0 _ | .xorF1F2 _ | .andnF0 _
  | .andnF1F2 _ | .shlF0 _ | .shlF1F2 _ | .shrF0 _ | .shrF1F2 _ | .sarF0 _ | .sarF1F2 _ | .rotlF0 _ | .rotlF1F2 _ | .shliFi _
  | .shliF2 _ | .shriFi _ | .shriF2 _ | .sariFi _ | .sariF2 _ | .clzF0 _ | .clzF1 _ | .ctzF0 _ | .ctzF1 _ | .popcF0 _ | .popcF1 _
  | .brevF0 _ | .brevF1 _ | .bswapF0 _ | .bswapF1 _ | .bfxF0 _ | .bfxF1F2 _ | .bfiF0 _ | .bfiF1F2 _ | .addshF0 _ | .addshF1F2 _
  | .movi _ | .movl _ | .sext _ | .zext _ | .movF0 _ | .movF1 _ | .ceqF0 _ | .ceqF1F2 _ | .cneF0 _ | .cneF1F2 _ | .cltF0 _ | .cltF1F2 _
  | .cleF0 _ | .cleF1F2 _ | .cltuF0 _ | .cltuF1F2 _ | .cleuF0 _ | .cleuF1F2 _ | .ceqiFi _ | .ceqiF2 _ | .cltiFi _ | .cltiF2 _
  | .selF0 _ | .selF1F2 _ | .pandF0 _ | .pandF1F2 _ | .porF0 _ | .porF1F2 _ | .pxorF0 _ | .pxorF1F2 _ | .pnotF0 _ | .pnotF1 _
  | .panyF0 _ | .panyF1 _ | .pallF0 _ | .pallF1 _ | .pcntF0 _ | .pcntF1 _ | .bcastF0 _ | .bcastF1F2 _ | .lgetF0 _ | .lgetF1F2 _
  | .lsetF0 _ | .lsetF1F2 _ | .permF0 _ | .permF1F2 _ | .lrotF0 _ | .lrotF1F2 _ | .zipF0 _ | .zipF1F2 _ | .unzipF0 _ | .unzipF1F2 _
  | .compressF0 _ | .compressF1F2 _ | .expandF0 _ | .expandF1F2 _ | .raddF0 _ | .raddF1 _ | .rmaxF0 _ | .rmaxF1 _ | .rminF0 _
  | .rminF1 _ | .rxorF0 _ | .rxorF1 _ | .scanF0 _ | .scanF1 _ | .lidx _ | .dot4F0 _ | .dot4F1F2 _ | .faddF0 _ | .faddF1F2 _ | .fsubF0 _
  | .fsubF1F2 _ | .fmulF0 _ | .fmulF1F2 _ | .fmaF0 _ | .fmaF1F2 _ | .fmsF0 _ | .fmsF1F2 _ | .fnmaF0 _ | .fnmaF1F2 _ | .fminF0 _
  | .fminF1F2 _ | .fmaxF0 _ | .fmaxF1F2 _ | .fabsF0 _ | .fabsF1 _ | .fnegF0 _ | .fnegF1 _ | .feqF0 _ | .feqF1F2 _ | .fltF0 _
  | .fltF1F2 _ | .fleF0 _ | .fleF1F2 _ | .funF0 _ | .funF1F2 _ | .fclassF0 _ | .fclassF1 _ | .frcpF0 _ | .frcpF1 _ | .frsqF0 _
  | .frsqF1 _ | .frcprF0 _ | .frcprF1F2 _ | .frsqrF0 _ | .frsqrF1F2 _ | .fexp2F0 _ | .fexp2F1 _ | .flog2F0 _ | .flog2F1 _ | .frndF0 _
  | .frndF1 _ | .fsclF0 _ | .fsclF1F2 _ | .cvt _ | .fdotF0 _ | .fdotF1F2 _ | .cbdec _ | .bsclF0 _ | .bsclF1F2 _ | .fsum2F0 _
  | .fsum2F1F2 _ | .fclampF0 _ | .fclampF1F2 _ | .fcsgnF0 _ | .fcsgnF1F2 _ => hs.execVal
  | .cvts _ => hs.execCvts
  | .br _ | .bri _ | .ret _ | .fend _ | .halt _ => .next (.issue hs fun _ _ _ ht => ht.exitTo)
  | .call _ => hs.execCall
  | .loopnFi _ | .loopnF2 _ => .next (.issue hs fun _ _ _ ht => ht.loopnBody)
  | .trap _ | .brk _ => .next (.issue hs fun _ _ _ ht => ht.trapBody)
  | .nop _ => .next (.issue hs fun _ _ _ ht => ht.updBlock)
  | .rdr _ => hs.execRdr
  | .mfs _ => hs.execMfs
  | .tick _ => hs.execTick
  | .twaitF0 _ | .swaitF0 _ | .swaitF1 _ => .next (.issue hs fun _ _ _ ht => ht.awaitDeadline)
  | .twaitF1 _ => hs.execTwaitF1
  | .nullF0 _ | .eof _ | .eofEnd _ | .swapF0 _ | .swapF1 _ => .next (.issue hs fun _ _ _ ht => ht.putAll)
  | .putF0 _ | .putF1 _ => .next (.issue hs fun _ _ _ ht => ht.putBody)
  | .putk _ => hs.execPutk
  | .kget _ | .wget _ | .tget _ => .next (.issue hs fun _ _ _ ht => ht.readEntry)
  | .kind _ => hs.execKind
  | .gap _ => hs.execGap
  | .skip _ => hs.execSkip
  | .qstat _ => hs.execQstat
  | .qstatClr _ => hs.execQstatClr
  | .qpol _ => hs.execQpol
  | .wcloseF0 _ | .wcloseF1 _ => .next (.issue hs fun _ _ _ ht => ht.wcloseBody)
  | .ld _ | .ldv _ | .ldsys _ => .next (.issue hs fun _ _ _ ht => ht.loadBody)
  | .ldg _ => .next (.issueWhen hs fun _ _ _ ht => ht.loadBody)
  | .st _ | .stv _ | .sts _ | .stsys _ => .next (.issue hs fun _ _ _ ht => ht.storeBody)
  | .pref _ => hs.execPref
  | .fence _ => hs.execFence
  | .qfence _ => hs.execQfence
  | .sinv _ | .swb _ => .next (.issue hs fun _ _ _ ht => ht.stashBody)
  | .smap _ => hs.execSmap
  | .aadd _ | .amin _ | .amax _ | .aand _ | .aor _ | .axor _ | .axchg _ | .acas _ | .afadd _ | .aaddv _ | .lkacq _ | .lkrel _
  | .aminu _ | .amaxu _ => .next (.issue hs fun _ _ _ ht => ht.atomicBody)
  | .lkwait _ => hs.execLkwait
  | .ldsh _ => hs.execLdsh
  | .cpy _ | .cpyt _ | .mldL _ | .mldA _ | .mmul _ | .mclrF0 _ | .mclrF1 _ | .mfmt _ | .ufinit _ | .unite _ | .find _ | .relabel _
  | .ccsize _ | .ufsnap _ | .ufsnapClose _ | .ufundo _ | .walk _ | .wrule _ | .wstatQ _ | .wstatResume _ | .wstatAbort _ | .hacc _
  | .hflush _ | .hstat _ => .next (.issue hs fun _ _ _ ht => ht.cmdBody)
  | .cpyx _ => hs.execCpyx
  | .mrd _ => hs.execMrd
  | .bar _ | .bara _ | .barw _ => .next (.issue hs fun _ _ _ ht => ht.barBody)
  | .genk _ | .genkFlush _ => .next (.issue hs fun _ _ _ ht => ht.genkBody)
  | .scall _ | .snotify _ | .tlbi _ | .frz _ | .drn _ | .imgsv _ | .imgsvDrop _ | .imgld _ | .rgrant _ | .rfreeFree _ | .rfreeKill _
  | .wdpetF0 _ | .wdpetF1 _ | .ecntSel _ | .ecntClr _ => .next (.issue hs fun _ _ _ ht => ht.sysBody)
  | .mfcr _ => hs.execMfcr
  | .mtcr _ => hs.execMtcr
  | .eret _ => hs.execEret
  | .ecntRd _ => hs.execEcntRd
  | .lqTailWrite _ _ => hs.execLqTailWrite
  | .cqnotifyWrite _ _ _ => hs.execCqnotifyWrite
  | .ctxkillWrite _ _ => hs.execCtxkillWrite
  | .ctxptWrite _ _ => hs.execCtxptWrite
  | .pchgWrite _ => hs.execPchgWrite
  | .migrationGo _ _ => hs.execMigrationGo
  | .stage _ => hs.execStage
  | .swapFirmware _ => hs.execSwapFirmware
  | .bootsel _ => hs.execBootsel
  | .svnlock _ => hs.execSvnlock
  | .bvcpwdWrite _ => hs.execBvcpwdWrite
  | .controlRegisterWrite _ _ _ => hs.execControlRegisterWrite
  | .hostApertureWrite _ _ _ => hs.execHostApertureWrite
  | .hostApertureRead _ _ _ => hs.execHostApertureRead
  | .functionLevelReset _ => hs.execFunctionLevelReset
  | .textFrame _ _ => hs.execTextFrame
  | .blockerRecord _ => hs.execBlockerRecord
  | .textReplyTimeout _ => hs.execTextReplyTimeout
  | .vocload _ => hs.execVocload
  | .vocdrop _ => hs.execVocdrop
  | .podMemoryAccess _ _ _ _ _ => hs.execPodMemoryAccess
  | .timeSyncMessage _ => hs.execTimeSyncMessage
  | .claim _ _ => hs.execClaim
  | .claimAck _ => hs.execClaimAck
  | .heartbeat _ _ => hs.execHeartbeat
  | .heartbeatSend => hs.execHeartbeatSend
  | .heartbeatMiss => hs.execHeartbeatMiss
  | .followerLoadStep _ _ _ => hs.execFollowerLoadStep
  | .progressRecordQuery _ => hs.execProgressRecordQuery
  | .powerStepDown _ _ => hs.execPowerStepDown
  | .powerStepUp _ _ => hs.execPowerStepUp
  | .thermalP3 _ _ => hs.execThermalP3
  | .thermalReset _ _ => hs.execThermalReset
  | .powerOnReset => State.canonical.execPowerOnReset
  | .serviceStageAdvance => hs.execServiceStageAdvance
  | .scrub _ => hs.execScrub
  | .linkCrcFailure _ => hs.execLinkCrcFailure
  | .linkRetrainDone _ _ => hs.execLinkRetrainDone
  | .regionStateUe _ _ _ => hs.execRegionStateUe
  | .leaseExpiryWriteback _ _ _ _ _ _ => hs.execLeaseExpiryWriteback
  | .ptsAdvance => hs.execPtsAdvance
  | .timestampRebase _ _ => hs.execTimestampRebase
  | .watchdogL1 _ => hs.execWatchdogL1
  | .watchdogL2 _ => hs.execWatchdogL2
  | .watchdogL4 _ => hs.execWatchdogL4
  | .watchdogL5 _ => hs.execWatchdogL5
  | .cpWatchdogExpiry _ => hs.execCpWatchdogExpiry
  | .takeover => hs.execTakeover
  | .launchAdmit _ => hs.execLaunchAdmit
  | .allocatorRound _ => hs.execAllocatorRound
  | .launchStart _ => hs.execLaunchStart
  | .launchComplete _ => hs.execLaunchComplete
  | .floorPreempt _ _ => hs.execFloorPreempt
  | .hostAssistAnswer _ _ _ _ _ => hs.execHostAssistAnswer
  | .drainComplete _ => hs.execDrainComplete
  | .drainTimeout _ => hs.execDrainTimeout
  | .freezeCaptureClose _ => hs.execFreezeCaptureClose
  | .nodeReconfigure _ => hs.execNodeReconfigure
  | .firingStart _ => hs.execFiringStart
  | .controlFiring _ => hs.execControlFiring
  | .pacePoint _ => hs.execPacePoint
  | .blockEntry _ => hs.execBlockEntry
  | .blockCommit _ => hs.execBlockCommit
  | .recordSend _ => hs.execRecordSend
  | .recordArrival _ => hs.execRecordArrival
  | .spillRefill _ => hs.execSpillRefill
  | .linkArrival _ => hs.execLinkArrival
  | .joinArcArrival _ _ => hs.execJoinArcArrival
  | .joinFire _ => hs.execJoinFire
  | .generatorPut _ => hs.execGeneratorPut
  | .windowInput _ _ => hs.execWindowInput
  | .sinkRecord _ => hs.execSinkRecord
  | .meStreamRecord _ => hs.execMeStreamRecord
  | .engineCommandStart _ _ => hs.execEngineCommandStart
  | .engineCompletion _ _ => hs.execEngineCompletion
  | .loadReply _ => hs.execLoadReply
  | .memoryRequest _ => hs.execMemoryRequest
  | .barrierArrival _ => hs.execBarrierArrival
  | .lkwaitAcquire _ => hs.execLkwaitAcquire
  | .runBegin _ _ => hs.execRunBegin
  | .trapDelivery _ => hs.execTrapDelivery
  | .translationWalk _ _ _ _ => hs.execTranslationWalk
  | .rateLimitRelease _ => hs.execRateLimitRelease
  | .iopWriteSend _ => hs.execIopWriteSend
  | .iopAck _ => hs.execIopAck
  | .ioWriteAck _ => hs.execIoWriteAck
  | .twaitDeadline _ => hs.execTwaitDeadline
  | .swaitWake _ => hs.execSwaitWake
  | .bvswapWrite _ _ => hs.execBvswapWrite
  | .rodPortFailure _ => hs.execRodPortFailure
  | .cfgWaveInject _ _ => hs.execCfgWaveInject
  | .podBarrierRelease _ _ => hs.execPodBarrierRelease
  | .connectionClosed _ => hs.execConnectionClosed

theorem State.canonical.issueStep {a : Aid} {i : Nat} (hs : s.canonical) : Answer.canonical (issueStep a i s) := by
  unfold Machine.issueStep
  split
  · exact .next hs
  · split
    · exact hs.issueAt.exec _
    · exact .next hs

theorem State.canonical.todoStep (hs : s.canonical) : ∀ x : Todo, Answer.canonical (todoStep x s)
  | .event i => hs.exec i
  | .issue _ _ => hs.issueStep
  | .hop _ => .next hs.hop
  | .evict _ => .next hs.evictLine
  | .regRead _ _ => .next hs.askRegister
  | .csr _ _ _ => .next hs.csrAccess
  | .hart _ _ _ _ => .next hs.hartAccess
  | .bitError _ _ => .next hs.bitError
  | .podRefusal _ _ _ => .next hs.podRefused
  | .podArrival _ _ _ _ _ => .next hs.podArrival
  | .podAnswer _ _ => .next hs.podAnswer
  | .relaxedRead _ _ _ => .next hs.askAperture
  | .readAhead _ _ => .next hs.readAhead
  | .podShoot _ _ _ _ => .next hs.podShoot
  | .podShootDone _ _ => .next hs.podShootDone
  | .podProgress _ _ => .next hs.podProgress
  | .imageRead _ => .next hs.imageRead
  | .stateError _ => .next hs.stateError
  | .copyError _ _ _ _ => .next hs.copyError
  | .parityError _ _ _ => .next hs.parityError
  | .replayed _ => .next hs.replayed
  | .partitionChange => .next hs.pchgRest
  | .migration _ => .next hs.migrateRest

theorem Answer.canonical.settle {e : Answer} (he : Answer.canonical e) : Answer.canonical (settle e) := by
  cases e with
  | next t => exact .next (he t rfl).settleStep
  | fault r => exact .fault r
  | refused r => exact .refused r

theorem State.canonical.step (hs : s.canonical) : Answer.canonical (step s) := by
  unfold Machine.step
  split
  next e => exact .settle (.next (hs.advance.nextTodo.snd_eq e))
  next e => exact .settle ((hs.advance.nextTodo.snd_eq e).todoStep _)

/-- Settles O8: the answer of a step is canonical, since each function that the step is made of keeps the form. -/
theorem canonicalMemory : Obligations.CanonicalMemory := fun _ t hs => hs.step t

end Sys2Proof.Machine
end

section
/-! PROOF. The step that `withFetchWord` prepares need not be taken. Refutes O10. -/
namespace Sys2Proof.Machine

/-- What the agenda names next is what a step does, from the state in which a cycle has passed (log 4). -/
theorem step_of_agenda {s : State} {x : Todo} {rest : List Todo} (h : s.agenda = x :: rest) :
    step s = settle (todoStep x { s.advance with agenda := rest }) := by
  have next : s.advance.nextTodo = (some x, { s.advance with agenda := rest }) := by
    rw [State.nextTodo, show s.advance.agenda = x :: rest from h]
  rw [step, next]

/-- While a division of an agent's own is in the divider of a thread, no instruction of the thread issues (06 R107). -/
theorem issueWords_of_own_division {s : State} {d t : Nat} {g : Agent} (i : Nat) (hg : s.agent? (.thread d t) = some g)
    (busy : s.divider (.thread d t) g = some (.thread d t)) : s.issueWords (.thread d t) i = none := by
  simp [State.issueWords, hg, State.divides, busy, Aid.isThread]

/-- A state whose entry for service thread 0 of die 0 says die 5, with a division of that thread in the divider of die 5: `withNext` frees
the divider of die 0 only, and leaves the die that the entry says. -/
def strayDivision : State :=
  { State.reset with
    agents := [(.thread 0 0, { Agent.thread 0 0 with die := 5 })]
    fab := { State.reset.fab with dividers := [((5, 0x1FF, 0), (1, .thread 0 0))] } }

theorem strayDivision_withNext (ws : List Word) : ∃ g, (strayDivision.withNext ws).agent? (.thread 0 0) = some g ∧
    (strayDivision.withNext ws).divider (.thread 0 0) g = some (.thread 0 0) := by
  obtain ⟨g, hg, die⟩ : ∃ g, (strayDivision.withNext ws).agent? (.thread 0 0) = some g ∧ g.die = 5 := ⟨_, rfl, rfl⟩
  have dividers : (strayDivision.withNext ws).fab.dividers = [((5, 0x1FF, 0), (1, .thread 0 0))] := rfl
  have clock : (strayDivision.withNext ws).clk = strayDivision.clk := rfl
  have start : strayDivision.clk.dieCycle 5 = 0 := by decide
  exact ⟨g, hg, by simp [State.divider, dividerOf, Aid.isThread, die, dividers, clock, start, Tab.get?]⟩

/-- Refutes O10: in `strayDivision` the divider holds back the instruction that `withFetchWord` places, so its words are not issued. The
statement is about every state, and so also about one whose entry for a thread names another die. Its first two clauses hold, by
`step_of_agenda`. -/
theorem not_stepRuns : ¬ Obligations.StepRuns := by
  unfold Obligations.StepRuns
  intro h
  obtain ⟨-, -, placed⟩ := h strayDivision []
  obtain ⟨g, hg, busy⟩ := strayDivision_withNext (firstWords (tableWords 32 0))
  have issues := (placed 32 0).2
  rw [State.withFetchWord, issueWords_of_own_division 1 hg busy] at issues
  cases issues

end Sys2Proof.Machine
end

section
/-! PROOF. How an instruction issues: it waits, declines, or does what it means with its operands. Settles O12. -/
namespace Sys2Proof.Machine

variable {s : State} {ins : Ins}

/-! ### What an instruction does before its meaning begins -/

/-- An answer leaves the state alone while its instruction cannot issue or lacks an operand, and marks it where it
declines (01 R13, R14). -/
structure Waits (s : State) (ins : Ins) (e : Answer) : Prop where
  unissued : s.issuing ins = none → e = .next s
  notReady : ∀ x, s.issuing ins = some x → x.gather = .notReady → e = .next s
  declined : ∀ x, s.issuing ins = some x → x.gather = .decline → e = .next (s.decline x)

theorem waits_issue (body : Issue → Operands → State → State) : Waits s ins (.next (s.issue ins body)) where
  unissued h := by simp [State.issue, h]
  notReady x h g := by simp [State.issue, h, g]
  declined x h g := by simp [State.issue, h, g]

theorem waits_issueWhen (w : Issue → Bool) (body : Issue → Operands → State → State) :
    Waits s ins (.next (s.issueWhen ins w body)) where
  unissued h := by simp [State.issueWhen, h]
  notReady x h g := by simp [State.issueWhen, h, g]
  declined x h g := by simp [State.issueWhen, h, g]

/-! ### The predicate -/

/-- What a predicate that is there says: to decline, or not; an instruction without a predicate never declines (05 R91). -/
def Issue.declines (i : Issue) : Option Bool :=
  if i.ins.predicated then (slotValue i.g i.b i.idx 2).map fun v => v.bits.getLsbD 0 != (i.ins.pm == 1) else some false

/-- An instruction declines exactly where its predicate says so. -/
theorem gather_eq_decline_iff (i : Issue) : i.gather = .decline ↔ i.declines = some true := by
  unfold Issue.gather
  dsimp only
  rw [← Issue.declines]
  split
  next h => simp [h]
  next h => simp [h]
  next h =>
    rw [h]
    split <;> simp

/-- Without its predicate an instruction is not ready. -/
theorem gather_of_no_predicate {i : Issue} (h : i.declines = none) : i.gather = .notReady := by
  unfold Issue.gather
  dsimp only
  rw [← Issue.declines, h]

/-! ### The meaning of every instruction -/

end Sys2Proof.Machine

namespace Sys2Proof

/-- How a constructor of `Instr` is executed: a device event has no fields, an instruction of ops 0x01 to 0x6E computes a value from its
operands, and any other issues with a body of its own, a few only where a further condition holds. -/
inductive Instr.Runs (i : Instr) : Prop where
  | event (h : i.ins? = none)
  | value {ins : Machine.Ins} {f : Machine.Issue → Machine.Opnds → Machine.Res} (h : i.ins? = some ins)
      (e : ∀ s, Machine.exec i s = .next (s.issue ins fun x => Machine.valueBody (f x) x))
  | effect {ins : Machine.Ins} {body : Machine.State → Machine.Issue → Machine.Operands → Machine.State → Machine.State}
      (h : i.ins? = some ins) (op : 0x70 ≤ ins.op) (e : ∀ s, Machine.exec i s = .next (s.issue ins (body s)))
  | guarded {ins : Machine.Ins} {w : Machine.State → Machine.Issue → Bool}
      {body : Machine.State → Machine.Issue → Machine.Operands → Machine.State → Machine.State}
      (h : i.ins? = some ins) (op : 0x70 ≤ ins.op) (e : ∀ s, Machine.exec i s = .next (s.issueWhen ins (w s) (body s)))

theorem Instr.runs : ∀ i : Instr, i.Runs
  | .addF0 _ | .addF1F2 _ | .subF0 _ | .subF1F2 _ | .addiFi _ | .addiF2 _ | .mulF0 _ | .mulF1F2 _ | .mulhF0 _ | .mulhF1F2 _
  | .mulhuF0 _ | .mulhuF1F2 _ | .madF0 _ | .madF1F2 _ | .divsF0 _ | .divsF1F2 _ | .divuF0 _ | .divuF1F2 _ | .remsF0 _
  | .remsF1F2 _ | .remuF0 _ | .remuF1F2 _ | .negF0 _ | .negF1 _ | .absF0 _ | .absF1 _ | .minF0 _ | .minF1F2 _ | .maxF0 _
  | .maxF1F2 _ | .minuF0 _ | .minuF1F2 _ | .maxuF0 _ | .maxuF1F2 _ | .addsF0 _ | .addsF1F2 _ | .addsuF0 _ | .addsuF1F2 _
  | .subsF0 _ | .subsF1F2 _ | .subsuF0 _ | .subsuF1F2 _ | .avgF0 _ | .avgF1F2 _ | .andF0 _ | .andF1F2 _ | .orF0 _ | .orF1F2 _
  | .xorF0 _ | .xorF1F2 _ | .andnF0 _ | .andnF1F2 _ | .shlF0 _ | .shlF1F2 _ | .shrF0 _ | .shrF1F2 _ | .sarF0 _ | .sarF1F2 _
  | .rotlF0 _ | .rotlF1F2 _ | .shliFi _ | .shliF2 _ | .shriFi _ | .shriF2 _ | .sariFi _ | .sariF2 _ | .clzF0 _ | .clzF1 _
  | .ctzF0 _ | .ctzF1 _ | .popcF0 _ | .popcF1 _ | .brevF0 _ | .brevF1 _ | .bswapF0 _ | .bswapF1 _ | .bfxF0 _ | .bfxF1F2 _
  | .bfiF0 _ | .bfiF1F2 _ | .addshF0 _ | .addshF1F2 _ | .movi _ | .movl _ | .sext _ | .zext _ | .movF0 _ | .movF1 _ | .ceqF0 _
  | .ceqF1F2 _ | .cneF0 _ | .cneF1F2 _ | .cltF0 _ | .cltF1F2 _ | .cleF0 _ | .cleF1F2 _ | .cltuF0 _ | .cltuF1F2 _ | .cleuF0 _
  | .cleuF1F2 _ | .ceqiFi _ | .ceqiF2 _ | .cltiFi _ | .cltiF2 _ | .selF0 _ | .selF1F2 _ | .pandF0 _ | .pandF1F2 _ | .porF0 _
  | .porF1F2 _ | .pxorF0 _ | .pxorF1F2 _ | .pnotF0 _ | .pnotF1 _ | .panyF0 _ | .panyF1 _ | .pallF0 _ | .pallF1 _ | .pcntF0 _
  | .pcntF1 _ | .bcastF0 _ | .bcastF1F2 _ | .lgetF0 _ | .lgetF1F2 _ | .lsetF0 _ | .lsetF1F2 _ | .permF0 _ | .permF1F2 _
  | .lrotF0 _ | .lrotF1F2 _ | .zipF0 _ | .zipF1F2 _ | .unzipF0 _ | .unzipF1F2 _ | .compressF0 _ | .compressF1F2 _ | .expandF0 _
  | .expandF1F2 _ | .raddF0 _ | .raddF1 _ | .rmaxF0 _ | .rmaxF1 _ | .rminF0 _ | .rminF1 _ | .rxorF0 _ | .rxorF1 _ | .scanF0 _
  | .scanF1 _ | .lidx _ | .dot4F0 _ | .dot4F1F2 _ | .faddF0 _ | .faddF1F2 _ | .fsubF0 _ | .fsubF1F2 _ | .fmulF0 _ | .fmulF1F2 _
  | .fmaF0 _ | .fmaF1F2 _ | .fmsF0 _ | .fmsF1F2 _ | .fnmaF0 _ | .fnmaF1F2 _ | .fminF0 _ | .fminF1F2 _ | .fmaxF0 _ | .fmaxF1F2 _
  | .fabsF0 _ | .fabsF1 _ | .fnegF0 _ | .fnegF1 _ | .feqF0 _ | .feqF1F2 _ | .fltF0 _ | .fltF1F2 _ | .fleF0 _ | .fleF1F2 _
  | .funF0 _ | .funF1F2 _ | .fclassF0 _ | .fclassF1 _ | .frcpF0 _ | .frcpF1 _ | .frsqF0 _ | .frsqF1 _ | .frcprF0 _
  | .frcprF1F2 _ | .frsqrF0 _ | .frsqrF1F2 _ | .fexp2F0 _ | .fexp2F1 _ | .flog2F0 _ | .flog2F1 _ | .frndF0 _ | .frndF1 _
  | .fsclF0 _ | .fsclF1F2 _ | .cvt _ | .cvts _ | .fdotF0 _ | .fdotF1F2 _ | .cbdec _ | .bsclF0 _ | .bsclF1F2 _ | .fsum2F0 _
  | .fsum2F1F2 _ | .fclampF0 _ | .fclampF1F2 _ | .fcsgnF0 _ | .fcsgnF1F2 _ => .value rfl fun _ => rfl
  | .br _ | .bri _ | .call _ | .ret _ | .fend _ | .loopnFi _ | .loopnF2 _ | .trap _ | .nop _ | .rdr _ | .mfs _ | .tick _
  | .twaitF0 _ | .twaitF1 _ | .nullF0 _ | .brk _ | .putF0 _ | .putF1 _ | .putk _ | .kget _ | .wget _ | .tget _ | .kind _
  | .gap _ | .skip _ | .qstat _ | .qstatClr _ | .qpol _ | .wcloseF0 _ | .wcloseF1 _ | .eof _ | .eofEnd _ | .swapF0 _ | .swapF1 _
  | .ld _ | .ldv _ | .st _ | .stv _ | .sts _ | .ldsys _ | .stsys _ | .pref _ | .sinv _ | .swb _ | .smap _ | .aadd _ | .amin _
  | .amax _ | .aand _ | .aor _ | .axor _ | .axchg _ | .acas _ | .afadd _ | .aaddv _ | .lkacq _ | .lkrel _ | .lkwait _ | .ldsh _
  | .aminu _ | .amaxu _ | .cpy _ | .cpyx _ | .cpyt _ | .mldL _ | .mldA _ | .mmul _ | .mrd _ | .mclrF0 _ | .mclrF1 _ | .mfmt _
  | .bar _ | .bara _ | .barw _ | .genk _ | .genkFlush _ | .ufinit _ | .unite _ | .find _ | .relabel _ | .ccsize _ | .ufsnap _
  | .ufsnapClose _ | .ufundo _ | .walk _ | .wrule _ | .wstatQ _ | .wstatResume _ | .wstatAbort _ | .hacc _ | .hflush _
  | .hstat _ | .scall _ | .snotify _ | .swaitF0 _ | .swaitF1 _ | .mfcr _ | .mtcr _ | .eret _ | .tlbi _ | .frz _ | .drn _
  | .imgsv _ | .imgsvDrop _ | .imgld _ | .rgrant _ | .rfreeFree _ | .rfreeKill _ | .wdpetF0 _ | .wdpetF1 _ | .ecntRd _
  | .ecntSel _ | .ecntClr _ | .halt _ => .effect rfl (Nat.le_of_ble_eq_true rfl) fun _ => rfl
  | .ldg _ | .fence _ | .qfence _ => .guarded rfl (Nat.le_of_ble_eq_true rfl) fun _ => rfl
  | .lqTailWrite _ _ | .cqnotifyWrite _ _ _ | .ctxkillWrite _ _ | .ctxptWrite _ _ | .pchgWrite _ | .migrationGo _ _ | .stage _
  | .swapFirmware _ | .bootsel _ | .svnlock _ | .bvcpwdWrite _ | .controlRegisterWrite _ _ _ | .hostApertureWrite _ _ _
  | .hostApertureRead _ _ _ | .functionLevelReset _ | .textFrame _ _ | .blockerRecord _ | .textReplyTimeout _ | .vocload _
  | .vocdrop _ | .podMemoryAccess _ _ _ _ _ | .timeSyncMessage _ | .claim _ _ | .claimAck _ | .heartbeat _ _ | .heartbeatSend
  | .heartbeatMiss | .followerLoadStep _ _ _ | .progressRecordQuery _ | .powerStepDown _ _ | .powerStepUp _ _ | .thermalP3 _ _
  | .thermalReset _ _ | .powerOnReset | .serviceStageAdvance | .scrub _ | .linkCrcFailure _ | .linkRetrainDone _ _
  | .regionStateUe _ _ _ | .leaseExpiryWriteback _ _ _ _ _ _ | .ptsAdvance | .timestampRebase _ _ | .watchdogL1 _
  | .watchdogL2 _ | .watchdogL4 _ | .watchdogL5 _ | .cpWatchdogExpiry _ | .takeover | .launchAdmit _ | .allocatorRound _
  | .launchStart _ | .launchComplete _ | .floorPreempt _ _ | .hostAssistAnswer _ _ _ _ _ | .drainComplete _ | .drainTimeout _
  | .freezeCaptureClose _ | .nodeReconfigure _ | .firingStart _ | .controlFiring _ | .pacePoint _ | .blockEntry _
  | .blockCommit _ | .recordSend _ | .recordArrival _ | .spillRefill _ | .linkArrival _ | .joinArcArrival _ _ | .joinFire _
  | .generatorPut _ | .windowInput _ _ | .sinkRecord _ | .meStreamRecord _ | .engineCommandStart _ _ | .engineCompletion _ _
  | .loadReply _ | .memoryRequest _ | .barrierArrival _ | .lkwaitAcquire _ | .runBegin _ _ | .trapDelivery _
  | .translationWalk _ _ _ _ | .rateLimitRelease _ | .iopWriteSend _ | .iopAck _ | .ioWriteAck _ | .twaitDeadline _
  | .swaitWake _ | .bvswapWrite _ _ | .rodPortFailure _ | .cfgWaveInject _ _ | .podBarrierRelease _ _ | .connectionClosed _ => .event rfl

end Sys2Proof

namespace Sys2Proof.Machine

variable {i : Instr} {ins : Ins}

/-- Every instruction with an encoding waits for its operands and declines where its predicate is not met. -/
theorem exec_waits (s : State) (h : i.ins? = some ins) : Waits s ins (exec i s) := by
  cases i.runs with
  | event none_ => simp [none_] at h
  | value h' e => cases h.symm.trans h'; exact e s ▸ waits_issue _
  | effect h' _ e => cases h.symm.trans h'; exact e s ▸ waits_issue _
  | guarded h' _ e => cases h.symm.trans h'; exact e s ▸ waits_issueWhen _ _

/-- An instruction of ops 0x01 to 0x6E sends the results of a function of its operands. -/
theorem exec_value (h : i.ins? = some ins) (op : ins.op < 0x70) :
    ∃ f : Issue → Opnds → Res, ∀ s, exec i s = .next (s.issue ins fun x => valueBody (f x) x) := by
  cases i.runs with
  | event none_ => simp [none_] at h
  | value h' e => cases h.symm.trans h'; exact ⟨_, e⟩
  | effect h' ge _ => cases h.symm.trans h'; omega
  | guarded h' ge _ => cases h.symm.trans h'; omega

/-- Settles O12: an instruction waits or declines before its meaning begins, and its predicate alone makes it decline. -/
theorem predicatesAndOperands : Obligations.PredicatesAndOperands := by
  unfold Obligations.PredicatesAndOperands
  intro s i ins h
  have waits := exec_waits s h
  refine ⟨waits.unissued, fun x hx => ⟨waits.notReady x hx, waits.declined x hx, rfl, ?_, ?_, ?_⟩⟩
  all_goals cases issuing_ins hx
  · intro v p hv
    rw [gather_eq_decline_iff, Issue.declines, if_pos p, hv, Option.map_some, Option.some_inj]
    simp only [bne]
    cases v.bits.getLsbD 0 <;> cases x.ins.pm == 1 <;> decide
  · intro p hv
    exact gather_of_no_predicate (by simp [Issue.declines, p, hv])
  · intro p
    simp [gather_eq_decline_iff, Issue.declines, p]

end Sys2Proof.Machine
end

section
/-! PROOF. Where the results of an instruction go: to a slot at once, or to a port or a register at the commit. Settles O13. -/
namespace Sys2Proof.Machine

/-- The two halves of the encoding of a target (05 R87). -/
theorem target_of_eq {n : Nat} (lt : n < 512) : Target.of n = if n / 128 = 3 then .reg (n % 128) else .slot (n / 128) (n % 128) := by
  unfold Target.of
  by_cases h : n < 384
  · rw [if_pos h, if_neg (by omega)]
  · rw [if_neg h, if_pos (by omega)]

/-! ### Slots -/

/-- How many firings a value stays in slot `slot` of instruction `j`; 0 for a slot that is not sticky (05 R90). -/
def Block.stkAt (b : Block) (j slot : Nat) : Nat := ((b.insAt j).map (Ins.stkOf · slot)).getD 0

/-- A slot can take a value: it is sticky, or empty. -/
def Block.Takes (b : Block) (j slot : Nat) : Prop := b.stkAt j slot ≠ 0 ∨ Tab.get? b.slots (j, slot) = none

/-- A block once a value has arrived in a slot (01 R15). -/
def Block.receive (b : Block) (j slot : Nat) (v : Val) : Block :=
  { b with
    slots := Tab.set b.slots (j, slot) v
    sticky := if b.stkAt j slot = 0 then b.sticky
      else (b.sticky.filter fun x => !(x.1 == j && x.2.1 == slot)) ++ [(j, slot, b.stkAt j slot, v)] }

theorem receive_sticky_of_zero {b : Block} {j slot : Nat} {v : Val} (h : b.stkAt j slot = 0) :
    (b.receive j slot v).sticky = b.sticky := by simp [Block.receive, h]

theorem mem_receive_sticky {b : Block} {j slot : Nat} {v : Val} (h : b.stkAt j slot ≠ 0) :
    (j, slot, b.stkAt j slot, v) ∈ (b.receive j slot v).sticky := by simp [Block.receive, h]

/-! ### What is sent to a target -/

section
variable {s : State} {a : Aid} {g : Agent} {b : Block} (hg : s.agent? a = some g) (hb : g.block = some b) (idx : Nat) (v : Val) (keep : Vec)
include hg hb

/-- A change of an agent's block is what it makes of the block that the agent has. -/
theorem updBlock_eq_const (f : Block → Block) : s.updBlock a f = s.updBlock a fun _ => f b := by
  simp [State.updBlock, State.updAgent, hg, hb]

theorem sendTo_slot_eq (slot j : Nat) : s.sendTo a idx (.slot slot j) v keep =
    if b.stkAt j slot = 0 && (Tab.get? b.slots (j, slot)).isSome then s.takeTrap a cTARGET j b.addr 0 (b.word0 j)
    else s.updBlock a fun _ => b.receive j slot v := by
  simp only [State.sendTo, hg, hb]
  rw [updBlock_eq_const hg hb]
  simp only [Block.receive, Block.stkAt]
  rcases (b.insAt j).eq_none_or_eq_some with h | ⟨ins, h⟩ <;> simp [h]

theorem sendTo_slot {j slot : Nat} (h : b.Takes j slot) :
    s.sendTo a idx (.slot slot j) v keep = s.updBlock a fun _ => b.receive j slot v := by
  rw [sendTo_slot_eq hg hb, if_neg (by simpa [Block.Takes, Decidable.or_iff_not_imp_left] using h)]

theorem sendTo_full_slot {j slot : Nat} (h : ¬b.Takes j slot) :
    s.sendTo a idx (.slot slot j) v keep = s.takeTrap a cTARGET j b.addr 0 (b.word0 j) := by
  rw [sendTo_slot_eq hg hb, if_pos (by simpa [Block.Takes, Option.isSome_iff_ne_none] using h)]

/-- A value for s0, p0 or null is discarded (05 R86). -/
theorem sendTo_discarded {c : Nat} (h : c = 127 ∨ c = 0 ∨ c = 48) : s.sendTo a idx (.reg c) v keep = s := by
  simp only [State.sendTo, hg, hb, if_pos h]

theorem sendTo_port {c : Nat} (h : isOutPort c = true) : s.sendTo a idx (.reg c) v keep =
    s.updBlock a fun b => b.effect idx (.put (c - 48) (.data v.bits (g.putTime (c - 48)) false [])) := by
  have range : 56 ≤ c ∧ c ≤ 63 := by simpa [isOutPort] using h
  simp only [State.sendTo, hg, hb]
  rw [if_neg (by omega), if_pos h]

theorem sendTo_register {c : Nat} (kept : ¬(c = 127 ∨ c = 0 ∨ c = 48)) (h : isOutPort c = false) :
    s.sendTo a idx (.reg c) v keep = s.updBlock a fun b => b.effect idx (.reg ⟨c, v, keep⟩) := by
  simp only [State.sendTo, hg, hb]
  rw [if_neg kept, if_neg (by simp [h])]

end

/-- Settles O13: the encoding of a target, and what is sent to each kind of target. -/
theorem resultsReachTargets : Obligations.ResultsReachTargets := by
  unfold Obligations.ResultsReachTargets
  refine ⟨fun n lt => target_of_eq lt, fun s a g b idx v keep hg hb => ⟨fun slot j => ⟨fun takes => ?_, fun plain full => ?_⟩,
    fun c h => sendTo_discarded hg hb idx v keep (by omega), fun p lo hi => ?_, fun c h0 h48 range => ?_⟩⟩
  · exact ⟨b.receive j slot v, sendTo_slot hg hb idx v keep takes, Tab.get?_set_self .., fun p ne => Tab.get?_set_ne _ _ ne, rfl,
      receive_sticky_of_zero, mem_receive_sticky⟩
  · exact sendTo_full_slot hg hb idx v keep fun takes => takes.elim (· plain) full
  · rw [sendTo_port hg hb idx v keep (by simp [isOutPort]; omega), Nat.add_sub_cancel_left]
    rfl
  · exact sendTo_register hg hb idx v keep (by omega) (by simp [isOutPort]; omega)

end Sys2Proof.Machine
end

section
/-! PROOF. The commands of the engines, noted for their queues at the commit. Settles O45. -/
namespace Sys2Proof.Machine

variable {s : State}

/-- A block whose instruction has fired and noted a command for an engine (14 R279). -/
def Block.noteCmd (b : Block) (q : EngineKind) (args : CmdArgs) (link : Option Nat) (i : Issue) (o : Operands) : Block :=
  (b.setStat i.idx .fired).effect i.idx (.cmd q args (i.follows o) i.ins.tokenReg link)

/-- An instruction that issues a command notes it, and does nothing else. -/
theorem records_of_cmdBody (s : State) (ins : Ins) (q : EngineKind) (args : Issue → Operands → CmdArgs) :
    Records s ins (.next (s.issue ins (cmdBody q args))) fun i o b => b.noteCmd q (args i o) none i o :=
  fun _ _ ready => congrArg _ (issue_ready ready _)

theorem execMrd_ready {f : FX} {i : Issue} {o : Operands} (ready : Ready s (f.ins 0xB5) i o) : execMrd f s =
    .next (if 128 ≤ scalNat o.a.bits then (s.issued i o).faultAt i cTARGET 0 else cmdBody .matrix (plainArgs 0) i o (s.issued i o)) :=
  congrArg _ (issue_ready ready _)

theorem execCpyx_ready {f : FX} {i : Issue} {o : Operands} {slot j : Nat} (ready : Ready s (f.ins 0xB1) i o)
    (linked : Target.of f.t1.toNat = .slot slot j) : execCpyx f s = .next
      (((s.issued i o).updBlock i.aid fun b => b.noteCmd .copy (cpyArgs i o) (some j) i o).sendTo i.aid i.idx (.slot slot j)
        ⟨0, o.dep⟩ 0) := by
  have t1 : Target.of i.ins.t1 = .slot slot j := by rw [ready_ins ready]; exact linked
  rw [execCpyx, issue_ready ready]
  simp only [t1]
  rfl

/-- Settles O45: each instruction notes its command, `mrd` where its selector names a register, `cpyx` with the instruction it links. -/
theorem engineCommands : Obligations.EngineCommands := by
  unfold Obligations.EngineCommands
  intro s _ _ _ _ _ _
  refine ⟨?_, ?_, ?_, ?_, ?_, ?_, ?_, ?_, ?_, ?_, ?_, ?_, ?_, ?_, ?_, ?_, ?_, ?_, ?_, ?_, ?_, ?_, ?_, ?_, fun f i o ready => ?mrd,
    fun f i o ready slot j linked => execCpyx_ready ready linked⟩
  case mrd =>
    rw [show exec (.mrd f) s = _ from execMrd_ready ready]
    exact ⟨fun lt => by rw [if_neg (by omega)]; rfl, fun ge => by rw [if_pos ge]⟩
  all_goals exact fun _ => records_of_cmdBody _ _ _ _

end Sys2Proof.Machine
end

section
/-! PROOF. What the instructions that put records and tokens note for the commit. Settles O38. -/
namespace Sys2Proof.Machine

variable {s : State} {i : Issue} {o : Operands}

/-! ### The block once an instruction has put -/

/-- A block whose instruction has fired and put a record on each outbound port that it targets (11 R228). -/
def Block.puts (i : Issue) (r : Nat → Record) (b : Block) : Block :=
  { b.setStat i.idx .fired with effects := b.effects ++ (i.ins.ports.map fun p => (i.idx, .put p (r p))) }

/-- Effects noted one after another stand in that order. -/
theorem blockOf_foldl_effect (a : Aid) (idx : Nat) (e : Nat → Effect) (ps : List Nat) (s : State) :
    (ps.foldl (fun s p => s.updBlock a fun b => b.effect idx (e p)) s).blockOf a =
      (s.blockOf a).map fun b => { b with effects := b.effects ++ ps.map fun p => (idx, e p) } := by
  induction ps generalizing s with
  | nil => simp
  | cons p ps ih =>
    rw [List.foldl_cons, ih, blockOf_updBlock_self, Option.map_map]
    congr 1
    funext b
    simp [Block.effect]

theorem blockOf_putAll (s : State) (i : Issue) (r : Nat → Record) :
    (s.putAll i r).blockOf i.aid = (s.blockOf i.aid).map (Block.puts i r) := by
  simp only [State.putAll]
  rw [blockOf_foldl_effect i.aid i.idx fun p => .put p (r p), blockOf_updBlock_self, Option.map_map]
  rfl

theorem blockOf_putNothing (s : State) (i : Issue) :
    (s.putNothing i).blockOf i.aid = (s.blockOf i.aid).map fun b => b.setStat i.idx .fired := blockOf_updBlock_self ..

/-- An instruction that puts nothing because its operands are invalid raises the flag (11 R230, R231). -/
theorem blockOf_putInvalid (s : State) (i : Issue) : ((s.raiseFlags i fNV).putNothing i).blockOf i.aid =
    (s.blockOf i.aid).map fun b => { b.setStat i.idx .fired with flags := b.flags ||| fNV } := by
  rw [blockOf_putNothing, State.raiseFlags, blockOf_updBlock_self, Option.map_map]
  rfl

/-- The block of an instruction that issues is what its body makes of it. -/
theorem blockOf_ready {ins : Ins} (ready : Ready s ins i o) {body : Issue → Operands → State → State} {b : Option Block}
    (h : (body i o (s.issued i o)).blockOf i.aid = b) :
    ∃ t, (.next (s.issue ins body) : Answer) = .next t ∧ t.blockOf i.aid = b :=
  ⟨_, congrArg _ (issue_ready ready _), h⟩

/-- An instruction that puts a record made from its operands notes it once for each port. -/
theorem putAll_ready {ins : Ins} (ready : Ready s ins i o) (r : Issue → Operands → Nat → Record) :
    ∃ t, (.next (s.issue ins fun i o s => s.putAll i (r i o)) : Answer) = .next t ∧
      t.blockOf i.aid = ((s.issued i o).blockOf i.aid).map (Block.puts i (r i o)) :=
  blockOf_ready ready (blockOf_putAll ..)

/-! ### `put` -/

/-- A `put` forwards the entry of the inbound port that its source names (11 R229). -/
def Ins.forwards (i : Ins) : Bool := i.form != .f0 && Ins.validSrc i.srcA && isInPort (Ins.srcCode i.srcA)

/-- The payload of a `put`, its inactive elements cleared where its form has a mask (05 R92). -/
def Issue.putPayload (i : Issue) (o : Operands) (p : Vec) : Vec := if i.ins.form = .f0 then p else maskPayload i.ins.width o.mask p

/-- The time that `.t` gives a record, or another. -/
def Issue.putTime (i : Issue) (o : Operands) (t : Nat) : Nat := if i.ins.rm == 1 then scalNat o.b.bits % 2 ^ 32 else t

/-- The entry that a forwarding `put` reads. -/
def Issue.putEntry (i : Issue) : Record := i.entry (if i.ins.rm == 1 then 0 else i.ins.stkB)

theorem putBody_computed (h : i.ins.forwards = false) : putBody i o s =
    s.putAll i fun q => .data (i.putPayload o o.a.bits) (i.putTime o (i.g.putTime q)) false [] := by
  unfold putBody
  dsimp only
  rw [← Ins.forwards, h]
  rfl

theorem putBody_forwards (h : i.ins.forwards = true) : putBody i o s =
    let u := s.updBlock i.aid fun b => { b with readExc := b.readExc || i.putEntry.exc }
    if i.putEntry.kind = kDRAIN then u.putNothing i else
      u.putAll i fun _ => { i.putEntry with
        payload := i.putPayload o i.putEntry.payload, time := i.putTime o i.putEntry.time, sr := [] } := by
  unfold putBody
  dsimp only
  rw [← Ins.forwards, h]
  rfl

section
variable {f : FX} (ins : i.ins = f.ins 0x80)
include ins

theorem put_rm_eq_one : (i.ins.rm == 1) = decide (f.rm = 1) := by
  simp [ins, FX.ins, BitVec.toNat_eq, beq_eq_decide]

theorem put_forwards_iff (lit : f.lit = none) :
    i.ins.forwards = true ↔ 128 ≤ f.srcA.toNat ∧ 72 ≤ f.srcA.toNat % 128 ∧ f.srcA.toNat % 128 < 80 := by
  simp only [Ins.forwards, ins, FX.ins, lit, Ins.validSrc, Ins.srcCode, isInPort, Option.isSome_none, Bool.false_eq_true, if_false,
    Bool.and_eq_true, decide_eq_true_eq]
  constructor
  · rintro ⟨⟨-, valid⟩, lo, hi⟩
    exact ⟨valid, lo, by omega⟩
  · rintro ⟨valid, lo, hi⟩
    exact ⟨⟨rfl, valid⟩, lo, by omega⟩

theorem putTime_eq (t : Nat) : i.putTime o t = if f.rm = 1 then scalNat o.b.bits % 2 ^ 32 else t := by
  simp only [Issue.putTime, put_rm_eq_one ins, decide_eq_true_eq]

theorem putEntry_eq : i.putEntry = i.entry (if f.rm = 1 then 0 else f.stkB.toNat) := by
  simp only [Issue.putEntry, put_rm_eq_one ins, decide_eq_true_eq]
  rw [ins]
  rfl

end

/-- A `put` of the short form puts operand A (11 R228). -/
theorem execPutF0_puts {f : F0} (ready : Ready s (f.ins 0x80) i o) :
    ∃ t, execPutF0 f s = .next t ∧ t.blockOf i.aid = ((s.issued i o).blockOf i.aid).map
      (Block.puts i fun p => .data o.a.bits (i.g.putTime p) false []) := by
  have ins := ready_ins ready
  have untimed : (i.ins.rm == 1) = false := by rw [ins]; rfl
  refine blockOf_ready ready ?_
  rw [putBody_computed (by rw [ins]; rfl), blockOf_putAll, Issue.putPayload, if_pos (by rw [ins]; rfl)]
  simp only [Issue.putTime, untimed]
  rfl

section
variable {f : FX} (ready : Ready s (f.ins 0x80) i o) (lit : f.lit = none)
include ready lit

theorem execPutF1_computed (computed : ¬(128 ≤ f.srcA.toNat ∧ 72 ≤ f.srcA.toNat % 128 ∧ f.srcA.toNat % 128 < 80)) :
    ∃ t, execPutF1 f s = .next t ∧ t.blockOf i.aid = ((s.issued i o).blockOf i.aid).map (Block.puts i fun p =>
      .data (i.putPayload o o.a.bits) (if f.rm = 1 then scalNat o.b.bits % 2 ^ 32 else i.g.putTime p) false []) := by
  have ins := ready_ins ready
  refine blockOf_ready ready ?_
  rw [putBody_computed (Bool.eq_false_iff.2 (mt (put_forwards_iff ins lit).1 computed)), blockOf_putAll]
  simp only [putTime_eq ins]

/-- A `put` of the long form forwards the entry that its source names (11 R229). -/
theorem execPutF1_forwards (forwards : 128 ≤ f.srcA.toNat ∧ 72 ≤ f.srcA.toNat % 128 ∧ f.srcA.toNat % 128 < 80) :
    let entry := i.entry (if f.rm = 1 then 0 else f.stkB.toNat)
    entry.kind ≠ kDRAIN → ∃ t, execPutF1 f s = .next t ∧ t.blockOf i.aid = ((s.issued i o).blockOf i.aid).map fun b =>
      { Block.puts i (fun _ => { entry with
          payload := i.putPayload o entry.payload, time := if f.rm = 1 then scalNat o.b.bits % 2 ^ 32 else entry.time, sr := [] }) b with
        readExc := b.readExc || entry.exc } := by
  intro entry kind
  have ins := ready_ins ready
  have read : i.putEntry = entry := putEntry_eq ins
  refine blockOf_ready ready ?_
  rw [putBody_forwards ((put_forwards_iff ins lit).2 forwards), if_neg (read ▸ kind), blockOf_putAll, blockOf_updBlock_self,
    Option.map_map]
  simp only [putTime_eq ins, read]
  rfl

/-- A DRAIN is not forwarded (11 R229). -/
theorem execPutF1_drain (forwards : 128 ≤ f.srcA.toNat ∧ 72 ≤ f.srcA.toNat % 128 ∧ f.srcA.toNat % 128 < 80) :
    let entry := i.entry (if f.rm = 1 then 0 else f.stkB.toNat)
    entry.kind = kDRAIN → ∃ t, execPutF1 f s = .next t ∧ t.blockOf i.aid = ((s.issued i o).blockOf i.aid).map fun b =>
      { b.setStat i.idx .fired with readExc := b.readExc || entry.exc } := by
  intro entry drain
  have ins := ready_ins ready
  have read : i.putEntry = entry := putEntry_eq ins
  refine blockOf_ready ready ?_
  rw [putBody_forwards ((put_forwards_iff ins lit).2 forwards), if_pos (read ▸ drain), blockOf_putNothing, blockOf_updBlock_self,
    Option.map_map, read]
  rfl

end

/-! ### `gap` -/

/-- A gap record whose fields are not those that 11 R231 allows. -/
def Gap.Invalid (g : Gap) : Prop :=
  g.lost = 0 ∨ g.cause ∉ [1, 2, 4, 5, 6, 7, 8, 9, 10] ∨ badLostw g.lostw = true ∨ (g.kr = true ∧ g.kmax < g.kmin) ∨
    g.tmax < g.tmin

/-- The same as the instruction computes it. -/
def Gap.bad (g : Gap) : Bool :=
  g.lost == 0 || !([1, 2, 4, 5, 6, 7, 8, 9, 10].contains g.cause) || badLostw g.lostw || (g.kr && g.kmin > g.kmax) || g.tmin > g.tmax

theorem Gap.bad_iff (g : Gap) : g.bad = true ↔ g.Invalid := by
  simp only [Gap.bad, Gap.Invalid, Bool.or_eq_true, Bool.and_eq_true, Bool.not_eq_true', decide_eq_true_eq, beq_iff_eq, or_assoc,
    gt_iff_lt, ← Bool.not_eq_true, List.contains_iff_mem]

/-- A gap record with the key range of one that has none cleared. -/
def Gap.ranged (g : Gap) : Gap := { g with kmin := if g.kr then g.kmin else 0, kmax := if g.kr then g.kmax else 0 }

/-- The gap record whose marker is the payload in operand A. -/
def Operands.gap (o : Operands) : Gap := .ofRecord { Record.null with payload := o.a.bits }

theorem execGap_eq (f : FX) (s : State) : execGap f s = .next (s.issue (f.ins 0x86) fun i o s =>
    if o.gap.bad then (s.raiseFlags i fNV).putNothing i else s.putAll i fun _ => o.gap.ranged.record) := rfl

theorem execGap_invalid {f : FX} (ready : Ready s (f.ins 0x86) i o) (bad : o.gap.Invalid) :
    ∃ t, execGap f s = .next t ∧ t.blockOf i.aid = ((s.issued i o).blockOf i.aid).map
      fun b => { b.setStat i.idx .fired with flags := b.flags ||| fNV } := by
  rw [execGap_eq]
  exact blockOf_ready ready (by rw [if_pos (o.gap.bad_iff.2 bad), blockOf_putInvalid])

theorem execGap_puts {f : FX} (ready : Ready s (f.ins 0x86) i o) (good : ¬o.gap.Invalid) :
    ∃ t, execGap f s = .next t ∧ t.blockOf i.aid = ((s.issued i o).blockOf i.aid).map
      (Block.puts i fun _ => o.gap.ranged.record) := by
  rw [execGap_eq]
  exact blockOf_ready ready (by rw [if_neg (mt o.gap.bad_iff.1 good), blockOf_putAll])

/-! ### `putk` -/

theorem bitsAt_one (x k : Nat) : (bitsAt x k 1 == 1) = x.testBit k := by
  rw [Nat.testBit_eq_decide_div_mod_eq, beq_eq_decide, bitsAt, Nat.shiftRight_eq_div_pow, Nat.pow_one]

theorem execPutk_zero {f : FX} (ready : Ready s (f.ins 0x81) i o) (zero : (wt16Value (scalNat o.c.bits % 2 ^ 16)).isZero = true) :
    ∃ t, execPutk f s = .next t ∧ t.blockOf i.aid = ((s.issued i o).blockOf i.aid).map
      fun b => { b.setStat i.idx .fired with flags := b.flags ||| fNV } := by
  refine blockOf_ready ready ?_
  dsimp only
  rw [if_pos zero, blockOf_putInvalid]

theorem execPutk_puts {f : FX} (ready : Ready s (f.ins 0x81) i o) (nonzero : (wt16Value (scalNat o.c.bits % 2 ^ 16)).isZero = false) :
    ∃ t, execPutk f s = .next t ∧ t.blockOf i.aid = ((s.issued i o).blockOf i.aid).map (Block.puts i fun p =>
      ⟨maskPayload i.ins.width o.mask o.a.bits, 0, scalNat o.c.bits % 2 ^ 16, i.g.putTime p, scalNat o.b.bits % 2 ^ 32, true, 0, false,
        false, (scalNat o.c.bits).testBit 16, []⟩) := by
  refine blockOf_ready ready ?_
  dsimp only
  rw [if_neg (Bool.eq_false_iff.1 nonzero), blockOf_putAll]
  simp only [bitsAt_one]
  rfl

/-- Settles O38: each instruction that can issue notes its record once for each port, or puts nothing. -/
theorem putsWaitForCommit : Obligations.PutsWaitForCommit := by
  unfold Obligations.PutsWaitForCommit
  intro s puts token data masked
  refine ⟨fun f i o ready => putAll_ready ready _, fun f i o ready => execPutF0_puts ready,
    fun f i o ready lit => ⟨execPutF1_computed ready lit, execPutF1_forwards ready lit, execPutF1_drain ready lit⟩,
    fun f i o ready => ⟨execPutk_zero ready, execPutk_puts ready⟩,
    fun f i o ready => ⟨execGap_invalid ready, execGap_puts ready⟩, ?_⟩
  exact ⟨fun f i o ready => putAll_ready ready _, fun f i o ready => putAll_ready ready _, fun f i o ready => putAll_ready ready _,
    fun f i o ready => putAll_ready ready _, fun f i o ready => putAll_ready ready _, fun f i o ready => putAll_ready ready _⟩

end Sys2Proof.Machine
end

section
/-! PROOF. What a value instruction changes: its own agent's block, and the count of issues. Settles O15. -/
namespace Sys2Proof.Machine

/-! ### What an instruction may change in its block -/

/-- A block has gone on by at most `n` effects of instruction `idx`, and by changes of slots, flags and that instruction's own status. -/
structure Block.Grows (b : Block) (idx n : Nat) (b' : Block) : Prop where
  frame : b' = { b with
    slots := b'.slots, sticky := b'.sticky, stat := b'.stat, flags := b'.flags, effects := b'.effects, readExc := b'.readExc }
  others : ∀ j, j ≠ idx → b'.statOf j = b.statOf j
  effects : ∃ new, b'.effects = b.effects ++ new ∧ new.length ≤ n ∧ ∀ e ∈ new, e.1 = idx

section
variable {b b' b'' : Block} {idx n m : Nat}

/-- A change that notes no effect. -/
theorem Block.Grows.of_effects (frame : b' = { b with
      slots := b'.slots, sticky := b'.sticky, stat := b'.stat, flags := b'.flags, effects := b'.effects, readExc := b'.readExc })
    (others : ∀ j, j ≠ idx → b'.statOf j = b.statOf j) (effects : b'.effects = b.effects) : b.Grows idx 0 b' :=
  ⟨frame, others, [], by simp [effects]⟩

theorem Block.Grows.trans (h : b.Grows idx n b') (h' : b'.Grows idx m b'') : b.Grows idx (n + m) b'' := by
  obtain ⟨new, e, len, own⟩ := h.effects
  obtain ⟨new', e', len', own'⟩ := h'.effects
  refine ⟨?_, fun j ne => (h'.others j ne).trans (h.others j ne), new ++ new', by rw [e', e, List.append_assoc],
    by simp; omega, fun x hx => (List.mem_append.1 hx).elim (own x) (own' x)⟩
  rw [h'.frame, h.frame]

theorem Block.Grows.mono (h : b.Grows idx n b') (le : n ≤ m) : b.Grows idx m b' := by
  obtain ⟨new, e, len, own⟩ := h.effects
  exact ⟨h.frame, h.others, new, e, len.trans le, own⟩

theorem Block.Grows.code (h : b.Grows idx n b') : b'.code = b.code := by rw [h.frame]

theorem stkAt_congr (h : b'.code = b.code) (j slot : Nat) : b'.stkAt j slot = b.stkAt j slot := by
  simp only [Block.stkAt, Block.insAt, h]

theorem grows_setStat (b : Block) (idx : Nat) (x : IStat) : b.Grows idx 0 (b.setStat idx x) :=
  .of_effects rfl (fun _ ne => Tab.getD_set_ne _ _ _ ne) rfl

theorem statOf_setStat_self (b : Block) (idx : Nat) (x : IStat) : (b.setStat idx x).statOf idx = x := Tab.getD_set_self ..

theorem grows_receive (b : Block) (idx j slot : Nat) (v : Val) : b.Grows idx 0 (b.receive j slot v) :=
  .of_effects rfl (fun _ _ => rfl) rfl

/-- A block whose instruction has issued with an entry's `exc` noted and raised its flags. -/
def Block.raise (b : Block) (exc : Bool) (flags : FlagSet) : Block :=
  { b with flags := b.flags ||| fNone ||| flags, readExc := b.readExc || exc }

theorem grows_raise (b : Block) (idx : Nat) (exc : Bool) (flags : FlagSet) : b.Grows idx 0 (b.raise exc flags) :=
  .of_effects rfl (fun _ _ => rfl) rfl

theorem grows_effect (b : Block) (idx : Nat) (e : Effect) : b.Grows idx 1 (b.effect idx e) :=
  ⟨rfl, fun _ _ => rfl, [(idx, e)], rfl, Nat.le_refl _, by simp⟩

end

/-! ### What sending a value changes -/

/-- A block once a value has been sent to a target: its slots are as before but for the target. -/
structure Block.Sent (b : Block) (idx : Nat) (t : Target) (b' : Block) : Prop where
  grows : b.Grows idx 1 b'
  stat : b'.stat = b.stat
  slots : ∀ slot j, t ≠ .slot slot j → Tab.get? b'.slots (j, slot) = Tab.get? b.slots (j, slot)

theorem Block.Sent.takes {b b' : Block} {idx : Nat} {t : Target} (h : b.Sent idx t b') {slot j : Nat} (ne : t ≠ .slot slot j)
    (takes : b.Takes j slot) : b'.Takes j slot := by
  rw [Block.Takes, stkAt_congr h.grows.code, h.slots slot j ne]
  exact takes

section
variable {s : State} {a : Aid} {g : Agent} (hg : s.agent? a = some g) (hb : g.block.isSome = true)
include hg hb

theorem agent?_updBlock_const (b : Block) : (s.updBlock a fun _ => b).agent? a = some { g with block := some b } := by
  obtain ⟨c, hc⟩ := Option.isSome_iff_exists.1 hb
  simp [State.updBlock, agent?_updAgent_self, hg, hc]

/-- A value sent to a target that can take it changes the block only. -/
theorem sendTo_updBlock (b : Block) (idx : Nat) (t : Target) (v : Val) (keep : Vec)
    (takes : ∀ slot j, t = .slot slot j → b.Takes j slot) :
    ∃ b', (s.updBlock a fun _ => b).sendTo a idx t v keep = s.updBlock a (fun _ => b') ∧ b.Sent idx t b' := by
  have hg' := agent?_updBlock_const hg hb b
  cases t with
  | slot slot j =>
    refine ⟨b.receive j slot v, ?_, (grows_receive ..).mono (Nat.zero_le _), rfl, fun slot' j' ne => ?_⟩
    · rw [sendTo_slot hg' rfl idx v keep (takes slot j rfl), updBlock_updBlock]
    · exact Tab.get?_set_ne _ _ fun e => ne (by cases e; rfl)
  | reg c =>
    by_cases gone : c = 127 ∨ c = 0 ∨ c = 48
    · exact ⟨b, sendTo_discarded hg' rfl idx v keep gone, .mono (.of_effects rfl (fun _ _ => rfl) rfl) (Nat.zero_le _), rfl,
        fun _ _ _ => rfl⟩
    · cases port : isOutPort c with
      | true =>
        exact ⟨_, by rw [sendTo_port hg' rfl idx v keep port, updBlock_updBlock], grows_effect .., rfl, fun _ _ _ => rfl⟩
      | false =>
        exact ⟨_, by rw [sendTo_register hg' rfl idx v keep gone port, updBlock_updBlock], grows_effect .., rfl, fun _ _ _ => rfl⟩

/-- Two results sent to two targets that can take them change the block only, and the instruction has fired. -/
theorem deliver_updBlock (b : Block) {i : Issue} (own : i.aid = a) (v0 v1 : Val) (keep : Vec)
    (takes : ∀ slot j, Target.of i.ins.t0 = .slot slot j ∨ Target.of i.ins.t1 = .slot slot j → b.Takes j slot)
    (apart : ∀ slot j, Target.of i.ins.t0 = .slot slot j → Target.of i.ins.t1 ≠ .slot slot j) :
    ∃ b', (s.updBlock a fun _ => b).deliver i v0 v1 keep = s.updBlock a (fun _ => b') ∧
      b.Grows i.idx 2 b' ∧ b'.statOf i.idx = .fired := by
  subst own
  obtain ⟨c, hc, sent⟩ := sendTo_updBlock hg hb (b.setStat i.idx .fired) i.idx _ v0 keep fun slot j e => takes slot j (.inl e)
  obtain ⟨d, hd, sent'⟩ := sendTo_updBlock hg hb c i.idx _ v1 keep fun slot j e =>
    sent.takes (fun e0 => apart slot j e0 e) (takes slot j (.inr e))
  refine ⟨d, ?_, ((grows_setStat ..).trans sent.grows).trans sent'.grows, ?_⟩
  · simp [State.deliver, updBlock_updBlock, hc, agent?_updBlock_const hg hb, hd]
  · rw [Block.statOf, sent'.stat, sent.stat]
    exact statOf_setStat_self ..

end

/-! ### What a value instruction changes -/

section
variable {s : State} {i : Issue} {o : Operands}

/-- Counting an issue and changing the block of the agent that issues changes nothing else. -/
theorem sameButBlock_counted {a : Aid} {g : Agent} (hg : s.agent? a = some g) (hb : g.block.isSome = true) (b : Block) :
    SameButBlock s ((s.countAt g 0x12).updBlock a fun _ => b) a := by
  refine ⟨by simp, by simp, by simp, by simp, by simp, by simp, by simp, by simp, ?_, fun c ne => ?_, g, b, hg, ?_⟩
  · rw [updBlock_sched]
    exact countAt_sched s g
  · simp only [State.updBlock]
    rw [agent?_updAgent_ne _ _ ne, countAt_agent?]
  · exact agent?_updBlock_const (by rw [countAt_agent?, hg]) hb b

/-- The results of an instruction whose targets can take them: what stands in its block then, and that nothing else changes. -/
theorem results_updBlock (hg : s.agent? i.aid = some i.g) (hb : i.g.block = some i.b) (r : Res)
    (takes : ∀ slot j, Target.of i.ins.t0 = .slot slot j ∨ Target.of i.ins.t1 = .slot slot j → i.b.Takes j slot)
    (apart : ∀ slot j, Target.of i.ins.t0 = .slot slot j → Target.of i.ins.t1 ≠ .slot slot j) :
    ∃ b', s.results i o r = (s.countAt i.g 0x12).updBlock i.aid (fun _ => b') ∧
      i.b.Grows i.idx 2 b' ∧ b'.statOf i.idx = .fired := by
  have counted : (s.countAt i.g 0x12).agent? i.aid = some i.g := by rw [countAt_agent?, hg]
  obtain ⟨b', e, grows, fired⟩ :=
    deliver_updBlock counted (by simp [hb]) (i.b.raise o.exc r.flags) rfl ⟨r.out, o.dep⟩ ⟨r.out1, o.dep⟩ r.keep takes apart
  refine ⟨b', ?_, by simpa using (grows_raise ..).trans grows, fired⟩
  rw [← e, State.results, State.raiseFlags, State.issued, State.note, updBlock_updBlock, updBlock_eq_const counted hb]
  rfl

end

/-- Settles O15: such an instruction sends the results of a function of its operands, and its targets can take them. -/
theorem valueFrame : Obligations.ValueFrame := by
  unfold Obligations.ValueFrame
  intro s i ins x o hi op ready takes apart
  obtain ⟨f, hf⟩ := exec_value hi op
  obtain ⟨-, hg, hb, -⟩ := issuing_block ready.1
  cases ready_ins ready
  obtain ⟨b, e, grows, fired⟩ := results_updBlock (o := o) hg hb (f x (x.opnds o)) takes apart
  refine ⟨_, (hf s).trans (congrArg _ (issue_ready ready _)), ?_⟩
  rw [show valueBody (f x) x o (s.issued x o) = _ from e]
  have same := sameButBlock_counted hg (by simp [hb]) b
  refine ⟨same, fun pa => by simp, b, ?_, grows.frame, grows.others, fired, grows.effects⟩
  rw [State.blockOf, agent?_updBlock_const (by rw [countAt_agent?, hg]) (by simp [hb])]
  rfl

end Sys2Proof.Machine
end

section
/-! PROOF. When firings and runs begin, what a pace point makes due, how a configuration wave passes an actor, and how trap records and
notices reach the call queues. Settles O48. -/
namespace Sys2Proof.Machine

variable {s t : State} {a : Aid} {g : Agent}

/-! ### Room in the pipe -/

theorem makeRoom_of_empty (h : g.inFlight = []) : g.makeRoom = g := by simp [Agent.makeRoom, h]

theorem makeRoom_of_nonempty (h : g.inFlight ≠ []) :
    g.makeRoom = { g with older := g.inFlight, firing := none, block := none, younger := [] } := by simp [Agent.makeRoom, h]

@[simp] theorem makeRoom_entry (g : Agent) : g.makeRoom.entry = g.entry := by
  unfold Agent.makeRoom
  split <;> rfl

/-! ### The beginning of a firing -/

/-- The agents depend on the table of agents and, for a thread that has never run, on the floors of the timestamps. -/
theorem agent?_congr (agents : t.agents = s.agents) (ms : t.ms = s.ms) (b : Aid) : t.agent? b = s.agent? b := by
  simp only [State.agent?, State.freshThread, State.floorTs, agents, ms]

/-- A change of an agent that is there is what it makes of it. -/
theorem updAgent_eq_const (hg : s.agent? a = some g) (f : Agent → Agent) : s.updAgent a f = s.updAgent a fun _ => f g := by
  simp [State.updAgent, hg]

/-- An actor that has begun a firing and enters its entry block (09 R177). -/
def Agent.begins (g : Agent) (f : Firing) : Agent :=
  { g.makeRoom with readySince := none, firing := some f, phase := .entering g.makeRoom.entry, paceDue := false, firedOnce := true }

theorem begins_eq (g : Agent) (f : Firing) : g.begins f =
    { g.makeRoom with readySince := none, firing := some f, phase := .entering g.entry, paceDue := false, firedOnce := true } := by
  simp only [Agent.begins, makeRoom_entry]

/-- A firing as it begins at a tick, with what it is delivered and the requests that it follows. -/
def Firing.start (control : Bool) (ds : List Delivered) (tick : Nat) (follows : List Nat) : Firing :=
  ⟨control, ds, [], tick, false, [], [], follows, []⟩

/-- An actor has begun a firing, and beside it only counters have changed. -/
structure Begun (s t : State) (a : Aid) (g : Agent) (control : Bool) (ds : List Delivered) : Prop where
  agent : ∃ follows, t.agent? a = some (g.begins (.start control ds s.clk.tick follows))
  others : ∀ b, b ≠ a → t.agent? b = s.agent? b
  fab : t.fab = s.fab
  ms : t.ms = s.ms

/-- Counting a firing leaves agents, queues and memory as they are. -/
theorem Begun.count {u : State} {control : Bool} {ds : List Delivered} (h : Begun s u a g control ds) (k : Agent) (code : Nat) :
    Begun s (u.countAt k code) a g control ds := by
  have same := agent?_congr (s := u) (t := u.countAt k code) (by simp) (by simp)
  exact ⟨by simpa [same] using h.agent, by simpa [same] using h.others, by simpa using h.fab, by simpa using h.ms⟩

theorem begun_beginFiring (hg : s.agent? a = some g) (control : Bool) (ds : List Delivered) :
    Begun s (s.beginFiring a control ds) a g control ds := by
  unfold State.beginFiring
  dsimp only
  rw [updAgent_updAgent]
  generalize ds.foldl _ [] = follows
  have begun : Begun s (s.updAgent a fun x => x.begins (.start control ds s.clk.tick follows)) a g control ds :=
    ⟨⟨follows, by rw [agent?_updAgent_self, hg]; rfl⟩, fun b ne => agent?_updAgent_ne _ _ ne, by simp, by simp⟩
  split
  · split
    · exact (begun.count _ _).count _ _
    · exact begun.count _ _
  · exact begun

/-! ### The firing rule -/

theorem portReady_iff (e : InPort × List (Nat × Record)) : portReady e = true ↔
    e.1.count ≤ e.2.length ∧ ∀ r ∈ e.2.take e.1.count, isControlKind r.2.kind = false ∧ r.2.kind ≠ kCFG := by
  simp [portReady]

/-- Without a control token at a head, ports that all hold their count admit a data firing (09 R177). -/
theorem canData_of_ports (control : s.canControl g = false) (ports : ∀ e ∈ s.portsOf g, e.1.count ≤ e.2.length ∧
    ∀ r ∈ e.2.take e.1.count, isControlKind r.2.kind = false ∧ r.2.kind ≠ kCFG) : s.canData g = true := by
  simp only [State.canData, control, Bool.not_false, Bool.true_and, List.all_eq_true]
  exact fun e he => (portReady_iff e).2 (ports e he)

theorem controlHead_isControl {drains : Bool} {e : InPort × List (Nat × Record)} {x : Nat × Record}
    (h : controlHead drains e = some x) : isControlKind x.2.kind = true := by
  unfold controlHead at h
  split at h
  · split at h
    next head => cases h; simp only [Bool.and_eq_true] at head; exact head.1
    next => cases h
  · cases h

/-- A control firing is delivered single control tokens (09 R178). -/
theorem mem_controlHeads {ps : List (InPort × List (Nat × Record))} {d : Delivered} (h : d ∈ controlHeads ps) :
    ∃ r n, d.entries = [r] ∧ d.serials = [n] ∧ d.control = true ∧ isControlKind r.kind = true := by
  obtain ⟨e, -, he⟩ := List.mem_filterMap.1 h
  obtain ⟨x, head, rfl⟩ := Option.map_eq_some_iff.1 he
  exact ⟨x.2, x.1, rfl, rfl, rfl, controlHead_isControl head⟩

section
variable (hg : s.agent? a = some g)
include hg

/-- What holds an actor back, or another that its CU chooses first, holds both kinds of firing back. -/
theorem firings_of_not_chosen (h : s.chosen a g = false) : execFiringStart a s = .next s ∧ execControlFiring a s = .next s := by
  simp [execFiringStart, execControlFiring, hg, h]

/-- A control firing comes before a data firing. -/
theorem execFiringStart_of_control (h : s.canControl g = true) : execFiringStart a s = .next s := by
  simp [execFiringStart, hg, State.canData, h]

theorem execFiringStart_begins (may : s.mayFire a g = true) (chosen : s.chosen a g = true) (data : s.canData g = true) :
    execFiringStart a s = .next (s.beginFiring a false (dataEntries (s.portsOf g))) := by
  simp [execFiringStart, hg, may, chosen, data]

theorem execControlFiring_begins (may : s.mayFire a g = true) (chosen : s.chosen a g = true) (control : s.canControl g = true) :
    execControlFiring a s = .next (s.beginFiring a true (controlHeads (s.portsOf g))) := by
  simp [execControlFiring, hg, may, chosen, control]

end

/-! ### Pace points -/

/-- The pace point after a tick is the first of its sequence (09 R181). -/
theorem nextPacePoint_spec {next period now : Nat} (pos : period ≠ 0) (due : next ≤ now) :
    now < nextPacePoint next period now ∧ nextPacePoint next period now ≤ now + period ∧
      (nextPacePoint next period now - next) % period = 0 := by
  have split := Nat.div_add_mod' (now - next) period
  have lt := Nat.mod_lt (now - next) (Nat.pos_of_ne_zero pos)
  have e : nextPacePoint next period now = next + (now - next) / period * period + period := by
    rw [nextPacePoint, if_neg (by omega)]
  rw [e]
  refine ⟨by omega, by omega, ?_⟩
  rw [show next + (now - next) / period * period + period - next = ((now - next) / period + 1) * period by rw [Nat.add_mul]; omega]
  exact Nat.mul_mod_left ..

theorem execPacePoint_due {p : Nat} (hg : s.agent? a = some g) (alive : s.agentAlive a = true) (pace : g.pace = some p) (pos : p ≠ 0)
    (due : g.nextPace ≤ s.clk.tick) : execPacePoint a s = .next (s.updAgent a fun k => { k with
      nextPace := nextPacePoint g.nextPace p s.clk.tick
      paceDue := k.paceDue || (g.ins.isEmpty || s.canControl g || s.canData g) }) := by
  simp only [execPacePoint, hg, pace]
  rw [if_neg (by simp [alive, pos, due]), updAgent_eq_const hg,
    updAgent_eq_const hg fun k => { k with nextPace := nextPacePoint g.nextPace p s.clk.tick, paceDue := _ }]

/-! ### Runs of service threads -/

/-- A thread with the run of an entry of its call queue, which enters the block that its `CQCTL` and `CQENTRY` name (20 R365). -/
def Agent.runs (g : Agent) (s : State) (k : ThreadCtl) (call : Option Nat) (r : Record) (serial : Nat) : Agent :=
  { g with
    mode := .seq, level := k.level, ctx := k.ctx, runInc := (s.context k.ctx).incnext, call := call
    firing := some ⟨false, [⟨0, [r], [serial], false⟩], [], s.clk.tick, false, [], [], r.sr, []⟩
    phase := .entering k.entry }

section
variable {d u : Nat} {h : Held} {rest : List Held} (hg : s.agent? (.thread d u) = some g) (head : (s.callQueue d u).ready = h :: rest)
include hg head

theorem execRunBegin_held (held : (s.threadCtl d u).en = false ∨ s.dieServes d = false) : execRunBegin d u s = .next s := by
  have stays : (g.firing.isSome || !(s.threadCtl d u).en || !(s.context (s.threadCtl d u).ctx).live || !s.dieServes d) = true := by
    rcases held with h | h <;> simp [h]
  simp only [execRunBegin, hg, head]
  rw [if_pos stays]

theorem execRunBegin_begins (idle : g.firing = none) (en : (s.threadCtl d u).en = true) (serves : s.dieServes d = true)
    (live : (s.context (s.threadCtl d u).ctx).live = true) : ∃ f call, execRunBegin d u s = .next ((s.updAgent (.thread d u) fun _ =>
      g.runs s (s.threadCtl d u) call ((s.callQueue d u).deliver h) h.serial).updSched f) := by
  simp only [execRunBegin, hg, head]
  rw [if_neg (by simp [idle, en, serves, live]), updAgent_eq_const hg]
  exact ⟨_, _, rfl⟩

end

/-! ### Configuration waves -/

/-- An actor between firings with a whole run before it takes the writes for itself, and passes on what is not for it and what is code
(21 R380). -/
theorem execNodeReconfigure_takes {rid : Nat} (hg : s.agent? a = some g) (hr : a.rid = some rid) (alive : s.agentAlive a = true)
    (idle : g.firing = none) (whole : s.waveAt a g ≠ []) :
    let run := s.waveAt a g
    let passed := run.filter fun p => !(CfgWrite.of p).forActor g || (CfgWrite.of p).type == 1
    execNodeReconfigure a s = .next (g.outs.foldl (fun s o => passed.foldl (fun s p => s.putOn o.dst (cfgRecord p)) s)
      ((s.takeWave a g).reconfigure rid a g ((run.filter fun p => (CfgWrite.of p).forActor g).map CfgWrite.of))) := by
  simp only [execNodeReconfigure, hg, hr]
  rw [if_neg (by simp [alive, idle, whole])]

/-! ### Trap records and notices -/

section
variable {e : TrapEntry} (found : s.sched.traps.find? (fun f => f.id == e.id && !f.delivered) = some e) (own : e.management = false)
  (fault : (s.partition (s.partOf e.trap.ctx)).fnmode.testBit 3 = false) (device : e.host = false)
include found own fault device

/-- A record of a context's own goes to the context's fault thread: it is refused, judged, or passes the shear (22 R400). -/
theorem execTrapDelivery_eq {d u : Nat} (hd : d = (s.context e.trap.ctx).fdie) (hu : u = (s.context e.trap.ctx).fthr) :
    let r := Record.data e.trap.payload (s.clk.tick % 2 ^ 32) false []
    execTrapDelivery e.id s = .next (
      if s.refuses e.trap.die d then (s.refuse d).markDelivered e
      else if e.trap.tflags % 2 = 1 then
        if (s.arriveAt (.call d u) r).2 = .kept then (s.arriveAt (.call d u) r).1.markDelivered e
        else ((s.arriveAt (.call d u) r).1.count d none 0x51).markDelivered e
      else if 8 ≤ (s.callQueue d u).free then
        (s.updQueue (.call d u) fun q => q.bypass r).markDelivered e (some (.call d u, (s.callQueue d u).nextSerial))
      else s) := by
  subst hd hu
  simp only [execTrapDelivery, found, own, fault, device, Bool.or_false, Bool.false_eq_true, if_false, Bool.not_false, Bool.and_true,
    decide_eq_true_eq, ge_iff_le]
  generalize s.arriveAt _ _ = arrived
  obtain ⟨t, judged⟩ := arrived
  cases judged <;> rfl

end

theorem execCqnotifyWrite_eq (d u : Nat) (v : BitVec 64) :
    let x := s.arriveAt (.call d u) (.data (scal v.toNat) (s.clk.tick % 2 ^ 32) false [])
    execCqnotifyWrite d u v s = .next (if x.2 = .rejected then x.1.count d none 0x50 else x.1) := by
  simp only [execCqnotifyWrite, State.notify]
  generalize s.arriveAt _ _ = arrived
  obtain ⟨t, judged⟩ := arrived
  cases judged <;> rfl

/-- Settles O48: firings, pace points, runs, waves, trap records and notices, each by its lemma above. -/
theorem firingsAndRuns : Obligations.FiringsAndRuns := by
  unfold Obligations.FiringsAndRuns
  intro s
  refine ⟨fun g => ⟨makeRoom_of_empty, makeRoom_of_nonempty⟩, fun a g hg held => firings_of_not_chosen hg held,
    fun a g hg may chosen => ⟨fun control ports => ?data, fun control => ?control⟩, fun a g p hg alive pace pos due => ?pace,
    fun d u g h rest hg head idle => ⟨execRunBegin_held hg head, fun en serves live => ?run⟩,
    fun a g rid hg hr alive idle whole => execNodeReconfigure_takes hg hr alive idle whole,
    fun e d u found own fault device hd hu => ?trap, fun d u v => execCqnotifyWrite_eq d u v⟩
  case data =>
    have begins := execFiringStart_begins hg may chosen (canData_of_ports control ports)
    obtain ⟨⟨follows, agent⟩, others, fab, ms⟩ := begun_beginFiring hg false (dataEntries (s.portsOf g))
    exact ⟨_, _, begins, agent.trans (congrArg some (begins_eq ..)), rfl, rfl, rfl, rfl, rfl, rfl, others, fab, ms⟩
  case control =>
    have begins := execControlFiring_begins hg may chosen control
    obtain ⟨⟨follows, agent⟩, others, fab, ms⟩ := begun_beginFiring hg true (controlHeads (s.portsOf g))
    have tokens : controlHeads (s.portsOf g) ≠ [] := by simpa [State.canControl] using control
    exact ⟨execFiringStart_of_control hg control, _, _, begins, agent.trans (congrArg some (begins_eq ..)), rfl, rfl, tokens,
      fun d hd => mem_controlHeads hd, others, fab, ms⟩
  case pace =>
    exact ⟨_, _, execPacePoint_due hg alive pace pos due, rfl, nextPacePoint_spec pos due⟩
  case run =>
    obtain ⟨f, call, begins⟩ := execRunBegin_begins hg head idle en serves live
    refine ⟨_, g.runs s (s.threadCtl d u) call ((s.callQueue d u).deliver h) h.serial, _, begins, ?_, rfl, rfl, rfl, rfl,
      rfl, rfl, by simp, by simp, fun b ne => ?_⟩
    · rw [agent?_congr (updSched_agents ..) (updSched_ms ..), agent?_updAgent_self, hg]
      rfl
    · rw [agent?_congr (updSched_agents ..) (updSched_ms ..), agent?_updAgent_ne _ _ ne]
  case trap =>
    have delivery := execTrapDelivery_eq found own fault device hd hu
    refine ⟨fun refused => ?_, fun accepted sync room => ?_, fun accepted sync full => ?_, fun accepted async kept => ?_⟩
    · exact delivery.trans (by rw [if_pos refused])
    · exact delivery.trans (by rw [if_neg (by simp [accepted]), if_neg (by omega), if_pos room])
    · exact delivery.trans (by rw [if_neg (by simp [accepted]), if_neg (by omega), if_neg (by omega)])
    · exact delivery.trans (by rw [if_neg (by simp [accepted]), if_pos async, if_pos kept])

end Sys2Proof.Machine
end

section
/-! PROOF. How records move: sends and the routers of the lattice, arrivals at queues and links, the way back from a spill ring, generators
and configuration waves. Settles O50. -/
namespace Sys2Proof.Machine

variable {s u : State} {q src dst : Qid} {r : Record}

/-! ### Sends -/

/-- The stream leaves the region of its source-side queue (10 R198). -/
def State.leaves (s : State) (q dst : Qid) : Bool :=
  s.fab.exits.contains dst || s.fab.texts.contains dst || q.rid? != dst.rid?

section
variable (stream : Tab.get? s.fab.streams q = some dst) (isOpen : s.queueOpen q = true) (there : s.queueImaged dst = false)
include stream

theorem execRecordSend_of_frozen (leaves : s.leaves q dst = true) (frozen : s.queueAlive q = false) :
    execRecordSend q s = .next s := by
  unfold State.leaves at leaves
  simp only [execRecordSend, stream]
  rw [if_pos (by simp only [leaves, frozen, Bool.not_false, Bool.and_self, Bool.or_true, Bool.true_or])]

include isOpen there

/-- What the send of an open queue with a head does, in the order in which the cases are judged (10 R197; 21 R369, R371, R383). -/
theorem execRecordSend_of_head (alive : s.leaves q dst = true → s.queueAlive q = true) (head : s.head? q = some r) :
    execRecordSend q s = .next (
      if s.leaves q dst = true ∧ r.kind = kDRAIN then s.removeDrain q
      else if s.leaves q dst = true ∧ s.cfgRun q ≠ [] then s.dequeue q (s.cfgRun q).length
      else if s.queue? dst = none then (s.dequeue q 1).updQueue q fun x => { x with nlost := min (x.nlost + 1) 0xFFFFFFFF }
      else if s.cfgRun q ≠ [] then (s.dequeue q (s.cfgRun q).length).inject q dst (s.cfgRun q)
      else (s.dequeue q 1).inject q dst [r]) := by
  have goes : (!s.queueOpen q || (s.leaves q dst && !s.queueAlive q) || s.queueImaged dst) = false := by
    cases h : s.leaves q dst <;> simp_all
  have taken : s.takeHead q = (s.dequeue q 1, some r) := by simp only [State.takeHead, head]
  unfold State.leaves at goes ⊢
  simp only [execRecordSend, stream, goes, taken, head]
  simp

end

/-! ### The lattice -/

theorem inject_of_routers {rs : List Record} {y x ty tx : Nat} (hs : s.routerOf src = some (y, x)) (hd : s.routerOf dst = some (ty, tx)) :
    s.inject src dst rs = if s.refuses (quadAt y x).1 (quadAt ty tx).1 then s.refuse (quadAt ty tx).1
      else s.updFab fun f => { f with packets := f.packets ++ [⟨dst, rs, s.clk.tick, y, x, pLOCAL⟩] } := by
  simp only [State.inject, hs, hd]

theorem inject_of_no_router (rs : List Record) (hd : s.routerOf dst = none) :
    s.inject src dst rs = s.updFab fun f => { f with flight := f.flight ++ rs.map fun r => (dst, r) } := by
  cases hs : s.routerOf src <;> simp only [State.inject, hs, hd]

theorem wants_of_router {p : Packet} {ty tx : Nat} (hd : s.routerOf p.dst = some (ty, tx)) :
    s.wants p = outputPort p.y p.x ty tx := by
  simp only [State.wants, hd]

/-- How far a packet is from a router, in hops along X and along Y. -/
def Packet.distance (p : Packet) (ty tx : Nat) : Nat := ((ty : Int) - p.y).natAbs + ((tx : Int) - p.x).natAbs

section
variable (p : Packet)

theorem moved_east : p.moved pEAST = { p with x := p.x + 1, port := pWEST } := rfl
theorem moved_west : p.moved pWEST = { p with x := p.x - 1, port := pEAST } := rfl
theorem moved_south : p.moved pSOUTH = { p with y := p.y + 1, port := pNORTH } := rfl
theorem moved_north : p.moved pNORTH = { p with y := p.y - 1, port := pSOUTH } := rfl

end

/-- A packet that has moved is another router's, and otherwise the same send. -/
theorem moved_send (p : Packet) (out : Nat) :
    (p.moved out).dst = p.dst ∧ (p.moved out).recs = p.recs ∧ (p.moved out).tick = p.tick := by
  unfold Packet.moved
  split_ifs <;> exact ⟨rfl, rfl, rfl⟩

/-- The output port at a router that is not the destination's: along X while the columns differ, then along Y (02 R27). -/
theorem outputPort_of_away {y x ty tx : Nat} (away : y ≠ ty ∨ x ≠ tx) :
    outputPort y x ty tx = pEAST ∧ x < tx ∨ outputPort y x ty tx = pWEST ∧ tx < x ∨
      outputPort y x ty tx = pSOUTH ∧ x = tx ∧ y < ty ∨ outputPort y x ty tx = pNORTH ∧ x = tx ∧ ty < y := by
  unfold outputPort
  split_ifs with east west south north
  · exact .inl ⟨rfl, east⟩
  · exact .inr (.inl ⟨rfl, west⟩)
  · exact .inr (.inr (.inl ⟨rfl, by omega, south⟩))
  · exact .inr (.inr (.inr ⟨rfl, by omega, north⟩))
  · omega

/-- A packet comes one router nearer, and keeps its row while it has columns to go. -/
theorem moved_nearer (p : Packet) {ty tx : Nat} (away : p.y ≠ ty ∨ p.x ≠ tx) :
    outputPort p.y p.x ty tx ≠ pLOCAL ∧ (p.x ≠ tx → (p.moved (outputPort p.y p.x ty tx)).y = p.y) ∧
      (p.moved (outputPort p.y p.x ty tx)).distance ty tx + 1 = p.distance ty tx := by
  simp only [Packet.distance]
  rcases outputPort_of_away away with ⟨port, hx⟩ | ⟨port, hx⟩ | ⟨port, hx, hy⟩ | ⟨port, hx, hy⟩ <;> rw [port]
  · exact ⟨by decide, fun _ => rfl, by rw [moved_east]; dsimp only; omega⟩
  · exact ⟨by decide, fun _ => rfl, by rw [moved_west]; dsimp only; omega⟩
  · exact ⟨by decide, fun ne => absurd hx ne, by rw [moved_south]; dsimp only; omega⟩
  · exact ⟨by decide, fun ne => absurd hx ne, by rw [moved_north]; dsimp only; omega⟩

section
variable {k : Nat} {p : Packet} (found : s.fab.packets[k]? = some p) (granted : s.granted k = true)
include found granted

theorem hop_of_local (here : s.wants p = pLOCAL) : s.hop k = s.updFab fun f => { f with
    packets := f.packets.eraseIdx k, flight := f.flight ++ p.recs.map fun r => (p.dst, r) } := by
  simp [State.hop, found, granted, here]

theorem hop_of_away (away : s.wants p ≠ pLOCAL) :
    s.hop k = s.updFab fun f => { f with packets := f.packets.set k (p.moved (s.wants p)) } := by
  simp [State.hop, found, granted, away]

/-- A packet with a grant is before every other that wants its output port, or neither is before the other and its place in the list
decides. -/
theorem granted_first {j : Nat} {o : Packet} (other : s.fab.packets[j]? = some o) (ne : j ≠ k) (hy : o.y = p.y) (hx : o.x = p.x)
    (wants : s.wants o = s.wants p) : p.before o = true ∨ o.before p = false ∧ k < j := by
  simp only [State.granted, found, List.all_eq_true] at granted
  simpa [ne, hy, hx, wants] using granted (o, j) (List.mk_mem_zipIdx_iff_getElem?.2 other)

end

theorem before_tick_le {p o : Packet} (h : p.before o = true ∨ o.before p = false) : p.tick ≤ o.tick := by
  simp [Packet.before] at h
  omega

theorem before_asymm {p o : Packet} (h : p.before o = true) : o.before p = false := by
  simp [Packet.before] at h ⊢
  omega

/-- An output port is granted to one packet. -/
theorem granted_unique {j k : Nat} {p o : Packet} (hj : s.fab.packets[j]? = some p) (hk : s.fab.packets[k]? = some o) (hy : p.y = o.y)
    (hx : p.x = o.x) (wants : s.wants p = s.wants o) (gj : s.granted j = true) (gk : s.granted k = true) : j = k := by
  by_contra ne
  rcases granted_first hj gj hk (Ne.symm ne) hy.symm hx.symm wants.symm with hpo | ⟨hop, hlt⟩ <;>
    rcases granted_first hk gk hj ne hy hx wants with hop' | ⟨hpo', hlt'⟩
  · simp [before_asymm hpo] at hop'
  · simp [hpo] at hpo'
  · simp [hop] at hop'
  · omega

/-- No packet that waits for the output port was injected before the one with the grant. -/
theorem granted_oldest {j k : Nat} {p o : Packet} (hj : s.fab.packets[j]? = some p) (hk : s.fab.packets[k]? = some o) (hy : p.y = o.y)
    (hx : p.x = o.x) (wants : s.wants p = s.wants o) (gk : s.granted k = true) : o.tick ≤ p.tick := by
  by_cases e : j = k
  · subst e
    rw [hj] at hk
    cases hk
    exact Nat.le_refl _
  · exact before_tick_le ((granted_first hk gk hj e hy hx wants).imp_right And.left)

/-! ### Arrivals at queues -/

theorem queue?_congr {t : State} (h : t.fab.queues = s.fab.queues) (q : Qid) : t.queue? q = s.queue? q := by
  simp only [State.queue?, h]

section
variable (x : Queue) (a : Record)

@[simp] theorem freshCell_desc : (x.freshCell a).desc = x.desc := by unfold Queue.freshCell; split <;> rfl
@[simp] theorem freshCell_items : (x.freshCell a).items = x.items := by unfold Queue.freshCell; split <;> rfl
@[simp] theorem freshCell_nextSerial : (x.freshCell a).nextSerial = x.nextSerial := by unfold Queue.freshCell; split <;> rfl
@[simp] theorem freshCell_nlost : (x.freshCell a).nlost = x.nlost := by unfold Queue.freshCell; split <;> rfl
@[simp] theorem freshCell_nabs : (x.freshCell a).nabs = x.nabs := by unfold Queue.freshCell; split <;> rfl
@[simp] theorem freshCell_occ : (x.freshCell a).occ = x.occ := by simp only [Queue.occ, freshCell_items]
@[simp] theorem freshCell_ringCount : (x.freshCell a).ringCount = x.ringCount := by simp only [Queue.ringCount, freshCell_items]
@[simp] theorem freshCell_free : (x.freshCell a).free = x.free := by
  simp only [Queue.free, freshCell_desc, freshCell_occ, Queue.controlInStorage, freshCell_items]

end

/-- Below its threshold and with room for a record, a queue of any policy stores what arrives, unless records of its ring are to go
before (10 R202). -/
theorem shear_stores {x : Queue} (q : Qid) (data : isControlKind r.kind = false) (notCfg : r.kind ≠ kCFG)
    (ring : x.desc.pol ≠ 5 ∨ x.ringCount = 0) (below : x.occ < 8 * x.desc.thr) (room : 8 ≤ x.free) :
    s.shear q x r = (s, (x.freshCell r).store r 8 false, .kept) := by
  rw [State.shear, if_neg (by simp [data]), if_neg notCfg, State.judge, if_neg (by simp; omega), if_pos (by simp; omega)]

theorem arriveAt_of_queue {x : Queue} (hx : s.queue? q = some x) :
    (s.arriveAt q r).1 = (s.shear q x r).1.setQueue q (s.shear q x r).2.1 := by
  simp only [State.arriveAt, hx]

theorem execRecordArrival_of_flight {rest : List (Qid × Record)} (noSink : s.sinkAt q = none) (isOpen : s.queueOpen q = true)
    (next : takeFlight q s.fab.flight = some (r, rest)) (notCfg : r.kind ≠ kCFG) :
    execRecordArrival q s = .next (((s.updFab fun f => { f with flight := rest }).arriveAt q r).1) := by
  simp [execRecordArrival, noSink, isOpen, next, notCfg]

/-! ### The spill ring -/

/-- The oldest record of the ring comes back in its place, as its bytes say and with the requests that it follows (10 R208). -/
theorem refill_of_read {x : Queue} {i : Nat} {bs : List Byte} (q : Qid) (oldest : x.ringHead? = some i) (room : 8 ≤ x.free)
    (read : s.muRead x.die x.vq x.ctx (x.desc.spbase + 80 * (x.rd % x.desc.spsize)) 80 = (u, .ok bs)) :
    ∃ x', s.refill q x = (u, x') ∧ x'.rd = x.rd + 1 ∧ x'.items = x.items.mapIdx fun j (h : Held) =>
      if j = i then { h with r := { Record.ofBytes bs with sr := h.r.sr }, place := .storage } else h := by
  simp only [State.refill, oldest, read]
  rw [if_neg (by omega)]
  exact ⟨_, rfl, rfl, rfl⟩

theorem execSpillRefill_of_queue {x : Queue} (isOpen : s.queueOpen q = true) (hx : s.queue? q = some x) :
    execSpillRefill q s = .next ((s.refill q x).1.setQueue q (s.refill q x).2) := by
  simp [execSpillRefill, isOpen, hx]

/-! ### Links -/

section
variable {l : Link} (hl : Tab.get? s.fab.links q = some l)

theorem execLinkArrival_of_flight {rest : List (Qid × Record)} (isOpen : s.queueOpen q = true)
    (next : takeFlight q s.fab.linkFlight = some (r, rest)) (notCfg : r.kind ≠ kCFG) :
    execLinkArrival q s = .next (s.linkArrive q) := by
  simp [execLinkArrival, isOpen, next, notCfg]

include hl

/-- An arrival changes the link and, where it opens a gap, a counter. -/
theorem linkArrive_fab {rest : List (Qid × Record)} (next : takeFlight q s.fab.linkFlight = some (r, rest)) (notCfg : r.kind ≠ kCFG) :
    (s.linkArrive q).fab = { s.fab with linkFlight := rest, links := Tab.set s.fab.links q (l.arrive r) } := by
  simp only [State.linkArrive, next, hl, notCfg, false_and, if_false]
  split
  · exact count_fab ..
  · rfl

end

section
variable {l : Link}

/-- A link with nothing in its registers has nothing to settle. -/
theorem settle_of_clear {n : Nat} (gap : l.gap = none) (token : l.token = none) (room : l.isFull = false) :
    l.settle (n + 1) = { l with nextSerial := l.nextSerial + 1 } := by
  simp [Link.settle, gap, token, room]

theorem isFull_of_length (few : l.slots.length < 2) : l.isFull = false := by
  have := List.length_filter_le (fun h : Held => h.r.kind != kCFG) l.slots
  simp only [Link.isFull, ge_iff_le, decide_eq_false_iff_not]
  omega

/-- The link once a gap that waited alone has entered its first slot. -/
def Link.gapIn (l : Link) (g : Record) : Link :=
  { l with slots := [⟨g, 8, .storage, false, false, l.nextSerial, false⟩], gap := none, nextSerial := l.nextSerial + 1 }

theorem settle_of_gap {n : Nat} {g : Record} (slots : l.slots = []) (gap : l.gap = some g) (token : l.token = none) :
    l.settle (n + 1) = (l.gapIn g).settle n := by
  simp [Link.settle, Link.gapIn, slots, gap, token, isFull_of_length]

theorem push_of_room (room : l.isFull = false) (a : Record) :
    (l.push a).slots = l.slots ++ [⟨a, 8, .storage, false, false, l.nextSerial, false⟩] ∧ (l.push a).gap = l.gap := by
  have room' : Link.isFull { l with nextSerial := l.nextSerial + 1 } = false := room
  simp [Link.push, room']

/-- A record takes the next slot of a link with a free one and empty registers (09 R191). -/
theorem arrive_of_clear (gap : l.gap = none) (token : l.token = none) (room : l.isFull = false) (a : Record) :
    (l.arrive a).slots = l.slots ++ [⟨a, 8, .storage, false, false, l.nextSerial + 1, false⟩] := by
  rw [Link.arrive, settle_of_clear gap token room]
  exact (push_of_room (l := { l with nextSerial := l.nextSerial + 1 }) room a).1

/-- A gap that waits goes ahead of the record that arrives (09 R192). -/
theorem arrive_of_gap {g : Record} (slots : l.slots = []) (gap : l.gap = some g) (token : l.token = none) (a : Record) :
    (l.arrive a).slots.map (·.r) = [g, a] ∧ (l.arrive a).gap = none := by
  have few : (l.gapIn g).isFull = false := isFull_of_length (by simp [Link.gapIn])
  rw [Link.arrive, settle_of_gap slots gap token, settle_of_clear (l := l.gapIn g) rfl token few]
  obtain ⟨pushed, gone⟩ := push_of_room (l := { l.gapIn g with nextSerial := (l.gapIn g).nextSerial + 1 }) few a
  exact ⟨by rw [pushed]; rfl, gone⟩

end

/-! ### Generators -/

section
variable {n : Nid} {g : Gen} (hg : Tab.get? s.fab.gens n = some g)
include hg

theorem execGeneratorPut_of_limit (full : s.genLimit g ≤ g.outstanding) : execGeneratorPut n s = .next s := by
  simp [execGeneratorPut, hg, full]

theorem execGeneratorPut_puts (alive : s.nodeAlive n = true) (room : g.outstanding < s.genLimit g) :
    execGeneratorPut n s = .next ((s.updFab fun f => { f with
        gens := Tab.set f.gens n { g with ctr := g.ctr + 1, outstanding := g.outstanding + 1 } }).putOn g.out
      ⟨randPayload g.key g.ctr, kRAND, 0, g.ctr.toNat % 2 ^ 32, 0, false, 0, false, false, false, []⟩) := by
  simp only [execGeneratorPut, hg]
  rw [if_neg (by simp [alive]; omega)]
  rfl

end

theorem genLimit_of_stream {g : Gen} {x y : Queue} (out : g.out = .stream src dst) (hs : s.queue? src = some x)
    (hd : s.queue? dst = some y) : s.genLimit g = min x.desc.thr y.desc.thr := by
  simp [State.genLimit, out, hs, hd]

/-! ### Configuration waves -/

theorem execCfgWaveInject_of_stopped {rid : Nat} (recs : List (BitVec 512)) (stopped : s.running rid = false) :
    execCfgWaveInject rid recs s = .next s := by
  unfold execCfgWaveInject
  split
  · rfl
  · rw [if_pos (by simp [stopped])]

/-- A run without bad records enters the region's queues, then its generators, then its portless actors (21 R379). -/
theorem execCfgWaveInject_of_good {rid : Nat} {recs : List (BitVec 512)} {g : Region} (hg : s.region? rid = some g)
    (running : s.running rid = true) (nonempty : recs ≠ []) (good : ∀ p ∈ recs, cfgOk g p = true) :
    let u := (s.fedFromOutside rid).foldl (fun s q => recs.foldl (fun s p => (s.arriveAt q (cfgRecord p)).1) s) s
    let v := (u.fab.gens.filter fun e => e.1.rid == rid).foldl (fun s e => s.genWave e.1 recs) u
    execCfgWaveInject rid recs s = .next ((v.agents.filter fun e => inRid rid e.1 && e.2.ins.isEmpty).foldl (fun s e =>
      s.updFab fun f => { f with waves := Tab.set f.waves e.1 (Tab.getD f.waves e.1 [] ++ recs) }) v) := by
  have noneBad : recs.filter (fun p => !cfgOk g p) = [] := by simpa using good
  have allGood : recs.filter (cfgOk g) = recs := by simpa using good
  simp only [execCfgWaveInject, hg, noneBad, allGood]
  rw [if_neg (by simp [running]), List.foldl_nil, if_neg (by simpa using nonempty)]

/-- Settles O50: sends, the lattice, arrivals, refills, links, generators and waves, each by its lemmas above. -/
theorem recordsMove : Obligations.RecordsMove := by
  unfold Obligations.RecordsMove
  intro s
  refine ⟨fun q dst stream isOpen there => ⟨execRecordSend_of_frozen stream, fun alive r head => ?send⟩,
    fun src dst rs => ⟨fun y x ty tx hs hd accepted => ?_, fun y x ty tx hs hd refused => ?_, inject_of_no_router rs⟩,
    fun k p found granted => ⟨fun hd => ?_, fun ty tx hd away => ?hop⟩,
    fun j k p o hj hk hy hx wants => ⟨granted_unique hj hk hy hx wants, granted_oldest hj hk hy hx wants⟩,
    fun q r rest x noSink isOpen next notCfg => ?arrival,
    fun q x i u bs isOpen hx oldest room read => ?refill,
    fun q r rest l isOpen next notCfg hl => ⟨_, execLinkArrival_of_flight isOpen next notCfg, linkArrive_fab hl next notCfg,
      fun room gap token => ⟨_, arrive_of_clear gap token room r⟩, fun g slots gap token => arrive_of_gap slots gap token r⟩,
    fun n g hg alive => ⟨execGeneratorPut_of_limit hg, fun src dst x y => genLimit_of_stream, execGeneratorPut_puts hg alive⟩,
    fun rid => execCfgWaveInject_of_stopped,
    fun rid recs g hg running nonempty good => ⟨_, execCfgWaveInject_of_good hg running nonempty good, rfl⟩⟩
  case send =>
    have sends := execRecordSend_of_head stream isOpen there alive head
    refine ⟨fun leaves drain => ?_, fun leaves notDrain run => ?_, fun stays => ⟨fun gone => ?_, fun here run => ?_, fun here run => ?_⟩⟩
    · exact sends.trans (by rw [if_pos ⟨leaves, drain⟩])
    · exact sends.trans (by rw [if_neg (by simp [notDrain]), if_pos ⟨leaves, run⟩])
    all_goals
      have notDrain : ¬(s.leaves q dst = true ∧ r.kind = kDRAIN) := fun h => (stays h.1).1 h.2
      have notRun : ¬(s.leaves q dst = true ∧ s.cfgRun q ≠ []) := fun h => h.2 (stays h.1).2
    · exact sends.trans (by rw [if_neg notDrain, if_neg notRun, if_pos gone])
    · exact sends.trans (by rw [if_neg notDrain, if_neg notRun, if_neg (Option.isSome_iff_ne_none.1 here), if_neg (not_not.2 run)])
    · exact sends.trans (by rw [if_neg notDrain, if_neg notRun, if_neg (Option.isSome_iff_ne_none.1 here), if_pos run])
  · rw [inject_of_routers hs hd, accepted]; rfl
  · rw [inject_of_routers hs hd, refused]; exact count_fab ..
  · exact hop_of_local found granted (by rw [wants_of_router hd]; simp [outputPort])
  case hop =>
    obtain ⟨notLocal, alongX, nearer⟩ := moved_nearer p away
    rw [← wants_of_router hd] at notLocal alongX nearer
    obtain ⟨hdst, hrecs, htick⟩ := moved_send p (s.wants p)
    exact ⟨_, hop_of_away found granted notLocal, hdst, hrecs, htick, alongX, nearer⟩
  case arrival =>
    intro u hx
    refine ⟨execRecordArrival_of_flight noSink isOpen next notCfg, fun data ring below room => ?_⟩
    have stored := arriveAt_of_queue (r := r) ((queue?_congr (t := u) rfl q).trans hx)
    rw [shear_stores q data notCfg ring below room] at stored
    refine ⟨_, (execRecordArrival_of_flight noSink isOpen next notCfg).trans (congrArg _ stored), ?_, ?_, ?_⟩ <;> simp [Queue.store]
  case refill =>
    obtain ⟨x', refilled, hrd, hitems⟩ := refill_of_read q oldest room read
    refine ⟨x', (execSpillRefill_of_queue isOpen hx).trans (by rw [refilled]), hrd, by simp [hitems], fun h hi => ?_, fun j ne => ?_⟩
    · simp [hitems, List.getElem?_mapIdx, hi]
    · simp [hitems, List.getElem?_mapIdx, ne]

end Sys2Proof.Machine
end

section
/-! PROOF. The pod's leadership and the loading of its followers, time offsets, power steps, thermal limits, power-on and the service stages.
Settles O59. -/
namespace Sys2Proof.Machine

variable {s : State} {term serial n die pwr : Nat}

/-! ### Leadership -/

/-- A claim or a heartbeat counts where it comes before the one a package goes by, or is that one. -/
theorem standing_yields {t k : Nat} : (claimBefore term serial t k || (t == term && k == serial)) = true ↔
    t < term ∨ term = t ∧ serial ≤ k := by
  simp [claimBefore]
  omega

/-- The package becomes a follower of the leader that a claim or a heartbeat names (26 R465). -/
def State.joins (s : State) (term serial : Nat) (acks : Pod → List Nat) : State := s.updPod fun p => { p with
  role := .follower, leader := some (term, serial), term := max p.term term, acks := acks p, lastBeat := s.clk.tick }

section
variable (other : serial ≠ s.out.pod.serial)
include other

theorem execClaim_of_free (free : s.out.pod.standing = none) :
    execClaim term serial s = .next ((s.joins term serial fun _ => []).send (.claimAck s.out.pod.serial)) := by
  simp [execClaim, free, other, State.joins]

theorem execHeartbeat_of_free (free : s.out.pod.standing = none) :
    execHeartbeat term serial s = .next (if s.out.pod.term ≤ term then s.joins term serial (·.acks) else s) := by
  by_cases late : s.out.pod.term ≤ term <;> simp [execHeartbeat, free, other, late, State.joins]

theorem execClaim_of_standing {t k : Nat} (stands : s.out.pod.standing = some (t, k)) :
    execClaim term serial s = .next (if t < term ∨ term = t ∧ serial ≤ k then
      (s.joins term serial fun _ => []).send (.claimAck s.out.pod.serial) else s) := by
  simp only [execClaim, stands, ← standing_yields]
  cases claimBefore term serial t k || (t == term && k == serial) <;> simp [other, State.joins]

theorem execHeartbeat_of_standing {t k : Nat} (stands : s.out.pod.standing = some (t, k)) :
    execHeartbeat term serial s = .next (if t < term ∨ term = t ∧ serial ≤ k then s.joins term serial (·.acks) else s) := by
  simp only [execHeartbeat, stands, ← standing_yields]
  cases claimBefore term serial t k || (t == term && k == serial) <;> simp [other, State.joins]

end

theorem execHeartbeatSend_eq (s : State) : execHeartbeatSend s = .next (
    if s.out.pod.role = .leader ∧ s.out.pod.nextBeat ≤ s.clk.tick then
      (s.updPod fun p => { p with nextBeat := s.clk.tick + 675000 }).send (.heartbeat s.out.pod.term s.out.pod.serial) else s) := by
  simp [execHeartbeatSend]

theorem execHeartbeatMiss_eq (s : State) : execHeartbeatMiss s = .next (
    if s.out.pod.role = .follower ∧ s.out.pod.lastBeat + 6750000 ≤ s.clk.tick then
      ((s.updPod fun p => { p with role := .candidate, leader := none, term := (p.term + 1) % 2 ^ 64, acks := [] }).send
        (.claim ((s.out.pod.term + 1) % 2 ^ 64) s.out.pod.serial)).tryLead else s) := by
  simp [execHeartbeatMiss, State.updPod]

/-! ### The loading of followers -/

theorem execFollowerLoadStep_of_foreign (foreign : n = 0 ∨ 3 < n ∨ serial ∉ s.out.pod.list ∨ s.out.pod.leader.map Prod.fst ≠ some term) :
    execFollowerLoadStep serial n term s = .next s := by
  unfold execFollowerLoadStep
  dsimp only
  rw [if_pos (by simpa [or_assoc] using foreign)]

theorem execFollowerLoadStep_of_no_record (leads : s.out.pod.role = .leader) (record : Tab.get? s.out.pod.records serial = none) :
    execFollowerLoadStep serial n term s = .next s := by
  simp [execFollowerLoadStep, leads, record]

/-- A follower takes a step, the third with its place in the pod and the pod's size (26 R466). -/
def State.takesStep (s : State) (serial n : Nat) : State := s.updPod fun p => { p with
  progress := max p.progress n
  count := if n = 3 then max 1 (min p.list.length 256) else p.count
  index := if n = 3 then p.rank serial else p.index
  joined := n == 3 || p.joined }

section
variable (low : 1 ≤ n) (high : n ≤ 3) (member : serial ∈ s.out.pod.list) (own : s.out.pod.leader.map Prod.fst = some term)
include low high member own

theorem execFollowerLoadStep_of_leader (leads : s.out.pod.role = .leader) {k : Nat} (other : serial ≠ s.out.pod.serial)
    (record : Tab.get? s.out.pod.records serial = some k) : execFollowerLoadStep serial n term s = .next (
      if n ≤ k + 1 then s.send (.loadStep serial n (s.out.pod.rank serial) (max 1 s.out.pod.list.length)) else s) := by
  unfold execFollowerLoadStep
  dsimp only
  rw [if_neg (by simp [member, own]; omega)]
  by_cases next : n ≤ k + 1
  · simp [leads, record, other, next]
  · simp [leads, record, next, Nat.lt_of_not_le next]

theorem execFollowerLoadStep_of_follower (follows : s.out.pod.role ≠ .leader) : execFollowerLoadStep serial n term s = .next (
    if serial = s.out.pod.serial ∧ n ≤ s.out.pod.progress + 1 then
      (s.takesStep serial n).send (.progress serial (max s.out.pod.progress n)) else s) := by
  unfold execFollowerLoadStep
  dsimp only
  rw [if_neg (by simp [member, own]; omega)]
  split
  · contradiction
  · by_cases next : serial = s.out.pod.serial ∧ n ≤ s.out.pod.progress + 1
    · rw [if_neg (by simp [next.1]; omega), if_pos next]; rfl
    · rw [if_pos (by simp; omega), if_neg next]

end

theorem execProgressRecordQuery_of_leader (leads : s.out.pod.role = .leader) (other : serial ≠ s.out.pod.serial) :
    execProgressRecordQuery serial s = .next (s.send (.progressQuery serial)) := by
  simp [execProgressRecordQuery, leads, other]

theorem execProgressRecordQuery_of_follower (follows : s.out.pod.role ≠ .leader) :
    execProgressRecordQuery serial s = .next (s.send (.progress s.out.pod.serial s.out.pod.progress)) := by
  unfold execProgressRecordQuery
  dsimp only
  split
  · contradiction
  · rfl

theorem podProgress_of_leader (leads : s.out.pod.role = .leader) (k : Nat) :
    s.podProgress serial k = s.updPod fun p => { p with records := Tab.set p.records serial k } := by
  simp [State.podProgress, leads]

theorem execTimeSyncMessage_eq (ofs : Int) (s : State) : execTimeSyncMessage ofs s =
    .next { (if 8 < ofs ∨ ofs < -8 then s.count 0 none 0x55 else s) with clk := { s.clk with slew := ofs } } := by
  by_cases far : 8 < ofs ∨ ofs < -8 <;> simp [execTimeSyncMessage, far]

/-! ### Readings of power -/

theorem Tab.get?_map {κ α : Type} [DecidableEq κ] (t : Tab κ α) (f : α → α) (k : κ) :
    Tab.get? (t.map fun e => (e.1, f e.2)) k = (Tab.get? t k).map f := by
  induction t with
  | nil => rfl
  | cons e t ih => by_cases h : e.1 = k <;> simp [Tab.get?, h, ih]

theorem powerDie_updPowerDie_self (s : State) (d : Nat) (f : PowerDie → PowerDie) : (s.updPowerDie d f).powerDie d = f (s.powerDie d) := by
  simp [State.updPowerDie, State.powerDie]

theorem powerDie_updPowerDie_ne (s : State) {d e : Nat} (f : PowerDie → PowerDie) (ne : e ≠ d) :
    (s.updPowerDie d f).powerDie e = s.powerDie e := by
  simp [State.updPowerDie, State.powerDie, Tab.getD_set_ne _ _ _ ne]

/-- The new power of a die, before it is judged. -/
def State.draws (s : State) (die pwr : Nat) : State := s.updPowerDie die fun x => { x with pwr := pwr % 2 ^ 16 }

/-- No die has been below its share any longer. -/
def State.endUnder (s : State) : State :=
  s.updOut fun o => { o with power := { o.power with dies := o.power.dies.map fun e => (e.1, { e.2 with under := none }) } }

theorem powerDie_endUnder (s : State) (d : Nat) : s.endUnder.powerDie d = { s.powerDie d with under := none } := by
  simp only [State.endUnder, State.powerDie, updOut_out, Tab.getD, Tab.get?_map _ fun x : PowerDie => { x with under := none }]
  cases Tab.get? s.out.power.dies d <;> rfl

/-- The time that a die has been below 90 % of its share goes on or ends, with the module under budget. -/
def State.judgeUnder (s : State) (die : Nat) : State := s.updPowerDie die fun x => { x with
  under := if 9 * s.out.power.dshare ≤ 10 * x.pwr then none else some (x.under.getD s.clk.tick) }

theorem powerReading_of_spent (spent : 10 * s.out.power.mbudget < (s.draws die pwr).modulePower) :
    s.powerReading die pwr = (s.draws die pwr).endUnder.updPowerDie die fun x => { x with under := none } := by
  have spent' : decide ((s.draws die pwr).modulePower > 10 * (s.draws die pwr).out.power.mbudget) = true := decide_eq_true spent
  unfold State.draws at spent'
  simp only [State.powerReading, spent', Bool.true_or, if_true]
  rfl

theorem powerReading_of_within (within : (s.draws die pwr).modulePower ≤ 10 * s.out.power.mbudget) :
    s.powerReading die pwr = (s.draws die pwr).judgeUnder die := by
  have within' : decide ((s.draws die pwr).modulePower > 10 * (s.draws die pwr).out.power.mbudget) = false :=
    decide_eq_false (Nat.not_lt.2 within)
  unfold State.draws at within'
  simp only [State.powerReading, within', Bool.false_or, Bool.false_eq_true, if_false, decide_eq_true_eq]
  rfl

theorem powerDie_draws (s : State) (die pwr : Nat) : (s.draws die pwr).powerDie die = { s.powerDie die with pwr := pwr % 2 ^ 16 } :=
  powerDie_updPowerDie_self ..

theorem powerReading_pwr (s : State) (die pwr : Nat) : ((s.powerReading die pwr).powerDie die).pwr = pwr % 2 ^ 16 := by
  rcases Nat.lt_or_ge (10 * s.out.power.mbudget) (s.draws die pwr).modulePower with spent | within
  · rw [powerReading_of_spent spent, powerDie_updPowerDie_self, powerDie_endUnder, powerDie_draws]
  · rw [powerReading_of_within within, State.judgeUnder, powerDie_updPowerDie_self, powerDie_draws]

/-- A module over its budget ends the time of every die. -/
theorem powerReading_under_of_spent (spent : 10 * s.out.power.mbudget < (s.draws die pwr).modulePower) (d : Nat) :
    ((s.powerReading die pwr).powerDie d).under = none := by
  rw [powerReading_of_spent spent]
  by_cases h : d = die
  · rw [h, powerDie_updPowerDie_self]
  · rw [powerDie_updPowerDie_ne _ _ h, powerDie_endUnder]

theorem powerReading_under_of_within (within : (s.draws die pwr).modulePower ≤ 10 * s.out.power.mbudget) :
    ((s.powerReading die pwr).powerDie die).under =
      if 9 * s.out.power.dshare ≤ 10 * (pwr % 2 ^ 16) then none else some ((s.powerDie die).under.getD s.clk.tick) := by
  rw [powerReading_of_within within, State.judgeUnder, powerDie_updPowerDie_self, powerDie_draws]
  rfl

theorem powerReading_clk_stage (s : State) (die pwr : Nat) :
    (s.powerReading die pwr).clk = s.clk ∧ (s.powerReading die pwr).out.stage = s.out.stage := by
  rcases Nat.lt_or_ge (10 * s.out.power.mbudget) (s.draws die pwr).modulePower with spent | within
  · rw [powerReading_of_spent spent]; exact ⟨rfl, rfl⟩
  · rw [powerReading_of_within within]; exact ⟨rfl, rfl⟩

/-! ### Steps of power and temperature -/

theorem execPowerStepUp_of_ended (ended : ((s.powerReading die pwr).powerDie die).under = none) :
    execPowerStepUp die pwr s = .next (s.powerReading die pwr) := by
  simp only [execPowerStepUp, ended]

theorem execPowerStepUp_of_under {since : Nat} (under : ((s.powerReading die pwr).powerDie die).under = some since) :
    execPowerStepUp die pwr s = .next (
      let u := s.powerReading die pwr
      if s.out.stage = 3 ∧ since + 675000 ≤ s.clk.tick then u.powerStep die ((u.powerDie die).step - 1) else u) := by
  obtain ⟨clk, stage⟩ := powerReading_clk_stage s die pwr
  simp only [execPowerStepUp, under, clk, stage, Bool.and_eq_true, decide_eq_true_eq, ge_iff_le, and_comm]

theorem thermalReading_eq (s : State) (die tj : Nat) : s.thermalReading die tj =
    let u := s.updPowerDie die fun x => { x with tj := tj % 2 ^ 8 }
    if 120 ≤ tj then u.powerOn else if 110 ≤ tj then u.powerStep die 3 else u := rfl

theorem sumNat_eq_sum (xs : List Nat) : sumNat xs = xs.sum := List.sum_eq_foldl.symm

/-! ### Power-on -/

section
variable (t : State) (d : Nat)

theorem rewriteVpt_clk : (t.rewriteVpt d).clk = t.clk := by unfold State.rewriteVpt; dsimp only; split <;> rfl
theorem rewriteVpt_sched : (t.rewriteVpt d).sched = t.sched := by unfold State.rewriteVpt; dsimp only; split <;> rfl
theorem rewriteVpt_ms : (t.rewriteVpt d).ms = t.ms := by unfold State.rewriteVpt; dsimp only; split <;> rfl
theorem rewriteVpt_fw : (t.rewriteVpt d).out.fw = t.out.fw := by unfold State.rewriteVpt; dsimp only; split <;> rfl
theorem rewriteVpt_pod : (t.rewriteVpt d).out.pod = t.out.pod := by unfold State.rewriteVpt; dsimp only; split <;> rfl

end

/-- What the sparing map of one die leaves as it was, those of many leave. -/
theorem foldl_rewriteVpt {α : Type} {f : State → α} (keeps : ∀ t d, f (t.rewriteVpt d) = f t) (ds : List Nat) (t : State) :
    f (ds.foldl (fun t d => t.rewriteVpt d) t) = f t :=
  List.foldlRecOn (motive := fun u => f u = f t) ds _ rfl fun u hu d _ => (keeps u d).trans hu

theorem powerOn_clk (s : State) : s.powerOn.clk = State.reset.clk := foldl_rewriteVpt rewriteVpt_clk _ _
theorem powerOn_sched (s : State) : s.powerOn.sched = State.reset.sched := foldl_rewriteVpt rewriteVpt_sched _ _
theorem powerOn_ms (s : State) : s.powerOn.ms = State.reset.ms := foldl_rewriteVpt rewriteVpt_ms _ _

/-- The firmware slots, the floor and the boot slot are kept in flash and fuses, and the boot slot runs (26 R463). -/
theorem powerOn_fw (s : State) : s.powerOn.out.fw = { Firmware.reset with
    slots := s.out.fw.slots, verified := s.out.fw.verified, floor := s.out.fw.floor, boot := s.out.fw.boot, act := s.out.fw.boot } :=
  foldl_rewriteVpt (f := fun t => t.out.fw) rewriteVpt_fw _ _

theorem powerOn_pod (s : State) : s.powerOn.out.pod.serial = s.out.pod.serial ∧ s.powerOn.out.pod.term = s.out.pod.term ∧
    s.powerOn.out.pod.list = s.out.pod.list := by
  refine ⟨foldl_rewriteVpt (f := fun t => t.out.pod.serial) (fun t d => ?_) _ _,
    foldl_rewriteVpt (f := fun t => t.out.pod.term) (fun t d => ?_) _ _,
    foldl_rewriteVpt (f := fun t => t.out.pod.list) (fun t d => ?_) _ _⟩ <;> rw [rewriteVpt_pod]

/-! ### Service stages and the clocks of the dies -/

theorem execServiceStageAdvance_eq (s : State) : execServiceStageAdvance s = .next (if s.out.rfail = true ∨ 3 ≤ s.out.stage then s
    else (List.range 64).foldl State.retime (s.updOut fun o => { o with stage := o.stage + 1 })) := by
  simp [execServiceStageAdvance]

theorem clockRate_eq (stage step : Nat) : clockRate stage step =
    if stage < 3 then 27 else if step = 0 then 54 else if step = 1 then 48 else if step = 2 then 40 else 27 := by
  unfold clockRate
  split
  · rfl
  · rcases step with _ | _ | _ | step <;> rfl

/-- From the time of a step on, a die's clock counts at its new rate (26 R463, R467). -/
theorem dieCycle_retime_add (s : State) (d n : Nat) : ({ (s.retime d).clk with cycle := s.clk.cycle + n } : Clock).dieCycle d =
    s.clk.dieCycle d + n * clockRate s.out.stage (s.powerDie d).step / 54 := by
  rw [Clock.dieCycle, show (s.retime d).clk.dies = Tab.set s.clk.dies d ⟨s.clk.dieCycle d, s.clk.cycle, _⟩ from rfl]
  simp

/-- A new rate leaves the count of every clock as it is. -/
theorem dieCycle_retime (s : State) (d e : Nat) : (s.retime d).clk.dieCycle e = s.clk.dieCycle e := by
  by_cases h : e = d
  · subst h
    exact (dieCycle_retime_add s e 0).trans (by simp)
  · simp [State.retime, Clock.dieCycle, Tab.getD_set_ne _ _ _ h]

/-- Settles O59: time offsets, leadership, the loading of followers, power, temperature, power-on and stages, each by its lemmas above. -/
theorem podAndPower : Obligations.PodAndPower := by
  unfold Obligations.PodAndPower
  intro s
  refine ⟨fun ofs => execTimeSyncMessage_eq ofs s, fun term serial other => ?claims, fun serial => ⟨fun unmet => ?_, fun candidate => ?_⟩,
    fun p hp => ?pod, fun die pwr => ?power, fun die tj => ?thermal,
    ⟨_, rfl, powerOn_clk s, powerOn_sched s, powerOn_ms s, ?fw⟩, fun done => ?_, fun sound more => ?_, fun d => ?clock, ?module⟩
  case claims =>
    refine ⟨fun free => ⟨execClaim_of_free other free, fun late => ?_, fun early => ?_⟩, fun t k stands lesser => ?_, fun t k stands better => ?_⟩
    · exact (execHeartbeat_of_free other free).trans (by rw [if_pos late]; rfl)
    · exact (execHeartbeat_of_free other free).trans (by rw [if_neg (by omega)])
    · exact ⟨(execClaim_of_standing other stands).trans (by rw [if_neg (by omega)]),
        (execHeartbeat_of_standing other stands).trans (by rw [if_neg (by omega)])⟩
    · exact ⟨(execClaim_of_standing other stands).trans (by rw [if_pos better]; rfl),
        (execHeartbeat_of_standing other stands).trans (by rw [if_pos better]; rfl)⟩
  · exact congrArg Host.Outcome.next (if_neg unmet)
  · exact congrArg Host.Outcome.next (if_pos candidate)
  case pod =>
    subst hp
    refine ⟨fun leads due => ?_, fun unmet => ?_, fun unmet => ?_, fun follows due => ?_, fun serial n term => ?steps,
      fun serial => ⟨execProgressRecordQuery_of_leader, execProgressRecordQuery_of_follower, podProgress_of_leader⟩⟩
    · exact (execHeartbeatSend_eq s).trans (by rw [if_pos ⟨leads, due⟩])
    · exact (execHeartbeatSend_eq s).trans (by rw [if_neg (by rw [not_and_or, not_le]; exact unmet)])
    · exact (execHeartbeatMiss_eq s).trans (by rw [if_neg (by rw [not_and_or, not_le]; exact unmet)])
    · exact (execHeartbeatMiss_eq s).trans (by rw [if_pos ⟨follows, due⟩])
    case steps =>
      refine ⟨execFollowerLoadStep_of_foreign, fun low high member own => ⟨fun leads other k record => ⟨fun next => ?_, fun skips => ?_⟩,
        execFollowerLoadStep_of_no_record, fun follows unmet => ?_, fun follows self next => ?_⟩⟩
      · exact (execFollowerLoadStep_of_leader low high member own leads other record).trans (by rw [if_pos next]; rfl)
      · exact (execFollowerLoadStep_of_leader low high member own leads other record).trans (by rw [if_neg (by omega)])
      · exact (execFollowerLoadStep_of_follower low high member own follows).trans (by rw [if_neg (by omega)])
      · refine ⟨_, s.takesStep serial n, (execFollowerLoadStep_of_follower low high member own follows).trans (by rw [if_pos ⟨self, next⟩]),
          rfl, rfl, fun third => ?_⟩
        subst third
        exact ⟨rfl, rfl, rfl⟩
  case power =>
    refine ⟨powerReading_pwr s die pwr, fun breaks => ?_, fun within below => ?_, fun d spent => powerReading_under_of_spent spent d,
      fun exceeds => ?_, fun within => ?_, execPowerStepUp_of_ended, fun since under => ⟨fun stage long => ?_, fun unmet => ?_⟩⟩
    · rw [powerReading_pwr] at breaks
      rcases Nat.lt_or_ge (10 * s.out.power.mbudget) (s.draws die pwr).modulePower with spent | within
      · exact powerReading_under_of_spent spent die
      · exact (powerReading_under_of_within within).trans (if_pos (breaks.resolve_left (Nat.not_lt.2 within)))
    · rw [powerReading_pwr] at below
      exact (powerReading_under_of_within within).trans (if_neg (Nat.not_le.2 below))
    · exact congrArg Host.Outcome.next (if_pos exceeds)
    · exact congrArg Host.Outcome.next (if_neg (by simp [within]))
    · exact (execPowerStepUp_of_under under).trans (by rw [if_pos ⟨stage, long⟩])
    · exact (execPowerStepUp_of_under under).trans (by rw [if_neg (by rw [not_and_or, not_le]; exact unmet)])
  case thermal =>
    have reading := thermalReading_eq s die tj
    refine ⟨fun cool => ?_, fun hot bearable => ?_, fun hot => ?_⟩
    · rw [if_neg (by omega), if_neg (by omega)] at reading
      exact ⟨congrArg _ reading, congrArg _ reading⟩
    · rw [if_neg (by omega), if_pos hot] at reading
      exact ⟨congrArg _ reading, congrArg _ reading⟩
    · rw [if_pos hot] at reading
      exact ⟨congrArg _ reading, congrArg _ reading⟩
  case fw =>
    rw [powerOn_fw]
    exact ⟨rfl, rfl, rfl, rfl, powerOn_pod s⟩
  · exact (execServiceStageAdvance_eq s).trans (by rw [if_pos done])
  · exact (execServiceStageAdvance_eq s).trans (by rw [if_neg (by simp [sound]; omega)])
  case clock =>
    refine ⟨rfl, rfl, dieCycle_retime s d, fun n => ?_⟩
    rw [dieCycle_retime_add, clockRate_eq]
  case module => rw [State.modulePower, sumNat_eq_sum]; rfl

end Sys2Proof.Machine
end

section
/-! PROOF. What a register holds after a write of which some bits are kept. Refutes O14. -/
namespace Sys2Proof.Machine

/-- A register that can be written holds, at its width, the value written over the one it held (05 R86, R92; 03 R35). -/
theorem reg_write_self {g : Agent} {c : Nat} (v : Val) (keep : Vec) (hardwired : ¬(c = 0 ∨ c = 48)) (register : c < 56) :
    (g.write c v keep).reg c = ⟨(v.over (g.reg c) keep).bits &&& regMask c, (v.over (g.reg c) keep).dep⟩ := by
  obtain ⟨not_s0, not_p0⟩ := not_or.1 hardwired
  rw [Agent.write, if_neg hardwired, if_pos register, Agent.reg, if_neg not_s0, if_neg not_p0, Tab.getD_set_self]

/-- A register of which bits are kept follows what its former value and the written one follow (15 R304). -/
theorem dep_reg_write_of_keep {g : Agent} {c : Nat} {keep : Vec} (v : Val) (hardwired : ¬(c = 0 ∨ c = 48)) (register : c < 56)
    (kept : keep ≠ 0) : ((g.write c v keep).reg c).dep = unionDep (g.reg c).dep v.dep := by
  rw [reg_write_self v keep hardwired register]
  exact if_neg kept

/-- An agent whose `v0` holds a value that follows access 1. -/
def loadedV0 : Agent := { Agent.blank with regs := [(32, ⟨0, [1]⟩)] }

/-- Refutes O14: a write of a value that follows access 2 to `v0` of `loadedV0`, of which the bit of an inactive element is kept, leaves a
value that follows accesses 1 and 2, where the statement has the dependence of the written value alone. -/
theorem not_registerFile : ¬ Obligations.RegisterFile := by
  unfold Obligations.RegisterFile
  intro h
  obtain ⟨-, -, written⟩ := h loadedV0 32 ⟨0, [2]⟩ 1
  obtain ⟨-, dep, -⟩ := written (by decide) (by decide) (by decide)
  rw [dep_reg_write_of_keep _ (by decide) (by decide) (by simp)] at dep
  exact absurd dep (by decide)

end Sys2Proof.Machine
end

section
/-! PROOF. What `nop`, `mfs`, `tick` and `rdr` read of the machine's state. Settles O36. -/
namespace Sys2Proof.Machine

variable {s : State} {i : Issue} {o : Operands}

/-! ### `mfs` -/

theorem issued_sched (s : State) (i : Issue) (o : Operands) :
    (s.issued i o).sched = { s.sched with counters := (s.countAt i.g 0x12).sched.counters } := by
  rw [State.issued, State.note, updBlock_sched]
  exact countAt_sched s i.g

theorem issued_regions (s : State) (i : Issue) (o : Operands) : (s.issued i o).sched.regions = s.sched.regions := by
  rw [issued_sched]

/-- The incarnation of an agent of no launch is that of its run (08 R169). -/
theorem incOf_of_run {a : Aid} (g : Agent) (run : a.rid = none) : s.incOf a g = g.runInc := by simp only [State.incOf, run]

/-- The incarnation of an agent of a launch is that of its region (08 R169). -/
theorem incOf_of_region {a : Aid} (g : Agent) {rid : Nat} {r : Region} (launch : a.rid = some rid)
    (region : Tab.get? s.sched.regions rid = some r) : s.incOf a g = r.inc := by simp only [State.incOf, launch, region]

/-- `mfs` sends the value of its selector, and notes that the flags are cleared where it is `.flagsc` (08 R169). -/
theorem execMfs_ready {f : FI} (ready : Ready s (f.ins 0x79) i o) : execMfs f s = .next
    ((if f.imm = 11 then (s.issued i o).updBlock i.aid (·.effect i.idx .flagsClear) else s.issued i o).deliver i
      ⟨scal ((s.issued i o).mfs i.aid i.g i.b f.imm.toNat), o.dep⟩ ⟨scal ((s.issued i o).mfs i.aid i.g i.b f.imm.toNat), o.dep⟩ 0) := by
  have imm : i.ins.imm = f.imm := by rw [ready_ins ready]; rfl
  have flagsc : f.imm.toNat = 11 ↔ f.imm = 11 := by rw [BitVec.toNat_eq]; rfl
  rw [execMfs, issue_ready ready]
  simp only [imm, flagsc]

/-! ### `rdr` -/

/-- The register that a code names can be read: it is an `s`, `v` or `p` register, a declared delay line, or an inbound port of the
block's mask (08 R168). -/
def Issue.Readable (i : Issue) (x : Nat) : Prop :=
  x < 56 ∨ (64 ≤ x ∧ x < 72 ∧ (i.g.delayHead x).isSome) ∨ (72 ≤ x ∧ x < 80 ∧ (i.b.hdr.extractLsb' 29 8).toNat.testBit (x - 72))

/-- The same as the instruction computes it. -/
def Issue.unreadable (i : Issue) (x : Nat) : Bool :=
  x ≥ 128 || reservedSource x || (isInPort x && !(i.b.hdr.extractLsb' 29 8).toNat.testBit (x - 72)) ||
    (64 ≤ x && x < 72 && (i.g.delayHead x).isNone)

theorem unreadable_iff (i : Issue) (x : Nat) : i.unreadable x = true ↔ ¬i.Readable x := by
  unfold Issue.unreadable Issue.Readable reservedSource isInPort
  generalize i.g.delayHead x = head
  generalize (i.b.hdr.extractLsb' 29 8).toNat.testBit (x - 72) = inbound
  cases head <;> cases inbound <;> simp <;> omega

/-- A write to the register that a code names, or what precedes in its delay line, is still on its way (01 R13; 09 R184). -/
def Issue.awaits (i : Issue) (x : Nat) : Bool := i.g.isPending x || !i.g.lineReady x (i.g.older.length + 1) i.g.older.length

/-- What `rdr` does once it has its operand (08 R168). -/
theorem execRdr_ready {f : FX} (ready : Ready s (f.ins 0x78) i o) : execRdr f s = .next (
    let x := scalNat o.a.bits
    let v := (i.g.source x).getD .zero
    if i.unreadable x then (s.issued i o).takeTrap i.aid cTARGET i.idx i.b.addr 0 (i.b.word0 i.idx)
    else if i.awaits x then s
    else ((s.issued i o).updBlock i.aid fun b => { b with readExc := b.readExc || headExc i.g true (128 + x) }).deliver i
      ⟨v.bits, unionDep o.dep v.dep⟩ ⟨v.bits, unionDep o.dep v.dep⟩ 0) :=
  congrArg _ (issue_ready ready _)

section
variable {f : FX} (ready : Ready s (f.ins 0x78) i o)
include ready

theorem execRdr_traps (bad : ¬i.Readable (scalNat o.a.bits)) :
    execRdr f s = .next ((s.issued i o).takeTrap i.aid 0x03 i.idx i.b.addr 0 (i.b.word0 i.idx)) :=
  (execRdr_ready ready).trans (congrArg _ (if_pos ((unreadable_iff ..).2 bad)))

theorem execRdr_waits (good : i.Readable (scalNat o.a.bits)) (pending : i.g.isPending (scalNat o.a.bits) = true) :
    execRdr f s = .next s := by
  have awaits : i.awaits (scalNat o.a.bits) = true := by rw [Issue.awaits, pending, Bool.true_or]
  rw [execRdr_ready ready]
  dsimp only
  rw [if_neg (mt (unreadable_iff ..).1 (not_not_intro good)), if_pos awaits]

theorem execRdr_sends (good : i.Readable (scalNat o.a.bits)) (written : i.g.isPending (scalNat o.a.bits) = false)
    (line : i.g.lineReady (scalNat o.a.bits) (i.g.older.length + 1) i.g.older.length = true) {v : Val}
    (source : i.g.source (scalNat o.a.bits) = some v) :
    execRdr f s = .next (((s.issued i o).updBlock i.aid fun b =>
      { b with readExc := b.readExc || headExc i.g true (128 + scalNat o.a.bits) }).deliver i
        ⟨v.bits, unionDep o.dep v.dep⟩ ⟨v.bits, unionDep o.dep v.dep⟩ 0) := by
  have here : ¬i.awaits (scalNat o.a.bits) = true := by simp [Issue.awaits, written, line]
  rw [execRdr_ready ready]
  dsimp only
  rw [if_neg (mt (unreadable_iff ..).1 (not_not_intro good)), if_neg here, source, Option.getD_some]

end

/-- `tick` sends the tick at its issue (08 R170). -/
theorem execTick_ready {f : F0} (ready : Ready s (f.ins 0x7A) i o) :
    execTick f s = .next ((s.issued i o).deliver i ⟨scal s.clk.tick, o.dep⟩ ⟨scal s.clk.tick, o.dep⟩ 0) := by
  rw [execTick, issue_ready ready, issued_clk]

/-- Settles O36: `nop` and `tick` as they issue, `mfs` selector by selector, and `rdr` by what its operand names. -/
theorem readsOfState : Obligations.ReadsOfState := by
  unfold Obligations.ReadsOfState
  intro s
  refine ⟨fun f i o ready => congrArg _ (issue_ready ready _), fun f i o ready => execTick_ready ready,
    fun f i o ready => ⟨_, execMfs_ready ready, ?_⟩,
    fun f i o ready => ⟨execRdr_traps ready, execRdr_waits ready, fun good written line v => execRdr_sends ready good written line⟩⟩
  refine ⟨fun sel => ?fidx, fun sel actor => ?noThread, fun sel thread => ?thread, fun sel => ?vq, fun sel => ?die, fun sel => ?pkg,
    fun sel => ?ctx, fun sel actor => ?cu, fun sel thread => ?noCu, fun sel => ?slot, fun sel actor => ?place,
    fun sel thread => ?noPlace, fun sel run => ?run, fun sel rid r launch region => ?launch, fun sel => ?flags, fun sel => ?block⟩
  case flags => rcases sel with sel | sel <;> (rw [sel]; rfl)
  all_goals rw [sel]
  case noThread | cu | place => exact if_neg (Bool.eq_false_iff.1 actor)
  case thread | noCu | noPlace => exact if_pos thread
  case pkg => exact congrArg (·.pod.index) (issued_out s i o)
  case run => exact incOf_of_run i.g run
  case launch => exact incOf_of_region i.g launch (by rw [issued_regions, region])
  case fidx | vq | die | ctx | slot | block => rfl

end Sys2Proof.Machine
end

section
/-! PROOF. What the readers of a delivered entry send. Settles O39. -/
namespace Sys2Proof.Machine

variable {s : State} {i : Issue} {o : Operands}

/-- A reader of an entry that can issue notes the entry's `exc` and sends what it reads of the entry (11 R227). -/
theorem readEntry_ready {ins : Ins} (ready : Ready s ins i o) (v : Record → Vec) :
    (.next (s.issue ins (readEntry v)) : Answer) =
      .next (((s.issued i o).updBlock i.aid fun b => { b with readExc := b.readExc || (i.entry i.ins.stkB).exc }).deliver i
        ⟨v (i.entry i.ins.stkB), o.dep⟩ ⟨v (i.entry i.ins.stkB), o.dep⟩ 0) :=
  congrArg _ (issue_ready ready _)

/-- The entry that an instruction's fields name (11 R224). -/
theorem entry_of_ins {op : Nat} {f : FX} (ins : i.ins = f.ins op) :
    i.entry i.ins.stkB = i.g.firing.elim .null fun x => x.entry (f.srcA.toNat % 128 - 72) f.stkB.toNat := by
  rw [Issue.entry, ins]
  cases i.g.firing <;> rfl

/-- Bits [63:0] of the sideband: all of it but the time (03 R46). -/
theorem sideband_low (r : Record) : r.sideband % 2 ^ 64 =
    r.kind % 16 + (if r.exc then 16 else 0) + (if r.nar then 32 else 0) + r.lvl % 8 * 64 + (if r.kv then 512 else 0) +
      (if r.wsat then 1024 else 0) + r.weight % 2 ^ 16 * 2 ^ 16 + r.key % 2 ^ 32 * 2 ^ 32 := by
  have bit : ∀ (b : Bool) (n : Nat), (if b then n else 0) ≤ n := fun b n => by split <;> omega
  have := bit r.exc 16
  have := bit r.nar 32
  have := bit r.kv 512
  have := bit r.wsat 1024
  unfold Record.sideband
  simp only [Nat.reducePow]
  omega

/-! ### What `kind` reads -/

section
variable {f : FX}

theorem execKind_kind (rm : f.rm = 0) : execKind f s = .next (s.issue (f.ins 0x85) (readEntry fun r => scal r.kind)) := by
  simp [execKind, rm]

theorem execKind_payload (rm : f.rm = 1) : execKind f s = .next (s.issue (f.ins 0x85) (readEntry Record.payload)) := by
  simp [execKind, rm]

theorem execKind_sideband (rm : f.rm = 2) :
    execKind f s = .next (s.issue (f.ins 0x85) (readEntry fun r => scal (r.sideband % 2 ^ 64))) := by
  simp [execKind, rm]

end

/-- Settles O39: each reader sends what it reads of the entry that its fields name. -/
theorem entryReads : Obligations.EntryReads := by
  unfold Obligations.EntryReads
  intro s reads
  have reader : ∀ (f : FX) (op : Nat) (v : Record → Vec), reads f (f.ins op) (.next (s.issue (f.ins op) (readEntry v))) v := by
    intro f op v i o ready r
    have named : i.entry i.ins.stkB = r := (entry_of_ins (ready_ins ready)).trans (by unfold r; cases i.g.firing <;> rfl)
    rw [readEntry_ready ready v, named]
  have kind : ∀ f : FX, exec (.kind f) s = execKind f s := fun _ => rfl
  refine ⟨fun f => reader f 0x82 _, fun f => reader f 0x83 _, fun f => reader f 0x84 _, fun f rm => ?_, fun f rm => ?_, fun f rm => ?_⟩
  · rw [kind, execKind_kind rm]
    exact reader f 0x85 _
  · rw [kind, execKind_payload rm]
    exact reader f 0x85 _
  · rw [kind, execKind_sideband rm]
    simp only [sideband_low]
    exact reader f 0x85 _

end Sys2Proof.Machine
end

section
/-! PROOF. Reductions: the tree over a vector of elements is the tree of their positions. Settles O26. -/
namespace Sys2Proof.Machine

variable {s : State} {i : Issue} {o : Operands}

/-! ### Two parts joined -/

/-- Two parts that raised no flag so far: what stands at a node over them, with the flags of that node alone (04 R62). -/
def join (f : Nat → Nat → Nat × FlagSet) (a b : Option Nat) : Option Nat × FlagSet := joined f (a, fNone) (b, fNone)

/-- A node keeps the flags of its two parts and adds its own. -/
theorem joined_eq_join (f : Nat → Nat → Nat × FlagSet) (x y : Option Nat × FlagSet) :
    joined f x y = ((join f x.1 y.1).1, x.2 ||| y.2 ||| (join f x.1 y.1).2) := by
  obtain ⟨a, p⟩ := x
  obtain ⟨b, q⟩ := y
  cases a <;> cases b <;> simp [join, joined, fNone]

/-- A level of the tree joins its first two elements. -/
theorem treeLevel_cons_cons (f : Nat → Nat → Nat × FlagSet) (a b : Option Nat) (rest : List (Option Nat)) :
    treeLevel f (a :: b :: rest) = ((join f a b).1 :: (treeLevel f rest).1, (join f a b).2 ||| (treeLevel f rest).2) := by
  cases a <;> cases b <;> simp [treeLevel, join, joined, fNone]

/-! ### The tree -/

/-- The values of `n` nodes, in order. -/
def nodeValues (t : Nat → Option Nat × FlagSet) (n : Nat) : List (Option Nat) := (List.range n).map fun j => (t j).1

/-- The flags of `n` nodes together. -/
def nodeFlags (t : Nat → Option Nat × FlagSet) (n : Nat) : FlagSet := orFlags ((List.range n).map fun j => (0, (t j).2))

theorem nodeValues_succ (t : Nat → Option Nat × FlagSet) (n : Nat) :
    nodeValues t (n + 1) = (t 0).1 :: nodeValues (fun j => t (j + 1)) n := by
  simp [nodeValues, List.range_succ_eq_map, Function.comp_def]

theorem nodeFlags_succ (t : Nat → Option Nat × FlagSet) (n : Nat) :
    nodeFlags t (n + 1) = (t 0).2 ||| nodeFlags (fun j => t (j + 1)) n := by
  simp [nodeFlags, List.range_succ_eq_map, Function.comp_def, orFlags_cons]

/-- A level of the tree over an even number of nodes has a node over each two of them, and adds the flags of these. -/
theorem treeLevel_nodes (f : Nat → Nat → Nat × FlagSet) (n : Nat) : ∀ t : Nat → Option Nat × FlagSet,
    let up := fun j => joined f (t (2 * j)) (t (2 * j + 1))
    (treeLevel f (nodeValues t (2 * n))).1 = nodeValues up n ∧
      nodeFlags t (2 * n) ||| (treeLevel f (nodeValues t (2 * n))).2 = nodeFlags up n := by
  induction n with
  | zero => exact fun t => ⟨rfl, or_fNone _⟩
  | succ n ih =>
    intro t up
    obtain ⟨values, flags⟩ := ih fun j => t (j + 2)
    rw [Nat.mul_succ]
    simp only [nodeValues_succ, nodeFlags_succ, treeLevel_cons_cons]
    refine ⟨?_, ?_⟩
    · rw [values]
      simp only [up, joined_eq_join f]
      rfl
    · rw [show nodeFlags (fun j => up (j + 1)) n = _ from flags.symm]
      simp only [up, joined_eq_join f, Nat.mul_zero, Nat.zero_add, Nat.add_assoc, Nat.reduceAdd]
      ac_rfl

/-- A single element passes any further levels. -/
theorem treeReduce_singleton (f : Nat → Nat → Nat × FlagSet) (x : Option Nat) (fl : FlagSet) :
    ∀ k, treeReduce f k [x] fl = (x, fl)
  | 0 => rfl
  | k + 1 => by simpa [treeReduce, treeLevel, or_fNone] using treeReduce_singleton f x fl k

/-- Reducing the nodes of level `m` gives the node `k` levels above them, however many levels are left over. -/
theorem treeReduce_nodes (f : Nat → Nat → Nat × FlagSet) (leaf : Nat → Option Nat) (extra : Nat) : ∀ k m,
    treeReduce f (k + extra) (nodeValues (treeOf f leaf m) (2 ^ k)) (nodeFlags (treeOf f leaf m) (2 ^ k)) =
      treeOf f leaf (m + k) 0
  | 0, m => by
    simp [nodeValues, nodeFlags, treeReduce_singleton, orFlags, fNone_or]
  | k + 1, m => by
    obtain ⟨values, flags⟩ := treeLevel_nodes f (2 ^ k) (treeOf f leaf m)
    have rest := treeReduce_nodes f leaf extra k (m + 1)
    rw [Nat.add_right_comm, treeReduce, Nat.pow_succ']
    dsimp only
    rw [values, flags, ← Nat.add_assoc, Nat.add_right_comm, ← rest]
    rfl

/-- Leaves have no flags. -/
theorem nodeFlags_leaves (f : Nat → Nat → Nat × FlagSet) (leaf : Nat → Option Nat) (n : Nat) :
    nodeFlags (treeOf f leaf 0) n = fNone := by
  have := orFlags_none ((List.range n).map fun _ => 0)
  rwa [List.map_map] at this

/-- The root of the tree over the elements of operand A, at a width of which there are `2 ^ k` elements, `k` at most 6. -/
theorem treeReduce_present (f : Nat → Nat → Nat × FlagSet) {k : Nat} (le : k ≤ 6) (elements : count i.ins.width = 2 ^ k) :
    treeReduce f 6 (i.opnds o).present fNone = treeOf f (o.leaf i) k 0 := by
  have root := treeReduce_nodes f (o.leaf i) (6 - k) k 0
  rw [Nat.add_sub_cancel' le, nodeFlags_leaves, Nat.zero_add, ← elements] at root
  exact root

/-! ### What a reduction answers -/

/-- The types of floating point that lanes reduce are `f32`, `bf16` and `f16`, whose elements are 16 or 32 to a vector (06 R128). -/
theorem lanes_of_float (float : i.ins.ty = 8 ∨ i.ins.ty = 9 ∨ i.ins.ty = 10) :
    floatFmt i.ins.ty = some i.fmt ∧ ∃ k ≤ 6, count i.ins.width = 2 ^ k ∧ Nat.log2 (count i.ins.width) = k := by
  rw [Issue.fmt, Ins.width]
  rcases float with ty | ty | ty <;> rw [ty]
  · exact ⟨rfl, 4, by decide, rfl, by decide⟩
  · exact ⟨rfl, 5, by decide, rfl, by decide⟩
  · exact ⟨rfl, 5, by decide, rfl, by decide⟩

theorem floatFmt_of_int {ty : Nat} (int : ty < 8) : floatFmt ty = none := by
  interval_cases ty <;> rfl

theorem canonical_eq (i : Issue) (x : Nat) : i.fmt.canonical x = i.canonical x := by
  unfold FFmt.canonical Issue.canonical
  cases i.fmt.value x <;> rfl

/-- A lane reduction takes the exact value of an integer type and the tree of a float type (06 R128). -/
theorem reduces_of_floatReduce (s : State) (ins : Ins) {g : Opnds → Res} {int : Issue → Operands → Nat}
    {f : Issue → Nat → Nat → Nat × FlagSet} {empty : Issue → Nat}
    (ints : ∀ i o, floatFmt i.ins.ty = none → g (i.opnds o) = .scalar (int i o))
    (floats : ∀ i o, floatFmt i.ins.ty = some i.fmt → g (i.opnds o) = floatReduce (i.opnds o) i.fmt (f i) (empty i)) :
    Reduces s ins (execVal ins g s) int f empty := by
  intro i o ready
  refine ⟨fun isInt => ?_, fun isFloat => ?_⟩
  · rw [execVal_ready ready, ints i o (floatFmt_of_int isInt)]
  · obtain ⟨fmt, k, le, elements, log⟩ := lanes_of_float isFloat
    rw [execVal_ready ready, floats i o fmt, floatReduce, treeReduce_present (f i) le elements, log]
    simp only [canonical_eq]
    rfl

/-- The exclusive or of the active elements, inactive ones counting as zero. -/
theorem foldl_xor_filter (act : Nat → Bool) (x : Nat → Nat) (js : List Nat) : ∀ z,
    (js.filter act).foldl (fun a j => a ^^^ x j) z =
      z ^^^ (js.map fun j => if act j then x j else 0).foldr (fun a b => a ^^^ b) 0 := by
  induction js with
  | nil => simp
  | cons j js ih =>
    intro z
    cases h : act j <;> simp [h, ih, Nat.xor_assoc]

theorem reduces_radd (s : State) (ins : Ins) : Reduces s ins (execVal ins laneRadd s) (fun i o => wrap 64 (o.activeInts i).sum)
    (fun i x y => i.fmt.addF i.ins.rm (i.fmt.value x) (i.fmt.value y)) fun _ => 0 := by
  refine reduces_of_floatReduce s ins (fun i o fmt => ?_) fun i o fmt => ?_
  · rw [List.sum_eq_foldl]
    simp only [laneRadd, Issue.opnds, fmt]
    rfl
  · simp only [laneRadd, Issue.opnds, fmt]

theorem reduces_rmax (s : State) (ins : Ins) : Reduces s ins (execVal ins laneRmax s)
    (fun i o => wrap 64 ((o.activeInts i).foldl max (etyLeast i.ins.ty i.ins.width))) (fun i => i.fmt.pick true)
    fun i => i.fmt.infinity true := by
  refine reduces_of_floatReduce s ins (fun i o fmt => ?_) fun i o fmt => ?_
  all_goals simp only [laneRmax, Issue.opnds, fmt]
  rfl

theorem reduces_rmin (s : State) (ins : Ins) : Reduces s ins (execVal ins laneRmin s)
    (fun i o => wrap 64 ((o.activeInts i).foldl min (etyGreatest i.ins.ty i.ins.width))) (fun i => i.fmt.pick false)
    fun i => i.fmt.infinity false := by
  refine reduces_of_floatReduce s ins (fun i o fmt => ?_) fun i o fmt => ?_
  all_goals simp only [laneRmin, Issue.opnds, fmt]
  rfl

theorem scalars_rxor (s : State) (ins : Ins) : Scalars s ins (execVal ins laneRxor s) fun i o =>
    ((List.range (count i.ins.width)).map fun j => if o.act i j then o.x i j else 0).foldr (fun a b => a ^^^ b) 0 := by
  intro i o ready
  rw [execVal_ready ready, laneRxor, foldl_xor_filter, Nat.zero_xor]
  rfl

/-- Settles O26: an integer reduction is a fold over the active elements, a float one the root of their tree. -/
theorem reductions : Obligations.Reductions := fun s =>
  ⟨⟨fun f => reduces_radd s (f.ins 0x49), fun f => reduces_radd s (f.ins 0x49)⟩,
    ⟨fun f => reduces_rmax s (f.ins 0x4A), fun f => reduces_rmax s (f.ins 0x4A)⟩,
    ⟨fun f => reduces_rmin s (f.ins 0x4B), fun f => reduces_rmin s (f.ins 0x4B)⟩,
    ⟨fun f => scalars_rxor s (f.ins 0x4C), fun f => scalars_rxor s (f.ins 0x4C)⟩⟩

end Sys2Proof.Machine
end

section
/-! PROOF. The sums of `scan`, which the network of doubling distances computes, and the lane instructions `lget` and `dot4`.
Settles O27. -/
namespace Sys2Proof.Machine

variable {i : Issue} {o : Operands}

/-- A result whose active elements agree modulo the width has either function for its elements. -/
theorem ByElement.congr {W n : Nat} {act : Nat → Bool} {f g : Nat → Nat} {r : Res}
    (agree : ∀ j < n, act j = true → f j % 2 ^ W = g j % 2 ^ W) (elements : ByElement W n act f r) : ByElement W n act g r := by
  obtain ⟨out, bound, keep⟩ := elements
  refine ⟨fun j lt => ?_, bound, keep⟩
  rw [out j lt]
  split
  next active => exact agree j lt active
  next => rfl

/-! ### The network of `scan` -/

/-- A step of the network joins each element with the one `d` before it, where there is one (04 R63). -/
theorem scanStep_values (f : Nat → Nat → Nat × FlagSet) (d n : Nat) (y : Nat → Option Nat) :
    (scanStep f d ((List.range n).map y)).1 =
      (List.range n).map fun j => if j < d then y j else (join f (y (j - d)) (y j)).1 := by
  simp only [scanStep, List.map_map, List.length_map, List.length_range]
  refine List.map_congr_left fun j mem => ?_
  have lt := List.mem_range.1 mem
  have at_ : ∀ m < n, ((List.range n).map y).getD m none = y m := fun m h => by simp [List.getD_eq_getElem?_getD, h]
  simp only [Function.comp_apply, at_ j lt, at_ (j - d) (by omega)]
  split
  · rfl
  · cases y (j - d) <;> cases y j <;> rfl

/-- Steps of distance `2 ^ m` and so on, after the first `m`. -/
theorem scanSteps_values (f : Nat → Nat → Nat × FlagSet) (leaf : Nat → Option Nat) (n : Nat) : ∀ k m fl,
    (scanSteps f k (2 ^ m) ((List.range n).map (prefixOf f leaf m)) fl).1 = (List.range n).map (prefixOf f leaf (m + k))
  | 0, _, _ => rfl
  | k + 1, m, fl => by
    have rest := scanSteps_values f leaf n k (m + 1)
    simp only [scanSteps, scanStep_values, ← Nat.pow_succ']
    rw [← Nat.add_assoc, Nat.add_right_comm, ← rest]
    rfl

/-- Element `j` that the steps of `scan` leave of operand A. -/
def Issue.scanned (i : Issue) (o : Operands) (f : Nat → Nat → Nat × FlagSet) (j : Nat) : Nat :=
  ((scanSteps f (Nat.log2 (count i.ins.width)) 1 (i.opnds o).present fNone).1.getD j none).getD 0

theorem scanned_eq_prefixOf (f : Nat → Nat → Nat × FlagSet) {j : Nat} (lt : j < count i.ins.width) :
    i.scanned o f j = (prefixOf f (o.leaf i) (Nat.log2 (count i.ins.width)) j).getD 0 := by
  have values := scanSteps_values f (o.leaf i) (count i.ins.width) (Nat.log2 (count i.ins.width)) 0 fNone
  rw [Nat.zero_add] at values
  rw [Issue.scanned, show (scanSteps f _ 1 (i.opnds o).present fNone).1 = _ from values]
  simp [List.getD_eq_getElem?_getD, lt]

/-- Where no sum raises a flag, no step does. -/
theorem scanStep_flags {f : Nat → Nat → Nat × FlagSet} (none_ : ∀ x y, (f x y).2 = fNone) (d : Nat) (ys : List (Option Nat)) :
    (scanStep f d ys).2 = fNone := by
  rw [scanStep]
  refine List.foldlRecOn (motive := (· = fNone)) _ _ rfl fun g hg r mem => ?_
  obtain ⟨j, -, rfl⟩ := List.mem_map.1 mem
  rw [hg, fNone_or]
  dsimp only
  split
  · rfl
  · split
    · exact none_ _ _
    · rfl
    · rfl

theorem scanSteps_flags {f : Nat → Nat → Nat × FlagSet} (none_ : ∀ x y, (f x y).2 = fNone) : ∀ k d ys fl,
    (scanSteps f k d ys fl).2 = fl
  | 0, _, _, _ => rfl
  | k + 1, d, ys, fl => by
    simp only [scanSteps, scanStep_flags none_, or_fNone]
    exact scanSteps_flags none_ k _ _ _

/-! ### Integer sums -/

/-- A sum of two elements modulo the width, which raises no flag (04 R59). -/
def addWrap (W x y : Nat) : Nat × FlagSet := ((x + y) % 2 ^ W, fNone)

/-- An absent element counts as zero in a sum. -/
theorem join_addWrap (W : Nat) (a b : Option Nat) :
    (join (addWrap W) a b).1.getD 0 % 2 ^ W = (a.getD 0 % 2 ^ W + b.getD 0 % 2 ^ W) % 2 ^ W := by
  cases a <;> cases b <;> simp [join, joined, addWrap]

/-- After `k` steps element `j` is the sum of the `2 ^ k` elements up to it, or of all of them. -/
theorem prefixOf_addWrap (W : Nat) (leaf : Nat → Option Nat) : ∀ k j,
    (prefixOf (addWrap W) leaf k j).getD 0 % 2 ^ W =
      (∑ m ∈ Finset.Ico (j + 1 - 2 ^ k) (j + 1), (leaf m).getD 0) % 2 ^ W
  | 0, j => by simp [prefixOf]
  | k + 1, j => by
    rw [prefixOf]
    split
    next below =>
      rw [prefixOf_addWrap W leaf k j, Nat.sub_eq_zero_of_le below, Nat.sub_eq_zero_of_le (by rw [Nat.pow_succ]; omega)]
    next above =>
      have split_ := Finset.sum_Ico_consecutive (fun m => (leaf m).getD 0)
        (show j + 1 - 2 ^ (k + 1) ≤ j + 1 - 2 ^ k by rw [Nat.pow_succ]; omega) (Nat.sub_le _ _)
      have low : j - 2 ^ k + 1 - 2 ^ k = j + 1 - 2 ^ (k + 1) := by rw [Nat.pow_succ]; omega
      have high : j - 2 ^ k + 1 = j + 1 - 2 ^ k := by omega
      calc _ = ((prefixOf (addWrap W) leaf k (j - 2 ^ k)).getD 0 % 2 ^ W + (prefixOf (addWrap W) leaf k j).getD 0 % 2 ^ W) % 2 ^ W :=
            join_addWrap W _ _
        _ = _ := by
          rw [prefixOf_addWrap W leaf k, prefixOf_addWrap W leaf k, low, high, ← Nat.add_mod, split_]

/-- The sum of the active elements of a range. -/
theorem sum_filter_range (act : Nat → Bool) (x : Nat → Nat) (n : Nat) :
    (((List.range n).filter act).map x).sum = ∑ m ∈ Finset.range n, if act m then x m else 0 := by
  induction n with
  | zero => rfl
  | succ n ih =>
    rw [List.range_succ, List.filter_append, List.map_append, List.sum_append, ih, Finset.sum_range_succ]
    cases h : act n <;> simp [h]

/-- At a width of whole elements there are as many as the network's steps reach. -/
theorem count_eq_two_pow {W : Nat} (width : stdWidth W) : count W = 2 ^ Nat.log2 (count W) := by
  rcases width with rfl | rfl | rfl | rfl <;> decide

/-- The network sums the active elements up to each one. -/
theorem prefixOf_leaf_sum (width : stdWidth i.ins.width) {j : Nat} (lt : j < count i.ins.width) :
    (prefixOf (addWrap i.ins.width) (o.leaf i) (Nat.log2 (count i.ins.width)) j).getD 0 % 2 ^ i.ins.width =
      (((List.range (j + 1)).filter (o.act i)).map (o.x i)).sum % 2 ^ i.ins.width := by
  rw [prefixOf_addWrap, ← count_eq_two_pow width, Nat.sub_eq_zero_of_le lt, sum_filter_range, Nat.Ico_zero_eq_range]
  refine congrArg (· % _) (Finset.sum_congr rfl fun m _ => ?_)
  unfold Operands.leaf
  split <;> rfl

/-! ### `scan`, `lget` and `dot4` -/

/-- A result of `pure`, element by element. -/
theorem byElement_pure (width : stdWidth i.ins.width) (g : Nat → Nat) :
    ByElement i.ins.width (count i.ins.width) (o.act i) g ((i.opnds o).pure g) :=
  byElement_spec (stdWidth_pos (.inr width)) (elemWidth_fits (.inr width))

/-- `scan` of an integer type raises no flag (06 R129). -/
theorem laneScan_int (fmt : floatFmt i.ins.ty = none) :
    laneScan (i.opnds o) = { (i.opnds o).pure (i.scanned o (addWrap i.ins.width)) with flags := fNone } := by
  rw [← scanSteps_flags (f := addWrap i.ins.width) (fun _ _ => rfl) (Nat.log2 (count i.ins.width)) 1 (i.opnds o).present fNone]
  simp only [laneScan, Issue.opnds, fmt]
  rfl

/-- `scan` of a float type, whose flags are those of its sums and of signalling elements (06 R129). -/
theorem laneScan_float (fmt : floatFmt i.ins.ty = some i.fmt) : ∃ fl : FlagSet, laneScan (i.opnds o) =
    { (i.opnds o).pure fun j => i.canonical (i.scanned o (fun x y => i.fmt.addF i.ins.rm (i.fmt.value x) (i.fmt.value y)) j)
      with flags := fl } := by
  simp only [laneScan, Issue.opnds, fmt, canonical_eq]
  exact ⟨_, rfl⟩

theorem scans_laneScan (s : State) (ins : Ins) : Scans s ins (execVal ins laneScan s) := by
  intro i o ready width
  refine ⟨laneScan (i.opnds o), execVal_ready ready _, ?out1, fun int => ?int, fun float => ?float⟩
  case out1 =>
    unfold laneScan
    dsimp only
    split <;> rfl
  case int =>
    rw [laneScan_int (floatFmt_of_int int)]
    refine ⟨rfl, ByElement.congr (fun j lt _ => ?_) (byElement_pure (i := i) (o := o) width _)⟩
    rw [scanned_eq_prefixOf _ lt, prefixOf_leaf_sum width lt]
  case float =>
    obtain ⟨fmt, -⟩ := lanes_of_float float
    obtain ⟨fl, scan⟩ := laneScan_float (o := o) fmt
    rw [scan]
    refine ByElement.congr (fun j lt _ => ?_) (byElement_pure (i := i) (o := o) width _)
    rw [scanned_eq_prefixOf _ lt]

/-- A value instruction whose result has elements of a width of its own computes them. -/
theorem widened_of_byElement (s : State) (ins : Ins) {W n : Nat} (pos : 0 < W) (fits : W * n ≤ 512) {g : Opnds → Nat → Nat}
    {f : Opnds → Res} (h : ∀ o, f o = byElement W n o.mask fun j => (g o j, fNone)) :
    Widened s ins (execVal ins f s) W n fun i o j => g (i.opnds o) j := by
  intro i o ready
  refine ⟨f (i.opnds o), execVal_ready ready f, ?_, ?_, ?_⟩
  · have none_ := orFlags_none (((List.range n).filter (active (i.opnds o).mask W)).map (g (i.opnds o)))
    rw [List.map_map] at none_
    rw [h, byElement_flags]
    exact none_
  · rw [h, byElement_out1]
  · rw [h]
    exact byElement_spec pos fits

theorem widened_lget (s : State) (ins : Ins) : Widened s ins (execVal ins laneLget s) 64 1 fun i o _ =>
    if o.y i 0 < count i.ins.width then wrap 64 (etyInteger i.ins.ty i.ins.width (o.x i (o.y i 0))) else 0 :=
  widened_of_byElement s ins (g := fun o _ => if o.index < count o.W then wrap 64 (etyInteger o.ty o.W (o.ea o.index)) else 0)
    (by decide) (by decide) fun _ => rfl

theorem widened_dot4 (s : State) (ins : Ins) : Widened s ins (execVal ins laneDot4 s) 32 16 fun i o j =>
    let p := fun k => etyInteger i.ins.ty 8 (getE 8 o.a.bits (4 * j + k)) * etyInteger i.ins.ty 8 (getE 8 o.b.bits (4 * j + k))
    wrap 32 (p 0 + p 1 + p 2 + p 3) :=
  widened_of_byElement s ins (g := fun o j =>
    let p := fun k => etyInteger o.ty 8 (getE 8 o.a (4 * j + k)) * etyInteger o.ty 8 (getE 8 o.b (4 * j + k))
    wrap 32 (p 0 + p 1 + p 2 + p 3)) (by decide) (by decide) fun o => by
      simp [laneDot4, List.range_succ]

/-- Settles O27: the network of doubling distances computes the sums of `scan`, and `lget` and `dot4` have elements of a width of
their own. -/
theorem laneScalars : Obligations.LaneScalars := fun s =>
  ⟨fun f => scans_laneScan s (f.ins 0x4D), fun f => scans_laneScan s (f.ins 0x4D),
    ⟨fun f => widened_lget s (f.ins 0x41), fun f => widened_lget s (f.ins 0x41)⟩,
    ⟨fun f => widened_dot4 s (f.ins 0x4F), fun f => widened_dot4 s (f.ins 0x4F)⟩⟩

end Sys2Proof.Machine
end

section
/-! PROOF. The conversions `cvt` and `cvts` and the decoding of codebook weights. Settles O32. -/
namespace Sys2Proof.Machine

variable {s : State} {i : Issue} {o : Operands}

/-- An element type code below 18 is one of the defined ones, whose elements have 4, 8, 16, 32 or 64 bits (03 R54). -/
theorem etyWidth_of_defined {ty : Nat} (defined : ty < 18) : ∃ W, etyWidth ty = some W ∧ elemWidth W := by
  interval_cases ty <;> exact ⟨_, rfl, by simp [elemWidth, stdWidth]⟩

/-- An F1 or F2 instruction has the type that its field names (05 R83). -/
theorem fx_ins_ty (op : Nat) (f : FX) : (f.ins op).ty = f.ety.toNat := by
  rw [Ins.ty, FX.ins]
  cases f.lit <;> rfl

theorem ins_ty_of_ready {op : Nat} {f : FX} (ready : Ready s (f.ins op) i o) : i.ins.ty = f.ety.toNat := by
  rw [ready_ins ready, fx_ins_ty]

theorem opnds_ty (i : Issue) (o : Operands) : (i.opnds o).ty = i.ins.ty := rfl

/-- At a defined type the conversions and the instruction agree on the width of an element. -/
theorem width_of_defined (defined : i.ins.ty < 18) : (etyWidth i.ins.ty).getD 8 = i.ins.width ∧ elemWidth i.ins.width := by
  obtain ⟨W, width, elem⟩ := etyWidth_of_defined defined
  rw [Ins.width, width]
  exact ⟨rfl, elem⟩

/-- A conversion gives each element what its source element converts to, or zero without one, and the flags of the active
elements (07 R148). -/
theorem convert_spec {W : Nat} (elem : elemWidth W) (m : Dword) {source : Nat → Option Nat} {f g : Nat → Nat × FlagSet}
    (converted : ∀ j, (source j).elim (0, fNone) f = g j) :
    (convert W m source f).flags = orFlags (((List.range (count W)).filter (active m W)).map g) ∧
      ByElement W (count W) (active m W) (fun j => (g j).1) (convert W m source f) := by
  have elements : convert W m source f = byElement W (count W) m g :=
    congrArg (byElement W (count W) m) (funext fun j => by rw [← converted]; cases source j <;> rfl)
  rw [elements]
  exact ⟨byElement_flags, byElement_spec (stdWidth_pos elem) (elemWidth_fits elem)⟩

/-! ### `cvt` -/

/-- The source element that the widths and the group index choose for destination element `j` (07 R148). -/
def cvtSource (Ws Wd group j : Nat) : Option Nat :=
  if Ws = 64 ∨ Wd = 64 then (if j = 0 then some 0 else none)
  else if Ws < Wd then some (group * (512 / Wd) + j)
  else if group * (512 / Ws) ≤ j ∧ j < group * (512 / Ws) + 512 / Ws then some (j - group * (512 / Ws)) else none

/-- Whatever the widths, `cvt` is one conversion. -/
theorem fpCvt_eq_convert (p : Opnds) :
    let Ws := (etyWidth (p.srcB % 32)).getD 8
    let Wd := (etyWidth p.ty).getD 8
    fpCvt p = convert Wd p.mask (cvtSource Ws Wd p.stkB) fun k => convElem (p.srcB % 32) Ws p.ty Wd p.rm (getE Ws p.a k) := by
  intro Ws Wd
  simp only [fpCvt]
  split
  next scalar => exact congrArg (convert Wd p.mask · _) (funext fun j => (if_pos scalar).symm)
  next vector =>
    split
    next widens => exact congrArg (convert Wd p.mask · _) (funext fun j => ((if_neg vector).trans (if_pos widens)).symm)
    next narrows => exact congrArg (convert Wd p.mask · _) (funext fun j => ((if_neg vector).trans (if_neg narrows)).symm)

/-- What a function gives of the chosen source element, or zero where none is chosen. -/
theorem cvtSource_elim (Ws Wd group j : Nat) (conv : Nat → Nat × FlagSet) : (cvtSource Ws Wd group j).elim (0, fNone) conv =
    if Ws = 64 ∨ Wd = 64 then (if j = 0 then conv 0 else (0, fNone))
    else if Ws < Wd then conv (group * (512 / Wd) + j)
    else if group * (512 / Ws) ≤ j ∧ j < group * (512 / Ws) + 512 / Ws then conv (j - group * (512 / Ws))
    else (0, fNone) := by
  simp only [cvtSource, apply_ite (fun x : Option Nat => x.elim (0, fNone) conv), Option.elim_some, Option.elim_none]

theorem floatElements_cvt (s : State) (f : FX) (defined : f.ety.toNat < 18) :
    FloatElements s (f.ins 0x67) (execVal (f.ins 0x67) fpCvt s) fun i o j =>
      let src := i.ins.srcB % 32
      let ws := (etyWidth src).getD 8
      let conv := fun k => convElem src ws i.ins.ty i.ins.width i.ins.rm (getE ws o.a.bits k)
      if ws = 64 ∨ i.ins.width = 64 then (if j = 0 then conv 0 else (0, fNone))
      else if ws < i.ins.width then conv (i.ins.stkB * (512 / i.ins.width) + j)
      else if i.ins.stkB * (512 / ws) ≤ j ∧ j < i.ins.stkB * (512 / ws) + 512 / ws then conv (j - i.ins.stkB * (512 / ws))
      else (0, fNone) := by
  intro i o ready elem
  obtain ⟨width, -⟩ := width_of_defined (i := i) (by rwa [ins_ty_of_ready ready])
  have cvt := fpCvt_eq_convert (i.opnds o)
  simp only [opnds_ty, width] at cvt
  refine ⟨fpCvt (i.opnds o), execVal_ready ready _, ?_, ?_⟩
  · rw [cvt]
    rfl
  · rw [cvt]
    exact convert_spec elem _ fun j => cvtSource_elim _ _ _ _ _

/-! ### `cvts` -/

/-- `cvts` rounds with the payload of the head of the port that its operand B names, and needs a RAND token there (07 R151). -/
theorem execCvts_ready {f : FX} (ready : Ready s (f.ins 0x68) i o) :
    execCvts f s = .next (s.results i o (fpCvts (i.g.firing.any fun x => (x.entry (Ins.srcCode i.ins.srcB - 72) 0).kind == kRAND)
      (i.opnds o))) := by
  rw [execCvts, issue_ready ready]
  cases i.g.firing <;> rfl

/-- The elements of `cvts`, and its flags (07 R150, R151). -/
theorem fpCvts_spec (rand : Bool) (defined : i.ins.ty < 18) :
    let src := cvtsSource i.ins.rm
    let g := fun k => if k < 512 / src.w then i.fmt.stochastic src (getE src.w o.a.bits k) (getE src.w o.b.bits k) else (0, fNone)
    (fpCvts rand (i.opnds o)).flags =
        orFlags (((List.range (count i.ins.width)).filter (o.act i)).map g) ||| flagIf (!rand) fNV ∧
      ByElement i.ins.width (count i.ins.width) (o.act i) (fun j => (g j).1) (fpCvts rand (i.opnds o)) := by
  intro src g
  obtain ⟨width, elem⟩ := width_of_defined defined
  have chosen : ∀ j, (if j < 512 / src.w then some j else none : Option Nat).elim (0, fNone)
      (fun k => i.fmt.stochastic src (getE src.w o.a.bits k) (getE src.w o.b.bits k)) = g j := fun j => by
    by_cases lt : j < 512 / src.w
    · simp only [g, if_pos lt, Option.elim_some]
    · simp only [g, if_neg lt, Option.elim_none]
  obtain ⟨flags, elements⟩ := convert_spec elem o.mask chosen
  simp only [fpCvts, opnds_ty, width]
  exact ⟨congrArg (· ||| flagIf (!rand) fNV) flags, elements⟩

/-- Settles O32: `cvt` and `cvts` are conversions of chosen elements, and `cbdec` decodes element by element. -/
theorem conversions : Obligations.Conversions := by
  unfold Obligations.Conversions
  refine fun s => ⟨fun f => floatElements_cvt s f, fun f defined i o ready => ?cvts, fun f => ?cbdec⟩
  case cvts =>
    have rm : i.ins.rm = f.rm.toNat := by rw [ready_ins ready]; rfl
    obtain ⟨flags, elements⟩ := fpCvts_spec (i := i) (o := o)
      (i.g.firing.any fun x => (x.entry (Ins.srcCode i.ins.srcB - 72) 0).kind == kRAND) (by rwa [ins_ty_of_ready ready])
    rw [rm] at flags elements
    exact ⟨_, execCvts_ready ready, rfl, flags, elements⟩
  case cbdec => exact floatElements_of_elements s (f.ins 0x6A) (f := fpCbdec) fun _ => rfl

end Sys2Proof.Machine
end

section
/-! PROOF. The dot product `fdot`, and `fsum2`, which sends a sum and its error. Settles O33. -/
namespace Sys2Proof.Machine

/-- `fdot` rounds the exact sum of the active products and the accumulator once, and `pmask` does not govern its scalar (07 R146). -/
theorem fpDot_spec (i : Issue) (o : Operands) :
    let prods := ((List.range (512 / i.ins.width)).filter (o.act i)).map fun j => (o.vx i j).mul (o.vy i j)
    let c := fmtF32.value (o.c.bits.toNat % 2 ^ 32)
    let r := fpDot (i.opnds o)
    r.out = scal (fmtF32.ofVal i.ins.rm (sumVals i.ins.rm (prods.map Prod.fst ++ [c])).1).1 ∧ r.out1 = r.out ∧ r.keep = 0 := by
  refine ⟨?_, rfl, rfl⟩
  simp only [fpDot, List.map_map]
  rfl

/-- `fsum2` sends the rounded sum and its error element by element, with the flags of the sum alone (07 R145). -/
theorem fpSum2_spec (i : Issue) (o : Operands) (width : stdWidth i.ins.width) :
    let sum := fun j => i.fmt.addF 0 (o.vx i j) (o.vy i j)
    let r := fpSum2 (i.opnds o)
    r.flags = orFlags (((List.range (count i.ins.width)).filter (o.act i)).map sum) ∧
      ByElement i.ins.width (count i.ins.width) (o.act i) (fun j => (sum j).1) r ∧
      ByElement i.ins.width (count i.ins.width) (o.act i) (fun j => (sum2 i.fmt (o.vx i j) (o.vy i j)).2.1)
        ⟨r.out1, r.out1, r.keep, r.flags⟩ :=
  ⟨byElement_flags, byElement_spec (stdWidth_pos (.inr width)) (elemWidth_fits (.inr width)), byElement_pure width _⟩

/-- Settles O33: `fdot` is one rounding of one exact sum, and the two results of `fsum2` are made element by element. -/
theorem dotAndTwoSum : Obligations.DotAndTwoSum := fun _ =>
  ⟨⟨fun _ i o ready => ⟨_, execVal_ready ready _, fpDot_spec i o⟩,
      fun _ i o ready => ⟨_, execVal_ready ready _, fpDot_spec i o⟩⟩,
    ⟨fun _ i o ready width => ⟨_, execVal_ready ready _, fpSum2_spec i o width⟩,
      fun _ i o ready width => ⟨_, execVal_ready ready _, fpSum2_spec i o width⟩⟩⟩

end Sys2Proof.Machine
end

section
/-! PROOF. The maps from an op and its fields to an instruction, and the words of the four formats, taken apart and put together again.
Settles O1, O2, O3 and O4. -/
namespace Sys2Proof

/-! ### From an op and its fields to an instruction -/

theorem row_of_fits {r : FXRow} {f : FX} {i : Instr} (fits : r.fits f = true) : row r f i = some i := if_pos fits

/-- The first of several rows of one op. -/
theorem row_orElse_of_fits {r : FXRow} {f : FX} {i : Instr} {o : Option Instr} (fits : r.fits f = true) : (row r f i <|> o) = some i := by
  rw [row_of_fits fits]; rfl

/-- A later row of one op: its `rm` code keeps the earlier row away. -/
theorem row_orElse_of_other {a b c d : Bool} {m n : BitVec 2} {f : FX} {i : Instr} {o : Option Instr} (ne : m ≠ n)
    (fits : (⟨a, b, some n⟩ : FXRow).fits f = true) : (row ⟨c, d, some m⟩ f i <|> o) = o := by
  simp only [FXRow.fits, Bool.and_eq_true, beq_iff_eq] at fits
  have misfit : (⟨c, d, some m⟩ : FXRow).fits f = false := by simp [FXRow.fits, fits.2, ne.symm]
  rw [row, misfit]; rfl

/-- The maps from an op and its fields give the instruction back. -/
def Instr.Mapped (i : Instr) : Prop :=
  match i.enc with
  | .f0 op f => op < 256 ∧ isFI op = false ∧ mkF0 op f = some i
  | .fi op f => op < 256 ∧ isFI op = true ∧ mkFI op f = some i
  | .fx op r f => op < 256 ∧ (r.fits f = true → mkFX op f = some i)
  | .event => True

theorem mapped (i : Instr) : i.Mapped := by
  cases i
  case qstat | eof | mldL | genk | ufsnap | imgsv | rfreeFree | wstatQ | ecntRd => exact ⟨by decide, row_orElse_of_fits⟩
  case qstatClr | eofEnd | mldA | genkFlush | ufsnapClose | imgsvDrop | rfreeKill =>
    exact ⟨by decide, fun fits => (row_orElse_of_other (by decide) fits).trans (row_of_fits fits)⟩
  case wstatResume | ecntSel =>
    exact ⟨by decide, fun fits => (row_orElse_of_other (by decide) fits).trans (row_orElse_of_fits fits)⟩
  case wstatAbort | ecntClr =>
    exact ⟨by decide, fun fits =>
      ((row_orElse_of_other (by decide) fits).trans (row_orElse_of_other (by decide) fits)).trans (row_of_fits fits)⟩
  all_goals
    first
    | exact ⟨by decide, rfl, rfl⟩
    | exact ⟨by decide, row_of_fits⟩
    | exact trivial

theorem enc_of_mkF0 {op : Nat} {f : F0} {i : Instr} (h : mkF0 op f = some i) : i.enc = .f0 op f := by
  unfold mkF0 at h
  split at h <;> cases h <;> rfl

theorem enc_of_mkFI {op : Nat} {f : FI} {i : Instr} (h : mkFI op f = some i) : i.enc = .fi op f := by
  unfold mkFI at h
  split at h <;> cases h <;> rfl

/-- Whatever `o` holds is a form of `op` with the fields `f`, which fit its row. -/
def Reads (op : Nat) (f : FX) (o : Option Instr) : Prop := ∀ i, o = some i → ∃ r, i.enc = .fx op r f ∧ r.fits f = true

theorem reads_none (op : Nat) (f : FX) : Reads op f none := fun _ h => nomatch h

theorem reads_row {op : Nat} {r : FXRow} {f : FX} {i : Instr} (h : i.enc = .fx op r f) : Reads op f (row r f i) := by
  intro j found
  obtain ⟨fits, ⟨⟩⟩ := Option.ite_none_right_eq_some.mp found
  exact ⟨r, h, fits⟩

theorem reads_orElse {op : Nat} {f : FX} {x y : Option Instr} (hx : Reads op f x) (hy : Reads op f y) : Reads op f (x <|> y) := by
  cases x with
  | none => exact hy
  | some j => exact hx

/-- Each op has no row, one row, or two or three that `rm` tells apart. -/
theorem reads_mkFX {op : Nat} (lt : op < 256) (f : FX) : Reads op f (mkFX op f) := by
  interval_cases op
  all_goals
    first
    | exact reads_none _ _
    | exact reads_row rfl
    | exact reads_orElse (reads_row rfl) (reads_row rfl)
    | exact reads_orElse (reads_row rfl) (reads_orElse (reads_row rfl) (reads_row rfl))

/-! ### The fields of a word (05 R79 to R82) -/

theorem word_eq_fields (w : Word) :
    field w 30 2 ++ field w 21 9 ++ field w 12 9 ++ field w 10 2 ++ field w 2 8 ++ field w 0 2 = w := by
  ext j hj
  simp only [field, BitVec.getElem_append, BitVec.getElem_extractLsb']
  grind

theorem word_eq_fields_fi (w : Word) : field w 21 11 ++ field w 12 9 ++ field w 10 2 ++ field w 2 8 ++ field w 0 2 = w := by
  ext j hj
  simp only [field, BitVec.getElem_append, BitVec.getElem_extractLsb']
  grind

theorem word1_eq_fields (w : Word) :
    field w 27 5 ++ field w 24 3 ++ field w 20 4 ++ field w 16 4 ++ field w 8 8 ++ field w 0 8 = w := by
  ext j hj
  simp only [field, BitVec.getElem_append, BitVec.getElem_extractLsb']
  grind

theorem fields_word (a : BitVec 2) (b c : BitVec 9) (p : BitVec 2) (o : BitVec 8) (t : BitVec 2) :
    let w : Word := a ++ b ++ c ++ p ++ o ++ t
    field w 30 2 = a ∧ field w 21 9 = b ∧ field w 12 9 = c ∧ field w 10 2 = p ∧ field w 2 8 = o ∧ field w 0 2 = t := by
  refine ⟨?_, ?_, ?_, ?_, ?_, ?_⟩ <;>
  · ext j hj
    simp only [field, BitVec.getElem_extractLsb', BitVec.getLsbD_append]
    grind

theorem fields_word_fi (a : BitVec 11) (c : BitVec 9) (p : BitVec 2) (o : BitVec 8) (t : BitVec 2) :
    let w : Word := a ++ c ++ p ++ o ++ t
    field w 21 11 = a ∧ field w 12 9 = c ∧ field w 10 2 = p ∧ field w 2 8 = o ∧ field w 0 2 = t := by
  refine ⟨?_, ?_, ?_, ?_, ?_⟩ <;>
  · ext j hj
    simp only [field, BitVec.getElem_extractLsb', BitVec.getLsbD_append]
    grind

theorem fields_word1 (a : BitVec 5) (b : BitVec 3) (c d : BitVec 4) (x y : BitVec 8) :
    let w : Word := a ++ b ++ c ++ d ++ x ++ y
    field w 27 5 = a ∧ field w 24 3 = b ∧ field w 20 4 = c ∧ field w 16 4 = d ∧ field w 8 8 = x ∧ field w 0 8 = y := by
  refine ⟨?_, ?_, ?_, ?_, ?_, ?_⟩ <;>
  · ext j hj
    simp only [field, BitVec.getElem_extractLsb', BitVec.getLsbD_append]
    grind

/-! ### The decoder, format by format -/

/-- What the decoder answers for what a map found. -/
def found (o : Option Instr) (rest : List Word) : Except DecodeError (Instr × List Word) :=
  match o with
  | some i => .ok (i, rest)
  | none => .error .illegalOpcode

/-- The map of the 32-bit format: the op's class says whether the word is FI or F0 (05 R77). -/
noncomputable def mkShort (w : Word) : Option Instr :=
  if isFI (field w 2 8).toNat then mkFI (field w 2 8).toNat (FI.ofWord w) else mkF0 (field w 2 8).toNat (F0.ofWord w)

variable {w w1 l : Word} {rest : List Word}

theorem decode_short (len : field w 0 2 = 0) (pm : field w 10 2 ≠ 3) : decode (w :: rest) = found (mkShort w) rest := by
  simp only [decode, len, pm, if_false, mkShort]
  cases isFI (field w 2 8).toNat <;> rfl

theorem decode_F1 (len : field w 0 2 = 1) (pm : field w 10 2 ≠ 3) :
    decode (w :: w1 :: rest) = found (mkFX (field w 2 8).toNat (FX.ofWords w w1 none)) rest := by
  simp only [decode, len, pm, if_false]
  rfl

theorem decode_F2 (len : field w 0 2 = 2) (pm : field w 10 2 ≠ 3) :
    decode (w :: w1 :: l :: rest) = found (mkFX (field w 2 8).toNat (FX.ofWords w w1 (some l))) rest := by
  simp only [decode, len, pm, if_false]
  rfl

theorem decode_header (len : field w 0 2 = 3) : decode (w :: rest) = .error .misplacedHeader := by
  simp only [decode, len]
  rfl

theorem len_cases (t : BitVec 2) : t = 0 ∨ t = 1 ∨ t = 2 ∨ t = 3 := by
  revert t
  decide

/-- Predicate mode 11 is reserved in every format (05 R91). -/
theorem decode_reserved_pm (len : field w 0 2 ≠ 3) (pm : field w 10 2 = 3) :
    decode (w :: w1 :: l :: rest) = .error .illegalOpcode := by
  obtain h | h | h | h := len_cases (field w 0 2)
  · simp [decode, pm, h]
  · simp [decode, pm, h]
  · simp [decode, pm, h]
  · exact absurd h len

theorem pm_of_decode_ok {x : Instr × List Word} (h : decode (w :: rest) = .ok x) : field w 10 2 ≠ 3 := by
  intro pm
  obtain len | len | len | len := len_cases (field w 0 2)
  · simp [decode, pm, len] at h
  · cases rest <;> simp [decode, pm, len] at h
  · rcases rest with _ | ⟨w1, _ | ⟨l, rest⟩⟩ <;> simp [decode, pm, len] at h
  · simp [decode, len] at h

theorem found_ok {o : Option Instr} {i : Instr} {r : List Word} (h : found o rest = .ok (i, r)) : o = some i ∧ rest = r := by
  cases o with
  | none => cases h
  | some j => cases h; exact ⟨rfl, rfl⟩

/-- What the decoder can have read: one word, two words, or three. -/
theorem decode_ok {ws : List Word} {i : Instr} (h : decode ws = .ok (i, rest)) :
    ∃ w, field w 10 2 ≠ 3 ∧
      ((ws = w :: rest ∧ field w 0 2 = 0 ∧ mkShort w = some i) ∨
       (∃ w1, ws = w :: w1 :: rest ∧ field w 0 2 = 1 ∧ mkFX (field w 2 8).toNat (FX.ofWords w w1 none) = some i) ∨
       ∃ w1 l, ws = w :: w1 :: l :: rest ∧ field w 0 2 = 2 ∧ mkFX (field w 2 8).toNat (FX.ofWords w w1 (some l)) = some i) := by
  rcases ws with _ | ⟨w, ws⟩
  · cases h
  refine ⟨w, pm_of_decode_ok h, ?_⟩
  obtain len | len | len | len := len_cases (field w 0 2)
  · rw [decode_short len (pm_of_decode_ok h)] at h
    obtain ⟨m, rfl⟩ := found_ok h
    exact .inl ⟨rfl, len, m⟩
  · rcases ws with _ | ⟨w1, ws⟩
    · simp [decode, len] at h
    rw [decode_F1 len (pm_of_decode_ok h)] at h
    obtain ⟨m, rfl⟩ := found_ok h
    exact .inr (.inl ⟨w1, rfl, len, m⟩)
  · rcases ws with _ | ⟨w1, _ | ⟨l, ws⟩⟩
    · simp [decode, len] at h
    · simp [decode, len] at h
    rw [decode_F2 len (pm_of_decode_ok h)] at h
    obtain ⟨m, rfl⟩ := found_ok h
    exact .inr (.inr ⟨w1, l, rfl, len, m⟩)
  · rw [decode_header len] at h
    cases h

/-! ### Encoding and decoding -/

theorem ofNat_op_toNat {op : Nat} (lt : op < 256) : (BitVec.ofNat 8 op).toNat = op := Nat.mod_eq_of_lt lt

theorem decode_f0_word {op : Nat} {f : F0} {i : Instr} (lt : op < 256) (isImm : isFI op = false) (m : mkF0 op f = some i)
    (pm : f.pm ≠ 3) : decode (f.toWord op :: rest) = .ok (i, rest) := by
  obtain ⟨hw, ht1, ht0, hpm, hop, len⟩ := fields_word f.w f.t1 f.t0 f.pm (BitVec.ofNat 8 op) 0
  refine (decode_short len (hpm.trans_ne pm)).trans ?_
  simp only [mkShort, F0.ofWord, hw, ht1, ht0, hpm, hop, ofNat_op_toNat lt, isImm, m, found, Bool.false_eq_true, if_false]

theorem decode_fi_word {op : Nat} {f : FI} {i : Instr} (lt : op < 256) (isImm : isFI op = true) (m : mkFI op f = some i)
    (pm : f.pm ≠ 3) : decode (f.toWord op :: rest) = .ok (i, rest) := by
  obtain ⟨himm, ht0, hpm, hop, len⟩ := fields_word_fi f.imm f.t0 f.pm (BitVec.ofNat 8 op) 0
  refine (decode_short len (hpm.trans_ne pm)).trans ?_
  simp only [mkShort, FI.ofWord, himm, ht0, hpm, hop, ofNat_op_toNat lt, isImm, m, found, if_true]

theorem decode_fx_words {op : Nat} {f : FX} {i : Instr} (lt : op < 256) (m : mkFX op f = some i) (pm : f.pm ≠ 3) :
    decode (f.toWords op ++ rest) = .ok (i, rest) := by
  obtain ⟨rm, t1, t0, pm', ety, pmask, stkB, stkA, srcB, srcA, lit⟩ := f
  obtain ⟨hety, hpmask, hstkB, hstkA, hsrcB, hsrcA⟩ := fields_word1 ety pmask stkB stkA srcB srcA
  cases lit with
  | none =>
    obtain ⟨hrm, ht1, ht0, hpm, hop, len⟩ := fields_word rm t1 t0 pm' (BitVec.ofNat 8 op) 1
    refine (decode_F1 len (hpm.trans_ne pm)).trans ?_
    simp only [FX.ofWords, hrm, ht1, ht0, hpm, hop, hety, hpmask, hstkB, hstkA, hsrcB, hsrcA, ofNat_op_toNat lt, m, found,
      List.append_eq, List.nil_append]
  | some l =>
    obtain ⟨hrm, ht1, ht0, hpm, hop, len⟩ := fields_word rm t1 t0 pm' (BitVec.ofNat 8 op) 2
    refine (decode_F2 len (hpm.trans_ne pm)).trans ?_
    simp only [FX.ofWords, hrm, ht1, ht0, hpm, hop, hety, hpmask, hstkB, hstkA, hsrcB, hsrcA, ofNat_op_toNat lt, m, found,
      List.append_eq, List.nil_append]

/-- Settles O1: the words of each format carry its fields, and the maps give the instruction back. -/
theorem decodeEncode : Obligations.DecodeEncode := by
  intro i rest wf instr
  have m := mapped i
  rw [Instr.wf] at wf
  rw [encode]
  rw [Instr.Mapped] at m
  cases e : i.enc with
  | f0 op f =>
    simp only [e, bne_iff_ne] at m wf ⊢
    obtain ⟨lt, isImm, m⟩ := m
    exact decode_f0_word lt isImm m wf
  | fi op f =>
    simp only [e, bne_iff_ne] at m wf ⊢
    obtain ⟨lt, isImm, m⟩ := m
    exact decode_fi_word lt isImm m wf
  | fx op r f =>
    simp only [e, bne_iff_ne, Bool.and_eq_true] at m wf ⊢
    obtain ⟨lt, m⟩ := m
    exact decode_fx_words lt (m wf.2) wf.1
  | event => exact absurd e instr

theorem ofNat_field_toNat (w : Word) (lo n : Nat) : BitVec.ofNat n (field w lo n).toNat = field w lo n :=
  (BitVec.ofNat_toNat _ _).trans (BitVec.setWidth_eq _)

theorem toWord_ofWord_f0 (len : field w 0 2 = 0) : (F0.ofWord w).toWord (field w 2 8).toNat = w := by
  refine Eq.trans ?_ (word_eq_fields w)
  rw [F0.toWord, F0.ofWord, len, ofNat_field_toNat]
  rfl

theorem toWord_ofWord_fi (len : field w 0 2 = 0) : (FI.ofWord w).toWord (field w 2 8).toNat = w := by
  refine Eq.trans ?_ (word_eq_fields_fi w)
  rw [FI.toWord, FI.ofWord, len, ofNat_field_toNat]
  rfl

theorem toWords_ofWords (lit : Option Word) (len : field w 0 2 = if lit.isSome then 2 else 1) :
    (FX.ofWords w w1 lit).toWords (field w 2 8).toNat = w :: w1 :: lit.toList := by
  have e := word_eq_fields w
  rw [len] at e
  cases lit with
  | none => simpa [FX.toWords, FX.ofWords, word1_eq_fields] using e
  | some l => simpa [FX.toWords, FX.ofWords, word1_eq_fields] using e

/-- An F1 or F2 instruction that the map found has the words that its fields were read from. -/
theorem encode_of_mkFX {i : Instr} (lit : Option Word) (len : field w 0 2 = if lit.isSome then 2 else 1) (pm : field w 10 2 ≠ 3)
    (m : mkFX (field w 2 8).toNat (FX.ofWords w w1 lit) = some i) :
    w :: w1 :: lit.toList = encode i ∧ i.wf = true ∧ i.enc ≠ .event := by
  obtain ⟨r, e, fits⟩ := reads_mkFX (field w 2 8).isLt _ i m
  refine ⟨?_, ?_, e ▸ nofun⟩
  · rw [encode, e]
    exact (toWords_ofWords lit len).symm
  · rw [Instr.wf, e]
    exact Bool.and_eq_true_iff.mpr ⟨bne_iff_ne.mpr pm, fits⟩

theorem encode_of_mkShort {i : Instr} (len : field w 0 2 = 0) (pm : field w 10 2 ≠ 3) (m : mkShort w = some i) :
    [w] = encode i ∧ i.wf = true ∧ i.enc ≠ .event := by
  rw [mkShort] at m
  split at m
  · have e := enc_of_mkFI m
    refine ⟨?_, ?_, e ▸ nofun⟩
    · rw [encode, e]
      exact congrArg (fun w => [w]) (toWord_ofWord_fi len).symm
    · rw [Instr.wf, e]
      exact bne_iff_ne.mpr pm
  · have e := enc_of_mkF0 m
    refine ⟨?_, ?_, e ▸ nofun⟩
    · rw [encode, e]
      exact congrArg (fun w => [w]) (toWord_ofWord_f0 len).symm
    · rw [Instr.wf, e]
      exact bne_iff_ne.mpr pm

/-- Settles O2: what a map found has the fields that were read, and a word is its fields. -/
theorem encodeDecode : Obligations.EncodeDecode := by
  intro ws rest i h
  obtain ⟨w, pm, ⟨rfl, len, m⟩ | ⟨w1, rfl, len, m⟩ | ⟨w1, l, rfl, len, m⟩⟩ := decode_ok h
  · obtain ⟨words, wf⟩ := encode_of_mkShort len pm m
    exact ⟨congrArg (· ++ rest) words, wf⟩
  · obtain ⟨words, wf⟩ := encode_of_mkFX none len pm m
    exact ⟨congrArg (· ++ rest) words, wf⟩
  · obtain ⟨words, wf⟩ := encode_of_mkFX (some l) len pm m
    exact ⟨congrArg (· ++ rest) words, wf⟩

/-- Settles O3: the decoder reads each of the six. -/
theorem specWords : Obligations.SpecWords := ⟨rfl, rfl, rfl, rfl, rfl, rfl⟩

/-! ### The opcode map (05 R97) -/

/-- The formats of each op as the opcode map gives them: 1 for the 32-bit format, 2 for F1 and 4 for F2, summed. -/
def opFormats : List Nat :=
  [0, 7, 7, 5, 7, 7, 7, 7, 7, 7, 7, 7, 3, 3, 7, 7] ++
  [7, 7, 7, 7, 7, 7, 7, 7, 7, 7, 7, 7, 7, 7, 7, 5] ++
  [5, 5, 3, 3, 3, 3, 3, 7, 7, 7, 1, 4, 2, 2, 3, 0] ++
  [7, 7, 7, 7, 7, 7, 5, 5, 7, 7, 7, 7, 3, 3, 3, 3] ++
  [7, 7, 7, 7, 7, 7, 7, 7, 7, 3, 3, 3, 3, 3, 1, 7] ++
  [7, 7, 7, 7, 7, 7, 7, 7, 3, 3, 7, 7, 7, 7, 3, 3] ++
  [3, 7, 7, 3, 3, 3, 7, 2, 2, 7, 2, 7, 7, 7, 7, 0] ++
  [4, 2, 4, 1, 1, 5, 1, 1, 2, 1, 1, 3, 1, 1, 0, 0] ++
  [3, 2, 2, 2, 2, 2, 2, 6, 6, 6, 3, 6, 3, 0, 0, 0] ++
  [6, 6, 6, 6, 6, 6, 6, 6, 6, 1, 1, 6, 6, 6, 6, 6] ++
  [6, 6, 6, 6, 6, 6, 6, 6, 6, 6, 6, 6, 6, 6, 0, 0] ++
  [6, 6, 6, 6, 6, 6, 3, 6, 4, 4, 4, 6, 0, 0, 0, 0] ++
  [6, 6, 6, 6, 6, 6, 6, 6, 6, 6, 6, 6, 6, 0, 0, 0] ++
  [6, 6, 3, 6, 6, 1, 6, 6, 6, 6, 6, 6, 6, 3, 6, 1] ++
  [0, 0, 0, 0, 0, 0, 0, 0, 0, 0, 0, 0, 0, 0, 0, 0] ++
  [0, 0, 0, 0, 0, 0, 0, 0, 0, 0, 0, 0, 0, 0, 0, 0]

theorem short_isSome {op : Nat} (lt : op < 256) (f : F0) (g : FI) :
    (if isFI op then mkFI op g else mkF0 op f).isSome = (opFormats.getD op 0).testBit 0 := by
  interval_cases op <;> rfl

/-- The bit of F1, or of F2 with its literal. -/
def formBit : Option Word → Nat
  | none => 1
  | some _ => 2

theorem mkFX_eq_none {op : Nat} (lt : op < 256) {f : FX} (clear : (opFormats.getD op 0).testBit (formBit f.lit) = false) :
    mkFX op f = none := by
  have here : ((opFormats.getD op 0).testBit (formBit f.lit) || (mkFX op f).isNone) = true := by
    clear clear
    obtain ⟨rm, t1, t0, pm, ety, pmask, stkB, stkA, srcB, srcA, _ | l⟩ := f <;> rw [formBit] <;> interval_cases op <;> rfl
  simpa only [clear, Bool.false_or, Option.isNone_iff_eq_none] using here

theorem mkFX_isSome {op : Nat} (lt : op < 256) {f : FX} (set : (opFormats.getD op 0).testBit (formBit f.lit) = true) (rm0 : f.rm = 0) :
    (mkFX op f).isSome := by
  have here : (!(opFormats.getD op 0).testBit (formBit f.lit) || (mkFX op f).isSome) = true := by
    clear set
    obtain ⟨rm, t1, t0, pm, ety, pmask, stkB, stkA, srcB, srcA, lit⟩ := f
    cases rm0
    cases lit <;> rw [formBit] <;> interval_cases op <;> rfl
  simpa only [set, Bool.not_true, Bool.false_or] using here

theorem found_none {o : Option Instr} (h : o = none) : found o rest = .error .illegalOpcode := by rw [h]; rfl

theorem found_some {o : Option Instr} (h : o.isSome) : ∃ i, found o rest = .ok (i, rest) := by
  obtain ⟨i, rfl⟩ := Option.isSome_iff_exists.mp h
  exact ⟨i, rfl⟩

/-- The three formats answer what a map found, and it found something where the table has the format's bit. -/
theorem decode_by_map (w w1 l : Word) (rest : List Word) (len : field w 0 2 ≠ 3) (pm : field w 10 2 ≠ 3) :
    let n := (field w 0 2).toNat
    let bit := (opFormats.getD (field w 2 8).toNat 0).testBit n
    ∃ m, decode (w :: w1 :: l :: rest) = found m ((w1 :: l :: rest).drop n) ∧ (bit = false → m = none) ∧
      (bit = true → n = 0 ∨ field w 30 2 = 0 → m.isSome) := by
  have lt : (field w 2 8).toNat < 256 := (field w 2 8).isLt
  obtain n0 | n1 | n2 | n3 := len_cases (field w 0 2)
  · refine ⟨mkShort w, ?_⟩
    have here := short_isSome lt (F0.ofWord w) (FI.ofWord w)
    simp only [n0]
    refine ⟨decode_short n0 pm, fun clear => ?_, fun set _ => ?_⟩
    · exact Option.isNone_iff_eq_none.mp (Option.isSome_eq_false_iff.mp (here.trans clear))
    · exact here.trans set
  · refine ⟨mkFX (field w 2 8).toNat (FX.ofWords w w1 none), ?_⟩
    simp only [n1]
    refine ⟨decode_F1 n1 pm, mkFX_eq_none (f := FX.ofWords w w1 none) lt, fun set rm => ?_⟩
    exact mkFX_isSome (f := FX.ofWords w w1 none) lt set (rm.resolve_left (by decide))
  · refine ⟨mkFX (field w 2 8).toNat (FX.ofWords w w1 (some l)), ?_⟩
    simp only [n2]
    refine ⟨decode_F2 n2 pm, mkFX_eq_none (f := FX.ofWords w w1 (some l)) lt, fun set rm => ?_⟩
    exact mkFX_isSome (f := FX.ofWords w w1 (some l)) lt set (rm.resolve_left (by decide))
  · exact absurd n3 len

/-- Settles O4: each map is defined exactly at the ops of which the table has the format's bit. -/
theorem opcodeMap : Obligations.OpcodeMap := by
  unfold Obligations.OpcodeMap
  intro formats w w1 l rest len takes
  refine ⟨fun h => ?_, fun lt refused => ?_, fun lt pm rm taken => ?_⟩
  · exact decode_header (BitVec.eq_of_toNat_eq h)
  · have len3 : field w 0 2 ≠ 3 := fun h => by simp [len, h] at lt
    by_cases pm : field w 10 2 = 3
    · exact decode_reserved_pm len3 pm
    · obtain ⟨m, answer, none_, -⟩ := decode_by_map w w1 l rest len3 pm
      exact answer.trans (found_none (none_ (refused.resolve_left pm)))
  · have len3 : field w 0 2 ≠ 3 := fun h => by simp [len, h] at lt
    obtain ⟨m, answer, -, some_⟩ := decode_by_map w w1 l rest len3 pm
    obtain ⟨i, e⟩ := found_some (some_ taken rm)
    exact ⟨i, answer.trans e⟩

end Sys2Proof
end

section
/-! PROOF. The checks of the block halfdiff, which the model computes. Settles O5. -/
namespace Sys2Proof

/-- Settles O5: each change meets the first check, in the order of 05 R99, that it fails. -/
theorem blockChecks : Obligations.BlockChecks :=
  ⟨rfl, ⟨_, rfl⟩, rfl, rfl, rfl, rfl, rfl, rfl, rfl, rfl⟩

end Sys2Proof
end

section
/-! PROOF. Exact integers narrowed to a width, and integer arithmetic element by element. Settles O18. -/
namespace Sys2Proof.Machine

/-- A value instruction made with `pure` computes the elements that the statement gives, where these agree modulo the width. -/
theorem elements_of_pure_congr (s : State) (ins : Ins) {f : Opnds → Res} {g : Opnds → Nat → Nat}
    {h : Issue → Operands → Nat → Nat} (pure_ : ∀ o, f o = o.pure (g o))
    (same : ∀ i o j, stdWidth i.ins.width → g (i.opnds o) j % 2 ^ i.ins.width = h i o j % 2 ^ i.ins.width) :
    Elements s ins (execVal ins f s) h :=
  Elements.congr (fun i o j _ w => same i o j w) (elements_of_pure s ins pure_)

/-! ### `wrap` and `sint` -/

section
variable {W x y : Nat}

theorem wrap_lt (W : Nat) (i : Int) : wrap W i < 2 ^ W := by
  have := Int.emod_lt_of_pos i (Int.natCast_pos.mpr (Nat.two_pow_pos W))
  unfold wrap
  omega

theorem wrap_cast (W : Nat) (i : Int) : (wrap W i : Int) = i % (2 ^ W : Nat) :=
  Int.toNat_of_nonneg (Int.emod_nonneg _ (by exact_mod_cast (Nat.two_pow_pos W).ne'))

theorem wrap_natCast (W n : Nat) : wrap W n = n % 2 ^ W := by
  unfold wrap
  omega

/-- Numbers that differ by a multiple of the modulus wrap alike. -/
theorem wrap_add_mul (W : Nat) (i k : Int) : wrap W (i + (2 ^ W : Nat) * k) = wrap W i := by
  unfold wrap
  rw [Int.add_mul_emod_self_left]

theorem wrap_sub (le : y ≤ 2 ^ W) : wrap W ((x : Int) - y) = (x + (2 ^ W - y)) % 2 ^ W := by
  have e : ((x + (2 ^ W - y) : Nat) : Int) = (x : Int) - y + (2 ^ W : Nat) * 1 := by push_cast [le]; ring
  rw [← wrap_natCast, e, wrap_add_mul]

theorem wrap_add_wrap (W x : Nat) (i : Int) : (x + wrap W i) % 2 ^ W = wrap W (x + i) := by
  rw [← wrap_natCast]
  unfold wrap
  push_cast
  rw [Int.toNat_of_nonneg (Int.emod_nonneg _ (by positivity)), Int.add_emod_emod]

/-- An integer is its remainder and a multiple of the modulus. -/
theorem wrap_add_ediv (W : Nat) (i : Int) : i = (wrap W i : Int) + (2 ^ W : Nat) * (i / (2 ^ W : Nat)) := by
  rw [wrap_cast, Int.emod_add_mul_ediv]

/-- The high half of a product. -/
theorem wrap_ediv (W : Nat) (p : Int) : wrap W (p / (2 ^ W : Nat)) = wrap (2 * W) p / 2 ^ W := by
  have lt : wrap (2 * W) p / 2 ^ W < 2 ^ W := Nat.div_lt_of_lt_mul (by rw [← Nat.pow_add, ← Nat.two_mul]; exact wrap_lt _ _)
  have whole : p / (2 ^ W : Nat) = ((wrap (2 * W) p / 2 ^ W : Nat) : Int) + (2 ^ W : Nat) * (p / (2 ^ (2 * W) : Nat)) := by
    conv_lhs => rw [wrap_add_ediv (2 * W) p, Nat.two_mul, Nat.pow_add, Nat.cast_mul, Int.mul_assoc, ← Nat.two_mul]
    rw [Int.add_mul_ediv_left _ _ (by positivity), Int.natCast_ediv, Nat.two_mul, Nat.pow_add, Nat.cast_mul]
  rw [whole, wrap_add_mul, wrap_natCast, Nat.mod_eq_of_lt lt]

theorem sint_of_lt (lt : x < 2 ^ (W - 1)) : sint W x = x := if_pos lt

theorem sint_of_not_lt (ge : ¬ x < 2 ^ (W - 1)) : sint W x = (x : Int) - (2 ^ W : Nat) := if_neg ge

theorem natAbs_sint (lt : x < 2 ^ W) : (sint W x).natAbs = if x < 2 ^ (W - 1) then x else 2 ^ W - x := by
  split
  next low => rw [sint_of_lt low, Int.natAbs_natCast]
  next high => rw [sint_of_not_lt high]; omega

/-! ### Saturation (04 R59) -/

theorem two_pow_pred (pos : 0 < W) : 2 ^ W = 2 * 2 ^ (W - 1) := by
  rw [← Nat.pow_succ', Nat.succ_eq_add_one, Nat.sub_add_cancel pos]

theorem satS_eq_wrap (pos : 0 < W) (i : Int) :
    satS W i = wrap W (max (-(2 ^ (W - 1) : Nat)) (min ((2 ^ (W - 1) : Nat) - 1) i)) := by
  have half := two_pow_pred pos
  have hp := Nat.two_pow_pos (W - 1)
  unfold satS
  generalize 2 ^ (W - 1) = h at half hp
  split
  next low =>
    have least : wrap W (0 - (h : Int)) = h := by
      have := wrap_sub (W := W) (x := 0) (y := h) (by omega)
      rw [Nat.zero_add, Nat.mod_eq_of_lt (by omega)] at this
      exact this.trans (by omega)
    rw [max_eq_left (by omega), ← Int.zero_sub, least]
  next =>
    split
    next high =>
      have greatest : wrap W (h - 1 : Nat) = h - 1 := (wrap_natCast W _).trans (Nat.mod_eq_of_lt (by omega))
      rw [Nat.cast_sub hp, Nat.cast_one] at greatest
      rw [min_eq_left (by omega), max_eq_right (by omega), greatest]
    next => rw [min_eq_right (by omega), max_eq_right (by omega)]

theorem satU_add : satU W ((x : Int) + y) = min (x + y) (2 ^ W - 1) := by
  have := Nat.two_pow_pos W
  unfold satU
  split_ifs <;> omega

theorem satU_sub (lt : x < 2 ^ W) : satU W ((x : Int) - y) = x - y := by
  unfold satU
  split_ifs <;> omega

end

/-! ### Integer arithmetic (06 R109 to R112) -/

theorem two_pow_addshScale (rm : Nat) : 2 ^ addshScale rm = [8, 2, 4].getD rm 64 := by
  rcases rm with _ | _ | _ | rm <;> rfl

theorem x_lt (i : Issue) (o : Operands) (j : Nat) : o.x i j < 2 ^ i.ins.width := getE_lt _ _ _

theorem y_lt (i : Issue) (o : Operands) (j : Nat) : o.y i j < 2 ^ i.ins.width := getE_lt _ _ _

section
variable (s : State) (ins : Ins)

theorem elements_intSub : Elements s ins (execVal ins intSub s) fun i o j =>
    (o.x i j + (2 ^ i.ins.width - o.y i j)) % 2 ^ i.ins.width :=
  elements_of_pure_congr s ins (fun _ => rfl) fun i o j _ => congrArg (· % _) (wrap_sub (y_lt i o j).le)

theorem elements_intAddi : Elements s ins (execVal ins intAddi s) fun i o j =>
    wrap i.ins.width (o.x i j + i.ins.immediate) :=
  elements_of_pure_congr s ins (fun _ => rfl) fun _ _ _ _ => congrArg (· % _) (wrap_add_wrap ..)

theorem elements_intMulh : Elements s ins (execVal ins intMulh s) fun i o j =>
    wrap (2 * i.ins.width) (sint i.ins.width (o.x i j) * sint i.ins.width (o.y i j)) / 2 ^ i.ins.width :=
  elements_of_pure_congr s ins (fun _ => rfl) fun _ _ _ _ => congrArg (· % _) (wrap_ediv ..)

theorem elements_intNeg : Elements s ins (execVal ins intNeg s) fun i o j => (2 ^ i.ins.width - o.x i j) % 2 ^ i.ins.width :=
  elements_of_pure_congr s ins (fun _ => rfl) fun i o j _ => congrArg (· % _) (by
    have := wrap_sub (x := 0) (x_lt i o j).le
    rwa [Nat.cast_zero, Int.zero_sub, Nat.zero_add] at this)

theorem elements_intAbs : Elements s ins (execVal ins intAbs s) fun i o j =>
    if o.x i j < 2 ^ (i.ins.width - 1) then o.x i j else 2 ^ i.ins.width - o.x i j :=
  elements_of_pure_congr s ins (fun _ => rfl) fun i o j _ =>
    (Nat.mod_mod _ _).trans (congrArg (· % _) (natAbs_sint (x_lt i o j)))

theorem elements_intMin : Elements s ins (execVal ins intMin s) fun i o j =>
    if sint i.ins.width (o.x i j) ≤ sint i.ins.width (o.y i j) then o.x i j else o.y i j :=
  elements_of_pure_congr s ins (fun _ => rfl) fun _ _ _ _ => congrArg (· % _) (by
    simp only [← not_lt, ite_not]
    rfl)

theorem elements_intMax : Elements s ins (execVal ins intMax s) fun i o j =>
    if sint i.ins.width (o.y i j) ≤ sint i.ins.width (o.x i j) then o.x i j else o.y i j :=
  elements_of_pure_congr s ins (fun _ => rfl) fun _ _ _ _ => congrArg (· % _) (by
    simp only [← not_lt, ite_not]
    rfl)

theorem elements_intAdds : Elements s ins (execVal ins intAdds s) fun i o j =>
    wrap i.ins.width (max (-(2 ^ (i.ins.width - 1) : Nat)) (min ((2 ^ (i.ins.width - 1) : Nat) - 1)
      (sint i.ins.width (o.x i j) + sint i.ins.width (o.y i j)))) :=
  elements_of_pure_congr s ins (fun _ => rfl) fun _ _ _ w => congrArg (· % _) (satS_eq_wrap (stdWidth_pos (.inr w)) _)

theorem elements_intSubs : Elements s ins (execVal ins intSubs s) fun i o j =>
    wrap i.ins.width (max (-(2 ^ (i.ins.width - 1) : Nat)) (min ((2 ^ (i.ins.width - 1) : Nat) - 1)
      (sint i.ins.width (o.x i j) - sint i.ins.width (o.y i j)))) :=
  elements_of_pure_congr s ins (fun _ => rfl) fun _ _ _ w => congrArg (· % _) (satS_eq_wrap (stdWidth_pos (.inr w)) _)

theorem elements_intAddsu : Elements s ins (execVal ins intAddsu s) fun i o j =>
    min (o.x i j + o.y i j) (2 ^ i.ins.width - 1) :=
  elements_of_pure_congr s ins (fun _ => rfl) fun _ _ _ _ => congrArg (· % _) satU_add

theorem elements_intSubsu : Elements s ins (execVal ins intSubsu s) fun i o j => o.x i j - o.y i j :=
  elements_of_pure_congr s ins (fun _ => rfl) fun i o j _ => congrArg (· % _) (satU_sub (x_lt i o j))

theorem elements_intMinu : Elements s ins (execVal ins intMinu s) fun i o j => if o.x i j ≤ o.y i j then o.x i j else o.y i j :=
  elements_of_pure_congr s ins (fun _ => rfl) fun _ _ _ _ => congrArg (· % _) (min_def _ _)

theorem elements_intMaxu : Elements s ins (execVal ins intMaxu s) fun i o j => if o.y i j ≤ o.x i j then o.x i j else o.y i j :=
  elements_of_pure_congr s ins (fun _ => rfl) fun _ _ _ _ => congrArg (· % _) ((max_comm _ _).trans (max_def _ _))

theorem elements_intAddsh : Elements s ins (execVal ins intAddsh s) fun i o j =>
    (o.x i j + o.y i j * [8, 2, 4].getD i.ins.rm 64) % 2 ^ i.ins.width :=
  elements_of_pure_congr s ins (fun _ => rfl) fun _ _ _ _ => congrArg (· % _) (by
    rw [← two_pow_addshScale]
    rfl)

end

/-- Settles O18: each form is `pure` of its formula, or of one equal to it. -/
theorem integerArithmetic : Obligations.IntegerArithmetic := fun s =>
  ⟨⟨fun _ => elements_of_pure s _ fun _ => rfl, fun _ => elements_of_pure s _ fun _ => rfl⟩,
    ⟨fun _ => elements_intSub s _, fun _ => elements_intSub s _⟩,
    ⟨fun _ => elements_intAddi s _, fun _ => elements_intAddi s _⟩,
    ⟨fun _ => elements_of_pure s _ fun _ => rfl, fun _ => elements_of_pure s _ fun _ => rfl⟩,
    ⟨fun _ => elements_intMulh s _, fun _ => elements_intMulh s _⟩,
    ⟨fun _ => elements_of_pure s _ fun _ => rfl, fun _ => elements_of_pure s _ fun _ => rfl⟩,
    ⟨fun _ => elements_of_pure s _ fun _ => rfl, fun _ => elements_of_pure s _ fun _ => rfl⟩,
    ⟨fun _ => elements_intNeg s _, fun _ => elements_intNeg s _⟩,
    ⟨fun _ => elements_intAbs s _, fun _ => elements_intAbs s _⟩,
    ⟨fun _ => elements_intMin s _, fun _ => elements_intMin s _⟩,
    ⟨fun _ => elements_intMax s _, fun _ => elements_intMax s _⟩,
    ⟨fun _ => elements_intMinu s _, fun _ => elements_intMinu s _⟩,
    ⟨fun _ => elements_intMaxu s _, fun _ => elements_intMaxu s _⟩,
    ⟨fun _ => elements_intAdds s _, fun _ => elements_intAdds s _⟩,
    ⟨fun _ => elements_intAddsu s _, fun _ => elements_intAddsu s _⟩,
    ⟨fun _ => elements_intSubs s _, fun _ => elements_intSubs s _⟩,
    ⟨fun _ => elements_intSubsu s _, fun _ => elements_intSubsu s _⟩,
    ⟨fun _ => elements_of_pure s _ fun _ => rfl, fun _ => elements_of_pure s _ fun _ => rfl⟩,
    ⟨fun _ => elements_intAddsh s _, fun _ => elements_intAddsh s _⟩⟩

end Sys2Proof.Machine
end

section
/-! PROOF. Logic, shifts and rotation element by element. Settles O20. -/
namespace Sys2Proof.Machine

section
variable {W x t : Nat}

theorem shlElem_eq : shlElem W x t = if t < W then x * 2 ^ t % 2 ^ W else 0 := by
  rw [shlElem, Nat.shiftLeft_eq]

theorem shrElem_eq : shrElem W x t = if t < W then x / 2 ^ t else 0 := by
  rw [shrElem, Nat.shiftRight_eq_div_pow]

/-- Past the width a signed shift leaves only the sign (06 R115). -/
theorem sint_ediv_two_pow (pos : 0 < W) (lt : x < 2 ^ W) :
    sint W x / (2 ^ W : Nat) = if x < 2 ^ (W - 1) then 0 else -1 := by
  have half := two_pow_pred pos
  split
  next low => rw [sint_of_lt low]; exact Int.ediv_eq_zero_of_lt (by omega) (by omega)
  next high =>
    rw [sint_of_not_lt high]
    have : (x : Int) - (2 ^ W : Nat) = x + (2 ^ W : Nat) * (-1) := by ring
    rw [this, Int.add_mul_ediv_left _ _ (by positivity), Int.ediv_eq_zero_of_lt (by omega) (by omega)]
    rfl

theorem wrap_neg_one (W : Nat) : wrap W (-1) = 2 ^ W - 1 := by
  have := wrap_sub (W := W) (x := 0) (y := 1) (Nat.one_le_two_pow)
  have pos := Nat.two_pow_pos W
  rw [Nat.zero_add, Nat.mod_eq_of_lt (by omega)] at this
  exact this

theorem sarElem_eq (pos : 0 < W) (lt : x < 2 ^ W) : sarElem W x t =
    if t < W then wrap W (sint W x / (2 ^ t : Nat)) else if x < 2 ^ (W - 1) then 0 else 2 ^ W - 1 := by
  unfold sarElem
  split
  next within => rw [min_eq_left within.le]
  next past =>
    rw [min_eq_right (not_lt.mp past), sint_ediv_two_pow pos lt]
    split
    · exact wrap_natCast W 0 |>.trans (Nat.zero_mod _)
    · exact wrap_neg_one W

/-- The two parts of a rotated element have no bit in common. -/
theorem rotlElem_eq (pos : 0 < W) (lt : x < 2 ^ W) :
    rotlElem W x t = x * 2 ^ (t % W) % 2 ^ W + x / 2 ^ (W - t % W) := by
  have kW : t % W < W := Nat.mod_lt _ pos
  unfold rotlElem
  generalize t % W = k at kW
  have split_ : 2 ^ W = 2 ^ k * 2 ^ (W - k) := by rw [← Nat.pow_add]; congr 1; omega
  have low : x >>> (W - k) < 2 ^ k := by
    rw [Nat.shiftRight_eq_div_pow]
    exact Nat.div_lt_of_lt_mul (by rwa [Nat.mul_comm, ← split_])
  dsimp only
  rw [Nat.or_mod_two_pow, Nat.shiftLeft_eq, Nat.mod_eq_of_lt (low.trans_le (Nat.pow_le_pow_right (by omega) kW.le)), split_,
    Nat.mul_comm x, Nat.mul_mod_mul_left, ← Nat.two_pow_add_eq_or_of_lt low, Nat.shiftRight_eq_div_pow]

end

section
variable (s : State) (ins : Ins)

theorem elements_intShl : Elements s ins (execVal ins intShl s) fun i o j =>
    if o.y i j < i.ins.width then o.x i j * 2 ^ (o.y i j) % 2 ^ i.ins.width else 0 :=
  elements_of_pure_congr s ins (fun _ => rfl) fun _ _ _ _ => congrArg (· % _) shlElem_eq

theorem elements_intShr : Elements s ins (execVal ins intShr s) fun i o j =>
    if o.y i j < i.ins.width then o.x i j / 2 ^ (o.y i j) else 0 :=
  elements_of_pure_congr s ins (fun _ => rfl) fun _ _ _ _ => congrArg (· % _) shrElem_eq

theorem elements_intSar : Elements s ins (execVal ins intSar s) fun i o j =>
    if o.y i j < i.ins.width then wrap i.ins.width (sint i.ins.width (o.x i j) / (2 ^ (o.y i j) : Nat))
    else if o.x i j < 2 ^ (i.ins.width - 1) then 0 else 2 ^ i.ins.width - 1 :=
  elements_of_pure_congr s ins (fun _ => rfl) fun i o j w =>
    congrArg (· % _) (sarElem_eq (stdWidth_pos (.inr w)) (x_lt i o j))

theorem elements_intRotl : Elements s ins (execVal ins intRotl s) fun i o j =>
    o.x i j * 2 ^ (o.y i j % i.ins.width) % 2 ^ i.ins.width + o.x i j / 2 ^ (i.ins.width - o.y i j % i.ins.width) :=
  elements_of_pure_congr s ins (fun _ => rfl) fun i o j w =>
    congrArg (· % _) (rotlElem_eq (stdWidth_pos (.inr w)) (x_lt i o j))

theorem elements_intShli : Elements s ins (execVal ins intShli s) fun i o j =>
    if wrap 64 i.ins.immediate < i.ins.width then o.x i j * 2 ^ (wrap 64 i.ins.immediate) % 2 ^ i.ins.width else 0 :=
  elements_of_pure_congr s ins (fun _ => rfl) fun _ _ _ _ => congrArg (· % _) shlElem_eq

theorem elements_intShri : Elements s ins (execVal ins intShri s) fun i o j =>
    if wrap 64 i.ins.immediate < i.ins.width then o.x i j / 2 ^ (wrap 64 i.ins.immediate) else 0 :=
  elements_of_pure_congr s ins (fun _ => rfl) fun _ _ _ _ => congrArg (· % _) shrElem_eq

theorem elements_intSari : Elements s ins (execVal ins intSari s) fun i o j =>
    if wrap 64 i.ins.immediate < i.ins.width then wrap i.ins.width (sint i.ins.width (o.x i j) / (2 ^ (wrap 64 i.ins.immediate) : Nat))
    else if o.x i j < 2 ^ (i.ins.width - 1) then 0 else 2 ^ i.ins.width - 1 :=
  elements_of_pure_congr s ins (fun _ => rfl) fun i o j w =>
    congrArg (· % _) (sarElem_eq (stdWidth_pos (.inr w)) (x_lt i o j))

end

/-- Settles O20: logic is `pure` of its formula, and the shifts and the rotation are those of one element. -/
theorem logicAndShifts : Obligations.LogicAndShifts := fun s =>
  ⟨⟨fun _ => elements_of_pure s _ fun _ => rfl, fun _ => elements_of_pure s _ fun _ => rfl⟩,
    ⟨fun _ => elements_of_pure s _ fun _ => rfl, fun _ => elements_of_pure s _ fun _ => rfl⟩,
    ⟨fun _ => elements_of_pure s _ fun _ => rfl, fun _ => elements_of_pure s _ fun _ => rfl⟩,
    ⟨fun _ => elements_of_pure s _ fun _ => rfl, fun _ => elements_of_pure s _ fun _ => rfl⟩,
    ⟨fun _ => elements_intShl s _, fun _ => elements_intShl s _⟩,
    ⟨fun _ => elements_intShr s _, fun _ => elements_intShr s _⟩,
    ⟨fun _ => elements_intSar s _, fun _ => elements_intSar s _⟩,
    ⟨fun _ => elements_intRotl s _, fun _ => elements_intRotl s _⟩,
    ⟨fun _ => elements_intShli s _, fun _ => elements_intShli s _⟩,
    ⟨fun _ => elements_intShri s _, fun _ => elements_intShri s _⟩,
    ⟨fun _ => elements_intSari s _, fun _ => elements_intSari s _⟩⟩

end Sys2Proof.Machine
end

section
/-! PROOF. Bit counting, reversals and bit fields element by element. Settles O21. -/
namespace Sys2Proof.Machine

section
variable {W x y z : Nat}

/-! ### Counts (06 R116) -/

theorem bitsOf_succ (W x : Nat) : bitsOf (W + 1) x = bitsOf W x ++ [x.testBit W] := by
  rw [bitsOf, bitsOf, List.range_succ, List.map_append]
  rfl

theorem reverse_bitsOf_succ (W x : Nat) : (bitsOf (W + 1) x).reverse = x.testBit W :: (bitsOf W x).reverse := by
  rw [bitsOf_succ, List.reverse_append]
  rfl

theorem clzElem_eq : ∀ {W x : Nat}, x < 2 ^ W → clzElem W x = if x = 0 then W else W - 1 - Nat.log2 x
  | 0, x, lt => by
    rw [Nat.lt_one_iff.mp lt]
    rfl
  | W + 1, x, lt => by
    rw [clzElem, reverse_bitsOf_succ]
    cases top : x.testBit W with
    | true =>
      have ge : 2 ^ W ≤ x := Nat.ge_two_pow_of_testBit top
      have log : Nat.log2 x = W := (Nat.log2_eq_iff (by have := Nat.two_pow_pos W; omega)).mpr ⟨ge, lt⟩
      rw [if_neg (by have := Nat.two_pow_pos W; omega), log, leadingFalse]
      · omega
      · simp
    | false =>
      have below : x < 2 ^ W := by
        by_contra ge
        have := Nat.testBit_of_two_pow_le_and_two_pow_add_one_gt (not_lt.mp ge) lt
        simp [top] at this
      rw [leadingFalse, ← clzElem, clzElem_eq below]
      split
      · rfl
      next ne =>
        have := (Nat.log2_lt ne).mpr below
        omega

/-- The first bit that is set, counted from `n`. -/
theorem leadingFalse_range' (p : Nat → Bool) : ∀ m n,
    leadingFalse ((List.range' n m).map p) = ((List.range' n m).find? p).getD (n + m) - n
  | 0, n => by simp [leadingFalse]
  | m + 1, n => by
    rw [List.range'_succ, List.map_cons, List.find?_cons]
    cases first : p n with
    | true => simp [leadingFalse]
    | false =>
      have ih := leadingFalse_range' p m (n + 1)
      rw [leadingFalse, ih]
      cases found : (List.range' (n + 1) m).find? p with
      | none => simp only [Option.getD_none]; omega
      | some k =>
        have := List.mem_range'_1.mp (List.mem_of_find?_eq_some found)
        simp only [Option.getD_some]
        omega

theorem ctzElem_eq : ctzElem W x = ((List.range W).find? fun k => x.testBit k).getD W := by
  have := leadingFalse_range' x.testBit W 0
  rwa [Nat.zero_add, Nat.sub_zero, ← List.range_eq_range'] at this

theorem popcElem_eq : popcElem W x = ((List.range W).filter fun k => x.testBit k).length := by
  rw [popcElem, bitsOf, List.countP_map, List.countP_eq_length_filter]
  rfl

/-! ### Reversals (06 R116) -/

theorem sumNat_range_map (n : Nat) (f : Nat → Nat) : sumNat ((List.range n).map f) = ∑ k ∈ Finset.range n, f k := by
  rw [sumNat, ← List.sum_eq_foldl]
  rfl

theorem brevElem_eq : ∀ W, brevElem W x = ∑ k ∈ Finset.range W, if x.testBit k then 2 ^ (W - 1 - k) else 0
  | 0 => rfl
  | W + 1 => by
    rw [brevElem, reverse_bitsOf_succ, ofBits, ← brevElem, brevElem_eq W, Finset.sum_range_succ, Finset.mul_sum, add_comm]
    congr 1
    · refine Finset.sum_congr rfl fun k lt => ?_
      rw [Finset.mem_range] at lt
      rw [mul_ite, ← Nat.pow_succ', Nat.mul_zero]
      congr 2
      omega
    · simp

theorem bytesNat_append (b : Byte) : ∀ bs : List Byte, bytesNat (bs ++ [b]) = bytesNat bs + b.toNat * 256 ^ bs.length
  | [] => by simp [bytesNat]
  | c :: bs => by
    simp only [List.cons_append, bytesNat, bytesNat_append b bs, List.length_cons]
    ring

theorem length_natBytes : ∀ n x, (natBytes n x).length = n
  | 0, _ => rfl
  | n + 1, x => congrArg (· + 1) (length_natBytes n (x / 256))

theorem bytesNat_reverse_natBytes : ∀ n x,
    bytesNat (natBytes n x).reverse = ∑ k ∈ Finset.range n, x / 256 ^ k % 256 * 256 ^ (n - 1 - k)
  | 0, x => rfl
  | n + 1, x => by
    rw [natBytes, List.reverse_cons, bytesNat_append, bytesNat_reverse_natBytes n, Finset.sum_range_succ',
      List.length_reverse, length_natBytes]
    congr 1
    · refine Finset.sum_congr rfl fun k lt => ?_
      rw [Nat.div_div_eq_div_mul, ← Nat.pow_succ']
      congr 2
      omega
    · simp

/-! ### Bit fields (06 R117) -/

/-- The field that `bfx` takes out, at a position and of a length. -/
def bfxElem (signed : Bool) (W : Nat) (c : Nat × Nat) (x : Nat) : Nat :=
  if signed then wrap W (sint c.2 (bitsAt x c.1 c.2)) else bitsAt x c.1 c.2

/-- The element that `bfi` puts a field into, at a position and of a length. -/
def bfiElem (c : Nat × Nat) (x z : Nat) : Nat :=
  bitsAt x 0 c.1 + (bitsAt z 0 c.2 <<< c.1) + ((x >>> (c.1 + c.2)) <<< (c.1 + c.2))

theorem bitsAt_eq (x lo n : Nat) : bitsAt x lo n = x / 2 ^ lo % 2 ^ n := by
  rw [bitsAt, Nat.shiftRight_eq_div_pow]

theorem bitsAt_zero (x n : Nat) : bitsAt x 0 n = x % 2 ^ n := rfl

theorem bfiElem_eq (pos len x z : Nat) :
    bfiElem (pos, len) x z = x % 2 ^ pos + z % 2 ^ len * 2 ^ pos + x / 2 ^ (pos + len) * 2 ^ (pos + len) := by
  simp only [bfiElem, bitsAt_zero, Nat.shiftLeft_eq, Nat.shiftRight_eq_div_pow]

/-- The length of a field is clipped to the element. -/
theorem fieldControl_eq (w : stdWidth W) : fieldControl W y = (y % W, min (y / W % W + 1) (W - y % W)) := by
  have k : 2 ^ Nat.log2 W = W := by rcases w with rfl | rfl | rfl | rfl <;> decide
  simp only [fieldControl, bitsAt_eq, k, Nat.pow_zero, Nat.div_one, Prod.mk.injEq, true_and]
  have := Nat.mod_lt y (stdWidth_pos (.inr w))
  split <;> omega

end

section
variable (s : State) (ins : Ins)

theorem elements_intClz : Elements s ins (execVal ins intClz s) fun i o j =>
    if o.x i j = 0 then i.ins.width else i.ins.width - 1 - Nat.log2 (o.x i j) :=
  elements_of_pure_congr s ins (fun _ => rfl) fun i o j _ => congrArg (· % _) (clzElem_eq (x_lt i o j))

theorem elements_intCtz : Elements s ins (execVal ins intCtz s) fun i o j =>
    ((List.range i.ins.width).find? fun k => (o.x i j).testBit k).getD i.ins.width :=
  elements_of_pure_congr s ins (fun _ => rfl) fun _ _ _ _ => congrArg (· % _) ctzElem_eq

theorem elements_intPopc : Elements s ins (execVal ins intPopc s) fun i o j =>
    ((List.range i.ins.width).filter fun k => (o.x i j).testBit k).length :=
  elements_of_pure_congr s ins (fun _ => rfl) fun _ _ _ _ => congrArg (· % _) popcElem_eq

theorem elements_intBrev : Elements s ins (execVal ins intBrev s) fun i o j =>
    sumNat ((List.range i.ins.width).map fun k => if (o.x i j).testBit k then 2 ^ (i.ins.width - 1 - k) else 0) :=
  elements_of_pure_congr s ins (fun _ => rfl) fun _ _ _ _ =>
    congrArg (· % _) ((brevElem_eq _).trans (sumNat_range_map ..).symm)

theorem elements_intBswap : Elements s ins (execVal ins intBswap s) fun i o j =>
    sumNat ((List.range (i.ins.width / 8)).map fun k => o.x i j / 256 ^ k % 256 * 256 ^ (i.ins.width / 8 - 1 - k)) :=
  elements_of_pure_congr s ins (fun _ => rfl) fun _ _ _ _ =>
    congrArg (· % _) ((bytesNat_reverse_natBytes ..).trans (sumNat_range_map ..).symm)

theorem elements_intBfx : Elements s ins (execVal ins intBfx s) fun i o j =>
    let pos := o.y i j % i.ins.width
    let len := min (o.y i j / i.ins.width % i.ins.width + 1) (i.ins.width - pos)
    let x := o.x i j / 2 ^ pos % 2 ^ len
    if etySigned i.ins.ty then wrap i.ins.width (sint len x) else x :=
  elements_of_pure_congr s ins (g := fun o j => bfxElem (etySigned o.ty) o.W (fieldControl o.W (o.eb j)) (o.ea j))
    (fun _ => rfl) fun i o j w => congrArg (· % _) (by
      dsimp only
      rw [← bitsAt_eq]
      exact congrArg (fun c => bfxElem _ _ c _) (fieldControl_eq w))

theorem elements_intBfi : Elements s ins (execVal ins intBfi s) fun i o j =>
    let pos := o.y i j % i.ins.width
    let len := min (o.y i j / i.ins.width % i.ins.width + 1) (i.ins.width - pos)
    o.x i j % 2 ^ pos + o.z i j % 2 ^ len * 2 ^ pos + o.x i j / 2 ^ (pos + len) * 2 ^ (pos + len) :=
  elements_of_pure_congr s ins (g := fun o j => bfiElem (fieldControl o.W (o.eb j)) (o.ea j) (o.ec j))
    (fun _ => rfl) fun i o j w => congrArg (· % _) (by
      rw [← bfiElem_eq, ← fieldControl_eq w]
      rfl)

end

/-- Settles O21: counts, reversals and bit fields are those of one element. -/
theorem bitOps : Obligations.BitOps := fun s =>
  ⟨⟨fun _ => elements_intClz s _, fun _ => elements_intClz s _⟩,
    ⟨fun _ => elements_intCtz s _, fun _ => elements_intCtz s _⟩,
    ⟨fun _ => elements_intPopc s _, fun _ => elements_intPopc s _⟩,
    ⟨fun _ => elements_intBrev s _, fun _ => elements_intBrev s _⟩,
    ⟨fun _ => elements_intBswap s _, fun _ => elements_intBswap s _⟩,
    ⟨fun _ => elements_intBfx s _, fun _ => elements_intBfx s _⟩,
    ⟨fun _ => elements_intBfi s _, fun _ => elements_intBfi s _⟩⟩

end Sys2Proof.Machine
end

section
/-! PROOF. Moves, literals, extension and select. Settles O22. -/
namespace Sys2Proof.Machine

/-- Where bit 0 of the mask is set, a 64-bit result is the scalar of element 0, and a register target keeps nothing of it. -/
theorem pure_scalar {o : Opnds} (f : Nat → Nat) (width : o.W = 64) (set : o.mask.getLsbD 0 = true) :
    (o.pure f).out = scal (f 0) ∧ (o.pure f).keep = 0 := by
  have act : active o.mask 64 0 = true := set
  simp only [Opnds.pure, Opnds.elements, byElement, keepBits, Res.mk1, width, act, count, if_true]
  simp [packE, packNat, scal, act]

/-- A value instruction of the 64-bit type of a scalar, whatever the lane mode. -/
theorem scalar_of_ready {s : State} {ins : Ins} {i : Issue} {o : Operands} {f : Opnds → Res} {g : Opnds → Nat → Nat}
    (ready : Ready s ins i o) (width : ins.width = 64) (pure_ : ∀ o, f o = o.pure (g o)) :
    ∃ r : Res, execVal ins f s = .next (s.results i o r) ∧ r.flags = fNone ∧
      (o.mask.getLsbD 0 = true → r.out = scal (g (i.opnds o) 0) ∧ r.keep = 0) := by
  refine ⟨f (i.opnds o), execVal_ready ready f, ?_, fun set => ?_⟩
  · rw [pure_, pure_flags]
  · rw [pure_]
    exact pure_scalar _ ((congrArg Ins.width (ready_ins ready)).trans width) set

theorem elements_zext (s : State) (ins : Ins) : Elements s ins (execVal ins (intExtend false) s) fun i o j =>
    getE ((etyWidth (i.ins.srcB % 32)).getD 8) o.a.bits (j + i.ins.rm * count i.ins.width) % 2 ^ i.ins.width :=
  elements_of_pure_congr s ins (fun _ => rfl) fun _ _ _ _ => (Nat.mod_mod _ _).symm

/-- Settles O22: each move is `pure` of its formula, and two of them are 64-bit scalars whatever the lane mode. -/
theorem moves : Obligations.Moves := by
  intro s
  refine ⟨fun f => ?movi, fun f => ?movl, ⟨fun f => ?movF0, fun f => ?movF1⟩, fun f => ?sext, fun f => ?zext,
    ⟨fun f => ?selF0, fun f => ?selFX⟩, fun f i o ready => ?literal, fun f pred i o ready => ?mask⟩
  case zext => exact elements_zext s _
  case literal =>
    obtain ⟨r, next, flags, out⟩ := scalar_of_ready (f := intMovi) ready rfl fun _ => rfl
    refine ⟨r, next, flags, fun set => ⟨(out set).1.trans ?_, (out set).2⟩⟩
    change scal (wrap i.ins.width i.ins.immediate) = _
    rw [ready_ins ready]
    rfl
  case mask =>
    have width : (f.ins 0x2E).width = 64 := by rw [Ins.width, fx_ins_ty, pred]; rfl
    obtain ⟨r, next, flags, out⟩ := scalar_of_ready (f := intMov) ready width fun _ => rfl
    refine ⟨r, next, flags, fun set => ⟨(out set).1.trans ?_, (out set).2⟩⟩
    change scal (getE i.ins.width o.a.bits 0) = _
    rw [ready_ins ready, width]
    rfl
  all_goals exact elements_of_pure s _ fun _ => rfl

end Sys2Proof.Machine
end

section
/-! PROOF. Lane moves: broadcast, permutation, zip, compress and expand. Settles O25. -/
namespace Sys2Proof.Machine

/-- Settles O25: each lane move is `pure` of its formula over the elements of its operands. -/
theorem laneMoves : Obligations.LaneMoves := by
  intro s
  refine ⟨?bcast, ?lset, ?perm, ?lrot, ?zip, ?unzip, ?compress, ?expand, ?lidx⟩
  case lidx => exact fun _ => elements_of_pure s _ (g := fun _ j => j) fun _ => rfl
  all_goals exact ⟨fun _ => elements_of_pure s _ fun _ => rfl, fun _ => elements_of_pure s _ fun _ => rfl⟩

end Sys2Proof.Machine
end

section
/-! PROOF. Float arithmetic and selections element by element. Settles O28 and O29. -/
namespace Sys2Proof.Machine

/-- Settles O28: each form of float arithmetic is `elements` of its formula over the decoded operands. -/
theorem floatArithmetic : Obligations.FloatArithmetic := by
  intro s
  refine ⟨?fadd, ?fsub, ?fmul, ?fma, ?fms, ?fnma, ?bscl⟩
  all_goals exact ⟨fun _ => floatElements_of_elements s _ fun _ => rfl, fun _ => floatElements_of_elements s _ fun _ => rfl⟩

/-- Settles O29: each selection or change of sign is `elements` of its formula, with the flag of signalling operands. -/
theorem floatSelection : Obligations.FloatSelection := by
  intro s
  refine ⟨?fmin, ?fmax, ?fabs, ?fneg, ?fcsgn, ?fclamp⟩
  all_goals exact ⟨fun _ => floatElements_of_elements s _ fun _ => rfl, fun _ => floatElements_of_elements s _ fun _ => rfl⟩

end Sys2Proof.Machine
end

section
/-! PROOF. The masks that relations give, bit by bit, and the float compares. Settles O30. -/
namespace Sys2Proof.Machine

/-- A packed list of elements is the sum of the elements at their places. -/
theorem packNat_range_map (m : Nat) : ∀ (n : Nat) (g : Nat → Nat),
    packNat m ((List.range n).map g) = ∑ j ∈ Finset.range n, g j % 2 ^ m * 2 ^ (m * j)
  | 0, _ => rfl
  | n + 1, g => by
    rw [List.range_succ_eq_map, List.map_cons, List.map_map, packNat, packNat_range_map m n, Finset.sum_range_succ', Nat.shiftLeft_eq,
      Finset.sum_mul, Nat.mul_zero, Nat.pow_zero, Nat.mul_one, add_comm]
    refine congrArg (· + _) (Finset.sum_congr rfl fun j _ => ?_)
    rw [Nat.mul_assoc, ← Nat.pow_add, Nat.mul_succ]
    rfl

/-- The masks of the chosen elements together. -/
def masksOf (W : Nat) (p : Nat → Bool) : Nat := sumNat ((List.range (count W)).map fun j => if p j then elemMask W j else 0)

/-- Where elements are narrower than a scalar their masks are the elements of a packed list, one bit for each byte (03 R36). -/
theorem masksOf_narrow {W : Nat} (ne : W ≠ 64) (p : Nat → Bool) :
    masksOf W p = packNat (W / 8) ((List.range (count W)).map fun j => if p j then 2 ^ (W / 8) - 1 else 0) := by
  rw [masksOf, sumNat_range_map, packNat_range_map]
  refine Finset.sum_congr rfl fun j _ => ?_
  rw [elemMask, if_neg ne, Nat.shiftLeft_eq]
  split
  · rw [Nat.mod_eq_of_lt (Nat.sub_lt (Nat.two_pow_pos _) Nat.one_pos)]
  · rw [Nat.zero_mod, Nat.zero_mul]

theorem testBit_masksOf {W k : Nat} (width : stdWidth W) (p : Nat → Bool) (lt : k < 64) :
    (masksOf W p).testBit k = p (if W = 64 then 0 else k / (W / 8)) := by
  by_cases whole : W = 64
  · subst whole
    have all : masksOf 64 p = if p 0 then 2 ^ 64 - 1 else 0 := by
      rw [masksOf, sumNat_range_map]
      simp [count, elemMask]
    rw [all, if_pos rfl]
    cases p 0
    · exact Nat.zero_testBit k
    · rw [if_pos rfl, Nat.testBit_two_pow_sub_one, decide_eq_true lt]
  · obtain ⟨pos, total⟩ : 0 < W / 8 ∧ W / 8 * count W = 64 := by
      rcases width with rfl | rfl | rfl | rfl
      · decide
      · decide
      · decide
      · exact absurd rfl whole
    have within : k / (W / 8) < count W := Nat.div_lt_of_lt_mul (by omega)
    rw [if_neg whole, masksOf_narrow whole, getLsbD_packNat _ pos, List.length_map, List.length_range, total, List.getD_eq_getElem?_getD,
      List.getElem?_map, List.getElem?_range within, Option.map_some, Option.getD_some]
    cases p (k / (W / 8))
    · simp
    · simp [lt, Nat.mod_lt _ pos]

theorem getLsbD_scal_masksOf {W k : Nat} (width : stdWidth W) (p : Nat → Bool) (lt : k < 512) :
    (scal (masksOf W p)).getLsbD k = (decide (k < 64) && p (if W = 64 then 0 else k / (W / 8))) := by
  rw [scal, BitVec.getLsbD_ofNat, Nat.testBit_mod_two_pow]
  by_cases low : k < 64
  · simp only [lt, low, decide_true, Bool.true_and, testBit_masksOf width p low]
  · simp [low]

/-- The flags of the active elements. -/
theorem orFlags_ite (act : Nat → Bool) (a : Nat → Nat) (fl : Nat → FlagSet) (xs : List Nat) :
    orFlags (xs.map fun j => if act j then (a j, fl j) else (0, fNone)) = orFlags ((xs.filter act).map fun j => (0, fl j)) := by
  induction xs with
  | nil => rfl
  | cons x xs ih => cases h : act x <;> simp [h, orFlags_cons, ih, fNone_or]

variable {o : Opnds} {f : Nat → Bool × FlagSet}

theorem relation_out : (o.relation f).out = scal (masksOf o.W fun j => o.act j && (f j).1) := by
  simp only [Opnds.relation, Res.mk1, masksOf, List.map_map]
  congr 3
  funext j
  by_cases h : o.act j <;> simp [h]

theorem relation_keep : (o.relation f).keep = scal (masksOf o.W fun j => !o.act j) := by
  simp only [Opnds.relation, Res.mk1, masksOf]
  congr 3
  funext j
  by_cases h : o.act j <;> simp [h]

theorem relation_flags : (o.relation f).flags = orFlags (((List.range (count o.W)).filter o.act).map fun j => (0, (f j).2)) :=
  orFlags_ite o.act (fun j => if (f j).1 then elemMask o.W j else 0) (fun j => (f j).2) _

/-- A value instruction made with `relation` gives the mask of its relation. -/
theorem masks_of_relation (s : State) (ins : Ins) {g : Opnds → Nat → Bool × FlagSet} {f : Opnds → Res}
    (h : ∀ o, f o = o.relation (g o)) : Masks s ins (execVal ins f s) fun i o j => g (i.opnds o) j := by
  intro i o ready width
  refine ⟨f (i.opnds o), execVal_ready ready f, ?_, ?_, fun k lt => ?_⟩
  · rw [h]; rfl
  · rw [h]; exact relation_flags
  · rw [h, relation_out, relation_keep]
    exact ⟨(getLsbD_scal_masksOf width _ lt).trans (Bool.and_assoc ..).symm, getLsbD_scal_masksOf width _ lt⟩

/-- Settles O30: each compare is the relation of the decoded elements, with the flags of its kind. -/
theorem floatCompares : Obligations.FloatCompares := by
  intro s
  refine ⟨?feq, ?flt, ?fle, ?unordered⟩
  all_goals exact ⟨fun _ => masks_of_relation s _ fun _ => rfl, fun _ => masks_of_relation s _ fun _ => rfl⟩

end Sys2Proof.Machine
end

section
/-! PROOF. Seeds, refinement, integral rounding, scaling and classes element by element. Settles O31. -/
namespace Sys2Proof.Machine

/-- A float instruction computes what is equal to its formula. -/
theorem FloatElements.congr {s : State} {ins : Ins} {e : Answer} {f g : Issue → Operands → Nat → Nat × FlagSet}
    (k : FloatElements s ins e f) (h : ∀ i o j, f i o j = g i o j) : FloatElements s ins e g := by
  obtain rfl : f = g := funext fun i => funext fun o => funext fun j => h i o j
  exact k

theorem floatElements_fpRnd (s : State) (ins : Ins) : FloatElements s ins (execVal ins fpRnd s) fun i o j =>
    match o.vx i j with
    | .fin neg n e => ((i.fmt.round 1 neg (roundInt (scaleQ n 1 e).1 (scaleQ n 1 e).2 i.ins.rm neg) 1).1, fNone)
    | v => ((i.fmt.ofVal 0 v).1, snan [v]) := by
  refine (floatElements_of_elements s ins fun _ => rfl).congr fun i o j => ?_
  have va : (i.opnds o).va j = o.vx i j := rfl
  rw [va]
  cases o.vx i j <;> rfl

theorem floatElements_fpScl (s : State) (ins : Ins) : FloatElements s ins (execVal ins fpScl s) fun i o j =>
    i.fmt.ofVal i.ins.rm (match o.vx i j with
      | .fin neg n e => .fin neg n (e + max (-1000) (min 1000 (sint i.ins.width (o.y i j))))
      | v => v) := by
  refine (floatElements_of_elements s ins fun _ => rfl).congr fun i o j => ?_
  have va : (i.opnds o).va j = o.vx i j := rfl
  rw [va]
  cases o.vx i j <;> rfl

/-- Settles O31: seeds, refinements and classes are `elements` of their formulas, and `frnd` and `fscl` treat a number, an
infinity and a NaN each as the statement does. -/
theorem floatSeeds : Obligations.FloatSeeds := by
  intro s
  refine ⟨?frcp, ?frsq, ?fexp2, ?flog2, ?frcpr, ?frsqr, ?frnd, ?fscl, ?fclass⟩
  case frnd => exact ⟨fun _ => floatElements_fpRnd s _, fun _ => floatElements_fpRnd s _⟩
  case fscl => exact ⟨fun _ => floatElements_fpScl s _, fun _ => floatElements_fpScl s _⟩
  case fclass => exact ⟨fun _ => elements_of_pure s _ fun _ => rfl, fun _ => elements_of_pure s _ fun _ => rfl⟩
  all_goals exact ⟨fun _ => floatElements_of_elements s _ fun _ => rfl, fun _ => floatElements_of_elements s _ fun _ => rfl⟩

end Sys2Proof.Machine
end

section
/-! PROOF. Every instruction, every event and so every step answers a next state. Settles O11. -/
namespace Sys2Proof.Machine

/-- The arm of each constructor is a next state, whatever the state holds. -/
theorem exec_next (i : Instr) (s : State) : ∃ t, exec i s = .next t := by
  cases i <;> exact ⟨_, rfl⟩

theorem issueStep_next (a : Aid) (i : Nat) (s : State) : ∃ t, issueStep a i s = .next t := by
  unfold issueStep
  split
  next => exact ⟨s, rfl⟩
  next ws _ =>
    split
    next ins _ _ => exact exec_next ins _
    next => exact ⟨s, rfl⟩

theorem todoStep_next (t : Todo) (s : State) : ∃ u, todoStep t s = .next u := by
  cases t
  case event i => exact exec_next i s
  case issue a i => exact issueStep_next a i s
  all_goals exact ⟨_, rfl⟩

theorem settle_next {e : Answer} (h : ∃ t, e = .next t) : ∃ t, settle e = .next t := by
  obtain ⟨t, rfl⟩ := h
  exact ⟨t.settleStep, rfl⟩

theorem step_next (s : State) : Goes s := by
  unfold Goes step
  split
  next t _ => exact ⟨t.settleStep, rfl⟩
  next todo t _ => exact settle_next (todoStep_next todo t)

/-- Settles O11: each arm of `exec` is a next state, and so is what a step makes of it. -/
theorem everyStepIsTaken : Obligations.EveryStepIsTaken := ⟨exec_next, step_next⟩

end Sys2Proof.Machine
end

section
/-! PROOF. How a block is entered, what its commit waits for and how control leaves it, and a commit of register writes. Settles O49. -/
namespace Sys2Proof.Machine

/-! ### Reading the words of a block leaves the agents as they are -/

theorem foldl_pair_agents {α β : Type} {f : State × β → α → State × β} (same : ∀ p x, (f p x).1.agents = p.1.agents)
    (xs : List α) (p : State × β) : (xs.foldl f p).1.agents = p.1.agents := by
  induction xs generalizing p with
  | nil => rfl
  | cons x xs ih => rw [List.foldl_cons, ih, same]

theorem foldl_agents {α : Type} {f : State → α → State} (same : ∀ s x, (f s x).agents = s.agents) (xs : List α) (s : State) :
    (xs.foldl f s).agents = s.agents := by
  induction xs generalizing s with
  | nil => rfl
  | cons x xs ih => rw [List.foldl_cons, ih, same]

variable (s : State)

@[simp] theorem ueMet_agents (x : Access) : (s.ueMet x).agents = s.agents := by
  unfold State.ueMet State.quadUe
  split
  · dsimp only
    split
    · exact count_agents s _ none _ 1
    · exact count_agents s _ none _ 1
  · exact count_agents ..

@[simp] theorem setLineTs_agents (pa wts rts : Nat) : (s.setLineTs pa wts rts).agents = s.agents := rfl

@[simp] theorem putLine_agents (l : StashLine) : (s.putLine l).agents = s.agents := rfl

@[simp] theorem recall_agents (pa : Nat) : (s.recall pa).agents = s.agents := by
  refine foldl_agents (fun s e => ?_) _ s
  dsimp only
  split
  · rw [updFab_agents]
    split <;> rfl
  · rfl

@[simp] theorem recallRange_agents (pa n : Nat) : (s.recallRange pa n).agents = s.agents :=
  foldl_agents (fun s _ => recall_agents s _) _ s

@[simp] theorem corrected_agents (pa : Nat) : (s.corrected pa).agents = s.agents := by
  unfold State.corrected
  split <;> simp

@[simp] theorem recallWalk_agents (part va : Nat) : ∀ (fuel level table : Nat) (s : State),
    (s.recallWalk part va fuel level table).agents = s.agents
  | 0, _, _, _ => rfl
  | fuel + 1, level, table, s => by
    unfold State.recallWalk
    dsimp only
    split
    · simp
    · split
      · rw [recallWalk_agents part va fuel, corrected_agents, recall_agents]
      · simp

theorem leafFor_agents (die vq ctx va : Nat) : (s.leafFor die vq ctx va).1.agents = s.agents := by
  unfold State.leafFor
  dsimp only
  repeat' split
  all_goals simp

theorem translate_agents (die vq ctx va len : Nat) (need : Need) : (s.translate die vq ctx va len need).1.agents = s.agents := by
  have leaf := leafFor_agents s die vq ctx va
  unfold State.translate
  split
  next e => rwa [e] at leaf
  next e =>
    rw [e] at leaf
    dsimp only
    split <;> exact leaf

theorem access_agents (a : Aid) (va len : Nat) (need : Need) : (s.access a va len need).1.agents = s.agents := by
  unfold State.access
  split
  · rfl
  · split
    · rfl
    · exact translate_agents ..

theorem accesses_agents (a : Aid) (need : Need) : ∀ (ps : List (Nat × Nat)) (s : State), (s.accesses a need ps).1.agents = s.agents
  | [], _ => rfl
  | (va, len) :: rest, s => by
    have first := access_agents s a va len need
    unfold State.accesses
    split
    next e => rwa [e] at first
    next t _ e =>
      rw [e] at first
      have others := accesses_agents a need rest t
      split
      all_goals
        next e' => rw [e'] at others; exact others.trans first

theorem fetch_agents (a : Aid) (va n : Nat) : (s.fetch a va n).1.agents = s.agents := by
  have reads := accesses_agents a needFetch (linePieces 24 va n) s
  unfold State.fetch
  split
  next e => rwa [e] at reads
  next t xs e =>
    rw [e] at reads
    refine (foldl_pair_agents (fun acc x => ?_) xs _).trans reads
    dsimp only
    split
    · rfl
    · split
      · rfl
      · split <;> simp

theorem blockWords_misaligned (a : Aid) (g : Agent) {addr : Nat} (off : addr % 16 ≠ 0) :
    s.blockWords a g addr = (s, .error (cHEADER, 0)) := if_pos (bne_iff_ne.mpr off)

/-- The words of a block come out of the same agents. The fetch gets a name of its own, so that the kernel does not evaluate it. -/
theorem blockWords_agents (a : Aid) (g : Agent) (addr : Nat) : (s.blockWords a g addr).1.agents = s.agents := by
  obtain ⟨fetch, named⟩ : ∃ f, f = State.fetch := ⟨_, rfl⟩
  have keeps : ∀ s a va n, (fetch s a va n).1.agents = s.agents := named ▸ fetch_agents
  unfold State.blockWords
  rw [← named]
  split
  · rfl
  split
  next d t =>
    have header := keeps s (.thread d t) addr 16
    split
    next e => rwa [e] at header
    next v hs e =>
      rw [e] at header
      refine Eq.trans ?_ header
      have body := fun n => keeps v (.thread d t) (wrap 64 (addr + 16 : Nat)) (4 * n)
      dsimp only
      split
      all_goals
        next e => exact (congrArg (·.1.agents) e).symm.trans (body _)
  next =>
    dsimp only
    repeat' split
    all_goals rfl

/-- The die of an agent depends on the table of agents alone. -/
theorem agent_die {u : State} (agents : u.agents = s.agents) {a : Aid} {g g' : Agent} (hg : s.agent? a = some g)
    (hg' : u.agent? a = some g') : g'.die = g.die := by
  unfold State.agent? at hg hg'
  rw [agents] at hg'
  cases found : Tab.get? s.agents a with
  | some k =>
    rw [found] at hg hg'
    cases hg
    cases hg'
    rfl
  | none =>
    rw [found] at hg hg'
    cases a with
    | actor => cases hg
    | thread d t =>
      obtain ⟨-, ⟨⟩⟩ := Option.ite_none_right_eq_some.mp hg
      obtain ⟨-, ⟨⟩⟩ := Option.ite_none_right_eq_some.mp hg'
      rfl

theorem updAgent_congr {a : Aid} {f f' : Agent → Agent} (same : ∀ g, s.agent? a = some g → f g = f' g) :
    s.updAgent a f = s.updAgent a f' := by
  unfold State.updAgent
  split
  next g hg => rw [same g hg]
  next => rfl

/-! ### Block entry (05 R99, R100; 09 R185) -/

section
variable {s} {a : Aid} {g : Agent} {addr : Nat} (hg : s.agent? a = some g) (alive : s.agentAlive a = true)
  (phase : g.phase = .entering addr) (ready : s.threadReady a g = true)
include hg alive phase ready

theorem blockEntry_fault {u : State} {c va : Nat} (words : s.blockWords a g addr = (u, .error (c, va))) :
    exec (.blockEntry a) s = .next (u.takeTrap a c 0xFFFF addr va 0) := by
  change execBlockEntry a s = _
  simp [execBlockEntry, hg, alive, phase, ready, words]

theorem blockEntry_waits {u : State} {h : BitVec 128} {ws : List Word} (words : s.blockWords a g addr = (u, .ok (h, ws)))
    (full : u.windowAdmits a g (hdrField h 6 7 + 1) = false) : exec (.blockEntry a) s =
      .next (u.updAgent a fun g => { g with waitSince := g.waitSince.orElse (fun _ => some (u.clk.dieCycle g.die)) }) := by
  change execBlockEntry a s = _
  simp [execBlockEntry, hg, alive, phase, ready, words, full]

theorem blockEntry_enters {u : State} {h : BitVec 128} {ws : List Word} (words : s.blockWords a g addr = (u, .ok (h, ws)))
    (room : u.windowAdmits a g (hdrField h 6 7 + 1) = true) {code : List (List Word)}
    (checked : checkBlock (u.nodeOf a g) h ws = .ok code) :
    exec (.blockEntry a) s = .next (u.updAgent a fun k => { k with
      block := some (Block.enter addr h code false ((g.firing.map (·.lastBlock)).getD []) (u.clk.dieCycle g.die))
      phase := .running
      waitSince := none }) := by
  have entered : exec (.blockEntry a) s = .next (u.updAgent a fun k => { k with
      block := some (Block.enter addr h code false ((g.firing.map (·.lastBlock)).getD []) (u.clk.dieCycle k.die))
      phase := .running
      waitSince := none }) := by
    change execBlockEntry a s = _
    simp [execBlockEntry, hg, alive, phase, ready, words, room, checked]
  rw [entered]
  refine congrArg _ (updAgent_congr u fun k hk => ?_)
  have agents := blockWords_agents s a g addr
  rw [words] at agents
  rw [agent_die s agents hg hk]

end

/-! ### The pipe of an agent (09 R180) -/

theorem focus_of_none_older {g : Agent} (older : g.older = []) : g.focus 0 = g := if_pos (by rw [older]; rfl)

theorem focus_of_older {g : Agent} {b' : Block} (block : g.block = some b') {f : Firing} {b : Block} {rest : List (Firing × Block)}
    (older : g.older = (f, b) :: rest) :
    g.focus 0 = { g with older := [], firing := some f, block := some b, younger := g.inFlight.drop 1 } := by
  simp [Agent.focus, Agent.inFlight, block, older]

theorem inFlight_length_focus {g : Agent} {b' : Block} (block : g.block = some b') {f : Firing} {b : Block}
    {rest : List (Firing × Block)} (older : g.older = (f, b) :: rest) : (g.focus 0).inFlight.length = g.inFlight.length := by
  have first : g.inFlight = (f, b) :: g.inFlight.drop 1 := by simp [Agent.inFlight, older]
  rw [focus_of_older block older, first]
  simp [Agent.inFlight]

/-! ### What a commit does by the exits that have fired (08 R154 to R157) -/

theorem foldl_max_bound {α : Type} (xs : List (Nat × α)) (m : Nat) :
    m ≤ xs.foldl (fun m e => max m e.1) m ∧ ∀ e ∈ xs, e.1 ≤ xs.foldl (fun m e => max m e.1) m := by
  induction xs generalizing m with
  | nil => exact ⟨le_rfl, nofun⟩
  | cons x xs ih =>
    obtain ⟨above, bound⟩ := ih (max m x.1)
    exact ⟨(le_max_left ..).trans above, List.forall_mem_cons.mpr ⟨(le_max_right ..).trans above, bound⟩⟩

/-- The last of the instructions whose exits have fired is one of them. -/
theorem foldl_max_attained {α : Type} {xs : List (Nat × α)} (nonempty : xs ≠ []) :
    ∃ x, (xs.foldl (fun m e => max m e.1) 0, x) ∈ xs := by
  have orStart (m : Nat) : xs.foldl (fun m e => max m e.1) m = m ∨ ∃ x, (xs.foldl (fun m e => max m e.1) m, x) ∈ xs := by
    clear nonempty
    induction xs generalizing m with
    | nil => exact .inl rfl
    | cons x xs ih =>
      rw [List.foldl_cons]
      rcases ih (max m x.1) with start | ⟨y, mem⟩
      · rw [start]
        rcases le_total x.1 m with le | le
        · exact .inl (max_eq_left le)
        · exact .inr ⟨x.2, by rw [max_eq_right le]; exact List.mem_cons_self⟩
      · exact .inr ⟨y, List.mem_cons_of_mem _ mem⟩
  rcases orStart 0 with zero | attained
  · obtain ⟨x, xs', rfl⟩ := List.exists_cons_of_ne_nil nonempty
    have le := (foldl_max_bound (x :: xs') 0).2 x List.mem_cons_self
    rw [zero] at le ⊢
    exact ⟨x.2, Nat.le_zero.mp le ▸ List.mem_cons_self⟩
  · exact attained

/-- The block with its starved instructions found. -/
def Block.settledFor (b : Block) (g : Agent) : Block := b.settleStarved g (b.code.length + 1)

/-- Finding starved instructions changes their states alone. -/
theorem settleStarved_frame (g : Agent) : ∀ (n : Nat) (b : Block),
    (b.settleStarved g n).addr = b.addr ∧ (b.settleStarved g n).code = b.code
  | 0, _ => ⟨rfl, rfl⟩
  | n + 1, b => by
    have once : (b.starveOnce g).addr = b.addr ∧ (b.starveOnce g).code = b.code := by
      unfold Block.starveOnce
      refine List.foldlRecOn (motive := fun (c : Block) => c.addr = b.addr ∧ c.code = b.code) _ _ ⟨rfl, rfl⟩ fun c h j _ => ?_
      split
      · exact h
      · exact h
    obtain ⟨addr, code⟩ := settleStarved_frame g n (b.starveOnce g)
    exact ⟨addr.trans once.1, code.trans once.2⟩

theorem settledFor_addr (b : Block) (g : Agent) : (b.settledFor g).addr = b.addr := (settleStarved_frame g _ b).1

theorem settledFor_word0 (b : Block) (g : Agent) (j : Nat) : (b.settledFor g).word0 j = b.word0 j := by
  simp [Block.word0, Block.settledFor, (settleStarved_frame g _ b).2]

/-- The state in which the oldest block of an agent is in hand, settled. -/
def State.settledAt (s : State) (a : Aid) (c : Block) : State := (s.updAgent a (·.focus 0)).updBlock a fun _ => c

section
variable {s} {a : Aid} {g : Agent} {b : Block} (hg : s.agent? a = some g) (alive : s.agentAlive a = true)
  (block : (g.focus 0).block = some b)
include hg alive block

/-- A block that may not commit stays, settled. -/
theorem blockCommit_stays (h : (b.settledFor (g.focus 0)).resolved = false ∨ (b.settledFor (g.focus 0)).feedsBack = true ∨
    (b.settledFor (g.focus 0)).exits = []) : exec (.blockCommit a) s = .next (s.settledAt a (b.settledFor (g.focus 0))) := by
  change execBlockCommit a s = _
  unfold Block.settledFor State.settledAt at *
  rcases h with unresolved | feeds | noExit
  · simp [execBlockCommit, hg, alive, block, unresolved]
  · simp [execBlockCommit, hg, alive, block, feeds]
  · simp [execBlockCommit, hg, alive, block, noExit]

variable (resolved : (b.settledFor (g.focus 0)).resolved = true) (feeds : (b.settledFor (g.focus 0)).feedsBack = false)
include resolved feeds

theorem blockCommit_holds {j : Nat} {goal : ExitTo} (h : (b.settledFor (g.focus 0)).exits = [(j, goal)])
    (holds : (s.settledAt a (b.settledFor (g.focus 0))).commitHolds a (g.focus 0) (b.settledFor (g.focus 0)) = true) :
    exec (.blockCommit a) s = .next (s.settledAt a (b.settledFor (g.focus 0))) := by
  change execBlockCommit a s = _
  unfold Block.settledFor State.settledAt at *
  simp [execBlockCommit, hg, alive, block, h, resolved, feeds, holds]

theorem blockCommit_commits {j : Nat} {goal : ExitTo} (h : (b.settledFor (g.focus 0)).exits = [(j, goal)])
    (holds : (s.settledAt a (b.settledFor (g.focus 0))).commitHolds a (g.focus 0) (b.settledFor (g.focus 0)) = false) :
    exec (.blockCommit a) s =
      .next ((s.settledAt a (b.settledFor (g.focus 0))).commit a (g.focus 0) (b.settledFor (g.focus 0)) goal) := by
  change execBlockCommit a s = _
  unfold Block.settledFor State.settledAt at *
  simp [execBlockCommit, hg, alive, block, h, resolved, feeds, holds]

theorem blockCommit_severalExits (h : 2 ≤ (b.settledFor (g.focus 0)).exits.length) :
    let c := b.settledFor (g.focus 0)
    let j := c.exits.foldl (fun m e => max m e.1) 0
    exec (.blockCommit a) s = .next ((s.settledAt a c).takeTrap a cTARGET j b.addr 0 (b.word0 j)) := by
  change execBlockCommit a s = _
  have addr := settledFor_addr b (g.focus 0)
  have word := settledFor_word0 b (g.focus 0)
  rcases exits : (b.settledFor (g.focus 0)).exits with - | ⟨x, - | ⟨y, rest⟩⟩
  · simp [exits] at h
  · simp [exits] at h
  · unfold Block.settledFor State.settledAt at *
    simp [execBlockCommit, hg, alive, block, exits, resolved, feeds, addr, word]

end

/-! ### A commit whose effects are register writes (08 R156) -/

/-- The register write of an effect. -/
def Agent.writeEffect (g : Agent) (e : Nat × Effect) : Agent := match e.2 with
  | .reg w => g.write w.code w.val w.keep
  | _ => g

/-- A register write leaves the agent's flags, delay lines and residents as they are. -/
theorem write_frame (g : Agent) (code : Nat) (v : Val) (keep : Vec) :
    (g.write code v keep).flags = g.flags ∧ (g.write code v keep).delay = g.delay ∧
      (g.write code v keep).resident = g.resident := by
  unfold Agent.write
  split
  · exact ⟨rfl, rfl, rfl⟩
  split
  · exact ⟨rfl, rfl, rfl⟩
  split
  · split <;> exact ⟨rfl, rfl, rfl⟩
  · exact ⟨rfl, rfl, rfl⟩

theorem writeEffect_frame (g : Agent) (e : Nat × Effect) :
    (g.writeEffect e).flags = g.flags ∧ (g.writeEffect e).delay = g.delay ∧ (g.writeEffect e).resident = g.resident := by
  unfold Agent.writeEffect
  split
  · exact write_frame ..
  · exact ⟨rfl, rfl, rfl⟩

theorem writeEffects_frame (l : List (Nat × Effect)) (g : Agent) :
    (l.foldl Agent.writeEffect g).flags = g.flags ∧ (l.foldl Agent.writeEffect g).delay = g.delay ∧
      (l.foldl Agent.writeEffect g).resident = g.resident := by
  induction l generalizing g with
  | nil => exact ⟨rfl, rfl, rfl⟩
  | cons e l ih =>
    obtain ⟨flags, delay, resident⟩ := writeEffect_frame g e
    rw [List.foldl_cons, ← flags, ← delay, ← resident]
    exact ih _

/-- A state that differs from another, of what an agent can see, in that agent alone. -/
structure OnlyAgent (s : State) (a : Aid) (t : State) (g : Agent) : Prop where
  own : t.agent? a = some g
  others : ∀ c, c ≠ a → t.agent? c = s.agent? c
  ms : t.ms = s.ms
  fab : t.fab = s.fab

section
variable {s} {a : Aid} {t : State} {g : Agent}

theorem OnlyAgent.updAgent (h : OnlyAgent s a t g) (f : Agent → Agent) : OnlyAgent s a (t.updAgent a f) (f g) where
  own := by rw [agent?_updAgent_self, h.own, Option.map_some]
  others c ne := (agent?_updAgent_ne t f ne).trans (h.others c ne)
  ms := (updAgent_ms ..).trans h.ms
  fab := (updAgent_fab ..).trans h.fab

/-- What neither the agents nor the memory nor the fabric show is not seen. -/
theorem OnlyAgent.congr (h : OnlyAgent s a t g) {u : State} (agents : u.agents = t.agents) (ms : u.ms = t.ms) (fab : u.fab = t.fab) :
    OnlyAgent s a u g where
  own := (agent?_congr agents ms a).trans h.own
  others c ne := (agent?_congr agents ms c).trans (h.others c ne)
  ms := ms.trans h.ms
  fab := fab.trans h.fab

theorem OnlyAgent.shotCommitted (h : OnlyAgent s a t g) (b : Aid × Nat) (ids : List Nat) :
    OnlyAgent s a (t.shotCommitted b ids) g := h.congr rfl rfl rfl

theorem OnlyAgent.transfer_block (h : OnlyAgent s a t g) (addr : Nat) :
    OnlyAgent s a (t.transfer a (.block addr)) { g with phase := .entering addr } := h.updAgent _

theorem OnlyAgent.commitEffect_reg (h : OnlyAgent s a t g) (x : Committing) (i : Nat) (w : RegWrite) (ids : List Nat) :
    OnlyAgent s a (t.commitEffect a x (i, .reg w, ids)) (g.writeEffect (i, .reg w)) := by
  have effect : t.commitEffect a x (i, .reg w, ids) = t.updAgent a fun g => g.write w.code w.val w.keep := by
    simp [State.commitEffect, h.own]
  rw [effect]
  exact h.updAgent _

end

/-- Every effect of a list is a register write. -/
def OnlyWrites (l : List (Nat × Effect)) : Prop := ∀ e ∈ l, ∃ w, e.2 = .reg w

theorem OnlyAgent.commitEffects {s : State} {a : Aid} (x : Committing) : ∀ {l : List (Nat × Effect)} (n : Nat) {t : State} {g : Agent},
    OnlyWrites l → OnlyAgent s a t g →
      OnlyAgent s a ((numberEffects n l).foldl (fun s e => s.commitEffect a x e) t) (l.foldl Agent.writeEffect g)
  | [], _, _, _, _, h => h
  | (i, e) :: l, n, t, g, writes, h => by
    obtain ⟨⟨w, rfl⟩, rest⟩ := List.forall_mem_cons.mp writes
    exact OnlyAgent.commitEffects (l := l) x (n + 1) rest (h.commitEffect_reg x i w _)

/-- A property of numbered effects that register writes have, whatever their numbers. -/
theorem numberEffects_forall {p : Nat × Effect × List Nat → Prop} (ofWrite : ∀ i w ids, p (i, .reg w, ids)) :
    ∀ {l : List (Nat × Effect)} (n : Nat), OnlyWrites l → ∀ e ∈ numberEffects n l, p e
  | [], _, _, _, he => by simp [numberEffects] at he
  | (i, e) :: l, n, writes, e', he => by
    obtain ⟨⟨w, rfl⟩, rest⟩ := List.forall_mem_cons.mp writes
    rcases List.mem_cons.mp he with rfl | he
    · exact ofWrite ..
    · exact numberEffects_forall ofWrite _ rest e' he

theorem foldl_id {α β : Type} {f : α → β → α} {l : List β} (same : ∀ e ∈ l, ∀ x, f x e = x) (x : α) : l.foldl f x = x := by
  induction l with
  | nil => rfl
  | cons e l ih =>
    obtain ⟨first, rest⟩ := List.forall_mem_cons.mp same
    rw [List.foldl_cons, first, ih rest]

theorem foldl_snoc {α : Type} {f : List α → α → List α} {l : List α} (same : ∀ e ∈ l, ∀ done, f done e = done ++ [e])
    (done : List α) : l.foldl f done = done ++ l := by
  induction l generalizing done with
  | nil => exact (List.append_nil done).symm
  | cons e l ih =>
    obtain ⟨first, rest⟩ := List.forall_mem_cons.mp same
    rw [List.foldl_cons, first, ih rest, List.append_assoc, List.singleton_append]

section
variable {s} {a : Aid} {l : List (Nat × Effect)} (writes : OnlyWrites l) (n : Nat)
include writes

theorem commitFirst_writes : (numberEffects n l).foldl (fun s e => s.commitFirst a e) s = s :=
  foldl_id (numberEffects_forall (fun _ _ _ _ => rfl) n writes) s

theorem commitLast_writes : (numberEffects n l).foldl (fun s e => s.commitLast a e) s = s :=
  foldl_id (numberEffects_forall (fun _ _ _ _ => rfl) n writes) s

theorem qpolFirst_writes : qpolFirst (numberEffects n l) = numberEffects n l := by
  refine (foldl_snoc ?_ []).trans (List.nil_append _)
  exact numberEffects_forall (fun _ _ _ _ => rfl) n writes

end

/-- The effects of a block, in order, are its effects. -/
theorem ordered_spec (b : Block) : (b.ordered.map Prod.fst).Pairwise (· ≤ ·) ∧ b.ordered.Perm b.effects := by
  suffices ∀ (es l : List (Nat × Effect)), (l.map Prod.fst).Pairwise (· ≤ ·) →
      ((es.foldl (fun l x => insertEffect x l) l).map Prod.fst).Pairwise (· ≤ ·) ∧
        (es.foldl (fun l x => insertEffect x l) l).Perm (l ++ es) from this b.effects [] .nil
  intro es
  induction es with
  | nil => intro l sorted; exact ⟨sorted, by simp⟩
  | cons x es ih =>
    intro l sorted
    obtain ⟨sorted', perm⟩ := ih _ (insertEffect_sorted x l sorted)
    exact ⟨sorted', perm.trans (((insertEffect_perm x l).append_right es).trans List.perm_middle.symm)⟩

/-- A commit of register writes changes, of what an agent can see, its own agent alone, which then has its writes and no block. -/
theorem commit_writes {s : State} {a : Aid} {g : Agent} (hg : s.agent? a = some g) {b : Block} (writes : OnlyWrites b.effects)
    (addr : Nat) : ∃ g', OnlyAgent s a (s.commit a g b (.block addr)) g' ∧ g'.block = none ∧ g'.phase = .entering addr ∧
      g'.regs = (b.ordered.foldl Agent.writeEffect g).regs ∧ g'.flags = g.flags ||| b.flags ∧ g'.delay = g.delay ∧
      g'.resident = mergeResidents g.resident b.residents := by
  have inOrder : OnlyWrites b.ordered := fun e he => writes e ((ordered_spec b).2.mem_iff.mp he)
  obtain ⟨flags, delay, resident⟩ := writeEffects_frame b.ordered g
  have start (k : Nat) : OnlyAgent s a { s with nextId := k } g := OnlyAgent.congr ⟨hg, fun _ _ => rfl, rfl, rfl⟩ rfl rfl rfl
  unfold State.commit
  dsimp only
  rw [qpolFirst_writes inOrder, commitFirst_writes inOrder, commitLast_writes inOrder]
  have written x k := OnlyAgent.commitEffects x s.nextId inOrder (start k)
  refine ⟨_, (((written _ _).shotCommitted _ _).updAgent _).transfer_block addr, rfl, rfl, rfl, ?_, ?_, ?_⟩
  · exact congrArg (· ||| b.flags) flags
  · exact delay
  · exact congrArg (mergeResidents · b.residents) resident

/-- Settles O49: entry reads the words of a block, whatever the agent; commit goes by the exits that have fired; and register writes at
commit fold over the effects in order. -/
theorem blockEntryAndCommit : Obligations.BlockEntryAndCommit := by
  unfold Obligations.BlockEntryAndCommit
  intro s a g hg alive
  refine ⟨fun addr phase ready => ⟨fun u c va words => ?_, fun u h ws words => ⟨fun full => ?_, fun room code checked => ?_⟩,
    fun off => ?_⟩, focus_of_none_older, fun f b rest isBlock older => ?_, fun b block => ?_, ordered_spec,
    fun b addr block writes => ?_⟩
  · exact blockEntry_fault hg alive phase ready words
  · exact ⟨_, blockEntry_waits hg alive phase ready words full, rfl⟩
  · exact ⟨_, _, blockEntry_enters hg alive phase ready words room checked, rfl, rfl, rfl, rfl, rfl, rfl, rfl, rfl, rfl, rfl, rfl⟩
  · exact blockEntry_fault hg alive phase ready (blockWords_misaligned s a g off)
  · obtain ⟨b', block⟩ := Option.isSome_iff_exists.mp isBlock
    refine ⟨?_, ?_, ?_, inFlight_length_focus block older⟩
    all_goals rw [focus_of_older block older]
  · have stays := blockCommit_stays hg alive block
    refine ⟨fun h => stays (.inl h), fun h => stays (.inr (.inl h)), fun h => stays (.inr (.inr h)),
      fun resolved feeds j goal exits => ⟨blockCommit_holds hg alive block resolved feeds exits,
        blockCommit_commits hg alive block resolved feeds exits⟩, fun resolved feeds several => ?_⟩
    exact ⟨_, foldl_max_attained (List.ne_nil_of_length_pos (Nat.zero_lt_of_lt several)), (foldl_max_bound _ 0).2,
      blockCommit_severalExits hg alive block resolved feeds several⟩
  · obtain ⟨g', ⟨own, others, ms, fab⟩, seen⟩ := commit_writes hg writes addr
    exact ⟨ms, fab, others, g', own, seen⟩

end Sys2Proof.Machine
end

section
/-! PROOF. Integer division and remainder element by element, and the types that an op accepts. Settles O19. -/
namespace Sys2Proof.Machine

/-- An F1 or F2 instruction that passes the type check has a type of its op (05 R99). -/
theorem ety_mem_of_typeOk {op : Nat} {f : FX} {lanes : Lanes} (ok : (f.ins op).typeOk lanes = true) :
    f.ety.toNat ∈ typesOf op := by
  cases lit : f.lit <;>
    simp only [Ins.typeOk, FX.ins, lit, Option.isSome, Bool.false_eq_true, if_true, if_false, Bool.and_eq_true] at ok <;>
    exact List.contains_iff_mem.mp ok.1

/-- Where all types of an op are integer types, the type check lets only these through. -/
theorem etyInt_of_typeOk {op : Nat} {f : FX} {lanes : Lanes} (ints : ∀ t ∈ typesOf op, etyInt t = true)
    (ok : (f.ins op).typeOk lanes = true) : etyInt f.ety.toNat = true :=
  ints _ (ety_mem_of_typeOk ok)

theorem sint_most_negative {W : Nat} (pos : 0 < W) : sint W (2 ^ (W - 1)) = -((2 ^ (W - 1) : Nat) : Int) := by
  have half := two_pow_pred pos
  rw [sint_of_not_lt (lt_irrefl _)]
  omega

theorem sint_all_ones {W : Nat} (pos : 0 < W) : sint W (2 ^ W - 1) = -1 := by
  have half := two_pow_pred pos
  have := Nat.two_pow_pos (W - 1)
  rw [sint_of_not_lt (by omega)]
  omega

/-- The signed quotient and remainder of any two elements: the case that the model takes apart, of the most negative number
over minus 1, agrees with the exact quotient narrowed to the width (06 R113). -/
theorem divElem_signed {W x y : Nat} (pos : 0 < W) : divElem W true x y =
    if y = 0 then (2 ^ W - 1, x)
    else (wrap W ((sint W x).tdiv (sint W y)), wrap W ((sint W x).tmod (sint W y))) := by
  unfold divElem
  simp only [if_true]
  split
  next => rfl
  next =>
    split
    next overflow =>
      obtain ⟨rfl, rfl⟩ := overflow
      have fits : 2 ^ (W - 1) < 2 ^ W := Nat.pow_lt_pow_right (by omega) (by omega)
      have zero : wrap W 0 = 0 := (wrap_natCast W 0).trans (Nat.zero_mod _)
      rw [sint_most_negative pos, sint_all_ones pos, Int.neg_tdiv_neg, Int.tdiv_one, Int.tmod_neg, Int.tmod_one, zero,
        wrap_natCast, Nat.mod_eq_of_lt fits]
    next => rw [Int.tmod_def, Int.mul_comm]

section
variable (s : State) (ins : Ins)

theorem elements_intDivs : Elements s ins (execVal ins intDivs s) fun i o j =>
    if o.y i j = 0 then 2 ^ i.ins.width - 1
    else wrap i.ins.width ((sint i.ins.width (o.x i j)).tdiv (sint i.ins.width (o.y i j))) :=
  elements_of_pure_congr s ins (fun _ => rfl) fun _ _ _ w => congrArg (· % _) <|
    (congrArg Prod.fst (divElem_signed (stdWidth_pos (.inr w)))).trans (apply_ite Prod.fst ..)

theorem elements_intRems : Elements s ins (execVal ins intRems s) fun i o j =>
    if o.y i j = 0 then o.x i j
    else wrap i.ins.width ((sint i.ins.width (o.x i j)).tmod (sint i.ins.width (o.y i j))) :=
  elements_of_pure_congr s ins (fun _ => rfl) fun _ _ _ w => congrArg (· % _) <|
    (congrArg Prod.snd (divElem_signed (stdWidth_pos (.inr w)))).trans (apply_ite Prod.snd ..)

theorem elements_intDivu : Elements s ins (execVal ins intDivu s) fun i o j =>
    if o.y i j = 0 then 2 ^ i.ins.width - 1 else o.x i j / o.y i j :=
  elements_of_pure_congr s ins (fun _ => rfl) fun _ _ _ _ => congrArg (· % _) (apply_ite Prod.fst ..)

theorem elements_intRemu : Elements s ins (execVal ins intRemu s) fun i o j =>
    if o.y i j = 0 then o.x i j else o.x i j % o.y i j :=
  elements_of_pure_congr s ins (fun _ => rfl) fun _ _ _ _ => congrArg (· % _) (apply_ite Prod.snd ..)

end

/-- Settles O19: each form is the quotient or the remainder of one element, and the types of the four ops are the integer types. -/
theorem division : Obligations.Division := fun s =>
  ⟨⟨fun _ => elements_intDivs s _, fun _ => elements_intDivs s _⟩,
    ⟨fun _ => elements_intDivu s _, fun _ => elements_intDivu s _⟩,
    ⟨fun _ => elements_intRems s _, fun _ => elements_intRems s _⟩,
    ⟨fun _ => elements_intRemu s _, fun _ => elements_intRemu s _⟩,
    have ints : ∀ op ∈ [0x08, 0x09, 0x0A, 0x0B], ∀ t ∈ typesOf op, etyInt t = true := by decide
    fun _ op mem _ ok => etyInt_of_typeOk (ints op mem) ok⟩

end Sys2Proof.Machine
end

section
/-! PROOF. The integer compares. Settles O23. -/
namespace Sys2Proof.Machine

/-- Settles O23: each compare is the relation of its elements without flags, and the types of the eight ops are the integer types.
What a `v` register keeps of an inactive scalar compare is the model's choice (log 54). -/
theorem integerCompares : Obligations.IntegerCompares := by
  intro s
  refine ⟨?ceq, ?cne, ?clt, ?cle, ?cltu, ?cleu, ?ceqi, ?clti, ?types⟩
  case types =>
    have ints : ∀ op ∈ [0x30, 0x31, 0x32, 0x33, 0x34, 0x35, 0x36, 0x37], ∀ t ∈ typesOf op, etyInt t = true := by decide
    exact fun _ op mem _ ok => etyInt_of_typeOk (ints op mem) ok
  all_goals exact ⟨fun _ => masks_of_relation s _ fun _ => rfl, fun _ => masks_of_relation s _ fun _ => rfl⟩

end Sys2Proof.Machine
end

section
/-! PROOF. Logic on predicates and their tests. Settles O24. -/
namespace Sys2Proof.Machine

/-- A value instruction made with `scalar` sends out its number, whatever `pmask` holds. -/
theorem scalars_of_scalar (s : State) (ins : Ins) {f : Opnds → Res} {g : Issue → Operands → Nat}
    (scalar : ∀ i o, f (i.opnds o) = .scalar (g i o)) : Scalars s ins (execVal ins f s) g :=
  fun i o ready => (execVal_ready ready f).trans (by rw [scalar])

/-! ### The elements that a test counts (06 R123) -/

section
variable (o : Opnds)

theorem counted_any : o.counted.any id = (List.range (count o.lanes.width)).any fun j =>
    active o.mask o.lanes.width j && active (lowScal o.a) o.lanes.width j := by
  rw [Opnds.counted, List.any_map, List.any_filter]
  rfl

theorem counted_all : o.counted.all id = (List.range (count o.lanes.width)).all fun j =>
    !active o.mask o.lanes.width j || active (lowScal o.a) o.lanes.width j := by
  rw [Opnds.counted, List.all_map, List.all_filter]
  rfl

theorem counted_countP : o.counted.countP id = (List.range (count o.lanes.width)).countP fun j =>
    active o.mask o.lanes.width j && active (lowScal o.a) o.lanes.width j := by
  rw [Opnds.counted, List.countP_map, List.countP_filter]
  exact List.countP_congr fun j _ => by simp [and_comm]

end

/-- Settles O24: a logic form is `scalar` of its 64-bit formula, and a test reads the counted elements of A. -/
theorem predicates : Obligations.Predicates := by
  intro s
  have any_ (i : Issue) (o : Operands) := congrArg (fun b : Bool => Res.scalar (if b then 2 ^ 64 - 1 else 0)) (counted_any (i.opnds o))
  have all_ (i : Issue) (o : Operands) := congrArg (fun b : Bool => Res.scalar (if b then 2 ^ 64 - 1 else 0)) (counted_all (i.opnds o))
  have cnt (i : Issue) (o : Operands) := congrArg Res.scalar (counted_countP (i.opnds o))
  refine ⟨?pand, ?por, ?pxor, ?pnot, ?pany, ?pall, ?pcnt⟩
  case pany => exact ⟨fun _ => scalars_of_scalar s _ any_, fun _ => scalars_of_scalar s _ any_⟩
  case pall => exact ⟨fun _ => scalars_of_scalar s _ all_, fun _ => scalars_of_scalar s _ all_⟩
  case pcnt => exact ⟨fun _ => scalars_of_scalar s _ cnt, fun _ => scalars_of_scalar s _ cnt⟩
  all_goals exact ⟨fun _ => scalars_of_scalar s _ fun _ _ => rfl, fun _ => scalars_of_scalar s _ fun _ _ => rfl⟩

end Sys2Proof.Machine
end

section
/-! PROOF. How an agent takes an exception, and the fields of the record that it makes. Settles O16. -/
namespace Sys2Proof.Machine

/-! ### The 64 bytes of a record (22 R399) -/

/-- Fields laid one above another, the lowest first, each of them a width and a number. -/
def stacked : List (Nat × Nat) → Nat
  | [] => 0
  | (w, x) :: fs => x + stacked fs * 2 ^ w

/-- The width of fields together. -/
def stackWidth (fs : List (Nat × Nat)) : Nat := (fs.map Prod.fst).sum

/-- Each number fits the width of its field. -/
def StackFits (fs : List (Nat × Nat)) : Prop := ∀ f ∈ fs, f.2 < 2 ^ f.1

theorem stacked_lt {fs : List (Nat × Nat)} (fits : StackFits fs) : stacked fs < 2 ^ stackWidth fs := by
  induction fs with
  | nil => exact Nat.one_pos
  | cons f fs ih =>
    obtain ⟨here, above⟩ := List.forall_mem_cons.1 fits
    calc f.2 + stacked fs * 2 ^ f.1 < (stacked fs + 1) * 2 ^ f.1 := by rw [Nat.succ_mul]; omega
      _ ≤ 2 ^ stackWidth fs * 2 ^ f.1 := Nat.mul_le_mul_right _ (ih above)
      _ = 2 ^ stackWidth (f :: fs) := by rw [← Nat.pow_add, Nat.add_comm]; rfl

/-- A field is read back at its place. -/
theorem stacked_field {w x : Nat} : ∀ {fs : List (Nat × Nat)} {k : Nat}, StackFits fs → fs[k]? = some (w, x) →
    stacked fs / 2 ^ stackWidth (fs.take k) % 2 ^ w = x
  | [], k, _, at_ => by simp at at_
  | f :: fs, 0, fits, at_ => by
    obtain rfl : f = (w, x) := by simpa using at_
    show (x + stacked fs * 2 ^ w) / 2 ^ 0 % 2 ^ w = x
    rw [Nat.pow_zero, Nat.div_one, Nat.add_mul_mod_self_right, Nat.mod_eq_of_lt (fits _ List.mem_cons_self)]
  | f :: fs, k + 1, fits, at_ => by
    obtain ⟨here, above⟩ := List.forall_mem_cons.1 fits
    show (f.2 + stacked fs * 2 ^ f.1) / 2 ^ (f.1 + stackWidth (fs.take k)) % 2 ^ w = x
    rw [Nat.pow_add, ← Nat.div_div_eq_div_mul, Nat.add_mul_div_right _ _ (Nat.two_pow_pos _), Nat.div_eq_of_lt here, Nat.zero_add]
    exact stacked_field above at_

/-- The fields of a record: bytes 14 and 15 and the last 8 are zero (22 R399). -/
def Trap.fields (t : Trap) : List (Nat × Nat) :=
  [(8, t.cause), (8, t.tflags), (16, t.ctx), (16, t.inc), (16, t.vq), (8, t.cu), (8, t.slot), (8, t.die), (8, t.bid), (16, t.iidx),
   (16, 0), (64, t.baddr), (64, t.va), (64, t.tick), (64, t.detail), (64, t.handle), (64, 0)]

theorem payload_eq_stacked (t : Trap) : t.payload = BitVec.ofNat 512 (stacked t.fields) := by
  simp only [Trap.payload, Trap.fields, stacked, Nat.add_mul, Nat.mul_assoc, ← Nat.pow_add, Nat.reduceAdd, Nat.zero_mul, Nat.zero_add,
    Nat.add_zero, Nat.add_assoc]

/-- The payload of a record holds each of its fields. -/
theorem payload_field {t : Trap} (fits : StackFits t.fields) {off w x : Nat} (k : Nat) (at_ : t.fields[k]? = some (w, x))
    (below : stackWidth (t.fields.take k) = off := by simp [stackWidth, Trap.fields]) : t.payload.toNat / 2 ^ off % 2 ^ w = x := by
  have width : stackWidth t.fields = 512 := by simp [stackWidth, Trap.fields]
  have whole := stacked_lt fits
  rw [width] at whole
  simp only [payload_eq_stacked, BitVec.toNat_ofNat, Nat.mod_eq_of_lt whole, ← below, stacked_field fits at_]

/-! ### The suspension of an agent -/

section
variable {s t : State} (a : Aid) (g : Agent) (sched : t.sched = s.sched)
include sched

theorem raiserRank_congr : t.raiserRank a g = s.raiserRank a g := by
  have context : t.context g.ctx = s.context g.ctx := congrArg (fun x : Sched => Tab.getD x.contexts g.ctx .reset) sched
  have partition (p : Nat) : t.partition p = s.partition p := congrArg (fun x : Sched => Tab.getD x.partitions p (.reset p)) sched
  have control (d n : Nat) : t.threadCtl d n = s.threadCtl d n := congrArg (fun x : Sched => Tab.getD x.threads (d, n) .reset) sched
  cases a with
  | actor => rfl
  | thread d n => rw [State.raiserRank, State.raiserRank, context, partition, control]

theorem incOf_congr : t.incOf a g = s.incOf a g := by simp only [State.incOf, sched]

end

/-- An agent is as it was where a change of the memory system leaves the timestamps of what has never acted. -/
theorem agent?_updMs {s : State} {f : MemSys → MemSys} (floors : (f s.ms).floors = s.ms.floors) (c : Aid) :
    (s.updMs f).agent? c = s.agent? c := by
  simp only [State.agent?, State.freshThread, State.floorTs, updMs_agents, updMs_ms, floors]

/-- The state once a block is abandoned and its agent suspended at an address (22 R402). -/
def State.suspend (s : State) (a : Aid) (pc : Nat) (noTrap : Bool) : State :=
  (s.dropBlock a).updAgent a fun g => { g with phase := .suspended pc noTrap }

section
variable (s : State) (a : Aid) (pc : Nat) (noTrap : Bool)

@[simp] theorem suspend_sched : (s.suspend a pc noTrap).sched = s.sched := by simp [State.suspend, State.dropBlock]
@[simp] theorem suspend_fab : (s.suspend a pc noTrap).fab = s.fab := by simp [State.suspend, State.dropBlock]
@[simp] theorem suspend_out : (s.suspend a pc noTrap).out = s.out := by simp [State.suspend, State.dropBlock]
@[simp] theorem suspend_clk : (s.suspend a pc noTrap).clk = s.clk := by simp [State.suspend, State.dropBlock]
@[simp] theorem suspend_nextId : (s.suspend a pc noTrap).nextId = s.nextId := by simp [State.suspend, State.dropBlock]

/-- Of the memory system only the loads change. -/
theorem suspend_ms : (s.suspend a pc noTrap).ms = { s.ms with loads := (s.suspend a pc noTrap).ms.loads } := by
  simp [State.suspend, State.dropBlock]

theorem agent?_suspend_self {g : Agent} (hg : s.agent? a = some g) : (s.suspend a pc noTrap).agent? a = some { g with
    block := none, deadline := [], waitSince := none, younger := [], phase := .suspended pc noTrap } := by
  rw [State.suspend, State.dropBlock, agent?_updAgent_self, agent?_updMs (by rfl), agent?_updAgent_self, hg]
  rfl

theorem agent?_suspend_ne {c : Aid} (ne : c ≠ a) : (s.suspend a pc noTrap).agent? c = s.agent? c := by
  rw [State.suspend, State.dropBlock, agent?_updAgent_ne _ _ ne, agent?_updMs (by rfl), agent?_updAgent_ne _ _ ne]

end

/-! ### The record -/

section
variable (s : State) (t : Trap) (who : Option Aid) (management : Bool)

@[simp] theorem postTrap_agents : (s.postTrap t who management).agents = s.agents := rfl
@[simp] theorem postTrap_ms : (s.postTrap t who management).ms = s.ms := rfl
@[simp] theorem postTrap_fab : (s.postTrap t who management).fab = s.fab := rfl
@[simp] theorem postTrap_out : (s.postTrap t who management).out = s.out := rfl
@[simp] theorem postTrap_clk : (s.postTrap t who management).clk = s.clk := rfl
@[simp] theorem postTrap_nextId : (s.postTrap t who management).nextId = s.nextId + 1 := rfl

@[simp] theorem postTrap_sched : (s.postTrap t who management).sched =
    { s.sched with traps := s.sched.traps ++ [⟨s.nextId, t, who, [], false, false, management, false, none⟩] } := rfl

end

/-- The record of an exception that an agent takes in its block (22 R399). -/
def State.trapOf (s : State) (a : Aid) (g : Agent) (b : Block) (cause iidx baddr va detail : Nat) : Trap :=
  ⟨cause, if a.isThread then 4 else 0, g.ctx, s.incOf a g, g.vq, g.cu, g.slot, g.die, if iidx = 0xFFFF then 0 else hdrId b.hdr, iidx,
    baddr, va, s.clk.tick, detail, g.handle a (s.incOf a g)⟩

/-- A record is not an unhandled one of the region of an agent (22 R401). -/
def TrapEntry.Passes (e : TrapEntry) (a : Aid) : Prop :=
  e.taken = true ∨ e.management = true ∨ ∀ w, e.who = some w → w.rid = none ∨ w.rid ≠ a.rid

/-- With no unhandled record of its region, an agent that is no fault thread is suspended and makes a record of its own. -/
theorem takeTrap_eq {s : State} {a : Aid} {g : Agent} {b : Block} (hg : s.agent? a = some g) (hb : g.block = some b)
    (rank : s.raiserRank a g = 0) (free : ∀ e ∈ s.sched.traps, e.Passes a) (cause iidx baddr va detail : Nat) :
    s.takeTrap a cause iidx baddr va detail =
    (s.suspend a baddr (cause == 0x20 || cause == 0x21)).postTrap (s.trapOf a g b cause iidx baddr va detail) (some a) false := by
  have rank' : ∀ pc noTrap, ¬(s.suspend a pc noTrap).raiserRank a g > 0 := fun pc noTrap => by
    rw [raiserRank_congr a g (suspend_sched ..), rank]; decide
  have inc : ∀ pc noTrap, (s.suspend a pc noTrap).incOf a g = s.incOf a g := fun pc noTrap => incOf_congr a g (suspend_sched ..)
  unfold State.takeTrap
  simp only [hg, hb]
  rw [← State.suspend, if_neg (rank' _ _), inc, suspend_sched, suspend_clk, List.find?_eq_none.2 ?passes]
  · rfl
  case passes =>
    intro e mem
    obtain taken | management | other := free e mem
    · simp [taken]
    · simp [management]
    · cases who : e.who with
      | none => simp
      | some w => rcases other w who with rid | rid <;> simp [rid]

/-- Settles O16: the agent is suspended and its record posted, and each byte range of a record is one of its fields. -/
theorem trapTaken : Obligations.TrapTaken := by
  unfold Obligations.TrapTaken
  refine ⟨fun s a g b cause iidx baddr va detail hg hb rank free => ?taken,
    fun t cause tflags ctx inc vq cu slot die bid iidx baddr va tick detail handle => ?payload⟩
  case taken =>
    rw [takeTrap_eq hg hb rank free]
    have agents (c : Aid) := agent?_congr (postTrap_agents (s.suspend a baddr (cause == 0x20 || cause == 0x21))
      (s.trapOf a g b cause iidx baddr va detail) (some a) false) (postTrap_ms ..) c
    refine ⟨(agents a).trans (agent?_suspend_self s a _ _ hg), fun c ne => (agents c).trans (agent?_suspend_ne s a _ _ ne),
      suspend_ms .., ?_, ?_, ?_, ?_, ?_⟩
    all_goals simp [State.trapOf, hdrId]
  case payload =>
    have fits : StackFits t.fields := by
      simpa [StackFits, Trap.fields] using ⟨cause, tflags, ctx, inc, vq, cu, slot, die, bid, iidx, baddr, va, tick, detail, handle⟩
    exact ⟨payload_field fits 0 rfl, payload_field fits 1 rfl, payload_field fits 2 rfl, payload_field fits 3 rfl,
      payload_field fits 4 rfl, payload_field fits 5 rfl, payload_field fits 6 rfl, payload_field fits 7 rfl,
      payload_field fits 8 rfl, payload_field fits 9 rfl, payload_field fits 10 rfl, payload_field fits 11 rfl,
      payload_field fits 12 rfl, payload_field fits 13 rfl, payload_field fits 14 rfl, payload_field fits 15 rfl,
      payload_field fits 16 rfl⟩

end Sys2Proof.Machine
end

section
/-! PROOF. The exits, whose transfer of control waits for the commit. Settles O34. -/
namespace Sys2Proof.Machine

variable {s : State} {i : Issue} {o : Operands}

/-- The address of the next block, from the word count of the header (08 R158). -/
theorem nextAddr_eq (b : Block) :
    b.nextAddr = ((b.addr + 16 + 4 * (b.hdr.extractLsb' 13 8).toNat + 15) / 16 * 16) % 2 ^ 64 := wrap_natCast ..

/-- An exit that sends nothing notes where control goes. -/
theorem records_of_exitTo (s : State) (ins : Ins) (x : Issue → Operands → ExitTo) :
    Records s ins (.next (s.issue ins fun i o s => s.exitTo i (x i o))) fun i o b =>
      { b.setStat i.idx .fired with exits := b.exits ++ [(i.idx, x i o)] } :=
  fun _ _ ready => congrArg _ (issue_ready ready _)

/-- Where `loopn` goes (08 R163): on while its count is above 1, then to the next block. -/
def Issue.loopsTo (i : Issue) (o : Operands) : ExitTo :=
  if scalNat o.a.bits > 1 then .block (i.b.relative (16 * i.ins.immediate)) else .block i.b.nextAddr

theorem loopn_ready {ins : Ins} (ready : Ready s ins i o) : (.next (s.issue ins loopnBody) : Answer) =
    .next (((s.issued i o).sendAtCommit i ⟨scal (scalNat o.a.bits - 1), o.dep⟩).exitTo i (i.loopsTo o)) := by
  rw [issue_ready ready, loopnBody, Issue.loopsTo, ← apply_ite ExitTo.block]

theorem sendAtCommit_register {c : Nat} (h : Target.of i.ins.t0 = .reg c) (v : Val) : s.sendAtCommit i v = s.deliver i v v 0 := by
  simp only [State.sendAtCommit, h]

/-- A slot gets the value for the entries to come only, where it is sticky (08 R163; the model's reading, log 7). -/
theorem sendAtCommit_slot {slot j : Nat} (h : Target.of i.ins.t0 = .slot slot j) (v : Val) : s.sendAtCommit i v =
    s.updBlock i.aid fun b => { b.setStat i.idx .fired with
      sticky := if i.b.stkAt j slot = 0 then b.sticky
        else (b.sticky.filter fun x => !(x.1 == j && x.2.1 == slot)) ++ [(j, slot, i.b.stkAt j slot, v)] } := by
  simp only [State.sendAtCommit, h]
  rfl

/-- `eret` ends the run, and notes the return for the commit (23 R413). -/
theorem eret_ready {f : F0} (ready : Ready s (f.ins 0xD5) i o) : execEret f s = .next ((s.issued i o).updBlock i.aid fun b =>
    { b.setStat i.idx .fired with
      effects := b.effects ++ [(i.idx, .sys ⟨0xD5, 0, bitsAt o.a.bits.toNat 384 64, 0, i.ins.tokenReg⟩ (i.follows o))]
      exits := b.exits ++ [(i.idx, .done)] }) := by
  rw [execEret, issue_ready ready, State.exitTo, updBlock_updBlock]
  rfl

/-- Settles O34: each exit as it issues, `loopn` by what its target names. That its count to a slot of its own block is seen by later
entries only is the model's reading (log 7). -/
theorem exitsWaitForCommit : Obligations.ExitsWaitForCommit := by
  unfold Obligations.ExitsWaitForCommit
  intro s leaves offset next sends loops
  have loopn : ∀ ins, loops ins (.next (s.issue ins loopnBody)) := by
    intro ins i o ready x
    have goal : i.loopsTo o = x := by rw [Issue.loopsTo, nextAddr_eq]; rfl
    rw [loopn_ready ready, goal]
    exact ⟨fun c h => by rw [sendAtCommit_register h]; rfl, fun slot j h => by rw [sendAtCommit_slot h]; rfl⟩
  refine ⟨fun _ => records_of_exitTo _ _ _, fun _ => records_of_exitTo _ _ _, fun _ => records_of_exitTo _ _ _,
    fun _ => records_of_exitTo _ _ _, fun _ => records_of_exitTo _ _ _, fun f i o ready => ?call, fun _ => loopn _, fun _ => loopn _,
    fun f i o ready => ?eret⟩
  case call =>
    have next_ : i.b.nextAddr = next i := nextAddr_eq i.b
    exact (congrArg Host.Outcome.next (issue_ready ready _)).trans (by rw [next_]; rfl)
  case eret => exact ⟨_, _, eret_ready ready, rfl, rfl, bitsAt_eq ..⟩

end Sys2Proof.Machine
end

section
/-! PROOF. `trap` and `brk`, which suspend the firing at its block. Settles O35. -/
namespace Sys2Proof.Machine

/-- In the entry that resumes a block which it suspended, a software trap declines (08 R166). -/
theorem trapBody_resumed {i : Issue} (h : i.b.noTrap = true) (cause : Nat) (o : Operands) (s : State) :
    trapBody cause i o s = s.updBlock i.aid fun b => b.setStat i.idx .declined := if_pos h

theorem trapBody_takes {i : Issue} (h : i.b.noTrap = false) (cause : Nat) (o : Operands) (s : State) :
    trapBody cause i o s = s.takeTrap i.aid cause i.idx i.b.addr (wrap 64 i.ins.immediate) 0 := if_neg (Bool.eq_false_iff.1 h)

/-- Settles O35: both are one body with a cause of its own. -/
theorem softwareTraps : Obligations.SoftwareTraps := by
  unfold Obligations.SoftwareTraps
  intro s takes
  have body : ∀ ins cause, takes ins (.next (s.issue ins (trapBody cause))) cause := by
    intro ins cause i o ready
    rw [issue_ready ready]
    exact ⟨fun h => congrArg _ (trapBody_takes h ..), fun h => congrArg _ (trapBody_resumed h ..)⟩
  exact ⟨fun _ => body _ 0x20, fun _ => body _ 0x21⟩

end Sys2Proof.Machine
end

section
/-! PROOF. `twait` and `swait`, which wait for a tick. Settles O37. -/
namespace Sys2Proof.Machine

variable {s : State}

/-! ### The wait -/

theorem execTwaitF1_ready {f : FX} {i : Issue} {o : Operands} (ready : Ready s (f.ins 0x7B) i o) : execTwaitF1 f s =
    .next ((s.issued i o).awaitDeadline i (if f.rm = 1 then (s.clk.tick + scalNat o.a.bits) % 2 ^ 64 else scalNat o.a.bits) o.dep) := by
  rw [execTwaitF1, issue_ready ready, issued_clk]

/-! ### The end of the wait -/

section
variable {a : Aid} {g : Agent} {b : Block} {j w : Nat} {dep : List Nat} {ins : Ins} (hg : s.agent? a = some g) (hb : g.block = some b)
  (at_ : b.insAt j = some ins) (one : g.deadline = [(j, w, dep)])
include hg hb at_ one

/-- The one instruction that waits is due where it is of the op, and its deadline has come or it may fire early. -/
theorem due_of_one (op : Nat) (early : Bool) :
    s.due a op early = if ins.op = op ∧ (w ≤ s.clk.tick ∨ early = true) then [(j, dep)] else [] := by
  simp only [State.due, hg, hb, one, List.filterMap_cons, List.filterMap_nil, at_]
  split <;> simp_all

/-- The one instruction that waits fires, and its agent waits no more. -/
theorem wake_of_one (n : Nat) : s.wake a n (j, dep) =
    (s.updAgent a fun g => { g with deadline := [] }).deliver ⟨a, g, b, j, ins⟩ ⟨scal n, dep⟩ ⟨scal n, dep⟩ 0 := by
  have issue : s.issueOf a j = some ⟨a, g, b, j, ins⟩ := by simp only [State.issueOf, hg, hb, at_, Option.map_some]
  have gone : Tab.erase g.deadline j = [] := by simp [one, Tab.erase]
  simp only [State.wake, issue, State.updAgent, hg, gone]

/-- The waiting instructions of an op that are due, woken: the one fires, or nothing happens. -/
theorem wake_due (op : Nat) (early : Bool) (n : State → Nat) : (s.due a op early).foldl (fun s e => s.wake a (n s) e) s =
    if ins.op = op ∧ (w ≤ s.clk.tick ∨ early = true) then
      (s.updAgent a fun g => { g with deadline := [] }).deliver ⟨a, g, b, j, ins⟩ ⟨scal (n s), dep⟩ ⟨scal (n s), dep⟩ 0
    else s := by
  rw [due_of_one hg hb at_ one]
  split
  · exact wake_of_one hg hb at_ one (n s)
  · rfl

end

/-- Settles O37: the four instructions note their deadline, and at its tick, or a second call, the one that waits fires. That a deadline
of `.rel` is taken modulo 2 ^ 64 is the model's choice (log 61). -/
theorem waitsForATick : Obligations.WaitsForATick := by
  unfold Obligations.WaitsForATick
  intro s waits
  refine ⟨fun f i o ready => congrArg _ (issue_ready ready _), fun f i o ready => execTwaitF1_ready ready,
    fun f i o ready => congrArg _ (issue_ready ready _), fun f i o ready => congrArg _ (issue_ready ready _),
    fun a g b j w dep ins hg hb alive at_ one => ?_⟩
  intro fires
  have woken := wake_due hg hb at_ one
  have twait : exec (.twaitDeadline a) s = .next ((s.due a 0x7B false).foldl (fun s e => s.wake a s.clk.tick e) s) :=
    congrArg Host.Outcome.next (if_pos alive)
  refine ⟨fun op reached => ?_, fun op early => ?_, fun d t thread op => ?_⟩
  · rw [twait, woken 0x7B false fun s => s.clk.tick, if_pos ⟨op, .inl reached⟩]
  · rw [twait, woken 0x7B false fun s => s.clk.tick, if_neg fun due => due.2.elim (Nat.not_le.2 early) Bool.false_ne_true]
  · intro held
    subst thread
    have swait : exec (.swaitWake (.thread d t)) s = _ := congrArg Host.Outcome.next (woken 0xD2 (decide (held ≥ 2)) fun _ => held)
    rw [swait]
    exact ⟨fun ends => congrArg _ (if_pos ⟨op, ends.imp_right decide_eq_true⟩),
      fun early few => congrArg _ (if_neg fun due => due.2.elim (Nat.not_le.2 early) fun two => Nat.not_le.2 few (of_decide_eq_true two))⟩

end Sys2Proof.Machine
end

section
/-! PROOF. A join, which counts the records that reach its control arcs and fires when each arc has one. Settles O51. -/
namespace Sys2Proof.Machine

variable {s : State} {n : Nid}

/-- A node that may act belongs to a launch that runs (20 R354). -/
theorem running_of_nodeAlive (alive : s.nodeAlive n = true) : s.running n.rid = true := by
  unfold State.nodeAlive State.alive at alive
  unfold State.running
  split at alive <;> simp_all

section
variable {j : Join} (hj : Tab.get? s.fab.joins n = some j)
include hj

/-! ### Arrivals at a control arc -/

section
variable {arc c : Nat} {r : Record} {rest : List (Nid × Nat × Record)} (running : s.running n.rid = true)
  (next : takeArc n arc s.fab.arcFlight = some (r, rest)) (at_ : j.counts[arc]? = some c)
include running next at_

/-- A record that reaches an arc leaves its flight, and is counted unless the arc's count is full. -/
theorem execJoinArcArrival_of_flight : execJoinArcArrival n arc s = .next (
    if 65535 ≤ c then (s.updFab fun f => { f with arcFlight := rest }).countNode n 0x40
    else s.updFab fun f => { f with
      arcFlight := rest, joins := Tab.set f.joins n { j with counts := j.counts.set arc (c + 1), sr := unionDep j.sr r.sr } }) := by
  have count : j.counts.getD arc 0 = c := by rw [List.getD_eq_getElem?_getD, at_, Option.getD_some]
  simp only [execJoinArcArrival, running, next, hj, count]
  rfl

theorem execJoinArcArrival_counts (room : c < 65535) : execJoinArcArrival n arc s = .next (s.updFab fun f => { f with
    arcFlight := rest, joins := Tab.set f.joins n { j with counts := j.counts.set arc (c + 1), sr := unionDep j.sr r.sr } }) := by
  rw [execJoinArcArrival_of_flight hj running next at_, if_neg (Nat.not_le.2 room)]

theorem execJoinArcArrival_overflows (full : 65535 ≤ c) : execJoinArcArrival n arc s =
    .next ((s.updFab fun f => { f with arcFlight := rest }).countNode n 0x40) := by
  rw [execJoinArcArrival_of_flight hj running next at_, if_pos full]

end

/-! ### Firing -/

theorem execJoinFire_of_zero (zero : ∃ c ∈ j.counts, c = 0) : execJoinFire n s = .next s := by
  have hasZero : j.counts.any (· == 0) = true := by simpa using zero
  simp only [execJoinFire, hj]
  rw [if_pos (by rw [hasZero, Bool.or_true])]

/-- What a join keeps when it fires: one arrival less on each arc, and the `sr` of what it still counts. -/
def Join.fired (j : Join) : Join :=
  { j with counts := j.counts.map (· - 1), sr := if (j.counts.map (· - 1)).all (· == 0) then [] else j.sr }

theorem execJoinFire_fires (alive : s.nodeAlive n = true) (arcs : j.counts ≠ []) (each : ∀ c ∈ j.counts, 1 ≤ c) :
    execJoinFire n s = .next (j.release.foldl (fun s d => s.putOn d { Record.null with sr := j.sr })
      (s.updFab fun f => { f with joins := Tab.set f.joins n j.fired })) := by
  have noZero : j.counts.any (· == 0) = false := by
    simpa using fun c (mem : c ∈ j.counts) => Nat.one_le_iff_ne_zero.1 (each c mem)
  have hasArcs : j.counts.isEmpty = false := List.isEmpty_eq_false_iff.2 arcs
  simp only [execJoinFire, hj]
  rw [if_neg (by simp [alive, hasArcs, noZero])]
  rfl

end

/-- Settles O51: an arrival is counted or overflows by the count of its arc, and the join fires unless a count is 0. That the
NULL records carry the `sr` of what the join counted is the model's reading (log 12). -/
theorem joinsCountAndFire : Obligations.JoinsCountAndFire := by
  unfold Obligations.JoinsCountAndFire
  intro s n j hj alive
  have running := running_of_nodeAlive alive
  exact ⟨fun arc r rest c next at_ => ⟨fun room => ⟨_, execJoinArcArrival_counts hj running next at_ room, rfl⟩,
      execJoinArcArrival_overflows hj running next at_⟩,
    execJoinFire_of_zero hj, fun arcs each => ⟨_, j.fired, execJoinFire_fires hj alive arcs each, rfl, rfl, rfl⟩⟩

end Sys2Proof.Machine
end

section
/-! PROOF. How windows, sinks and matrix elements take the records before them. Settles O52. -/
namespace Sys2Proof.Machine

variable {s u : State} {n : Nid} {q : Qid} {r : Record}

/-! ### Windows: what a DATA record does (10 R214, R215) -/

/-- The gap that a window keeps of a record for which its banks have no room. -/
def WinGap.ofLost (side : Nat) (r : Record) : WinGap :=
  ⟨side, r.time, r.time, r.kv, if r.kv then r.key else 0, if r.kv then r.key else 0, wt16ToF32 r.weight, r.exc, r.sr⟩

/-- What a window does with such a record: it counts it and keeps its gap. -/
def State.winLoses (s : State) (n : Nid) (side : Nat) (r : Record) : State := (s.countNode n 0x42).winGap n (WinGap.ofLost side r)

/-- The key under which an aggregate adds a record. -/
def Record.aggKey (r : Record) (bykey : Bool) : Option Nat := if bykey && r.kv then some r.key else none

section
variable {w : Window} {side : Nat} (hw : Tab.get? s.fab.windows n = some w)
include hw

theorem winData_late (late : r.time / w.W < w.closed) :
    s.winData n side r = (s.countNode n 0x41).updWindow n fun w => { w with excNext := true } := by
  simp only [State.winData, hw, if_pos late]

variable (isOpen : w.closed ≤ r.time / w.W)
include isOpen

/-- A join keeps a record of an open window while its banks have room. -/
theorem winData_of_join {f : Bool} (fn : w.fn = .join f) :
    s.winData n side r = if w.cap ≤ w.used then s.winLoses n side r else s.updWindow n fun w' =>
      w'.setOpen { w'.openOf (r.time / w.W) with recs := (w'.openOf (r.time / w.W)).recs ++ [⟨side, r⟩] } := by
  simp only [State.winData, hw, fn, if_neg (Nat.not_lt.2 isOpen)]
  rfl

section
variable {lane : Nat} {bykey total : Bool} (fn : w.fn = .agg lane bykey total)
include fn

/-- An aggregate adds a record of an open window to the result of its key. -/
theorem winData_adds :
    let o := w.openOf (r.time / w.W)
    (∃ g ∈ o.slots, g.key = r.aggKey bykey) → s.winData n side r = s.updWindow n fun w => w.setOpen { o with
      slots := o.slots.map fun g => if g.key = r.aggKey bykey then g.add lane total r else g } := by
  intro o known
  simp only [State.winData, hw, fn, if_neg (Nat.not_lt.2 isOpen)]
  exact if_pos (by simpa [Record.aggKey] using known)

/-- A record of another key begins a result, while the banks have room. -/
theorem winData_of_new_key :
    let o := w.openOf (r.time / w.W)
    (∀ g ∈ o.slots, g.key ≠ r.aggKey bykey) → s.winData n side r =
      if w.cap ≤ w.used then s.winLoses n side r
      else s.updWindow n fun w => w.setOpen { o with slots := o.slots ++ [(AggSlot.empty (r.aggKey bykey)).add lane total r] } := by
  intro o new
  simp only [State.winData, hw, fn, if_neg (Nat.not_lt.2 isOpen)]
  exact if_neg (by simpa [Record.aggKey] using new)

end

end

/-! ### Windows: the head of an input, by its kind (10 R213, R214; 09 R179) -/

section
variable {w : Window} {k : Nat} (hw : Tab.get? s.fab.windows n = some w) (alive : s.nodeAlive n = true) (input : w.ins[k]? = some q)
  (head : s.head? q = some r)
include hw alive input head

theorem windowInput_data (kind : r.kind = kDATA) :
    execWindowInput n k s = .next (((s.dequeue q 1).progress n.rid).winData n k r) := by
  simp [execWindowInput, hw, alive, input, head, kind, kDATA, kDRAIN, kCFG]

theorem windowInput_close_mark (kind : r.kind = kWCLOSE) :
    execWindowInput n k s = .next ((((s.dequeue q 1).progress n.rid).updWindow n fun w =>
      { w with marks := w.marks.mapIdx fun j m => if j = k then max m r.time else m }).closeWindows n) := by
  simp [execWindowInput, hw, alive, input, head, kind, kWCLOSE, kDATA, kGAP, kDRAIN, kCFG]

theorem windowInput_end (kind : r.kind = kEND) (goes : w.finished = false) :
    execWindowInput n k s = .next ((((s.dequeue q 1).progress n.rid).updWindow n fun w =>
      { w with ended := w.ended.set k true }).closeWindows n) := by
  simp [execWindowInput, hw, alive, input, head, kind, goes, kEND, kWCLOSE, kDATA, kGAP, kDRAIN, kCFG]

theorem windowInput_drain_waits (kind : r.kind = kDRAIN) (others : ∃ p ∈ w.ins, (s.head? p).map (·.kind) ≠ some kDRAIN) :
    execWindowInput n k s = .next s := by
  have notAll : (w.ins.all fun p => (s.head? p).map (·.kind) == some kDRAIN) = false := by simpa using others
  simp only [execWindowInput, hw, alive, input, head, if_true, if_pos kind, notAll]
  rfl

theorem windowInput_passes (kind : r.kind = kEOF ∨ r.kind = kSWAP) :
    execWindowInput n k s = .next (((s.dequeue q 1).progress n.rid).winPut n r) := by
  rcases kind with kind | kind <;>
    simp [execWindowInput, hw, alive, input, head, kind, kEOF, kSWAP, kEND, kWCLOSE, kDATA, kGAP, kDRAIN, kCFG]

end

/-! ### Windows: closing (10 R213, R215 to R217) -/

section
variable {w : Window} (hw : Tab.get? s.fab.windows n = some w)

/-- While an input goes on, the smallest watermark bounds the windows that close. -/
theorem bound_of_marks (goes : w.ended.all id = false) (passed : w.closed ≤ w.marks.foldl min (w.marks.headD 0) / w.W) :
    w.bound = w.marks.foldl min (w.marks.headD 0) / w.W := by
  rw [Window.bound, goes, if_neg Bool.false_ne_true, max_eq_right passed]

include hw

theorem closeWindows_of_marks (goes : w.ended.all id = false) (passed : w.closed ≤ w.marks.foldl min (w.marks.headD 0) / w.W) :
    let mark := w.marks.foldl min (w.marks.headD 0)
    s.closeWindows n = ((List.range (mark / w.W - w.closed)).foldl (fun s j =>
      (s.closeWindow n (w.closed + j)).winPut n { Record.token kWCLOSE with time := mark }) s).updWindow n fun v =>
        { v with closed := mark / w.W, gaps := v.gaps.filter fun g => g.tmax / v.W ≥ mark / w.W, finished := false } := by
  simp only [State.closeWindows, hw, bound_of_marks goes passed, goes]
  rfl

variable (i : Nat)

theorem closeWindow_agg {lane : Nat} {bykey total : Bool} (fn : w.fn = .agg lane bykey total) :
    s.closeWindow n i = (aggOutputs bykey w.W (w.openOf i) (w.gaps.filter fun g => g.overlaps w.W i)).foldl (fun s r => s.winPut n r)
      (s.updWindow n fun w => { w with opens := w.opens.filter fun o => o.id != i }) := by
  simp only [State.closeWindow, hw, fn]

theorem closeWindow_join {f : Bool} (fn : w.fn = .join f) :
    s.closeWindow n i = (joinOutputs f (w.openOf i) (w.gaps.filter fun g => g.overlaps w.W i)).foldl (fun s r => s.winPut n r)
      (s.updWindow n fun w => { w with opens := w.opens.filter fun o => o.id != i }) := by
  simp only [State.closeWindow, hw, fn]

end

/-! ### Sinks (10 R221, R222) -/

/-- Changes a sink. -/
def State.updSink (s : State) (n : Nid) (f : Sink → Sink) : State := s.updFab fun x => { x with sinks := Tab.modify x.sinks n f }

section
variable {k : Sink} {bs : List Byte}
  (read : s.muRead (s.nodeQuad n).1 (s.nodeQuad n).2 k.ctx (wrap 64 ((k.log : Int) - 8)) 8 = (u, .ok bs))
include read

theorem sinkLog_full (full : k.size ≤ k.wr - bytesNat bs) :
    s.sinkLog n k r = (u.updSink n fun k => { k with reported := false }).countNode n 0x43 := by
  simp only [State.sinkLog, read]
  exact if_pos full

theorem sinkLog_writes (room : k.wr - bytesNat bs < k.size) {x : State}
    (written : (u.updSink n fun k => { k with reported := false }).muWrite (s.nodeQuad n).1 (s.nodeQuad n).2 k.ctx
      (wrap 64 (k.log + 32 * (k.wr % k.size) : Nat)) (sinkEntry (((s.queue? k.exit).map (·.qid)).getD 0) k.seq r) = (x, .ok ())) :
    s.sinkLog n k r = x.updSink n fun k => { k with wr := k.wr + 1 } := by
  unfold State.updSink at written ⊢
  simp only [State.sinkLog, read, if_neg (Nat.not_le.2 room), written]

end

/-- A sink logs a record with a flag, DATA of zero weight (03 R42) and a reserved kind (R48). -/
def Record.flagged (r : Record) : Prop :=
  r.exc = true ∨ r.wsat = true ∨ (r.kind = kDATA ∧ (wt16Value r.weight).isZero = true) ∨ 10 ≤ r.kind

theorem flagged_iff (r : Record) : r.flagged ↔
    (r.exc || r.wsat || (r.kind == kDATA && (wt16Value r.weight).isZero) || decide (r.kind ≥ 10)) = true := by
  simp [Record.flagged, or_assoc]

section
variable {k : Sink} {rest : List (Qid × Record)} (hk : Tab.get? s.fab.sinks n = some k) (alive : s.nodeAlive n = true)
  (next : takeFlight k.exit s.fab.flight = some (r, rest))
include hk alive next

theorem execSinkRecord_plain (plain : ¬ r.flagged) : execSinkRecord n s =
    .next (((s.updFab fun f => { f with flight := rest }).updSink n fun k => { k with seq := k.seq + 1 }).arriveAt k.exit r).1 := by
  rw [flagged_iff] at plain
  simp only [execSinkRecord, hk, alive, if_true, next, if_neg plain]
  rfl

theorem execSinkRecord_logs (flagged : r.flagged) : execSinkRecord n s =
    .next ((((s.updFab fun f => { f with flight := rest }).sinkLog n k r).updSink n fun k => { k with seq := k.seq + 1 }).arriveAt
      k.exit r).1 := by
  rw [flagged_iff] at flagged
  simp only [execSinkRecord, hk, alive, if_true, next, if_pos flagged]
  rfl

end

/-! ### Matrix elements (14 R290, R291) -/

theorem execMeStreamRecord_of_alive (alive : s.nodeAlive n = true) : execMeStreamRecord n s = .next (s.meStream n) :=
  congrArg _ (if_pos alive)

section
variable {m : Me} (hm : Tab.get? s.fab.mes n = some m)
include hm

section
variable (idle : m.pass = none) (inn : m.inn = some q) (head : s.head? q = some r)
include idle inn head

/-- Outside a pass DRAIN and CFG records move on, and no other is taken (09 R179; 21 R380). -/
theorem meStream_of_idle : s.meStream n =
    if r.kind = kDRAIN then (s.dequeue q 1).putOn? m.out r
    else if r.kind = kCFG then (Nid.forwards n [r]).foldl (fun s r => s.putOn? m.out r) ((s.dequeue q 1).nodeBanks n [r])
    else s := by
  simp only [State.meStream, hm, idle, inn, head, Option.bind_none, Option.bind_some, Option.map_some]

end

section
variable {p : Pass} {c : Cmd} (pass : m.pass = some p) (cmd : s.cmd? m.owner .matrix p.cmd = some c)
  (str : (PassDesc.of (scalNat c.args.b)).str = true)
include pass cmd str

/-- A swap that waits for the exchange goes before the head of the stream. -/
theorem meStream_of_swap (waits : p.swaps ≠ 0) (between : p.buffer = []) :
    s.meStream n = s.trySwap n m.owner c.id (PassDesc.of (scalNat c.args.b)).rows c.progress := by
  simp only [State.meStream, hm, pass, cmd, str, Option.bind_some, if_true]
  exact if_pos (by simp [waits, between])

theorem meStream_takes (clear : p.swaps = 0 ∨ p.buffer ≠ []) (inn : m.inn = some q) (head : s.head? q = some r) :
    s.meStream n = s.meTake n m p c q r := by
  simp only [State.meStream, hm, pass, cmd, str, inn, head, Option.bind_some, Option.map_some, if_true]
  exact if_neg (by simpa [Classical.or_iff_not_imp_left] using clear)

end

end

section
variable (m : Me) (p : Pass) (c : Cmd) (q : Qid)

theorem meTake_drain (kind : r.kind = kDRAIN) : s.meTake n m p c q r = ((s.dequeue q 1).progress n.rid).putOn? m.out r := by
  simp only [State.meTake, kind, kDRAIN]

/-- A SWAP within a row is counted, and waits for the end of the row. -/
theorem meTake_swap_in_row (kind : r.kind = kSWAP) (inRow : p.buffer ≠ []) : ∃ d, s.meTake n m p c q r =
    (((s.dequeue q 1).progress n.rid).count d (some m.vq) 0x45).updPass n fun p => { p with swaps := p.swaps + 1 } := by
  have notEmpty : p.buffer.isEmpty = false := List.isEmpty_eq_false_iff.2 inRow
  simp only [State.meTake, kind, kSWAP, notEmpty, Bool.not_false, if_true]
  exact ⟨_, rfl⟩

end

/-- Settles O52: a window by the kind of the record at its input and by the room of its banks, a sink by the flags of what passes it, and
a matrix element by its pass. That each of several windows that close together puts its own WCLOSE is the model's reading (log 56). -/
theorem nodesTakeRecords : Obligations.NodesTakeRecords := by
  unfold Obligations.NodesTakeRecords
  intro s
  refine ⟨fun n w k q r hw alive input head => ⟨fun kind w' hw' => ?data, windowInput_close_mark hw alive input head,
      windowInput_end hw alive input head, windowInput_drain_waits hw alive input head, windowInput_passes hw alive input head⟩,
    fun n w hw => closeWindows_of_marks hw,
    fun n w i hw => ⟨fun lane bykey total => closeWindow_agg hw i, fun f => closeWindow_join hw i⟩,
    fun n k r u bs read => ⟨sinkLog_full read, fun room x => sinkLog_writes read room⟩,
    fun n k r rest hk alive next => ⟨execSinkRecord_plain hk alive next, execSinkRecord_logs hk alive next⟩,
    fun n m r q hm alive idle inn head => ?idle, fun n m p c hm alive pass cmd str => ⟨fun waits between => ?swap,
      fun clear q r inn head => ⟨?takes, meTake_drain m p c q, meTake_swap_in_row m p c q⟩⟩⟩
  case data =>
    have takes := windowInput_data hw alive input head kind
    refine ⟨fun late => takes.trans (congrArg _ (winData_late hw' late)), fun f isOpen fn room => ?_, fun f isOpen fn full => ?_,
      fun lane bykey total isOpen fn => ⟨fun known => takes.trans (congrArg _ (winData_adds hw' isOpen fn known)),
        fun new room => ?_, fun new full => ?_⟩⟩
    · exact takes.trans (congrArg _ ((winData_of_join hw' isOpen fn).trans (if_neg (Nat.not_le.2 room))))
    · exact takes.trans (congrArg _ ((winData_of_join hw' isOpen fn).trans (if_pos full)))
    · exact takes.trans (congrArg _ ((winData_of_new_key hw' isOpen fn new).trans (if_neg (Nat.not_le.2 room))))
    · exact takes.trans (congrArg _ ((winData_of_new_key hw' isOpen fn new).trans (if_pos full)))
  case idle =>
    have moves := (execMeStreamRecord_of_alive alive).trans (congrArg _ (meStream_of_idle hm idle inn head))
    refine ⟨fun drain => moves.trans ?_, fun cfg => moves.trans ?_, fun notDrain notCfg => moves.trans ?_⟩
    · rw [if_pos drain]
    · rw [if_neg (by rw [cfg]; decide), if_pos cfg]
    · rw [if_neg notDrain, if_neg notCfg]
  case swap => exact (execMeStreamRecord_of_alive alive).trans (congrArg _ (meStream_of_swap hm pass cmd str waits between))
  case takes => exact (execMeStreamRecord_of_alive alive).trans (congrArg _ (meStream_takes hm pass cmd str clear inn head))

end Sys2Proof.Machine
end

section
/-! PROOF. The instructions that name a queue behind a port: `skip`, `qstat` and `qpol`. Settles O40. -/
namespace Sys2Proof.Machine

variable {s : State} {i : Issue} {o : Operands}

/-! ### The port in operand A (11 R224) -/

theorem withPort_declared {p : Behind} (lt : scalNat o.a.bits < 16) (declared : i.g.behind (scalNat o.a.bits) = some p)
    (body : Nat → Behind → State) : s.withPort i o body = body (scalNat o.a.bits) p := by
  simp only [State.withPort, if_pos lt, declared]

theorem withPort_undeclared (bad : scalNat o.a.bits ≥ 16 ∨ i.g.behind (scalNat o.a.bits) = none) (body : Nat → Behind → State) :
    s.withPort i o body = s.takeTrap i.aid cTARGET i.idx i.b.addr 0 (i.b.word0 i.idx) := by
  have noPort : (if scalNat o.a.bits < 16 then i.g.behind (scalNat o.a.bits) else none) = none := by
    rcases bad with ge | undeclared
    · exact if_neg (Nat.not_lt.2 ge)
    · rw [undeclared, ite_self]
  simp only [State.withPort, noPort]

/-- An instruction that can issue and names a port that its agent declares does what it means with that port. -/
theorem issue_declared {ins : Ins} {p : Behind} (ready : Ready s ins i o) (lt : scalNat o.a.bits < 16)
    (declared : i.g.behind (scalNat o.a.bits) = some p) (body : Issue → Operands → State → Nat → Behind → State) :
    (.next (s.issue ins fun i o s => s.withPort i o (body i o s)) : Answer) =
      .next (body i o (s.issued i o) (scalNat o.a.bits) p) := by
  rw [issue_ready ready, withPort_declared lt declared]

/-- An instruction that can issue and names a port that its agent does not declare traps, whatever it would do with the port. -/
theorem issue_undeclared {ins : Ins} (ready : Ready s ins i o)
    (bad : scalNat o.a.bits ≥ 16 ∨ i.g.behind (scalNat o.a.bits) = none) (body : Issue → Operands → State → Nat → Behind → State) :
    (.next (s.issue ins fun i o s => s.withPort i o (body i o s)) : Answer) =
      .next ((s.issued i o).takeTrap i.aid cTARGET i.idx i.b.addr 0 (i.b.word0 i.idx)) := by
  rw [issue_ready ready, withPort_undeclared bad]

/-! ### What `qstat` reads of a queue (11 R235) -/

section
variable {q : Qid} {x : Queue} (known : s.queue? q = some x)
include known

theorem qstat_lost : s.qstat (.queue q) 1 = x.nlost := by simp only [State.qstat, known]

theorem qstat_absorbed : s.qstat (.queue q) 2 = x.nabs := by simp only [State.qstat, known]

theorem qstat_status : s.qstat (.queue q) 4 = (if x.failed then 1 else 0) + if x.sexc then 2 else 0 := by
  simp only [State.qstat, known]

/-- No selector above 4 names anything. -/
theorem qstat_unnamed {sel : Nat} (above : 4 < sel) : s.qstat (.queue q) sel = 0 := by
  obtain ⟨k, rfl⟩ : ∃ k, sel = k + 5 := ⟨sel - 5, by omega⟩
  simp only [State.qstat, known]

end

/-- Settles O40: `skip` notes its count for the port that its field names, and `qstat` and `qpol` act on the port in operand A, or trap
where the agent does not declare it. -/
theorem queueInstructions : Obligations.QueueInstructions := by
  unfold Obligations.QueueInstructions
  intro s
  refine ⟨fun f i o ready => ?skip,
    fun f i o ready p lt declared => ⟨issue_declared ready lt declared _, issue_declared ready lt declared _, fun q x behind known => ?reads⟩,
    fun f i o ready p lt declared => issue_declared ready lt declared _,
    fun f i o ready bad => issue_undeclared ready bad _, fun f i o ready bad => issue_undeclared ready bad _,
    fun f i o ready bad => issue_undeclared ready bad _⟩
  case skip =>
    have port : Ins.srcCode i.ins.srcA = f.srcA.toNat % 128 := by rw [ready_ins ready]; rfl
    exact (congrArg Host.Outcome.next (issue_ready ready _)).trans (by rw [port]; rfl)
  case reads =>
    subst behind
    exact ⟨fun sel => sel ▸ qstat_lost known, fun sel => sel ▸ qstat_absorbed known, fun above => qstat_unnamed known above,
      fun sel => sel ▸ qstat_status known⟩

end Sys2Proof.Machine
end

section
/-! PROOF. The checks of an instruction's elements, and the stores, atomics and locks that wait for the commit. Settles O42 and O43. -/
namespace Sys2Proof.Machine

variable {s t : State} {ins : Ins} {i : Issue} {o : Operands}

/-! ### The elements of an access and their checks -/

/-- What the instruction does that can issue and whose further condition holds. -/
theorem issueWhen_ready (h : Ready s ins i o) {w : Issue → Bool} (body : Issue → Operands → State → State) :
    s.issueWhen ins w body = if w i then body i o (s.issued i o) else s := by
  simp [State.issueWhen, h.1, h.2, State.issued]

/-- An op that takes neither a vector of lines nor of indices has one element. -/
theorem elements_scalar (line : i.ins.op ≠ 0x91 ∧ i.ins.op ≠ 0x94) (indexed : i.ins.op ≠ 0x92 ∧ i.ins.op ≠ 0x95 ∧ i.ins.op ≠ 0xA7) :
    i.elements o = [(0, i.va o, i.ins.width / 8)] := by
  unfold Issue.elements
  split <;> simp_all

theorem elements_sts (h : i.ins.op = 0x95) : i.elements o =
    ((List.range 16).filter fun j => o.mask.getLsbD (4 * j)).map fun j =>
      (4 * j, wrap 64 ((i.va o : Int) + sint 32 (getE 32 o.b.bits j) * if i.ins.rm = 1 then 4 else 1), 4) := by
  have place (j : Nat) : active o.mask 32 j = o.mask.getLsbD (4 * j) := by rw [active]; congr 1; omega
  simp only [Issue.elements, h, activeElems, place, List.map_map]
  rfl

theorem checkElements_of_misaligned {need : Need} {no : Access → Bool} {k va n : Nat} {rest : List (Nat × Nat × Nat)}
    (h : va % (i.ins.width / 8) ≠ 0) : s.checkElements i need no ((k, va, n) :: rest) = (s, .error (cALIGN, va)) := by
  simp [State.checkElements, h]

section
variable {need : Need} {no : Access → Bool} {k va n : Nat} {rest : List (Nat × Nat × Nat)} (aligned : va % (i.ins.width / 8) = 0)
include aligned

theorem checkElements_of_access_error {c : Nat} (h : s.access i.aid va n need = (t, .error c)) :
    s.checkElements i need no ((k, va, n) :: rest) = (t, .error (c, va)) := by
  simp [State.checkElements, aligned, h]

theorem checkElements_of_refused {x : Access} (h : s.access i.aid va n need = (t, .ok x)) (refused : no x = true) :
    s.checkElements i need no ((k, va, n) :: rest) = (t, .error (cPERMISSION, va)) := by
  simp [State.checkElements, aligned, h, refused]

theorem checkElements_singleton {x : Access} (h : s.access i.aid va n need = (t, .ok x)) (admitted : no x = false) :
    s.checkElements i need no [(k, va, n)] = (t, .ok [(k, x)]) := by
  simp [State.checkElements, aligned, h, admitted]

end

/-! ### Stores -/

/-- What a store writes of an element. -/
def Issue.stored (i : Issue) (o : Operands) (x : Nat × Access) : Elem := match i.ins.op with
  | 0x94 => storePart i.ins.width o.mask o.b.bits x.1 x.2.len
  | 0x95 => ⟨0, getE 32 o.c.bits (x.1 / 4), 15⟩
  | _ => ⟨0, scalNat o.b.bits % 2 ^ i.ins.width, 2 ^ (i.ins.width / 8) - 1⟩

theorem stored_scalar (h : i.ins.op ≠ 0x94 ∧ i.ins.op ≠ 0x95) (x : Nat × Access) :
    i.stored o x = ⟨0, scalNat o.b.bits % 2 ^ i.ins.width, 2 ^ (i.ins.width / 8) - 1⟩ := by
  unfold Issue.stored
  split <;> simp_all

theorem stored_stv (h : i.ins.op = 0x94) (x : Nat × Access) :
    i.stored o x = storePart i.ins.width o.mask o.b.bits x.1 x.2.len := by simp [Issue.stored, h]

theorem stored_sts (h : i.ins.op = 0x95) (x : Nat × Access) : i.stored o x = ⟨0, getE 32 o.c.bits (x.1 / 4), 15⟩ := by
  simp [Issue.stored, h]

/-- A block whose instruction has fired and noted an access for the commit. -/
def Block.noteMem (op : MemOp) (parts : List (Access × List Elem)) (vector : Bool) (r r' : Nat) (i : Issue) (o : Operands) (b : Block) : Block :=
  (b.setStat i.idx .fired).effect i.idx (.mem op i.ins.ty i.ins.width parts vector (i.follows o) r r')

theorem storeBody_failed {sys : Bool} {c va : Nat}
    (h : s.checkElements i needWrite (fun _ => false) (i.elements o) = (t, .error (c, va))) :
    storeBody sys i o s = t.faultAt i c va := by
  simp [storeBody, h]

theorem storeBody_checked {sys : Bool} {xs : List (Nat × Access)}
    (h : s.checkElements i needWrite (fun _ => false) (i.elements o) = (t, .ok xs)) :
    storeBody sys i o s = t.updBlock i.aid (Block.noteMem (.store sys)
      (accessesOf i.ins.isVector (xs.map fun x => (x.2, i.stored o x))) i.ins.isVector (tokenOf i.ins.t0) (tokenOf i.ins.t1) i o) := by
  simp only [storeBody, h]
  rfl

/-- Settles O42: each store's body by the outcome of its checks, with the data of its elements, and two lists of elements. -/
theorem storesWaitForCommit : Obligations.StoresWaitForCommit := by
  unfold Obligations.StoresWaitForCommit
  intro s stores scalar
  have store (sys : Bool) (ins : Ins) (data : Operands → Issue → Nat × Access → Elem)
      (same : ∀ i o x, i.ins = ins → i.stored o x = data o i x) : stores sys ins (.next (s.issue ins (storeBody sys))) data := by
    intro i o ready check
    rw [issue_ready ready]
    refine ⟨fun t c va failed => congrArg _ (storeBody_failed failed), fun t xs passed => congrArg _ ?_⟩
    simp only [storeBody_checked passed, same i o _ (ready_ins ready)]
    rfl
  have op {f : FX} {n : Nat} {i : Issue} (h : i.ins = f.ins n) : i.ins.op = n := congrArg Ins.op h
  refine ⟨fun f => store _ _ _ fun i o x h => stored_scalar (by simp [op h]) x,
    fun f => store _ _ _ fun i o x h => stored_scalar (by simp [op h]) x, fun f => store _ _ _ fun i o x h => stored_stv (op h) x,
    fun f => store _ _ _ fun i o x h => stored_sts (op h) x, fun i o h => elements_scalar (by omega) (by omega),
    fun i o h => elements_sts h⟩

/-! ### Atomics and locks -/

theorem atomicBody_failed {op : MemOp} {lock : Bool} {c va : Nat}
    (h : s.checkElements i needBoth (fun x => x.mt == 2 || (lock && x.mt == 3)) (i.elements o) = (t, .error (c, va))) :
    atomicBody op lock i o s = t.faultAt i c va := by
  simp [atomicBody, h]

theorem atomicBody_checked {op : MemOp} {lock : Bool} {xs : List (Nat × Access)}
    (h : s.checkElements i needBoth (fun x => x.mt == 2 || (lock && x.mt == 3)) (i.elements o) = (t, .ok xs)) :
    atomicBody op lock i o s = t.updBlock i.aid (Block.noteMem op (accessesOf i.ins.isVector (xs.map fun x => (x.2,
      if i.ins.isVector then (⟨0, getE 32 o.c.bits (x.1 / 4), 0⟩ : Elem)
      else ⟨0, scalNat o.b.bits % 2 ^ i.ins.width, scalNat o.c.bits % 2 ^ i.ins.width⟩))) i.ins.isVector i.ins.tokenReg 0 i o) := by
  simp only [atomicBody, h]
  rfl


/-- Whether the issuer's own context holds the lock word of an access (13 R274). -/
def State.ownsLock (s : State) (i : Issue) (x : Access) : Prop :=
  x.mt < 2 ∧ (s.peekWord x.pa).testBit 63 = true ∧ s.peekWord x.pa % 2 ^ 10 = i.g.ctx

section
variable {f : FX} {x : Access} (ready : Ready s (f.ins 0xAA) i o) (aligned : i.va o % 8 = 0)
  (access : (s.issued i o).access i.aid (i.va o) 8 needBoth = (t, .ok x))
include ready aligned access

theorem execLkwait_own (own : t.ownsLock i x) : execLkwait f s = .next ((s.issued i o).faultAt i cLOCK_INVERSION (i.va o)) := by
  obtain ⟨type, held, ctx⟩ := own
  rw [execLkwait, issue_ready ready]
  simp only [access, type, held, bitsAt_zero, ctx, aligned, decide_true, Bool.and_self, beq_self_eq_true, if_true]

theorem execLkwait_other (other : ¬t.ownsLock i x) (word : f.ety = 7) (type : x.mt < 2) :
    execLkwait f s = .next (t.updBlock i.aid (Block.noteMem .lkwait
      [(x, [⟨0, scalNat o.b.bits % 2 ^ 64, scalNat o.c.bits % 2 ^ 64⟩])] false i.ins.tokenReg 0 i o)) := by
  have ins := ready_ins ready
  have width : i.ins.width = 64 := by rw [ins, Ins.width, fx_ins_ty, word]; rfl
  have op : i.ins.op = 0xAA := congrArg Ins.op ins
  have vector : i.ins.isVector = false := by simp [Ins.isVector, op]
  have free : ((t.peekWord x.pa).testBit 63 && bitsAt (t.peekWord x.pa) 0 10 == i.g.ctx) = false := by
    simpa [State.ownsLock, type, bitsAt_zero] using other
  have passed : (s.issued i o).checkElements i needBoth (fun x => x.mt == 2 || (true && x.mt == 3)) (i.elements o) =
      (t, .ok [(0, x)]) := by
    rw [elements_scalar (by omega) (by omega), width]
    exact checkElements_singleton (by rw [width]; exact aligned) access (by simp; omega)
  rw [execLkwait, issue_ready ready]
  simp only [access, free, Bool.and_false, Bool.false_and, Bool.false_eq_true, if_false, atomicBody_checked passed, vector, width]
  rfl

end

/-- Settles O43: each atomic's body by the outcome of its checks, and `lkwait` by the holder of its word. -/
theorem atomicsWaitForCommit : Obligations.AtomicsWaitForCommit := by
  unfold Obligations.AtomicsWaitForCommit
  intro s atomics
  have atomic (op : MemOp) (lock : Bool) (f : FX) (n : Nat) (vector : (f.ins n).isVector = decide (n = 0xA7)) :
      atomics op lock (f.ins n) (.next (s.issue (f.ins n) (atomicBody op lock))) := by
    intro i o ready check
    have ins := ready_ins ready
    rw [issue_ready ready]
    refine ⟨fun t c va failed => congrArg _ (atomicBody_failed failed), fun t xs passed => congrArg _ ?_⟩
    have same : i.ins.isVector = decide (i.ins.op = 0xA7) := by rw [ins, vector]; rfl
    rw [atomicBody_checked passed]
    simp only [same, decide_eq_true_eq]
    rfl
  refine ⟨fun f => ?_, fun f => ?_, fun f => ?_, fun f => ?_, fun f => ?_, fun f => ?_, fun f => ?_, fun f => ?_, fun f => ?_, fun f => ?_,
    fun f => ?_, fun f => ?_, fun f => ?_, fun f => ?_, fun f i o ready aligned t x access => ⟨fun own => ?own, fun other word type => ?other⟩⟩
  case own => exact execLkwait_own ready aligned access own
  case other => exact execLkwait_other ready aligned access other word type
  all_goals exact atomic _ _ f _ rfl

end Sys2Proof.Machine
end

section
/-! PROOF. The reads that a load sends, the touches, fences and stash instructions. Settles O41 and O44. -/
namespace Sys2Proof.Machine

variable {s t u : State} {ins : Ins} {i : Issue} {o : Operands}

/-! ### The requests of a load -/

/-- The read of an access, as a load's request (13 R263). -/
def State.readReq (s : State) (i : Issue) (o : Operands) (sys : Bool) (load id : Nat) (p : Access × List Elem) : Req :=
  ⟨id, i.aid, i.g.ctx, s.incOf i.aid i.g, .read sys, p.1, p.2, i.follows o, .load i.aid load, none,
    if i.ins.isVector then some load else none, [], none, i.b.origin i.idx⟩

/-- Requests numbered from `n` on, one for each access. -/
def numbered (req : Nat → Access × List Elem → Req) : Nat → List (Access × List Elem) → List Req
  | _, [] => []
  | n, p :: ps => req n p :: numbered req (n + 1) ps

theorem map_numbered {α : Type} {req : Nat → Access × List Elem → Req} {f : Req → α} {g : Access × List Elem → α}
    (h : ∀ n p, f (req n p) = g p) : ∀ (n : Nat) (ps : List (Access × List Elem)), (numbered req n ps).map f = ps.map g
  | _, [] => rfl
  | n, p :: ps => by rw [numbered, List.map_cons, h, map_numbered h, List.map_cons]

theorem forall_mem_numbered {req : Nat → Access × List Elem → Req} {P : Req → Prop} (h : ∀ n p, P (req n p)) :
    ∀ (n : Nat) (ps : List (Access × List Elem)), ∀ r ∈ numbered req n ps, P r
  | _, [] => by simp [numbered]
  | n, p :: ps => List.forall_mem_cons.2 ⟨h n p, forall_mem_numbered h (n + 1) ps⟩

/-- Sending requests one after another adds them in their order. -/
theorem foldl_takeId_reqs {req : Nat → Access × List Elem → Req} (id : ∀ n p, (req n p).id = n) (ps : List (Access × List Elem)) :
    ∀ (s : State) (ids : List Nat), ps.foldl (fun (acc : State × List Nat) p =>
      (acc.1.takeId.2.updMs fun m => { m with reqs := m.reqs ++ [req acc.1.takeId.1 p] }, acc.2 ++ [acc.1.takeId.1])) (s, ids) =
    (({ s with nextId := s.nextId + ps.length } : State).updMs fun m => { m with reqs := m.reqs ++ numbered req s.nextId ps },
      ids ++ (numbered req s.nextId ps).map (·.id)) := by
  induction ps with
  | nil => intro s ids; simp [numbered, State.updMs]
  | cons p ps ih =>
    intro s ids
    rw [List.foldl_cons, ih]
    simp [numbered, State.takeId, State.updMs, id, Nat.add_assoc, Nat.add_comm 1]

/-- The reads that a load sends. -/
def State.readReqs (s : State) (i : Issue) (o : Operands) (sys : Bool) (parts : List (Access × List Elem)) : List Req :=
  numbered (s.readReq i o sys s.nextId) (s.nextId + 1) parts

/-- A load that waits for its reads. -/
def State.loadOp (s : State) (i : Issue) (o : Operands) (parts : List (Access × List Elem)) (size : Nat) (base : List Nat) (sys : Bool) :
    LoadOp :=
  let ids := (s.readReqs i o sys parts).map (·.id)
  ⟨s.nextId, i.aid, i.idx, i.ins, o.mask, base, List.replicate size 0, ids, ids, none⟩

theorem startLoad_eq (s : State) (i : Issue) (o : Operands) (parts : List (Access × List Elem)) (size : Nat) (base : List Nat)
    (sys : Bool) : s.startLoad i o parts size base sys =
    ((({ s with nextId := s.nextId + 1 + parts.length } : State).updMs fun m => { m with
        reqs := m.reqs ++ s.readReqs i o sys parts
        loads := m.loads ++ [s.loadOp i o parts size base sys] }).updBlock i.aid fun b =>
      { b.setStat i.idx .issued with made := b.made ++ (s.readReqs i o sys parts).map (·.id) }) := by
  have sent := foldl_takeId_reqs (req := s.readReq i o sys s.nextId) (fun _ _ => rfl) parts s.takeId.2 []
  simp only [State.readReq] at sent
  simp only [State.startLoad]
  rw [show s.takeId.2.incOf i.aid i.g = s.incOf i.aid i.g from rfl, show s.takeId.1 = s.nextId from rfl, sent]
  rfl

/-- What a load is once its reads are sent: one read for each access, for which it waits. -/
theorem startLoad_sends (s : State) (i : Issue) (o : Operands) (parts : List (Access × List Elem)) (size : Nat) (base : List Nat)
    (sys : Bool) : ∃ v sent load, s.startLoad i o parts size base sys = v ∧ v.ms.mem = s.ms.mem ∧ v.ms.reqs = s.ms.reqs ++ sent ∧
      sent.map (fun r => (r.acc, r.elems)) = parts ∧ (∀ r ∈ sent, r.aid = i.aid ∧ r.kind = .read sys ∧ r.after = i.follows o) ∧
      v.ms.loads = s.ms.loads ++ [load] ∧ load.aid = i.aid ∧ load.idx = i.idx ∧ load.ins = i.ins ∧
      load.waiting = sent.map (·.id) ∧ load.failed = none ∧
      v.blockOf i.aid = (s.blockOf i.aid).map fun b =>
        { b.setStat i.idx .issued with made := b.made ++ sent.map (·.id) } := by
  refine ⟨_, s.readReqs i o sys parts, s.loadOp i o parts size base sys, startLoad_eq .., by simp, by simp, ?_,
    forall_mem_numbered (fun _ _ => ⟨rfl, rfl, rfl⟩) _ _, by simp, rfl, rfl, rfl, rfl, rfl, ?_⟩
  · exact (map_numbered (g := id) (fun _ _ => rfl) _ _).trans (List.map_id _)
  · rw [blockOf_updBlock_self, State.blockOf, agent?_updMs (by rfl)]
    rfl

/-! ### Loads -/

section
variable {sys : Bool}

/-- A touch that would fault is dropped and counted (13 R265). -/
def State.dropTouch (s : State) (i : Issue) : State := (s.countAt i.g 0x30).deliver i .zero .zero 0

theorem loadBody_failed {c va : Nat} (h : s.checkElements i needRead (fun _ => false) (i.elements o) = (t, .error (c, va))) :
    loadBody sys i o s = if i.ins.isTouch then t.dropTouch i else t.loadFault i o c va := by
  simp only [loadBody, h]
  rfl

variable {xs : List (Nat × Access)} (h : s.checkElements i needRead (fun _ => false) (i.elements o) = (t, .ok xs))
include h

theorem loadBody_touch (touch : i.ins.isTouch = true) : loadBody sys i o s =
    if xs.any fun x => x.2.mt != 2 && t.accessUe x.2 then t.dropTouch i
    else (t.touchLines i (xs.map Prod.snd) false).deliver i .zero .zero 0 := by
  simp only [loadBody, h, touch, if_true]
  rfl

theorem loadBody_empty (value : i.ins.isTouch = false) (empty : xs = []) : loadBody sys i o s =
    t.deliverLoad i ⟨(loadValue i.ins o.mask (List.replicate 64 0)).1, o.dep⟩ (loadValue i.ins o.mask (List.replicate 64 0)).2 o.dep := by
  subst empty
  simp only [loadBody, h, value]
  rfl

theorem loadBody_reads (value : i.ins.isTouch = false) (some_ : xs ≠ []) : loadBody sys i o s =
    t.startLoad i o (accessesOf i.ins.isVector (xs.map fun x => (x.2, (⟨0, x.2.len, x.1⟩ : Elem))))
      (if i.ins.op = 0x91 ∨ i.ins.op = 0x92 then 64 else i.ins.width / 8) [] sys := by
  simp only [loadBody, h, value, Bool.false_eq_true, if_false, List.isEmpty_iff, some_]

end

/-- The elements of a load below the one at an address. -/
def Issue.below (i : Issue) (o : Operands) (va : Nat) : List (Nat × Nat × Nat) := (i.elements o).takeWhile fun e => e.2.1 != va

section
variable {c va : Nat}

theorem loadFault_of_sound {xs : List (Nat × Access)} (h : t.checkElements i needRead (fun _ => false) (i.below o va) = (u, .ok xs))
    (sound : ∀ x ∈ xs, ¬(x.2.mt ≠ 2 ∧ u.accessUe x.2 = true)) : t.loadFault i o c va = u.faultAt i c va := by
  have none_ : (xs.find? fun x => x.2.mt != 2 && u.accessUe x.2) = none :=
    List.find?_eq_none.2 fun x mem => by simpa using sound x mem
  simp only [Issue.below] at h
  simp only [State.loadFault, h, none_]

theorem loadFault_of_error {xs ys : List (Nat × Access)} {x : Nat × Access}
    (h : t.checkElements i needRead (fun _ => false) (i.below o va) = (u, .ok (xs ++ x :: ys)))
    (sound : ∀ y ∈ xs, ¬(y.2.mt ≠ 2 ∧ u.accessUe y.2 = true)) (error : x.2.mt ≠ 2 ∧ u.accessUe x.2 = true) :
    t.loadFault i o c va = (u.ueMet x.2).faultAt i cMEMORY_UE x.2.va := by
  have first : ((xs ++ x :: ys).find? fun x => x.2.mt != 2 && u.accessUe x.2) = some x := by
    rw [List.find?_append, List.find?_eq_none.2 fun y mem => by simpa using sound y mem]
    simp [error]
  simp only [Issue.below] at h
  simp only [State.loadFault, h, first]

end

/-- Settles O41: a load's body by the outcome of its checks, the element that a fault names, and the checks one by one. -/
theorem loadsRequestTheirBytes : Obligations.LoadsRequestTheirBytes := by
  unfold Obligations.LoadsRequestTheirBytes
  intro s loads always
  have load {sys : Bool} {room : Issue → Bool} {ins : Ins} {e : Answer}
      (body : ∀ i o, Ready s ins i o → room i = true → e = .next (loadBody sys i o (s.issued i o))) : loads sys room ins e := by
    intro i o ready hasRoom check
    rw [body i o ready hasRoom]
    refine ⟨fun t c va failed => congrArg _ (loadBody_failed failed), fun t xs passed => ⟨fun empty value => ?_, fun some_ value => ?_,
      fun touch => congrArg _ (loadBody_touch passed touch)⟩⟩
    · exact congrArg _ (loadBody_empty passed value empty)
    · rw [loadBody_reads passed value some_]
      obtain ⟨v, sent, l, e, rest⟩ := startLoad_sends t i o _ _ _ _
      exact ⟨v, sent, l, congrArg _ e, rest⟩
  refine ⟨fun f => load fun i o ready _ => congrArg _ (issue_ready ready _), fun f => load fun i o ready _ => congrArg _ (issue_ready ready _),
    fun f => load fun i o ready hasRoom => congrArg _ ((issueWhen_ready ready _).trans (if_pos hasRoom)),
    fun f i o ready full => congrArg _ ((issueWhen_ready ready _).trans (if_neg (by simp [full]))),
    fun f => load fun i o ready _ => congrArg _ (issue_ready ready _),
    fun t u i o c va => ⟨fun xs passed sound => loadFault_of_sound passed sound,
      fun xs x ys passed sound error => loadFault_of_error passed sound error⟩,
    fun i o op => elements_scalar (by omega) (by omega),
    fun i need no k va n rest => ⟨checkElements_of_misaligned, fun aligned t c h => checkElements_of_access_error aligned h,
      fun aligned t x h refused => checkElements_of_refused aligned h refused⟩⟩

/-! ### Fences -/

theorem fenced_iff {sys : Bool} : s.fenced i sys = true ↔ (∀ r ∈ s.ms.reqs, r.isOwn i.aid = true → r.id ∈ i.b.made) ∧
    (sys = true → ∀ w ∈ s.ms.ioWrites, w.aid ≠ some i.aid) := by
  simp only [State.fenced, Bool.and_eq_true, Bool.or_eq_true, Bool.not_eq_true', ← Bool.not_eq_true, List.any_eq_true, beq_iff_eq,
    List.contains_iff_mem, not_exists, not_and, not_not]
  cases sys <;> simp

/-- The queues that a `qfence` names are empty where each that it names is (13 R267). -/
theorem fencedQueues_empty_iff (g : Agent) (m : BitVec 11) : ((fencedQueues m.toNat).all fun e => (g.engineQ e).isEmpty) = true ↔
    (m.getLsbD 0 = true → g.copyQ = []) ∧ (m.getLsbD 1 = true → g.matrixQ = []) ∧ (m.getLsbD 2 = true → g.needleQ = []) ∧
      (m.getLsbD 3 = true → g.fullerQ = []) := by
  simp [fencedQueues, Agent.engineQ, BitVec.getLsbD, imp_iff_not_or]

theorem execFence_ready {f : FI} (ready : Ready s (f.ins 0x99) i o) : execFence f s =
    .next (if s.fenced i (f.imm.toNat % 8 == 5) then (s.issued i o).fenceToken i o ((s.issued i o).ptsOf (.agent i.aid)) else s) :=
  congrArg _ (issueWhen_ready ready _)

theorem execQfence_ready {f : FI} (ready : Ready s (f.ins 0x9A) i o) : execQfence f s =
    .next (if (fencedQueues f.imm.toNat).all fun e => (i.g.engineQ e).isEmpty then (s.issued i o).fenceToken i o
      ((fencedQueues f.imm.toNat).foldl (fun t e => max t ((s.issued i o).ptsOf (.engine i.aid e))) 0) else s) :=
  congrArg _ (issueWhen_ready ready _)

/-! ### Stash instructions -/

theorem stashBody_ready {n : Nat} {f : FX} (ready : Ready s (f.ins n) i o) : (.next (s.issue (f.ins n) stashBody) : Answer) =
    .next (if i.va o % 8 ≠ 0 then (s.issued i o).faultAt i cALIGN (i.va o) else (s.issued i o).updBlock i.aid fun b =>
      (b.setStat i.idx .fired).effect i.idx (.stash i.ins.op (i.va o) (scalNat o.b.bits) 0 0 (i.follows o) i.ins.tokenReg)) := by
  rw [issue_ready ready]
  simp [stashBody]

section
variable {f : FX} (ready : Ready s (f.ins 0x98) i o)
include ready

theorem execPref_misaligned (h : i.va o % 8 ≠ 0) :
    execPref f s = .next (((s.issued i o).countAt i.g 0x30).updBlock i.aid fun b => b.setStat i.idx .fired) := by
  rw [execPref, issue_ready ready]
  simp [h]

variable (aligned : i.va o % 8 = 0)
include aligned

theorem execPref_failed {e : Nat} (h : (s.issued i o).access i.aid (i.va o) 8 needRead = (t, .error e)) :
    execPref f s = .next ((t.countAt i.g 0x30).updBlock i.aid fun b => b.setStat i.idx .fired) := by
  rw [execPref, issue_ready ready]
  simp [aligned, h]

theorem execPref_touches {x : Access} (h : (s.issued i o).access i.aid (i.va o) 8 needRead = (t, .ok x))
    (sound : ¬(x.mt ≠ 2 ∧ t.accessUe x = true)) :
    execPref f s = .next ((t.touchLines i [x] (f.rm == 1)).updBlock i.aid fun b => b.setStat i.idx .fired) := by
  rw [execPref, issue_ready ready]
  simp only [aligned, h, sound]
  rfl

end

section
variable {f : FX} (ready : Ready s (f.ins 0x9D) i o)
include ready

theorem execSmap_absent (h : (s.issued i o).groupAt i.aid (bitsAt (scalNat o.b.bits) 8 17) (bitsAt (scalNat o.b.bits) 25 3) = none) :
    execSmap f s = .next ((s.issued i o).faultAt i cNOT_PRESENT (i.va o)) := by
  rw [execSmap, issue_ready ready]
  simp only [h]

variable {n : Nid} {g : BankGroup}
  (h : (s.issued i o).groupAt i.aid (bitsAt (scalNat o.b.bits) 8 17) (bitsAt (scalNat o.b.bits) 25 3) = some (n, g))
include h

theorem execSmap_other_mode (mode : g.mode ≠ .stash) : execSmap f s = .next ((s.issued i o).faultAt i cNOT_PRESENT (i.va o)) := by
  rw [execSmap, issue_ready ready]
  simp [h, mode]

theorem execSmap_legal (mode : g.mode = .stash) (high : scalNat o.b.bits / 2 ^ 28 = 0) (reserved : bitsAt (scalNat o.b.bits) 6 2 = 0)
    (least : 12 ≤ bitsAt (scalNat o.b.bits) 0 6) (fits : 2 ^ bitsAt (scalNat o.b.bits) 0 6 ≤ g.count * 2 ^ 14) :
    execSmap f s = .next (if i.va o % 2 ^ bitsAt (scalNat o.b.bits) 0 6 ≠ 0 then (s.issued i o).faultAt i cALIGN (i.va o)
      else (s.issued i o).updBlock i.aid fun b => (b.setStat i.idx .fired).effect i.idx (.stash 0x9D (i.va o)
        (bitsAt (scalNat o.b.bits) 0 6) (bitsAt (scalNat o.b.bits) 25 3) (bitsAt (scalNat o.b.bits) 8 17) (i.follows o)
        i.ins.tokenReg)) := by
  have legal : ¬(bitsAt (scalNat o.b.bits) 28 36 ≠ 0 ∨ bitsAt (scalNat o.b.bits) 6 2 ≠ 0 ∨ bitsAt (scalNat o.b.bits) 0 6 < 12 ∨
      2 ^ bitsAt (scalNat o.b.bits) 0 6 > g.count * 2 ^ 14) := by
    rw [bitsAt_eq _ 28, high]
    omega
  rw [execSmap, issue_ready ready]
  simp only [h, mode, bne_self_eq_false, Bool.false_eq_true, if_false]
  rw [if_neg (by simpa [or_assoc] using legal)]
  simp only [bne_iff_ne]

end

section
variable {f : FX} {n : Nid} {g : BankGroup} {mu bank : Nat} (ready : Ready s (f.ins 0xAB) i o)
  (mu_ : bitsAt (scalNat o.b.bits) 8 17 = mu) (bank_ : bitsAt (scalNat o.b.bits) 25 3 = bank)
  (h : (s.issued i o).groupAt i.aid mu bank = some (n, g)) (mode : g.mode = .agen)
  (names : scalNat o.b.bits = mu * 2 ^ 8 + bank * 2 ^ 25)
include ready mu_ bank_ h mode names

theorem execLdsh_misaligned (h' : i.va o % 64 ≠ 0) : execLdsh f s = .next ((s.issued i o).faultAt i cALIGN (i.va o)) := by
  have legal : (scalNat o.b.bits != mu * 2 ^ 8 + bank * 2 ^ 25) = false := by simp [names]
  have misaligned : (i.va o % 64 != 0) = true := by simpa using h'
  rw [execLdsh, issue_ready ready]
  simp only [mu_, bank_, h, mode, legal, misaligned, bne_self_eq_false, Bool.false_eq_true, if_false, if_true]

variable (aligned : i.va o % 64 = 0)
include aligned

theorem execLdsh_failed {c va : Nat} (h' : (s.issued i o).accesses i.aid needRead (linePieces 3 (i.va o) 128) = (t, .error (c, va))) :
    execLdsh f s = .next (t.faultAt i c va) := by
  have legal : (scalNat o.b.bits != mu * 2 ^ 8 + bank * 2 ^ 25) = false := by simp [names]
  rw [execLdsh, issue_ready ready]
  simp only [mu_, bank_, h, mode, legal, aligned, h', bne_self_eq_false, Bool.false_eq_true, if_false]

theorem execLdsh_reads {xs : List Access} (h' : (s.issued i o).accesses i.aid needRead (linePieces 3 (i.va o) 128) = (t, .ok xs)) :
    execLdsh f s = .next (t.startLoad i o ((xs.zip (List.range xs.length)).map fun x => (x.1, [⟨0, x.1.len, 64 * x.2⟩])) 128
      [bank, mu] false) := by
  have legal : (scalNat o.b.bits != mu * 2 ^ 8 + bank * 2 ^ 25) = false := by simp [names]
  rw [execLdsh, issue_ready ready]
  simp only [mu_, bank_, h, mode, legal, aligned, h', bne_self_eq_false, Bool.false_eq_true, if_false]

end

/-- Settles O44: the fences by what is outstanding, and each stash instruction by its checks. -/
theorem fencesAndStash : Obligations.FencesAndStash := by
  unfold Obligations.FencesAndStash
  intro s token
  refine ⟨fun f i o ready => ?fence, fun f i o ready => ?qfence, fun f i o ready => ?pref, ?stash, fun f i o ready => ?smap,
    fun f i o ready => ?ldsh⟩
  case fence =>
    intro sys clear
    have fenced : s.fenced i (f.imm.toNat % 8 == 5) = true ↔ clear := by simp only [fenced_iff, beq_iff_eq]; rfl
    have e : exec (.fence f) s = _ := execFence_ready ready
    exact ⟨fun h => by rw [e, if_pos (fenced.2 h)]; rfl, fun h => by rw [e, if_neg (mt fenced.1 h)]⟩
  case qfence =>
    intro clear queues
    have e : exec (.qfence f) s = _ := execQfence_ready ready
    have fenced := fencedQueues_empty_iff i.g f.imm
    exact ⟨fun h => by rw [e, if_pos (fenced.2 h)]; rfl, fun h => by rw [e, if_neg (mt fenced.1 h)]⟩
  case pref =>
    exact ⟨execPref_misaligned ready, fun aligned t e h => execPref_failed ready aligned h,
      fun aligned t x h sound => execPref_touches ready aligned h sound⟩
  case stash =>
    intro stash
    refine ⟨fun f i o ready => ?_, fun f i o ready => ?_⟩
    all_goals
      exact ⟨fun h => (stashBody_ready ready).trans (by rw [if_pos h]), fun h => (stashBody_ready ready).trans (by rw [if_neg (by simp [h])]; rfl)⟩
  case smap =>
    intro u b mu bank lg
    refine ⟨execSmap_absent ready, fun n g h => ⟨execSmap_other_mode ready h, fun mode high reserved least fits => ?_⟩⟩
    have e : exec (.smap f) s = _ := execSmap_legal ready h mode high reserved least fits
    exact ⟨fun h => by rw [e, if_pos h], fun h => by rw [e, if_neg (not_not.2 h)]; rfl⟩
  case ldsh =>
    intro u b mu bank n g h mode names
    exact ⟨execLdsh_misaligned ready rfl rfl h mode names, fun aligned =>
      ⟨fun t c va failed => execLdsh_failed ready rfl rfl h mode names aligned failed,
        fun t xs passed => execLdsh_reads ready rfl rfl h mode names aligned passed⟩⟩

end Sys2Proof.Machine
end

section
/-! PROOF. The map of the control space, and what its registers read at reset. Settles O6. -/
namespace Sys2Proof.Machine

/-! ### The map (23 R410) -/

section
variable {n : Nat}

theorem regAt_queue (lt : n < 4096) : Reg.at (0x00008 + 64 * n) = some (.lqCtl n) := by
  have offset : (0x00008 + 64 * n) % 64 = 0x08 := by omega
  have index : (0x00008 + 64 * n) / 64 = n := by omega
  unfold Reg.at
  rw [if_pos (by omega)]
  simp only [offset, index]

/-- An offset in the block of a context. -/
theorem regAt_context (lt : n < 1024) : Reg.at (0x40000 + 256 * n) = some (.ctxCtl n) ∧ Reg.at (0x40008 + 256 * n) = some (.ctxPt n) ∧
    Reg.at (0x40010 + 256 * n) = some (.ctxSched n) ∧ Reg.at (0x40028 + 256 * n) = some (.ctxAux n) := by
  have block (a k : Nat) (h : a = 0x40000 + k + 256 * n) (lt : k < 256) : (a - 0x40000) / 256 = n ∧ a % 256 = k := by omega
  refine ⟨?_, ?_, ?_, ?_⟩
  all_goals
    unfold Reg.at
    rw [if_neg (by omega), if_pos (by omega)]
  · simp only [block (0x40000 + 256 * n) 0x00 (by omega) (by omega)]
  · simp only [block (0x40008 + 256 * n) 0x08 (by omega) (by omega)]
  · simp only [block (0x40010 + 256 * n) 0x10 (by omega) (by omega)]
  · simp only [block (0x40028 + 256 * n) 0x28 (by omega) (by omega)]

theorem regAt_partition (lt : n < 8) : Reg.at (0xC0000 + 256 * n) = some (.pir n) ∧ Reg.at (0xC0008 + 256 * n) = some (.fnmode n) ∧
    Reg.at (0xC0010 + 256 * n) = some (.pfault n) := by
  have block (a k : Nat) (h : a = 0xC0000 + k + 256 * n) (lt : k < 256) : (a - 0xC0000) / 256 = n ∧ a % 256 = k := by omega
  refine ⟨?_, ?_, ?_⟩
  all_goals
    unfold Reg.at
    rw [if_neg (by omega), if_neg (by omega), if_neg (by omega), if_pos (by omega)]
  · simp only [block (0xC0000 + 256 * n) 0x00 (by omega) (by omega)]
  · simp only [block (0xC0008 + 256 * n) 0x08 (by omega) (by omega)]
  · simp only [block (0xC0010 + 256 * n) 0x10 (by omega) (by omega)]

theorem regAt_budgets (lt : n < 8) : Reg.at (0xE0100 + 64 * n) = some (.wdta n) ∧ Reg.at (0xE0108 + 64 * n) = some (.wdtb n) ∧
    Reg.at (0xE0110 + 64 * n) = some (.wdtc n) := by
  have block (a k : Nat) (h : a = 0xE0100 + k + 64 * n) (lt : k < 64) : (a - 0xE0100) / 64 = n ∧ a % 64 = k := by omega
  refine ⟨?_, ?_, ?_⟩
  all_goals
    unfold Reg.at
    rw [if_neg (by omega), if_neg (by omega), if_neg (by omega), if_neg (by omega), if_neg (by omega), if_pos (by omega)]
  · simp only [block (0xE0100 + 64 * n) 0x00 (by omega) (by omega)]
  · simp only [block (0xE0108 + 64 * n) 0x08 (by omega) (by omega)]
  · simp only [block (0xE0110 + 64 * n) 0x10 (by omega) (by omega)]

theorem regAt_die (lt : n < 64) : Reg.at (0xD0000 + 256 * n) = some (.nbr n) ∧ Reg.at (0xD0008 + 256 * n) = some (.schedcfg n) := by
  have block (a k : Nat) (h : a = 0xD0000 + k + 256 * n) (lt : k < 256) : (a - 0xD0000) / 256 = n ∧ a % 256 = k := by omega
  refine ⟨?_, ?_⟩
  all_goals
    unfold Reg.at
    rw [if_neg (by omega), if_neg (by omega), if_neg (by omega), if_neg (by omega), if_pos (by omega)]
  · simp only [block (0xD0000 + 256 * n) 0x00 (by omega) (by omega)]
  · simp only [block (0xD0008 + 256 * n) 0x08 (by omega) (by omega)]

end

/-- A read of the control space is a read of the register at the address. -/
theorem readCr_of_regAt {s : State} {a : Nat} {r : Reg} (h : Reg.at a = some r) : s.readCr a = s.readReg r % 2 ^ 64 := by
  rw [State.readCr, h]

/-- The records of the reset state, of which no table has an entry. -/
theorem reset_lq (n : Nat) : State.reset.lq n = Lq.reset := rfl
theorem reset_context (c : Nat) : State.reset.context c = Context.reset := rfl
theorem reset_partition (p : Nat) : State.reset.partition p = Partition.reset p := rfl
theorem reset_budgets (p : Nat) : State.reset.budgets p = Budgets.reset := rfl
theorem reset_dieOf (d : Nat) : State.reset.dieOf d = 0 := rfl
theorem reset_schedcfg (d : Nat) : Tab.getD State.reset.sched.schedcfg d (13500, 6750) = (13500, 6750) := rfl

/-- Settles O6: each address is that of its register, whose fields are those of the state after reset. -/
theorem resetRegisters : Obligations.ResetRegisters := by
  unfold Obligations.ResetRegisters
  have reads {a v : Nat} {r : Reg} (h : Reg.at a = some r) (e : State.reset.readReg r % 2 ^ 64 = v) : State.reset.readCr a = v :=
    (readCr_of_regAt h).trans e
  refine ⟨fun n lt => reads (regAt_queue lt) ?_, fun c lt => ?contexts, fun p lt => ?partitions, fun d lt => ?dies, ?_, ?_, ?_⟩
  case contexts =>
    obtain ⟨ctl, pt, sched, aux⟩ := regAt_context lt
    refine ⟨reads ctl ?_, reads pt ?_, reads sched ?_, reads aux ?_⟩
    all_goals rw [State.readReg, reset_context]; rfl
  case partitions =>
    obtain ⟨pir, fnmode, pfault⟩ := regAt_partition lt
    obtain ⟨wdta, wdtb, wdtc⟩ := regAt_budgets lt
    refine ⟨reads pir ?_, reads fnmode ?_, reads pfault ?_, reads wdta ?_, reads wdtb ?_, reads wdtc ?_⟩
    · rw [State.readReg, reset_partition]
      by_cases h : p = 0 <;> simp [h, Partition.reset, bitAt]
    · rw [State.readReg, reset_partition]; exact Nat.zero_mod _
    · rw [State.readReg, reset_partition]; simp [Partition.reset]
    all_goals rw [State.readReg, reset_budgets]; rfl
  case dies =>
    obtain ⟨nbr, schedcfg⟩ := regAt_die lt
    refine ⟨reads nbr ?_, reads schedcfg ?_⟩
    · rw [State.readReg, reset_dieOf]; rfl
    · rw [State.readReg, reset_schedcfg]; rfl
  case refine_1 => rw [State.readReg, reset_lq]; rfl
  all_goals exact reads rfl rfl

end Sys2Proof.Machine
end

section
/-! PROOF. The return from an exception. Settles O17. -/
namespace Sys2Proof.Machine

variable {s : State}

/-! ### Resuming -/

/-- An agent as it is resumed: where it was suspended, it is to begin again at its block's start (22 R402). -/
def Agent.resumed (g : Agent) : Agent := match g.phase with
  | .suspended pc noTrap => { g with phase := .resuming pc noTrap }
  | _ => g

theorem resumed_resumed (g : Agent) : g.resumed.resumed = g.resumed := by
  cases h : g.phase <;> simp [Agent.resumed, h]

theorem resumeAgent_eq (s : State) (a : Aid) : s.resumeAgent a = s.updAgent a Agent.resumed := rfl

/-- Agents that are resumed one after another: each is resumed, and any other is as it was. -/
theorem foldl_resumeAgent (as : List Aid) : ∀ s : State,
    (as.foldl State.resumeAgent s).ms = s.ms ∧ (as.foldl State.resumeAgent s).fab = s.fab ∧
    (as.foldl State.resumeAgent s).sched = s.sched ∧
    ∀ c, (as.foldl State.resumeAgent s).agent? c = if c ∈ as then (s.agent? c).map Agent.resumed else s.agent? c := by
  induction as with
  | nil => intro s; simp
  | cons a as ih =>
    intro s
    obtain ⟨ms, fab, sched, agents⟩ := ih (s.resumeAgent a)
    refine ⟨ms.trans (updAgent_ms ..), fab.trans (updAgent_fab ..), sched.trans (updAgent_sched ..), fun c => ?_⟩
    rw [List.foldl_cons, agents, resumeAgent_eq]
    by_cases h : c = a
    · subst h
      rw [agent?_updAgent_self, Option.map_map]
      have twice : Agent.resumed ∘ Agent.resumed = Agent.resumed := funext resumed_resumed
      by_cases mem : c ∈ as <;> simp [mem, twice]
    · rw [agent?_updAgent_ne _ _ h]
      simp [h]

/-! ### The record that a handle names -/

/-- The record for which a return by a handle looks. -/
def TrapEntry.Named (e : TrapEntry) (h : Nat) : Prop := e.who ≠ none ∧ h ≠ 0 ∧ e.trap.handle = h

theorem named_iff (e : TrapEntry) (h : Nat) : (e.who.isSome && h != 0 && e.trap.handle == h) = true ↔ e.Named h := by
  simp [TrapEntry.Named, Option.isSome_iff_ne_none, and_assoc]

theorem not_named_of {e : TrapEntry} {h : Nat} (other : e.who = none ∨ e.trap.handle ≠ h) : ¬e.Named h :=
  fun ⟨who, _, handle⟩ => other.elim who (· handle)

theorem returnFromTrap_unnamed {ctx : Nat} {level : Level} {h : Nat} (none_ : ∀ e ∈ s.sched.traps, ¬e.Named h) :
    s.returnFromTrap ctx level h = (s, sNOSVC) := by
  have find := List.find?_eq_none.2 fun e mem => mt (named_iff e h).1 (none_ e mem)
  rw [State.returnFromTrap, find]

theorem returnFromTrap_named {ctx : Nat} {level : Level} {h : Nat} {e : TrapEntry} {before after : List TrapEntry}
    (traps : s.sched.traps = before ++ e :: after) (first : ∀ f ∈ before, ¬f.Named h) (named : e.Named h) :
    s.returnFromTrap ctx level h = if e.trap.ctx ≠ ctx ∧ level ≠ .M then (s, sNOTOWNER) else
      ((e.who.toList ++ e.joined).foldl State.resumeAgent (s.updSched fun x => { x with traps := x.traps.filter fun f => f.id != e.id }),
        0) := by
  have find : s.sched.traps.find? (fun e => e.who.isSome && h != 0 && e.trap.handle == h) = some e := by
    rw [traps, List.find?_append, List.find?_eq_none.2 fun f mem => mt (named_iff f h).1 (first f mem),
      Option.none_or]
    exact List.find?_cons_of_pos ((named_iff e h).2 named)
  rw [State.returnFromTrap, find]
  simp only [Bool.and_eq_true, bne_iff_ne]

theorem filter_other_ids {e : TrapEntry} {before after : List TrapEntry} (other : ∀ f ∈ before ++ after, f.id ≠ e.id) :
    (before ++ e :: after).filter (fun f => f.id != e.id) = before ++ after := by
  have keep (l : List TrapEntry) (h : ∀ f ∈ l, f.id ≠ e.id) : l.filter (fun f => f.id != e.id) = l :=
    List.filter_eq_self.2 fun f mem => by simpa using h f mem
  simp [keep before fun f mem => other f (List.mem_append_left _ mem), keep after fun f mem => other f (List.mem_append_right _ mem)]

/-- Settles O17: what a handle names is the first record of that handle, and those that it suspended are resumed. -/
theorem returnFromTrap : Obligations.ReturnFromTrap := by
  unfold Obligations.ReturnFromTrap
  intro s ctx level h
  refine ⟨fun other => returnFromTrap_unnamed fun e mem => not_named_of (other e mem),
    fun e before after traps first others a who handle nonzero => ?_⟩
  rw [returnFromTrap_named traps (fun f mem => not_named_of (first f mem)) ⟨by simp [who], nonzero, handle⟩]
  refine ⟨fun ctx level => if_pos ⟨ctx, level⟩, fun owner => ⟨_, if_neg (by tauto), ?_⟩⟩
  obtain ⟨ms, fab, sched, agents⟩ := foldl_resumeAgent (e.who.toList ++ e.joined)
    (s.updSched fun x => { x with traps := x.traps.filter fun f => f.id != e.id })
  rw [who, Option.toList_some, List.singleton_append] at *
  refine ⟨by rw [sched]; simp [traps, filter_other_ids others], fun c g pc tr mem hg phase => ?_, fun c ne notJoined => ?_, ms, fab⟩
  · rw [agents, if_pos (List.mem_cons.2 mem), show State.agent? (s.updSched _) c = some g from hg]
    simp [Agent.resumed, phase]
  · rw [agents, if_neg (by simp [ne, notJoined])]
    rfl

end Sys2Proof.Machine
end

section
/-! PROOF. The barrier, generator and system instructions, whose effects wait for the commit. Settles O46. -/
namespace Sys2Proof.Machine

variable {s : State} {ins : Ins} {i : Issue} {o : Operands}

/-- A block whose instruction has fired and noted a system effect for the commit (23 R403). -/
def Block.noteSys (i : Issue) (o : Operands) (b : Block) : Block :=
  (b.setStat i.idx .fired).effect i.idx (.sys ⟨i.ins.op, i.ins.rm, scalNat o.a.bits, o.b.bits, i.ins.tokenReg⟩ (i.follows o))

theorem sysBody_admitted {ok : Nat → Vec → Bool} (h : ok (scalNat o.a.bits) o.b.bits = true) :
    sysBody ok i o s = s.updBlock i.aid (Block.noteSys i o) := by
  simp only [sysBody, h, Bool.not_true, Bool.false_eq_true, if_false]
  rfl

theorem sysBody_refused {ok : Nat → Vec → Bool} (h : ok (scalNat o.a.bits) o.b.bits = false) :
    sysBody ok i o s = s.faultAt i cTARGET 0 := by
  simp only [sysBody, h, Bool.not_false, if_true]

/-- The counter that a number names: below 2^20, its quad 0x1FF for a die counter, and else a quad with an index below 8 (23 R419). -/
theorem counterOf_eq {a : Nat} (lt : a < 2 ^ 20) : counterOf a =
    if a % 2 ^ 9 = 0x1FF ∨ (a % 2 ^ 9 < 320 ∧ a / 2 ^ 9 % 32 < 8) then some (a / 2 ^ 14, a % 2 ^ 9, a / 2 ^ 9 % 32) else none := by
  have die : a / 2 ^ 14 % 2 ^ 6 = a / 2 ^ 14 := Nat.mod_eq_of_lt (by omega)
  rw [counterOf]
  simp only [bitsAt_eq, die, Nat.pow_zero, Nat.div_one, show (2 : Nat) ^ 5 = 32 from rfl]
  rw [if_neg (by omega)]

theorem counterOf_isSome (a : Nat) : (counterOf a).isSome =
    (decide (a < 2 ^ 20) && (decide (a % 2 ^ 9 = 0x1FF) || (decide (a % 2 ^ 9 < 320) && decide (a / 2 ^ 9 % 32 < 8)))) := by
  by_cases lt : a < 2 ^ 20
  · rw [counterOf_eq lt, decide_eq_true lt, Bool.true_and, ← Bool.decide_and, ← Bool.decide_or]
    split
    next h => rw [decide_eq_true h]; rfl
    next h => rw [decide_eq_false h]; rfl
  · rw [decide_eq_false lt, Bool.false_and, counterOf, if_pos (by omega)]
    rfl

section
variable {ok : Nat → Vec → Bool} (ready : Ready s ins i o)
include ready

theorem issue_sysBody_admitted (h : ok (scalNat o.a.bits) o.b.bits = true) :
    s.issue ins (sysBody ok) = (s.issued i o).updBlock i.aid (Block.noteSys i o) :=
  (issue_ready ready _).trans (sysBody_admitted h)

theorem issue_sysBody_refused (h : ok (scalNat o.a.bits) o.b.bits = false) :
    s.issue ins (sysBody ok) = (s.issued i o).faultAt i cTARGET 0 :=
  (issue_ready ready _).trans (sysBody_refused h)

end

/-- Settles O46: the barriers and generators note their effect, and each system instruction does where its operands are admitted. -/
theorem systemInstructions : Obligations.SystemInstructions := by
  unfold Obligations.SystemInstructions
  intro s lit noted sys launch counter bar gen
  refine ⟨?_, ?_, ?_, ?_, ?_, ?_, ?_, ?_, ?_, ?_, ?_, ?_, ?_, ?_, ?_, ?_, ?_, ?_, fun f i o ready => ?ecntSel, fun f i o ready => ?ecntClr⟩
  case refine_1 | refine_2 | refine_3 | refine_4 | refine_5 => exact fun f i o ready => congrArg _ (issue_ready ready _)
  case ecntSel | ecntClr =>
    have same : (counterOf (scalNat o.a.bits)).isSome = counter (scalNat o.a.bits) (scalNat o.b.bits) := counterOf_isSome _
    exact ⟨fun h => congrArg _ (issue_sysBody_admitted ready (same.trans h)),
      fun h => congrArg _ (issue_sysBody_refused ready (same.trans h))⟩
  all_goals
    exact fun f i o ready =>
      ⟨fun h => congrArg _ (issue_sysBody_admitted ready h), fun h => congrArg _ (issue_sysBody_refused ready h)⟩

end Sys2Proof.Machine
end

section
/-! PROOF. `mfcr`, `mtcr` and `ecnt.rd`, which reach the control registers and the event counters. Settles O47. -/
namespace Sys2Proof.Machine

variable {s : State} {i : Issue} {o : Operands} {f : FX}

/-- An address that `mfcr` and `mtcr` may name (23 R412). -/
theorem crAddress_iff (a : Nat) : crAddress a = true ↔ a % 8 = 0 ∧ a < 2 ^ 20 := by
  simp [crAddress]

theorem execMfcr_ready (ready : Ready s (f.ins 0xD3) i o) : execMfcr f s = .next (
    if ¬(scalNat o.a.bits % 8 = 0 ∧ scalNat o.a.bits < 2 ^ 20) then (s.issued i o).faultAt i cTARGET 0
    else if (s.issued i o).mayRead (i.g.level == .M) i.g.ctx (scalNat o.a.bits) = false then (s.issued i o).faultAt i cPRIVILEGED 0
    else (s.issued i o).deliver i ⟨scal ((s.issued i o).readCr (scalNat o.a.bits)), o.dep⟩
      ⟨scal ((s.issued i o).readCr (scalNat o.a.bits)), o.dep⟩ 0) := by
  rw [execMfcr, issue_ready ready]
  simp only [Bool.not_eq_true', ← crAddress_iff, Bool.not_eq_true]

theorem execMtcr_ready (ready : Ready s (f.ins 0xD4) i o) : execMtcr f s = .next (
    if ¬(scalNat o.a.bits % 8 = 0 ∧ scalNat o.a.bits < 2 ^ 20) then (s.issued i o).faultAt i cTARGET 0
    else if (s.issued i o).mayWrite (i.g.level == .M) i.g.ctx (scalNat o.a.bits) = false then (s.issued i o).faultAt i cPRIVILEGED 0
    else (s.issued i o).updBlock i.aid (Block.noteSys i o)) := by
  rw [execMtcr, issue_ready ready]
  simp only [← crAddress_iff]
  cases h : crAddress (scalNat o.a.bits)
  · simp [sysBody_refused (ok := fun a _ => crAddress a) h]
  · simp [sysBody_admitted (ok := fun a _ => crAddress a) h]

theorem execEcntRd_unnamed (ready : Ready s (f.ins 0xDE) i o) (h : counterOf (scalNat o.a.bits) = none) :
    execEcntRd f s = .next ((s.issued i o).faultAt i cTARGET 0) := by
  rw [execEcntRd, issue_ready ready]
  simp only [h]

theorem execEcntRd_named (ready : Ready s (f.ins 0xDE) i o) {k : Nat × Nat × Nat} (h : counterOf (scalNat o.a.bits) = some k) :
    let n := if (s.issued i o).mayCount i.g k then (Tab.getD (s.issued i o).sched.counters k ⟨0, 0⟩).count else sNOTOWNER
    execEcntRd f s = .next ((s.issued i o).deliver i ⟨scal n, o.dep⟩ ⟨scal n, o.dep⟩ 0) := by
  rw [execEcntRd, issue_ready ready]
  simp only [h]

/-- Settles O47: the two register instructions by their address and reach, and `ecnt.rd` by its counter. -/
theorem controlRegisterInstructions : Obligations.ControlRegisterInstructions := by
  unfold Obligations.ControlRegisterInstructions
  intro s good
  refine ⟨fun f i o ready => ?mfcr, fun f i o ready => ?mtcr, fun f i o ready => ?ecnt, rfl, fun a lt quad index => ?counter⟩
  case mfcr =>
    have e : exec (.mfcr f) s = _ := execMfcr_ready ready
    exact ⟨fun bad => by rw [e, if_pos bad], fun ok far => by rw [e, if_neg (not_not.2 ok), if_pos far],
      fun ok near => by rw [e, if_neg (not_not.2 ok), if_neg (by rw [near]; decide)]⟩
  case mtcr =>
    have e : exec (.mtcr f) s = _ := execMtcr_ready ready
    have op : i.ins.op = 0xD4 := congrArg Ins.op (ready_ins ready)
    refine ⟨fun bad => by rw [e, if_pos bad], fun ok far => by rw [e, if_neg (not_not.2 ok), if_pos far], fun ok near => ?_⟩
    rw [e, if_neg (not_not.2 ok), if_neg (by rw [near]; decide), ← op]
    rfl
  case ecnt => exact ⟨execEcntRd_unnamed ready, fun k named => execEcntRd_named ready named⟩
  case counter => rw [counterOf_eq lt, if_pos (.inr ⟨quad, index⟩)]

end Sys2Proof.Machine
end

section
/-! PROOF. The bytes that a home, a bank or a copy in a stash holds after a read or a write. Used for O54, O56 and O57. -/
namespace Sys2Proof.Machine

variable {s t u : State}

/-! ### Lines that no stash owns -/

/-- No stash owns the line of an address. -/
def State.Unowned (s : State) (pa : Nat) : Prop := ∀ e ∈ s.fab.stashes, ∀ l ∈ e.2.lines, l.owned = true → l.holds pa = false

theorem foldl_eq_self {α β : Type} {f : β → α → β} {b : β} {xs : List α} (h : ∀ x ∈ xs, f b x = b) : xs.foldl f b = b := by
  induction xs with
  | nil => rfl
  | cons x xs ih =>
    obtain ⟨hx, hxs⟩ := List.forall_mem_cons.1 h
    rw [List.foldl_cons, hx, ih hxs]

theorem recall_of_unowned {pa : Nat} (h : s.Unowned pa) : s.recall pa = s := by
  refine foldl_eq_self fun e mem => ?_
  have none_ : (e.2.lines.find? fun l => l.holds pa && l.owned) = none := by
    refine List.find?_eq_none.2 fun l hl => ?_
    have free := h e mem l hl
    simp only [Bool.and_eq_true, not_and, Bool.not_eq_true]
    exact fun holds => Bool.eq_false_iff.2 fun owned => by simp [free owned] at holds
  simp only [none_]

theorem unowned_congr {pa pa' : Nat} (line : lineOf pa' = lineOf pa) (h : s.Unowned pa) : s.Unowned pa' := by
  simpa only [State.Unowned, StashLine.holds, line] using h

theorem recallRange_of_unowned {pa n : Nat} (h : s.Unowned pa) (within : pa % 64 + n ≤ 64) : s.recallRange pa n = s := by
  refine foldl_eq_self fun j mem => recall_of_unowned (unowned_congr ?_ h)
  have lt := List.mem_range.1 mem
  unfold lineOf at *
  omega

/-! ### What leaves the bytes as they are -/

/-- The same bytes are held, and by the same stashes. -/
structure KeepsBytes (s t : State) : Prop where
  fab : t.fab = s.fab
  mem : t.ms.mem = s.ms.mem
  scratch : t.ms.scratch = s.ms.scratch
  blank : t.ms.blank = s.ms.blank
  floors : t.ms.floors = s.ms.floors

theorem KeepsBytes.refl (s : State) : KeepsBytes s s := ⟨rfl, rfl, rfl, rfl, rfl⟩

theorem KeepsBytes.trans (h : KeepsBytes s t) (h' : KeepsBytes t u) : KeepsBytes s u :=
  ⟨h'.fab.trans h.fab, h'.mem.trans h.mem, h'.scratch.trans h.scratch, h'.blank.trans h.blank,
    h'.floors.trans h.floors⟩

theorem keepsBytes_of_eq (fab : t.fab = s.fab) (ms : t.ms = s.ms) : KeepsBytes s t := by
  refine ⟨fab, ?_, ?_, ?_, ?_⟩ <;> rw [ms]

theorem keepsBytes_fetchLine (s : State) (pa : Nat) (pin : Option (Nat × Nat)) : KeepsBytes s (s.fetchLine pa pin) := by
  unfold State.fetchLine
  split
  · exact .refl s
  · exact ⟨rfl, rfl, rfl, rfl, rfl⟩

theorem keepsBytes_fetched (s : State) (x : Access) : KeepsBytes s (s.fetched x) := by
  unfold State.fetched
  split
  · exact keepsBytes_fetchLine ..
  · exact .refl s

@[simp] theorem fetched_ue (s : State) (x : Access) : (s.fetched x).ms.ue = s.ms.ue := by
  unfold State.fetched State.fetchLine
  split
  · split <;> rfl
  · rfl

@[simp] theorem accessUe_fetched (s : State) (x y : Access) : (s.fetched x).accessUe y = s.accessUe y := by
  simp [State.accessUe, State.hasUe]

theorem keepsBytes_corrected (s : State) (pa : Nat) : KeepsBytes s (s.corrected pa) := by
  unfold State.corrected
  split
  · exact (keepsBytes_of_eq (count_fab s _ none _ 1) (count_ms s _ none _ 1)).trans ⟨rfl, rfl, rfl, rfl, rfl⟩
  · exact .refl s

theorem raisePts_ms (s : State) (i : Issuer) (n : Nat) : (s.raisePts i n).ms = s.ms := by
  cases i <;> simp [State.raisePts]

theorem raisePts_fab (s : State) (i : Issuer) (n : Nat) : (s.raisePts i n).fab = s.fab := by
  cases i <;> simp [State.raisePts]

theorem keepsBytes_raisePts (s : State) (i : Issuer) (n : Nat) : KeepsBytes s (s.raisePts i n) :=
  keepsBytes_of_eq (raisePts_fab ..) (raisePts_ms ..)

theorem keepsBytes_setLineTs (s : State) (pa wts rts : Nat) : KeepsBytes s (s.setLineTs pa wts rts) := ⟨rfl, rfl, rfl, rfl, rfl⟩

section
variable (h : KeepsBytes s t)
include h

theorem KeepsBytes.unowned {pa : Nat} (free : s.Unowned pa) : t.Unowned pa := by
  rw [State.Unowned, h.fab]
  exact free

theorem KeepsBytes.fill (a : Nat) : t.fill a = s.fill a := by rw [State.fill, State.fill, h.blank]

theorem KeepsBytes.byteAt (a : Nat) : t.byteAt a = s.byteAt a := by rw [State.byteAt, State.byteAt, h.mem, h.fill]

theorem KeepsBytes.masked (pa : Nat) (bs : List Byte) : t.masked pa bs = s.masked pa bs := by
  simp only [State.masked, h.blank, h.fill]

theorem KeepsBytes.stashOf (i : Issuer) (x : Access) (sys : Bool) : t.stashOf i x sys = s.stashOf i x sys := by
  simp only [State.stashOf, State.stashFor, h.fab]

end

/-! ### Bytes at their homes -/

@[simp] theorem masked_length (s : State) (pa : Nat) (bs : List Byte) : (s.masked pa bs).length = bs.length := by
  unfold State.masked
  split <;> simp

/-- The memory of one partition has a range of addresses. -/
def OnePart (pa n : Nat) : Prop := ∀ j < n, memPart (pa + j) = memPart pa

theorem onePart_of_line {pa n : Nat} (within : pa % 64 + n ≤ 64) : OnePart pa n := fun j lt => by unfold memPart; omega

theorem onePart_of_page {pa : Nat} (aligned : pa % 2 ^ 16 = 0) : OnePart pa (2 ^ 16) := fun j lt => by unfold memPart; omega

/-- A byte as it is held differs from the byte by what its address reads as unwritten. -/
theorem masked_getD {pa : Nat} {bs : List Byte} (one : OnePart pa bs.length) {j : Nat} (lt : j < bs.length) (d : Byte) :
    (s.masked pa bs).getD j d = bs.getD j 0 ^^^ s.fill (pa + j) := by
  have part := one j lt
  rw [State.fill, part]
  unfold State.masked
  split
  next h => simp [Mem.unlisted, lt]
  next h => simp [State.fill, part, h, lt]

theorem homeBytes_eq {pa n : Nat} (one : OnePart pa n) : s.homeBytes pa n = (List.range n).map fun j => s.byteAt (pa + j) := by
  have length : (Mem.readBytes s.ms.mem pa n).length = n := by simp [Mem.readBytes]
  refine List.ext_getElem (by simp [State.homeBytes, length]) fun j hj hj' => ?_
  have lt : j < n := by simpa using hj'
  have held := masked_getD (s := s) (bs := Mem.readBytes s.ms.mem pa n) (by rwa [length]) (by rwa [length]) (j := j) 0
  rw [← List.getElem_eq_getD (h := by rw [masked_length, length]; exact lt)] at held
  exact held.trans (by simp [Mem.readBytes, lt, State.byteAt])

/-- The bytes once some have been written. -/
theorem byteAt_written (wf : Memory.wf s.ms.mem = true) {pa : Nat} {bs : List Byte} (one : OnePart pa bs.length)
    (mem : t.ms.mem = Mem.writeBytes s.ms.mem pa (s.masked pa bs)) (blank : t.ms.blank = s.ms.blank) (a : Nat) :
    t.byteAt a = if pa ≤ a ∧ a < pa + bs.length then bs.getD (a - pa) 0 else s.byteAt a := by
  have fill : t.fill a = s.fill a := by rw [State.fill, State.fill, blank]
  rw [State.byteAt, mem, fill]
  split
  next h =>
    have lt : a - pa < bs.length := by omega
    rw [read_writeBytes wf, if_pos h.1, masked_getD one lt, show pa + (a - pa) = a by omega, BitVec.xor_assoc, BitVec.xor_self,
      BitVec.xor_zero]
  next h => rw [read_writeBytes_outside wf (by rw [masked_length]; omega)]; rfl

/-! ### Reads and writes at a home -/

/-- A read at a home answers the bytes there, and keeps them. -/
theorem homeRead_keeps {pa n : Nat} (free : s.Unowned pa) (within : pa % 64 + n ≤ 64) (i : Issuer) (lease : Nat) (sys : Bool) :
    ∃ u, KeepsBytes s u ∧ s.homeRead i pa n lease sys = (u, (List.range n).map fun j => s.byteAt (pa + j)) := by
  unfold State.homeRead
  rw [recallRange_of_unowned free within]
  dsimp only
  refine ⟨_, ((keepsBytes_corrected s pa).trans (keepsBytes_raisePts ..)).trans (keepsBytes_setLineTs ..), Prod.ext rfl ?_⟩
  rw [homeBytes_eq (onePart_of_line within)]
  exact List.map_congr_left fun j _ => (((keepsBytes_corrected s pa).trans (keepsBytes_raisePts ..)).trans
    (keepsBytes_setLineTs ..)).byteAt _

/-- What a write at a home leaves: its bytes there, and all else that a stash or a bank holds. -/
structure Wrote (s t : State) (pa : Nat) (bs : List Byte) : Prop where
  fab : t.fab = s.fab
  scratch : t.ms.scratch = s.ms.scratch
  blank : t.ms.blank = s.ms.blank
  wf : Memory.wf t.ms.mem = true
  bytes : ∀ a, t.byteAt a = if pa ≤ a ∧ a < pa + bs.length then bs.getD (a - pa) 0 else s.byteAt a

theorem wrote_homeWrite (wf : Memory.wf s.ms.mem = true) {pa : Nat} {bs : List Byte} (free : s.Unowned pa)
    (within : pa % 64 + bs.length ≤ 64) (i : Issuer) (ctx : Nat) : Wrote s (s.homeWrite i ctx pa bs) pa bs := by
  unfold State.homeWrite
  rw [recallRange_of_unowned free within]
  dsimp only
  generalize max ((s.corrected pa).ptsOf i) (((s.corrected pa).lineTs pa).rts + 1) = wts
  have keeps := ((keepsBytes_corrected s pa).trans (keepsBytes_raisePts (s.corrected pa) i wts)).trans
    (keepsBytes_setLineTs _ pa wts wts)
  have mem := congrArg (fun m => Mem.writeBytes m pa (s.masked pa bs)) keeps.mem
  rw [← keeps.masked] at mem
  refine ⟨keeps.fab, keeps.scratch, keeps.blank, ?_, byteAt_written wf (onePart_of_line within) (mem.trans ?_) keeps.blank⟩
  · exact wf_writeBytes (keeps.mem ▸ wf)
  · rw [keeps.masked]

end Sys2Proof.Machine
end

section
/-! PROOF. What a checked access does to the bytes where its line lives. Used for O54. -/
namespace Sys2Proof.Machine

variable {s t u v : State}

/-! ### Writes at a home and in a bank -/

theorem KeepsBytes.wrote {pa : Nat} {bs : List Byte} (h : KeepsBytes s t) (w : Wrote t u pa bs) : Wrote s u pa bs :=
  ⟨w.fab.trans h.fab, w.scratch.trans h.scratch, w.blank.trans h.blank, w.wf, fun a => by rw [w.bytes, h.byteAt]⟩

/-- A write of all bytes of a line clears what its check bits say. -/
theorem keepsBytes_clearUe (s : State) (f : List Nat → List Nat) : KeepsBytes s (s.updMs fun m => { m with ue := f m.ue }) :=
  ⟨rfl, rfl, rfl, rfl, rfl⟩

theorem keepsBytes_ite {c : Prop} [Decidable c] (ht : KeepsBytes s t) (hu : KeepsBytes s u) : KeepsBytes s (if c then t else u) := by
  split <;> assumption

theorem scratchWrite_bytes (keeps : KeepsBytes s t) (i : Issuer) (pa : Nat) (bs : List Byte) :
    (t.scratchWrite i pa bs).ms.scratch = Mem.writeBytes s.ms.scratch pa bs ∧ (t.scratchWrite i pa bs).ms.mem = s.ms.mem ∧
      (t.scratchWrite i pa bs).ms.blank = s.ms.blank := by
  unfold State.scratchWrite
  dsimp only
  generalize max ((t.corrected (scratchLine pa)).ptsOf i) (((t.corrected (scratchLine pa)).lineTs (scratchLine pa)).rts + 1) = wts
  have keeps' := ((keeps.trans (keepsBytes_corrected t (scratchLine pa))).trans
    (keepsBytes_raisePts _ i wts)).trans (keepsBytes_setLineTs _ (scratchLine pa) wts wts)
  exact ⟨congrArg (Mem.writeBytes · pa bs) keeps'.scratch, keeps'.mem, keeps'.blank⟩

section
variable {i : Issuer} {ctx : Nat} {x : Access} {bs : List Byte} {sys : Bool}

theorem writeAccess_of_no_stash (none_ : s.stashOf i x sys = none) :
    s.writeAccess i ctx x bs sys = (s.fetched x).lineWrite i ctx x bs := by
  rw [State.writeAccess, none_]

/-- A write at a home that is performed. -/
theorem wrote_writeAccess (wf : Memory.wf s.ms.mem = true) (none_ : s.stashOf i x sys = none) (type : x.mt ≠ 3) (free : s.Unowned x.pa)
    (within : x.pa % 64 + bs.length ≤ 64) (h : s.writeAccess i ctx x bs sys = (v, true)) : Wrote s v x.pa bs := by
  have fetched := keepsBytes_fetched s x
  rw [writeAccess_of_no_stash none_, State.lineWrite, if_neg type, recallRange_of_unowned (fetched.unowned free) within] at h
  dsimp only at h
  split at h
  · cases h
  · cases h
    have keeps := fetched.trans (keepsBytes_ite (c := (bs.length == 64 && x.pa % 64 == 0) = true)
      (keepsBytes_clearUe (s.fetched x) (·.filter fun l => l != lineOf (checkedAt x))) (.refl _))
    exact keeps.wrote (wrote_homeWrite (keeps.mem ▸ wf) (keeps.unowned free) within i ctx)

/-- A write in a bank that is performed leaves its bytes there, and device memory as it was. -/
theorem writeAccess_scratch (type : x.mt = 3) (h : s.writeAccess i ctx x bs sys = (v, true)) :
    v.ms.scratch = Mem.writeBytes s.ms.scratch x.pa bs ∧ v.ms.mem = s.ms.mem ∧ v.ms.blank = s.ms.blank := by
  have none_ : s.stashOf i x sys = none := by simp [State.stashOf, type]
  have fetched : s.fetched x = s := by simp [State.fetched, type]
  rw [writeAccess_of_no_stash none_, State.lineWrite, if_pos type, fetched] at h
  dsimp only at h
  split at h
  · cases h
  · cases h
    exact scratchWrite_bytes (keepsBytes_ite (c := (bs.length == 64 && x.pa % 64 == 0) = true)
      (keepsBytes_clearUe s (·.filter fun l => l != lineOf (checkedAt x))) (.refl _)) i x.pa bs

end

/-! ### Runs of enabled bytes -/

/-- A run of bytes, by its offset and length, has an offset. -/
def InRun (p : Nat × Nat) (k : Nat) : Prop := p.1 ≤ k ∧ k < p.1 + p.2

/-- The runs of the enabled bytes of a range have exactly these. -/
theorem mem_enabledRuns_iff (en : Nat) : ∀ (n off k : Nat),
    (∃ p ∈ enabledRuns en n off, InRun p k) ↔ off ≤ k ∧ k < off + n ∧ en.testBit k = true
  | 0, off, k => by simp [enabledRuns]; omega
  | n + 1, off, k => by
    have ih := mem_enabledRuns_iff en n (off + 1) k
    unfold enabledRuns
    split
    next bit =>
      have step : off ≤ k ∧ k < off + (n + 1) ∧ en.testBit k = true ↔ k = off ∨ off + 1 ≤ k ∧ k < off + 1 + n ∧ en.testBit k = true := by
        constructor
        · rintro ⟨lo, hi, h⟩
          by_cases e : k = off
          · exact .inl e
          · exact .inr ⟨by omega, by omega, h⟩
        · rintro (rfl | ⟨lo, hi, h⟩)
          · exact ⟨by omega, by omega, bit⟩
          · exact ⟨by omega, by omega, h⟩
      rw [step, ← ih]
      split
      next o l rest e =>
        rw [e]
        split
        next next_ =>
          subst next_
          simp only [List.mem_cons, exists_eq_or_imp, InRun]
          constructor
          · rintro (h | h)
            · by_cases k = off
              · exact .inl ‹_›
              · exact .inr (.inl (by omega))
            · exact .inr (.inr h)
          · rintro (h | h | h)
            · exact .inl (by omega)
            · exact .inl (by omega)
            · exact .inr h
        next =>
          simp only [List.mem_cons, exists_eq_or_imp, InRun]
          exact or_congr (by omega) .rfl
      next e => simp [e, InRun]; omega
    next bit =>
      rw [ih]
      constructor
      · rintro ⟨lo, hi, h⟩
        exact ⟨by omega, by omega, h⟩
      · rintro ⟨lo, hi, h⟩
        have : k ≠ off := fun e => bit (e ▸ h)
        exact ⟨by omega, by omega, h⟩

/-- A run is not empty, and lies in the range. -/
theorem enabledRuns_bounds (en : Nat) : ∀ (n off : Nat), ∀ p ∈ enabledRuns en n off, off ≤ p.1 ∧ 1 ≤ p.2 ∧ p.1 + p.2 ≤ off + n
  | 0, off => by simp [enabledRuns]
  | n + 1, off => by
    have ih := enabledRuns_bounds en n (off + 1)
    unfold enabledRuns
    split
    next =>
      split
      next o l rest e =>
        rw [e] at ih
        obtain ⟨first, others⟩ := List.forall_mem_cons.1 ih
        have others' : ∀ p ∈ rest, off ≤ p.1 ∧ 1 ≤ p.2 ∧ p.1 + p.2 ≤ off + (n + 1) := fun p mem => by
          have := others p mem
          omega
        split
        · exact List.forall_mem_cons.2 ⟨by dsimp only at first ⊢; omega, others'⟩
        · exact List.forall_mem_cons.2 ⟨by dsimp only; omega, List.forall_mem_cons.2 ⟨by dsimp only at first ⊢; omega, others'⟩⟩
      next => simp
    next =>
      intro p mem
      have := ih p mem
      omega

/-- Writes one after another, each of which is performed: a byte in one of the runs is the string's, and any other is as it was. -/
theorem read_foldl_writes {Inv : State → Prop} {read : State → Nat → Byte} {f : State → Nat × Nat → State × Bool} {pa : Nat}
    {bytes : List Byte} {runs : List (Nat × Nat)}
    (step : ∀ u v, ∀ p ∈ runs, Inv u → f u p = (v, true) → Inv v ∧ ∀ a, read v a =
      if pa + p.1 ≤ a ∧ a < pa + p.1 + p.2 then bytes.getD (a - pa) 0 else read u a) :
    ∀ {s v : State}, Inv s →
      runs.foldl (fun (r : State × Bool) p => if r.2 then f r.1 p else (r.1, false)) (s, true) = (v, true) →
      Inv v ∧ ∀ a, ((∃ p ∈ runs, pa + p.1 ≤ a ∧ a < pa + p.1 + p.2) → read v a = bytes.getD (a - pa) 0) ∧
        ((¬∃ p ∈ runs, pa + p.1 ≤ a ∧ a < pa + p.1 + p.2) → read v a = read s a) := by
  induction runs with
  | nil =>
    intro s v inv h
    cases h
    exact ⟨inv, fun a => ⟨by simp, fun _ => rfl⟩⟩
  | cons p runs ih =>
    intro s v inv h
    rw [List.foldl_cons, if_pos rfl] at h
    have stopped : ∀ (runs : List (Nat × Nat)) (t : State), runs.foldl (fun (r : State × Bool) p =>
        if r.2 then f r.1 p else (r.1, false)) (t, false) = (t, false) := fun runs t => foldl_eq_self fun _ _ => rfl
    cases e : f s p with
    | mk t done =>
      rw [e] at h
      cases done with
      | false => rw [stopped] at h; cases h
      | true =>
        obtain ⟨inv', first⟩ := step s t p List.mem_cons_self inv e
        obtain ⟨inv'', others⟩ := ih (fun u v q mem => step u v q (List.mem_cons_of_mem _ mem)) inv' h
        refine ⟨inv'', fun a => ⟨fun some_ => ?_, fun none_ => ?_⟩⟩
        · by_cases later : ∃ q ∈ runs, pa + q.1 ≤ a ∧ a < pa + q.1 + q.2
          · exact (others a).1 later
          · rw [(others a).2 later, first, if_pos (((List.exists_mem_cons_iff ..).1 some_).resolve_right later)]
        · have none' := mt (List.exists_mem_cons_iff ..).2 none_
          rw [not_or] at none'
          rw [(others a).2 none'.2, first, if_neg none'.1]

theorem getD_drop_take {bytes : List Byte} {lo n k : Nat} (lt : k < n) (d : Byte) :
    ((bytes.drop lo).take n).getD k d = bytes.getD (lo + k) d := by
  simp [List.getD_eq_getElem?_getD, List.getElem?_drop, lt]

section
variable {i : Issuer} {ctx : Nat} {x : Access} {bytes : List Byte} {en : Nat} {sys : Bool}

/-- An address whose byte a store enables. -/
def Stored (x : Access) (bytes : List Byte) (en a : Nat) : Prop := x.pa ≤ a ∧ a < x.pa + bytes.length ∧ en.testBit (a - x.pa) = true

theorem stored_iff (a : Nat) : Stored x bytes en a ↔
    ∃ p ∈ enabledRuns en bytes.length 0, x.pa + p.1 ≤ a ∧ a < x.pa + p.1 + p.2 := by
  by_cases le : x.pa ≤ a
  · have runs := mem_enabledRuns_iff en bytes.length 0 (a - x.pa)
    simp only [Nat.zero_le, true_and, Nat.zero_add] at runs
    rw [Stored, show a < x.pa + bytes.length ↔ a - x.pa < bytes.length by omega, ← runs]
    simp only [le, true_and, InRun]
    exact exists_congr fun p => and_congr_right fun _ => by omega
  · constructor
    · exact fun h => absurd h.1 le
    · rintro ⟨p, -, h, -⟩
      omega

/-- A store at a home changes its enabled bytes and no other (12 R247). -/
theorem writeEnabled_home (wf : Memory.wf s.ms.mem = true) (within : x.pa % 64 + bytes.length ≤ 64) (type : x.mt ≤ 1)
    (none_ : ∀ o n, s.stashOf i (x.part o n) sys = none) (free : s.Unowned x.pa)
    (h : s.writeEnabled i ctx x bytes en sys = (v, true)) :
    (∀ a, Stored x bytes en a → v.byteAt a = bytes.getD (a - x.pa) 0) ∧ (∀ a, ¬Stored x bytes en a → v.byteAt a = s.byteAt a) ∧
      v.ms.scratch = s.ms.scratch := by
  unfold State.writeEnabled at h
  have writes := read_foldl_writes (pa := x.pa) (bytes := bytes)
    (f := fun u p => u.writeAccess i ctx (x.part p.1 p.2) ((bytes.drop p.1).take p.2) sys) (read := State.byteAt)
    (Inv := fun u => u.fab = s.fab ∧ u.ms.scratch = s.ms.scratch ∧ Memory.wf u.ms.mem = true) ?step ⟨rfl, rfl, wf⟩ h
  case step =>
    rintro u v p mem ⟨fab, scratch, wf⟩ done
    obtain ⟨-, pos, fits⟩ := enabledRuns_bounds en bytes.length 0 p mem
    have length : ((bytes.drop p.1).take p.2).length = p.2 := by rw [List.length_take, List.length_drop]; omega
    have free' : u.Unowned (x.part p.1 p.2).pa := by
      have same : lineOf (x.pa + p.1) = lineOf x.pa := by unfold lineOf; omega
      rw [State.Unowned, fab]
      exact unowned_congr same free
    have none' : u.stashOf i (x.part p.1 p.2) sys = none := by
      simpa only [State.stashOf, State.stashFor, fab] using none_ p.1 p.2
    have wrote := wrote_writeAccess wf none' (by show x.mt ≠ 3; omega) free'
      (by rw [length]; show (x.pa + p.1) % 64 + p.2 ≤ 64; omega) done
    refine ⟨⟨wrote.fab.trans fab, wrote.scratch.trans scratch, wrote.wf⟩, fun a => ?_⟩
    rw [wrote.bytes, length]
    show (if x.pa + p.1 ≤ a ∧ a < x.pa + p.1 + p.2 then _ else _) = _
    refine if_ctx_congr .rfl (fun inside => ?_) fun _ => rfl
    show ((bytes.drop p.1).take p.2).getD (a - (x.pa + p.1)) 0 = _
    rw [getD_drop_take (by omega), show p.1 + (a - (x.pa + p.1)) = a - x.pa by omega]
  obtain ⟨⟨-, scratch, -⟩, read⟩ := writes
  exact ⟨fun a h => (read a).1 ((stored_iff a).1 h), fun a h => (read a).2 (mt (stored_iff a).2 h), scratch⟩

/-- So does one in a bank. -/
theorem writeEnabled_scratch (wf : Memory.wf s.ms.scratch = true) (type : x.mt = 3)
    (h : s.writeEnabled i ctx x bytes en sys = (v, true)) :
    (∀ a, Stored x bytes en a → Mem.read v.ms.scratch a = bytes.getD (a - x.pa) 0) ∧
      (∀ a, ¬Stored x bytes en a → Mem.read v.ms.scratch a = Mem.read s.ms.scratch a) ∧ ∀ a, v.byteAt a = s.byteAt a := by
  unfold State.writeEnabled at h
  have writes := read_foldl_writes (pa := x.pa) (bytes := bytes)
    (f := fun u p => u.writeAccess i ctx (x.part p.1 p.2) ((bytes.drop p.1).take p.2) sys) (read := fun u => Mem.read u.ms.scratch)
    (Inv := fun u => u.ms.mem = s.ms.mem ∧ u.ms.blank = s.ms.blank ∧ Memory.wf u.ms.scratch = true) ?step ⟨rfl, rfl, wf⟩ h
  case step =>
    rintro u v p inRuns ⟨mem, blank, wf⟩ done
    obtain ⟨-, pos, fits⟩ := enabledRuns_bounds en bytes.length 0 p inRuns
    have length : ((bytes.drop p.1).take p.2).length = p.2 := by rw [List.length_take, List.length_drop]; omega
    obtain ⟨scratch', mem', blank'⟩ := writeAccess_scratch (x := x.part p.1 p.2) type done
    refine ⟨⟨mem'.trans mem, blank'.trans blank, scratch' ▸ wf_writeBytes wf⟩, fun a => ?_⟩
    show Mem.read v.ms.scratch a = _
    rw [scratch']
    split
    next inside =>
      rw [read_writeBytes wf, if_pos (by exact inside.1)]
      show ((bytes.drop p.1).take p.2).getD (a - (x.pa + p.1)) _ = _
      rw [getD_drop_take (by omega), show p.1 + (a - (x.pa + p.1)) = a - x.pa by omega, List.getD_eq_getElem _ _ (by omega),
        List.getD_eq_getElem _ _ (by omega)]
    next outside =>
      refine read_writeBytes_outside wf ?_
      show a < x.pa + p.1 ∨ x.pa + p.1 + _ ≤ a
      rw [length]
      omega
  obtain ⟨⟨mem, blank, -⟩, read⟩ := writes
  refine ⟨fun a h => (read a).1 ((stored_iff a).1 h), fun a h => (read a).2 (mt (stored_iff a).2 h), fun a => ?_⟩
  rw [State.byteAt, State.byteAt, mem, State.fill, State.fill, blank]

end

/-! ### A store in the copy of a stash, and a read at a home -/

theorem ptsOf_congr (agents : t.agents = s.agents) (floors : t.ms.floors = s.ms.floors) (out : t.out = s.out) (i : Issuer) :
    t.ptsOf i = s.ptsOf i := by
  have floor (k : Nat) : t.floorTs k = s.floorTs k := congrArg (Tab.getD · k 0) floors
  have agent (a : Aid) : t.agent? a = s.agent? a := by simp only [State.agent?, State.freshThread, floor, agents]
  cases i <;> simp only [State.ptsOf, agent, floor, out]

@[simp] theorem fetched_agents (s : State) (x : Access) : (s.fetched x).agents = s.agents := by
  unfold State.fetched State.fetchLine
  split
  · split <;> rfl
  · rfl

@[simp] theorem fetched_out (s : State) (x : Access) : (s.fetched x).out = s.out := by
  unfold State.fetched State.fetchLine
  split
  · split <;> rfl
  · rfl

theorem ptsOf_fetched (s : State) (x : Access) (i : Issuer) : (s.fetched x).ptsOf i = s.ptsOf i :=
  ptsOf_congr (fetched_agents ..) (keepsBytes_fetched ..).floors (fetched_out ..) i

/-- A stash that has room for a line puts it in front of the others (12 R243). -/
theorem stashFill_of_room {n : Nid} {st : Stash} (at_ : Tab.get? s.fab.stashes n = some st) {l : StashLine} (sets : Nat)
    (room : (st.lines.filter fun m => m.pa != l.pa).length < 8) : s.stashFill n sets l =
      s.updFab fun f => { f with stashes := Tab.set f.stashes n { st with lines := l :: st.lines.filter fun m => m.pa != l.pa } } := by
  have few : ¬8 ≤ (st.lines.filter fun m => m.va / 64 % sets == l.va / 64 % sets && m.pa != l.pa).length := by
    have le : (st.lines.filter fun m => m.va / 64 % sets == l.va / 64 % sets && m.pa != l.pa).length ≤
        (st.lines.filter fun m => m.pa != l.pa).length := by
      rw [← List.filter_filter]
      exact List.length_filter_le ..
    omega
  simp only [State.stashFill, at_, ge_iff_le, if_neg few, Bool.and_true]

theorem length_filter_pa_lt {lines : List StashLine} {l : StashLine} (mem : l ∈ lines) :
    (lines.filter fun m => m.pa != l.pa).length < lines.length := by
  refine List.length_filter_lt_length_iff_exists.2 ⟨l, mem, by simp⟩

/-- A store through a stash that owns the line writes it there (12 R243, R244). -/
theorem writeAccess_owned {i : Issuer} {ctx : Nat} {x : Access} {bytes : List Byte} {n : Nid} {st : Stash} {l : StashLine}
    (stash : s.stashOf i x false = some n) (at_ : Tab.get? s.fab.stashes n = some st) (few : st.lines.length ≤ 8)
    (found : st.lines.find? (fun l => l.holds x.pa && l.owned) = some l) (sound : l.bad = false) :
    ∃ t, s.writeAccess i ctx x bytes false = (t, true) ∧ t.ms.mem = s.ms.mem ∧
      t.fab.stashes = Tab.set s.fab.stashes n { st with
        lines := { l with
          data := spliceBytes l.data (x.pa % 64) bytes, dirty := true, wts := max (s.ptsOf i) (l.lease + 1)
          lease := max (s.ptsOf i) (l.lease + 1), holder := i.holder } :: st.lines.filter fun m => m.pa != l.pa } := by
  have fetched := keepsBytes_fetched s x
  have owned : l.owned = true := by
    have := List.find?_some found
    simp only [Bool.and_eq_true] at this
    exact this.2
  have at' : Tab.get? (s.fetched x).fab.stashes n = some st := fetched.fab ▸ at_
  rw [State.writeAccess, stash]
  dsimp only
  rw [State.stashWrite]
  simp only [at', found, sound, Bool.false_and, Bool.false_eq_true, if_false, ptsOf_fetched]
  rw [stashFill_of_room (st := st) ?held _ ?room]
  case held => rw [raisePts_fab]; exact at'
  case room => exact Nat.lt_of_lt_of_le (length_filter_pa_lt (l := l) (List.mem_of_find?_eq_some found)) few
  refine ⟨_, rfl, ?_, ?_⟩
  · rw [updFab_ms, raisePts_ms, updMs_ms, fetched.mem]
  · rw [updFab_fab, raisePts_fab, updMs_fab, fetched.fab]
    simp only [owned]

/-- A read at a home by an actor gives the bytes there (12 R246). -/
theorem readAccess_home {rid row col cu slot ctx : Nat} {x : Access} {sys : Bool} (type : x.mt ≤ 1) (within : x.pa % 64 + x.len ≤ 64)
    (sound : s.accessUe x = false) (none_ : s.stashOf (.agent (.actor rid row col cu slot)) x sys = none) (free : s.Unowned x.pa) :
    (s.readAccess (.agent (.actor rid row col cu slot)) ctx x sys).2 = ((List.range x.len).map fun j => s.byteAt (x.pa + j), false) := by
  have fetched := keepsBytes_fetched s x
  obtain ⟨u, -, read⟩ := homeRead_keeps (fetched.unowned free) within (.agent (.actor rid row col cu slot)) 0 sys
  have line : (s.fetched x).lineRead (.agent (.actor rid row col cu slot)) ctx x sys =
      (u, (List.range x.len).map fun j => s.byteAt (x.pa + j), false) := by
    rw [State.lineRead, recallRange_of_unowned (fetched.unowned free) within]
    dsimp only
    rw [if_neg (by simp [sound]), read]
    simp only [fetched.byteAt]
  unfold State.readAccess
  split
  · omega
  · omega
  · rw [none_]
    dsimp only
    rw [line]

end Sys2Proof.Machine
end

section
/-! PROOF. How a memory request waits, is sent, is performed an element at a time and answered, and what leases and timestamps do.
Settles O54. -/
namespace Sys2Proof.Machine

variable {s t v : State} {r r' : Req} {e : Elem} {rest : List Elem}

/-! ### One element of a request -/

/-- A state with one element of a request performed: the last one ends it, any other leaves it with those that remain. -/
def State.afterElement (v : State) (rest : List Elem) (r r' : Req) : State :=
  if rest = [] then v.finishRequest r' else v.updMs fun m => { m with reqs := m.reqs.map fun q => if q.id = r.id then r' else q }

/-- What a request follows is behind its agent's timestamp when it is performed (12 R247). -/
def State.following (s : State) (r : Req) : State := s.raisePts (.agent r.aid) (s.stampMax r.after)

theorem perform_read {sys : Bool} (elems : r.elems = e :: rest) (kind : r.kind = .read sys)
    (element : (s.following r).readElement { r with elems := rest } e sys = (v, r')) (same : r'.id = r.id) :
    s.perform r = v.afterElement rest r r' := by
  cases r
  dsimp only at elems kind
  subst elems kind
  unfold State.following at element
  simp only [State.perform, element, State.afterElement, List.isEmpty_iff, same]

theorem perform_write {sys : Bool} (elems : r.elems = e :: rest) (kind : r.kind = .write sys)
    (element : (s.following r).storeElement { r with elems := rest } e sys = (v, r')) (same : r'.id = r.id) :
    s.perform r = v.afterElement rest r r' := by
  cases r
  dsimp only at elems kind
  subst elems kind
  unfold State.following at element
  simp only [State.perform, element, State.afterElement, List.isEmpty_iff, same]

theorem perform_rmw {op : MemOp} {ty W : Nat} (elems : r.elems = e :: rest) (kind : r.kind = .rmw op ty W)
    (element : (s.following r).atomicElement { r with elems := rest } e op ty W = (v, r')) (same : r'.id = r.id) :
    s.perform r = v.afterElement rest r r' := by
  cases r
  dsimp only at elems kind
  subst elems kind
  unfold State.following at element
  simp only [State.perform, element, State.afterElement, List.isEmpty_iff, same]

theorem readElement_of_read {sys ue : Bool} {bs : List Byte}
    (read : s.readAccess (.agent r.aid) r.ctx (r.part e.off e.x) sys = (v, bs, ue)) :
    s.readElement r e sys = (v, { r with
      got := r.got ++ [(e.y, bs)]
      failed := if ue then r.failed <|> some (e.y, r.acc.va + e.off) else r.failed }) := by
  rw [State.readElement, read]

theorem storeElement_posted {sys : Bool} (type : r.acc.mt = 2) {a : Aid} {code : Nat} {f g : Nat} (dst : r.dst = .reg a code f g) :
    s.storeElement r e sys = (s.updMs fun m => { m with
      ioWrites := m.ioWrites ++ s.posted r.aid r.ctx r.id (r.part e.off 64) (natBytes 64 e.x) e.y (some (a, code, r.id)) }, r) := by
  simp only [State.storeElement, if_pos type, dst]

theorem storeElement_of_write {sys done : Bool} (type : r.acc.mt ≠ 2)
    (write : s.writeEnabled (.agent r.aid) r.ctx (r.part e.off 64) (natBytes 64 e.x) e.y sys = (v, done)) :
    s.storeElement r e sys = if done then (v, r) else v.elementFails r (r.acc.va + e.off) := by
  simp only [State.storeElement, if_neg type, write]
  cases done <;> rfl

theorem endDonation_of_ne {op : MemOp} (ne : op ≠ .lkrel) (old : Nat) : s.endDonation r op old = s := by
  unfold State.endDonation
  split
  · exact absurd rfl ne
  · rfl

theorem atomicElement_of_rmw {op : MemOp} {ty W old : Nat} (ne : op ≠ .lkrel) (single : ∀ a grp, r.dst ≠ .group a grp)
    (rmw : s.rmwAccess (.agent r.aid) r.ctx (r.part e.off (W / 8))
      (fun old => rmwNew op W e.x e.y (holderForm r.ctx r.inc) old) = (v, some old)) :
    s.atomicElement r e op ty W = (v, { r with got := [(rmwResult op ty W (holderForm r.ctx r.inc) old, [])] }) := by
  simp only [State.atomicElement, rmw, endDonation_of_ne ne]

/-! ### The answer of a request -/

/-- The MU whose tag a request holds. -/
def State.tagMu (s : State) (r : Req) : Option Nat := if s.tagHeld (s.muOf r.aid) r.id r.inc then s.muOf r.aid else none

theorem finishRequest_read {sys : Bool} (kind : r.kind = .read sys) :
    ∃ rep, s.finishRequest r = (s.updMs fun m => { m with replies := m.replies ++ [rep] }).retire r ∧
      rep.id = r.id ∧ rep.aid = r.aid ∧ rep.inc = r.inc ∧ rep.dst = r.dst ∧ rep.got = r.got ∧ rep.failed = r.failed ∧
      rep.mu = s.tagMu r := by
  simp only [State.finishRequest, kind]
  cases s.agent? r.aid <;> exact ⟨_, rfl, rfl, rfl, rfl, rfl, rfl, rfl, rfl⟩

theorem finishRequest_write {sys : Bool} (kind : r.kind = .write sys) (type : r.acc.mt ≠ 2) :
    s.finishRequest r = ((s.tagReplied (s.tagMu r) r.id).retire r).answer r (if r.failed.isSome then ueToken else 0) := by
  simp only [State.finishRequest, kind, if_neg type, State.tagMu]

theorem finishRequest_posted {sys : Bool} (kind : r.kind = .write sys) (type : r.acc.mt = 2) :
    s.finishRequest r = (s.tagReplied (s.tagMu r) r.id).retire r := by
  simp only [State.finishRequest, kind, if_pos type, State.tagMu]

theorem finishRequest_rmw {op : MemOp} {ty W : Nat} (kind : r.kind = .rmw op ty W) :
    s.finishRequest r = ((s.tagReplied (s.tagMu r) r.id).retire r).answer r
      (if r.failed.isSome then ueToken else (r.got.head?.map Prod.fst).getD 0) := by
  simp only [State.finishRequest, kind, State.tagMu]

/-- A store or atomic that an uncorrectable error stopped answers `ueToken`; for a store that is the model's choice (log 22). -/
theorem finishRequest_failed (notEngine : r.kind ≠ .engine) (notRead : ∀ sys, r.kind ≠ .read sys) (failed : r.failed ≠ none)
    (type : r.acc.mt ≠ 2) : s.finishRequest r = ((s.tagReplied (s.tagMu r) r.id).retire r).answer r ueToken := by
  have some_ : r.failed.isSome = true := Option.isSome_iff_ne_none.2 failed
  cases kind : r.kind with
  | read sys => exact absurd kind (notRead sys)
  | write sys => rw [finishRequest_write kind type, if_pos some_]
  | rmw op ty W => rw [finishRequest_rmw kind, if_pos some_]
  | engine => exact absurd kind notEngine

/-! ### A request waits, and is sent -/

section
variable (found : s.ms.reqs.find? (fun q => q.id == r.id) = some r)
include found

theorem execMemoryRequest_waits (follows : ∃ n ∈ r.after, s.performed n = false) : execMemoryRequest r.id s = .next s := by
  obtain ⟨n, mem, open_⟩ := follows
  have not_yet : s.mayPerform r = false := List.all_eq_false.2 ⟨n, mem, by simp [open_]⟩
  simp only [execMemoryRequest, found, not_yet, Bool.not_false, if_true]

variable (clear : ∀ n ∈ r.after, s.performed n = true) (notEngine : r.kind ≠ .engine)
include clear notEngine

theorem execMemoryRequest_moving (moving : s.movingAt r.acc = .moving) : execMemoryRequest r.id s = .next (s.retryReq r) := by
  have may : s.mayPerform r = true := List.all_eq_true.2 clear
  simp only [execMemoryRequest, found, may, Bool.not_true, Bool.false_eq_true, if_false, moving]
  split
  next kind _ => exact absurd kind notEngine
  next => rfl

theorem execMemoryRequest_arriving (moving : s.movingAt r.acc = .arriving) : execMemoryRequest r.id s = .next s := by
  have may : s.mayPerform r = true := List.all_eq_true.2 clear
  simp only [execMemoryRequest, found, may, Bool.not_true, Bool.false_eq_true, if_false, moving]
  split
  next kind _ => exact absurd kind notEngine
  next => rfl

theorem execMemoryRequest_sends (notLock : r.isLkwait = false) (still : s.movingAt r.acc = .still) :
    execMemoryRequest r.id s = .next (s.sendRequest r) := by
  have may : s.mayPerform r = true := List.all_eq_true.2 clear
  simp only [execMemoryRequest, found, may, Bool.not_true, Bool.false_eq_true, if_false, still, notLock]
  split
  next kind _ => exact absurd kind notEngine
  next => rfl

end

theorem sendRequest_held (h : s.maySend r = false) : s.sendRequest r = s := by
  simp only [State.sendRequest, h, Bool.not_false, if_true]

theorem sendRequest_untagged (may : s.maySend r = true) (h : (s.tagUpTo r).tagHeld ((s.tagUpTo r).reqMu r) r.id r.inc = false) :
    s.sendRequest r = s.tagUpTo r := by
  simp only [State.sendRequest, may, h, Bool.not_true, Bool.false_eq_true, if_false, Bool.not_false, if_true]

theorem sendRequest_performs (may : s.maySend r = true) (h : (s.tagUpTo r).tagHeld ((s.tagUpTo r).reqMu r) r.id r.inc = true)
    (home : (s.tagUpTo r).refusedBy r = none) : s.sendRequest r = (s.tagUpTo r).perform r := by
  simp only [State.sendRequest, may, h, home, Bool.not_true, Bool.false_eq_true, if_false]

/-- A request that a home of another partition refuses is lost, which is the model's choice (log 57). -/
theorem sendRequest_refused (may : s.maySend r = true) (h : (s.tagUpTo r).tagHeld ((s.tagUpTo r).reqMu r) r.id r.inc = true) {d : Nat}
    (home : (s.tagUpTo r).refusedBy r = some d) : s.sendRequest r = (s.tagUpTo r).loseRequest r d := by
  simp only [State.sendRequest, may, h, home, Bool.not_true, Bool.false_eq_true, if_false]

end Sys2Proof.Machine
end

section
/-! PROOF. The answers of loads, `lkwait`, leases, timestamps and walks, and with them the whole of O54. Settles O54. -/
namespace Sys2Proof.Machine

variable {s t v : State} {r : Req}

/-! ### The answer of a load -/

theorem agent?_tagReplied (s : State) (mu : Option Nat) (id : Nat) (a : Aid) : (s.tagReplied mu id).agent? a = s.agent? a := by
  cases mu
  · rfl
  · exact agent?_updMs rfl a

@[simp] theorem tagReplied_sched (s : State) (mu : Option Nat) (id : Nat) : (s.tagReplied mu id).sched = s.sched := by
  cases mu <;> rfl

@[simp] theorem tagReplied_clk (s : State) (mu : Option Nat) (id : Nat) : (s.tagReplied mu id).clk = s.clk := by
  cases mu <;> rfl

@[simp] theorem tagReplied_loads (s : State) (mu : Option Nat) (id : Nat) : (s.tagReplied mu id).ms.loads = s.ms.loads := by
  cases mu <;> rfl

theorem agentAlive_congr (sched : t.sched = s.sched) (clk : t.clk = s.clk) (a : Aid) :
    t.agentAlive a = s.agentAlive a := by
  cases a <;> simp only [State.agentAlive, State.alive, State.waved, sched, clk]

/-- A state that has taken an answer in. -/
def State.replyTaken (s : State) (rep : Reply) : State :=
  (s.updMs fun m => { m with replies := m.replies.filter fun q => q.id != rep.id }).tagReplied rep.mu rep.id

theorem agent?_replyTaken (s : State) (rep : Reply) (a : Aid) : (s.replyTaken rep).agent? a = s.agent? a :=
  (agent?_tagReplied ..).trans (agent?_updMs rfl a)

section
variable {rep : Reply} (found : s.ms.replies.find? (fun q => q.id == rep.id) = some rep)
include found

theorem execLoadReply_gone (gone : s.agent? rep.aid = none) :
    execLoadReply rep.id s = .next ((s.replyTaken rep).count rep.die (some rep.vq) 0x31) := by
  have gone' := (agent?_replyTaken s rep rep.aid).trans gone
  unfold State.replyTaken at gone' ⊢
  simp only [execLoadReply, found, gone']

variable {g : Agent} {a : Aid} {n : Nat} (agent : s.agent? rep.aid = some g) (dst : rep.dst = .load a n)
include agent dst

theorem execLoadReply_stale (stale : s.tagHeld rep.mu rep.id rep.inc = false ∨ s.incOf a g ≠ rep.inc) :
    execLoadReply rep.id s = .next ((s.replyTaken rep).count rep.die (some rep.vq) 0x31) := by
  have agent' := (agent?_replyTaken s rep rep.aid).trans agent
  have inc : (s.replyTaken rep).incOf a g = s.incOf a g := incOf_congr a g (by simp [State.replyTaken])
  unfold State.replyTaken at agent' inc ⊢
  have cond : (!s.tagHeld rep.mu rep.id rep.inc || s.incOf a g != rep.inc) = true := by simpa using stale
  simp only [execLoadReply, found, agent', dst, inc, cond, if_true]

variable (held : s.tagHeld rep.mu rep.id rep.inc = true) (same : s.incOf a g = rep.inc) (alive : s.agentAlive a = true)
  {l : LoadOp} (load : s.ms.loads.find? (fun k => k.id == n) = some l)
include held same alive load

/-- What an answer of the load's own incarnation leads to. -/
theorem execLoadReply_taken : execLoadReply rep.id s = .next
    (if !(l.take rep).waiting.isEmpty then
      (s.replyTaken rep).updMs fun m => { m with loads := m.loads.map fun k => if k.id = n then l.take rep else k }
    else (l.take rep).failed.elim ((s.replyTaken rep).loadComplete (l.take rep)) fun f =>
      (s.replyTaken rep).takeTrap a cMEMORY_UE l.idx ((g.block.map (·.addr)).getD 0) f.2 0) := by
  have agent' := (agent?_replyTaken s rep rep.aid).trans agent
  have sched : (s.replyTaken rep).sched = s.sched := by simp [State.replyTaken]
  have inc := incOf_congr a g sched
  have alive' := (agentAlive_congr sched (by simp [State.replyTaken]) a).trans alive
  have load' : (s.replyTaken rep).ms.loads.find? (fun k => k.id == n) = some l := by
    rw [State.replyTaken, tagReplied_loads]
    exact load
  unfold State.replyTaken at agent' inc alive' load' ⊢
  have cond : (!s.tagHeld rep.mu rep.id rep.inc || s.incOf a g != rep.inc) = false := by simp [held, same]
  simp only [execLoadReply, found, agent', dst, inc, cond, alive', load', Bool.false_eq_true, if_false, if_true]
  cases (l.take rep).failed <;> rfl

end

/-! ### Waiting for a lock -/

section
variable {n : Nat} (found : s.ms.reqs.find? (fun q => q.id == r.id && q.isLkwait) = some r) (order : r.waitOrder = some n)
  (sound : s.accessUe r.acc = false) (still : s.movingAt r.acc = .still)
include found order sound still

theorem execLkwaitAcquire_first (free : s.peekWord r.acc.pa = 0)
    (first : ∀ q ∈ s.ms.reqs, q.isLkwait = true → q.acc.pa = r.acc.pa → ∀ k, q.waitOrder = some k → n ≤ k) :
    execLkwaitAcquire r.id s = .next (s.perform r) := by
  have still' : (s.movingAt r.acc != .still) = false := by rw [still]; rfl
  simp only [execLkwaitAcquire, found, order, sound, still', free, Bool.false_eq_true, if_false, if_true]
  refine congrArg Host.Outcome.next (if_pos ?_)
  rw [Bool.not_eq_true', List.any_eq_false]
  intro q mem
  cases wait : q.waitOrder with
  | none => simp
  | some k =>
    simp only [Bool.and_eq_true, beq_iff_eq, decide_eq_true_eq, not_and, not_lt, and_imp]
    exact fun lock pa => first q mem lock pa k wait

theorem execLkwaitAcquire_held (taken : s.peekWord r.acc.pa ≠ 0) (lives : s.holderDead (s.peekWord r.acc.pa) = false) :
    execLkwaitAcquire r.id s = .next s := by
  simp [execLkwaitAcquire, found, order, sound, still, taken, lives]

theorem execLkwaitAcquire_orphan (lock : (s.peekWord r.acc.pa).testBit 63 = true) (dead : s.holderDead (s.peekWord r.acc.pa) = true) :
    execLkwaitAcquire r.id s = .next (s.orphan r) := by
  have taken : s.peekWord r.acc.pa ≠ 0 := fun e => by simp [e] at lock
  simp [execLkwaitAcquire, found, order, sound, still, taken, lock, dead]

end

/-! ### Leases and timestamps -/

section
variable {rid row col mu bank line : Nat} {st : Stash} {l : StashLine}
  (at_ : Tab.get? s.fab.stashes ⟨rid, row, col, mu, bank⟩ = some st) (found : st.lines.find? (fun l => l.pa == line && l.dirty) = some l)
include at_ found

theorem execLeaseExpiryWriteback_holds (holds : ∀ h, l.holder = some h → s.ptsOf (holderIssuer h) ≤ l.lease) :
    execLeaseExpiryWriteback rid row col mu bank line s = .next s := by
  have lasts : s.leasePassed l = false := by
    unfold State.leasePassed
    split
    next h e => simpa using holds h e
    next => rfl
  simp only [execLeaseExpiryWriteback, at_, Option.bind_some, found, lasts, Bool.not_false, if_true]

theorem execLeaseExpiryWriteback_passed {h : Aid × Option EngineKind} (holder : l.holder = some h)
    (passed : l.lease < s.ptsOf (holderIssuer h)) : execLeaseExpiryWriteback rid row col mu bank line s =
      .next ((s.putLine l).updFab fun f => { f with stashes := Tab.modify f.stashes ⟨rid, row, col, mu, bank⟩ fun st =>
        { st with lines := st.lines.map fun m => if m.pa = line then { m with dirty := false, owned := false } else m } }) := by
  have ended : s.leasePassed l = true := by
    simp only [State.leasePassed, holder]
    exact decide_eq_true passed
  simp only [execLeaseExpiryWriteback, at_, Option.bind_some, found, ended, Bool.not_true, Bool.false_eq_true, if_false]

end

theorem mem_addOnce {α : Type} [DecidableEq α] {xs : List α} {x y : α} : y ∈ addOnce xs x ↔ y ∈ xs ∨ y = x := by
  unfold addOnce
  split
  next h =>
    have mem : x ∈ xs := by simpa using h
    exact ⟨.inl, fun h => h.elim id (· ▸ mem)⟩
  next => simp

theorem putLine_ue (l : StashLine) : l.pa ∈ (s.putLine l).ms.ue ↔ l.pa ∈ s.ms.ue ∨ l.bad = true := by
  show l.pa ∈ (if l.bad then addOnce s.ms.ue l.pa else s.ms.ue) ↔ _
  split
  next bad => simp [mem_addOnce, bad]
  next sound => simp [sound]

theorem byteAt_putLine (wf : Memory.wf s.ms.mem = true) {l : StashLine} (length : l.data.length = 64) (a : Nat) :
    (s.putLine l).byteAt a = if l.pa * 64 ≤ a ∧ a < l.pa * 64 + 64 then l.data.getD (a - l.pa * 64) 0 else s.byteAt a := by
  rw [byteAt_written (t := s.putLine l) (bs := l.data) (pa := l.pa * 64) wf (onePart_of_line (by omega)) rfl rfl, length]

theorem getD_map_range {n d : Nat} (f : Nat → Nat) (lt : d < n) (z : Nat) : Tab.getD ((List.range n).map fun k => (k, f k)) d z = f d := by
  have key : ∀ (ks : List Nat), d ∈ ks → Tab.get? (ks.map fun k => (k, f k)) d = some (f d) := by
    intro ks mem
    induction ks with
    | nil => cases mem
    | cons k ks ih =>
      rw [List.map_cons, Tab.get?]
      split
      next same => rw [same]
      next ne => exact ih ((List.mem_cons.1 mem).resolve_left fun e => ne e.symm)
  rw [Tab.getD, key _ (List.mem_range.2 lt), Option.getD_some]

theorem ptsAdvance_floorTs {d : Nat} (lt : d < 64) : (s.ptsAdvance fun _ => true).floorTs d = s.floorTs d + 1 :=
  getD_map_range (fun k => s.floorTs k + 1) lt 0

/-- Every agent's timestamp, every route's and every hart's advances by 1 (12 R248). -/
theorem ptsAdvance_advances : ∃ t, execPtsAdvance s = .next t ∧ (∀ a g, (a, g) ∈ s.agents →
      (a, { g with pts := g.pts + 1, epts := g.epts.map fun x => (x.1, x.2 + 1) }) ∈ t.agents) ∧
    t.agents.length = s.agents.length ∧ (∀ d < 64, t.floorTs d = s.floorTs d + 1) ∧
    (∀ k n, (k, n) ∈ s.out.iopPts → (k, n + 1) ∈ t.out.iopPts) ∧ (∀ h n, (h, n) ∈ s.out.harts → (h, n + 1) ∈ t.out.harts) ∧
    t.ms.mem = s.ms.mem ∧ t.ms.reqs = s.ms.reqs ∧ t.fab = s.fab ∧ t.sched = s.sched :=
  ⟨_, rfl, fun _ _ mem => List.mem_map.2 ⟨_, mem, rfl⟩, List.length_map _, fun _ lt => ptsAdvance_floorTs lt,
    fun _ _ mem => List.mem_map.2 ⟨_, mem, rfl⟩, fun _ _ mem => List.mem_map.2 ⟨_, mem, rfl⟩, rfl, rfl, rfl, rfl⟩

/-- A rebase lowers what is of its partition, and nothing else (12 R250). -/
theorem timestampRebase_lowers (p delta : Nat) : ∃ t, execTimestampRebase p delta s = .next t ∧ t.ms.mem = s.ms.mem ∧ t.sched = s.sched ∧
    (∀ a g, (a, g) ∈ s.agents →
      (s.agentIn p (a, g) = true → ∃ g', (a, g') ∈ t.agents ∧ g'.pts = g.pts - delta ∧ g'.regs = g.regs ∧
        g'.epts = g.epts.map fun x => (x.1, x.2 - delta)) ∧
      (s.agentIn p (a, g) = false → (a, g) ∈ t.agents)) ∧
    (∀ k x, (k, x) ∈ s.ms.lines → s.lineIn p k = true → (k, ⟨x.wts - delta, x.rts - delta, x.slice⟩) ∈ t.ms.lines) ∧
    (∀ k x, (k, x) ∈ s.ms.lines → s.lineIn p k = false → (k, x) ∈ t.ms.lines) ∧
    (∀ k n, (k, n) ∈ s.out.iopPts → (k, if (s.partition p).hasDie k.2 then n - delta else n) ∈ t.out.iopPts) := by
  refine ⟨_, rfl, rfl, rfl, fun a g mem => ⟨fun inside => ?_, fun outside => ?_⟩, fun k x mem inside => ?_, fun k x mem outside => ?_,
    fun k n mem => ?_⟩
  · exact ⟨g.mapTs (· - delta), List.mem_map.2 ⟨_, mem, if_pos inside⟩, rfl, rfl, rfl⟩
  · exact List.mem_map.2 ⟨_, mem, by rw [outside]; rfl⟩
  · exact List.mem_map.2 ⟨_, mem, if_pos inside⟩
  · exact List.mem_map.2 ⟨_, mem, by rw [outside]; rfl⟩
  · refine List.mem_map.2 ⟨_, mem, ?_⟩
    dsimp only
    split <;> rfl

/-! ### The whole -/

theorem lowerFailure_some (x y : Nat × Nat) : lowerFailure (some x) (some y) = some (if y.1 < x.1 then y else x) := by
  simp only [lowerFailure]
  split <;> rfl

theorem lowerFailure_none (y : Option (Nat × Nat)) : lowerFailure none y = y := by cases y <;> rfl

/-- The table of the atomics and locks (13 R270, R273). -/
theorem rmwNew_table (W b c h old : Nat) : rmwNew .add W b c h old = (old + b) % 2 ^ W ∧ rmwNew .and W b c h old = old &&& b ∧
    rmwNew .or W b c h old = old ||| b ∧ rmwNew .xor W b c h old = old ^^^ b ∧ rmwNew .xchg W b c h old = b ∧
    rmwNew .minu W b c h old = min old b ∧ rmwNew .maxu W b c h old = max old b ∧
    (sint W b < sint W old → rmwNew .min W b c h old = b ∧ rmwNew .max W b c h old = old) ∧
    (sint W old < sint W b → rmwNew .min W b c h old = old ∧ rmwNew .max W b c h old = b) ∧
    rmwNew .cas W b c h old = (if old = b then c else old) ∧
    rmwNew .fadd W b c h old = (fmtF32.addF 0 (fmtF32.value old) (fmtF32.value b)).1 ∧
    (old = 0 → rmwNew .lkacq W b c h old = h ∧ rmwResult .lkacq 7 W h old = 0) ∧
    (old ≠ 0 → rmwNew .lkacq W b c h old = old ∧ rmwResult .lkacq 7 W h old = 1) ∧
    (old = h → rmwNew .lkrel W b c h old = 0 ∧ rmwResult .lkrel 7 W h old = 0) ∧
    (old ≠ h → rmwNew .lkrel W b c h old = old ∧ rmwResult .lkrel 7 W h old = 2) :=
  ⟨rfl, rfl, rfl, rfl, rfl, rfl, rfl, fun lt => ⟨if_pos lt, if_neg lt.asymm⟩, fun lt => ⟨if_neg lt.asymm, if_pos lt⟩, rfl, rfl,
    fun e => ⟨if_pos e, if_pos e⟩, fun ne => ⟨if_neg ne, if_neg ne⟩, fun e => ⟨if_pos e, if_pos e⟩, fun ne => ⟨if_neg ne, if_neg ne⟩⟩

/-- Settles O54: a clause for each step of a request's way, by the lemma that says what the step does, and for its bytes by those of the
homes, banks and stashes. That a refused request is lost is the model's choice (log 57), and so is the answer of a store that an
uncorrectable error stopped (log 22). -/
theorem requestsArePerformed : Obligations.RequestsArePerformed := by
  unfold Obligations.RequestsArePerformed
  intro s
  refine ⟨fun r found => ⟨execMemoryRequest_waits found, fun clear notEngine notLock => ⟨execMemoryRequest_arriving found clear notEngine,
      execMemoryRequest_moving found clear notEngine, fun still => ?_⟩⟩, fun r e rest elems => ?_, ?_, ?_, ?_, fun r => ?_, rmwNew_table,
    fun r found => ⟨execLoadReply_gone found, fun g a n l agent dst alive load => ⟨execLoadReply_stale found agent dst,
      fun held same => ?_⟩⟩, ?_, ?_, ptsAdvance_advances, timestampRebase_lowers, ?_⟩
  · have sends := execMemoryRequest_sends found clear notEngine notLock still
    exact ⟨fun held => sends.trans (congrArg _ (sendRequest_held held)), fun may => ⟨fun untagged =>
      sends.trans (congrArg _ (sendRequest_untagged may untagged)), fun tagged => ⟨fun home =>
        sends.trans (congrArg _ (sendRequest_performs may tagged home)), fun d refused =>
          sends.trans (congrArg _ (sendRequest_refused may tagged refused))⟩⟩⟩
  · refine ⟨fun sys kind v bs read => ?_, fun sys kind sound v bs read => ?_, fun sys kind type v => ⟨fun write => ?_,
      fun write sound => ?_⟩, fun sys a code f g kind type dst => ?_, fun op ty W v old kind notRelease single rmw => ?_⟩
    · exact perform_read elems kind (readElement_of_read (r := { r with elems := rest }) read) rfl
    · exact perform_read elems kind ((readElement_of_read (r := { r with elems := rest }) read).trans (by simp [sound])) rfl
    · exact perform_write elems kind (storeElement_of_write (r := { r with elems := rest }) type write) rfl
    · exact perform_write elems kind ((storeElement_of_write (r := { r with elems := rest }) type write).trans (by simp [State.elementFails, sound])) rfl
    · exact perform_write elems kind (storeElement_posted (r := { r with elems := rest }) type dst) rfl
    · exact perform_rmw elems kind (atomicElement_of_rmw (r := { r with elems := rest }) notRelease single rmw) rfl
  · exact fun wf i ctx x bytes en sys v within write => ⟨fun type none_ free => writeEnabled_home wf within type none_ free write,
      fun type wf' => writeEnabled_scratch wf' type write⟩
  · intro i ctx x bytes n st l _ stash at_ few found sound
    obtain ⟨t, write, mem, stashes⟩ := writeAccess_owned stash at_ few found sound
    exact ⟨t, _, write, mem, rfl, stashes⟩
  · exact fun rid row col cu slot ctx x sys type within sound none_ free => readAccess_home type within sound none_ free
  · exact ⟨fun sys kind => finishRequest_read kind, fun sys kind type sound => by rw [finishRequest_write kind type, sound]; rfl,
      fun sys kind type => finishRequest_posted kind type, fun op ty W x kind sound got => by rw [finishRequest_rmw kind, sound, got]; rfl,
      finishRequest_failed⟩
  · have taken := execLoadReply_taken found agent dst held same alive load
    refine ⟨rfl, rfl, fun x sound failed => ?_, fun x y before now => ?_, fun more => ?_, fun last sound => ?_, fun p va last failed => ?_⟩
    · rw [LoadOp.take, sound, failed, lowerFailure_none]
    · rw [LoadOp.take, before, now, lowerFailure_some]
    · exact taken.trans (congrArg _ (if_pos (by simpa using more)))
    · exact taken.trans (congrArg _ ((if_neg (by simp [last])).trans (by rw [sound]; rfl)))
    · exact taken.trans (congrArg _ ((if_neg (by simp [last])).trans (by rw [failed]; rfl)))
  · exact fun r n found order sound still => ⟨execLkwaitAcquire_first found order sound still,
      execLkwaitAcquire_held found order sound still, execLkwaitAcquire_orphan found order sound still⟩
  · intro rid row col mu bank line st l at_ found
    refine ⟨execLeaseExpiryWriteback_holds at_ found, fun h holder passed => ⟨_,
      execLeaseExpiryWriteback_passed at_ found holder passed, fun wf length a => ?_, putLine_ue l, rfl⟩⟩
    exact byteAt_putLine wf length a
  · exact fun die quad ctx va => ⟨fun there => congrArg _ (if_pos there), fun missing => congrArg _ (if_neg (by simp [missing]))⟩

end Sys2Proof.Machine
end

section
/-! PROOF. Which engine command starts next, what its completion does, and how barriers count their arrivals. Settles O53. -/
namespace Sys2Proof.Machine

variable {s t u : State} {a : Aid} {g : Agent} {e : EngineKind} {c d : Cmd}

/-! ### The next command to start -/

theorem nextStart_of_startable {earlier : List Cmd} (first : firstUnstarted [] (g.engineQ e) = some (c, earlier))
    (starts : s.startable a g e c earlier = true) : s.nextStart a g e = some c := by
  simp only [State.nextStart, first, starts, if_true]

/-- Where the first unstarted command is no tile load into `wl`, no pass stands behind it that could start. -/
theorem passBehind_of_firstUnstarted {cs earlier : List Cmd} (notLoad : c.loadsWl = false) :
    ∀ {before : List Cmd}, firstUnstarted before cs = some (c, earlier) →
      passBehind before cs = if c.args.op = 0xB4 then some (c, earlier) else none := by
  induction cs with
  | nil =>
    intro before h
    cases h
  | cons x cs ih =>
    intro before h
    unfold firstUnstarted at h
    unfold passBehind
    split at h
    next started => rw [if_pos (by simp [started]), ih h]
    next fresh =>
      cases h
      rw [if_neg (by simp [fresh, notLoad])]

theorem nextStart_of_not_startable {earlier : List Cmd} (first : firstUnstarted [] (g.engineQ e) = some (c, earlier))
    (waits : s.startable a g e c earlier = false) (notLoad : e = .matrix → c.loadsWl = false) : s.nextStart a g e = none := by
  cases e with
  | matrix =>
    simp only [State.nextStart, first, waits, passBehind_of_firstUnstarted (notLoad rfl) first, Bool.false_eq_true, if_false]
    by_cases pass : c.args.op = 0xB4 <;> simp [pass, waits]
  | copy => simp only [State.nextStart, first, waits, Bool.false_eq_true, if_false]
  | needle => simp only [State.nextStart, first, waits, Bool.false_eq_true, if_false]
  | fuller => simp only [State.nextStart, first, waits, Bool.false_eq_true, if_false]

theorem loadsWl_iff : c.loadsWl = true ↔ c.args.op = 0xB3 ∧ c.args.rm = 0 := by simp [Cmd.loadsWl]

section
variable (fresh : c.started = false) (load : c.loadsWl = true) (queue : g.matrixQ = [c, d]) (waits : s.startable a g .matrix c [] = false)
include fresh load queue waits

/-- A pass does not wait for a tile load that waits to start (14 R289; log 45). -/
theorem nextStart_pass (fresh' : d.started = false) (pass : d.args.op = 0xB4) (free : d.link = none) (unlinked : c.linked = false) :
    s.nextStart a g .matrix = some d := by
  obtain ⟨op, rm⟩ := loadsWl_iff.1 load
  have behind : passBehind [] [c, d] = some (d, [c]) := by
    simp [passBehind, fresh, op, rm, unlinked, fresh', pass, Cmd.loadsWl]
  have starts : s.startable a g .matrix d [c] = true := by simp [State.startable, free, unlinked, pass, op, rm]
  have first : firstUnstarted [] (g.engineQ .matrix) = some (c, []) := by simp [Agent.engineQ, queue, firstUnstarted, fresh]
  have behind' : passBehind [] (g.engineQ .matrix) = some (d, [c]) := by rw [Agent.engineQ, queue, behind]
  simp only [State.nextStart, first, waits, behind', starts, Bool.false_eq_true, if_false, if_true]

/-- It does wait for one that is linked to a copy (14 R282). -/
theorem nextStart_linked (linked : c.linked = true) : s.nextStart a g .matrix = none := by
  obtain ⟨op, -⟩ := loadsWl_iff.1 load
  have behind : passBehind [] (g.engineQ .matrix) = none := by
    rw [Agent.engineQ, queue]
    simp [passBehind, fresh, linked, op]
  have first : firstUnstarted [] (g.engineQ .matrix) = some (c, []) := by simp [Agent.engineQ, queue, firstUnstarted, fresh]
  simp only [State.nextStart, first, waits, behind, Bool.false_eq_true, if_false]

end

theorem startable_cancelled (cancelled : c.cancelled = true) (load : c.loadsWl = true) (free : c.link = none) :
    s.startable a g .matrix c [] = true := by
  obtain ⟨op, rm⟩ := loadsWl_iff.1 load
  simp [State.startable, free, op, rm, cancelled]

/-! ### Starts and completions -/

theorem execEngineCommandStart_none (agent : s.agent? a = some g) (none_ : s.nextStart a g e = none) :
    execEngineCommandStart a e s = .next s := by
  simp only [execEngineCommandStart, agent, none_]

/-- A state with a command begun. -/
def State.begun (s : State) (a : Aid) (e : EngineKind) (c : Cmd) : State := s.updCmd a e c.id fun c => { c with started := true }

/-- What the engine of a command does when it starts. -/
def State.startOn (u : State) (a : Aid) (c : Cmd) : EngineKind → State
  | .copy => u.startCopy a c
  | .matrix => u.startMatrix a c
  | .needle => u.startNeedle a c
  | .fuller => u.startFuller a c

theorem execEngineCommandStart_some (agent : s.agent? a = some g) (alive : s.agentAlive a = true) (next : s.nextStart a g e = some c) :
    execEngineCommandStart a e s = .next ((s.begun a e c).startOn a c e) := by
  simp only [execEngineCommandStart, agent, next, alive, Bool.not_true, Bool.false_eq_true, if_false]
  cases e <;> rfl

theorem startMatrix_mclr (op : c.args.op = 0xB6) (valid : c.cancelled = false) {n : Nid} {m : Me} (me : s.meOf a = some (n, m)) :
    s.startMatrix a c = (s.updMe n fun m => { m with acc := [], flags := fNone, outRow := 0 }).cmdDone a .matrix c.id 0 := by
  simp only [State.startMatrix, me, valid, op, Bool.false_eq_true, if_false]

/-- A state in which a command has left its queue. -/
def State.commandGone (s : State) (a : Aid) (e : EngineKind) (c : Cmd) : State :=
  (((s.raisePts (.agent a) (s.ptsOf (.engine a e))).setStamp c.id (s.ptsOf (.engine a e)) (s.aidPart a)).updAgent a fun g =>
    g.setEngineQ e ((g.engineQ e).filter fun d => d.id != c.id)).agentProgress a

section
variable {v : Vec} (agent : s.agent? a = some g) (first : (g.engineQ e).find? (fun c => c.result.isSome) = some c)
  (result : c.result = some v)
include agent first result

theorem execEngineCompletion_walk (op : c.args.op = 0xC7) : execEngineCompletion a e s = .next
    (((s.commandGone a e c).arrive a c.reg c.id (scalNat v) [c.id]).arrive a (c.reg + 1) c.id (v.toNat / 2 ^ 64 % 2 ^ 64) [c.id]) := by
  simp only [execEngineCompletion, agent, first, result, op, Option.getD_some, bitsAt_eq, State.commandGone]

theorem execEngineCompletion_other (notWalk : c.args.op ≠ 0xC7) (notMrd : c.args.op ≠ 0xB5) : execEngineCompletion a e s = .next
    (((s.commandGone a e c).arrive a c.reg c.id (scalNat v) [c.id]).updAgent a fun g => { g with
      matrixQ := g.matrixQ.map fun d =>
        if d.link == some c.id then { d with link := none, cancelled := v.getLsbD 63, after := d.after ++ [c.id] } else d }) := by
  have sign : (lowScal v).getLsbD 63 = v.getLsbD 63 := by simp [lowScal]
  simp only [execEngineCompletion, agent, first, result, Option.getD_some, sign, State.commandGone]

end

/-! ### Arrivals at a barrier -/

section
variable {w : BarWait} (found : s.fab.waits.find? (fun x => x.id == w.id) = some w) (agent : s.agent? w.aid = some g)
include found agent

theorem execBarrierArrival_barw (kind : w.kind = 2) {x : Nat} (gen : w.gen = some x) : execBarrierArrival w.id s =
    .next (if genDone (s.barrier (s.barKey w)).gen x then s.barToken w x (s.barrier (s.barKey w)).ts else s) := by
  simp only [execBarrierArrival, found, agent, kind, gen, Option.getD_some, if_true]

variable (kind : w.kind ≠ 2)
include kind

theorem execBarrierArrival_waits (follows : ∃ n ∈ w.after, s.performed n = false) : execBarrierArrival w.id s = .next s := by
  obtain ⟨n, mem, open_⟩ := follows
  have not_yet : w.after.all s.performed = false := List.all_eq_false.2 ⟨n, mem, by simp [open_]⟩
  simp only [execBarrierArrival, found, agent, if_neg kind, not_yet, Bool.not_false, Bool.or_true, if_true]

variable (gen : w.gen = none) (unsent : w.sent = false) (clear : ∀ n ∈ w.after, s.performed n = true)
include gen unsent clear

theorem execBarrierArrival_sends (pod : (s.barKey w).1 = podInstance) (away : s.barHome (s.barKey w).2 ≠ s.out.pod.index) :
    execBarrierArrival w.id s = .next (s.barSend w g (s.barKey w) (s.barHome (s.barKey w).2)) := by
  have may : w.after.all s.performed = true := List.all_eq_true.2 clear
  have away' : (s.barHome (s.barKey w).2 != s.out.pod.index) = true := bne_iff_ne.2 away
  simp only [execBarrierArrival, found, agent, if_neg kind, gen, unsent, may, Option.isSome_none, Bool.not_true, Bool.or_false,
    Bool.false_eq_true, if_false, if_pos pod, away', if_true]

theorem execBarrierArrival_counts (here : (s.barKey w).1 = podInstance → s.barHome (s.barKey w).2 = s.out.pod.index) :
    execBarrierArrival w.id s = .next (s.barCount w g (s.barKey w)) := by
  have may : w.after.all s.performed = true := List.all_eq_true.2 clear
  have home : ((if (s.barKey w).1 = podInstance then s.barHome (s.barKey w).2 else s.out.pod.index) != s.out.pod.index) = false := by
    split
    next pod => rw [here pod, bne_self_eq_false]
    next => rw [bne_self_eq_false]
  simp only [execBarrierArrival, found, agent, if_neg kind, gen, unsent, may, Option.isSome_none, Bool.not_true, Bool.or_false,
    Bool.false_eq_true, if_false, home]

end

/-! ### What an arrival does to a barrier (14 R296, R298) -/

section
variable {b : Barrier} {ctx n ts part : Nat}

theorem counted_busy (some_ : b.count ≠ 0) (other : b.ctx ≠ some ctx) : b.counted ctx n ts part = none := by
  have pos : 0 < b.count := Nat.pos_of_ne_zero some_
  simp [Barrier.counted, pos, other]

/-- An arrival that its generation admits: the first of it, or one of the same context that names as many. -/
def Barrier.admits (b : Barrier) (ctx n : Nat) : Prop := b.count = 0 ∨ b.ctx = some ctx ∧ b.n = n

theorem counted_admitted (ok : b.admits ctx n) : b.counted ctx n ts part = some (if b.count + 1 ≥ n then
    ⟨0, (b.gen + 1) % 2 ^ 16, 0, none, max b.ts ts, part⟩ else ⟨b.count + 1, b.gen, n, some ctx, max b.ts ts, part⟩) := by
  obtain zero | ⟨same, names⟩ := ok
  · simp [Barrier.counted, zero]
  · have fixed : (if b.count = 0 then n else b.n) = n := by split <;> [rfl; exact names]
    simp only [Barrier.counted, same, fixed, bne_self_eq_false, Bool.and_false, Bool.false_eq_true, if_false]

theorem counted_more (ok : b.admits ctx n) (more : b.count + 1 < n) :
    b.counted ctx n ts part = some ⟨b.count + 1, b.gen, n, some ctx, max b.ts ts, part⟩ := by
  rw [counted_admitted ok, if_neg (by omega)]

theorem counted_last (ok : b.admits ctx n) (last : b.count + 1 = n) :
    b.counted ctx n ts part = some ⟨0, (b.gen + 1) % 2 ^ 16, 0, none, max b.ts ts, part⟩ := by
  rw [counted_admitted ok, if_pos (by omega)]

theorem mismatch_of_admits (ok : b.admits ctx n) : b.mismatch n = false := by
  obtain zero | ⟨-, names⟩ := ok
  · simp [Barrier.mismatch, zero]
  · simp [Barrier.mismatch, names]

end

section
variable {w : BarWait} {k : Nat × Nat}

/-- The timestamp of an arrival: its agent's, and that of what it follows. -/
def State.arrivalTs (s : State) (w : BarWait) : Nat := max (s.ptsOf (.agent w.aid)) (s.stampMax w.after)

/-- A state in which an arrival has changed its barrier, and waits for the generation that it arrived into. -/
def State.arrived (s : State) (w : BarWait) (k : Nat × Nat) (b : Barrier) : State := s.updFab fun f => { f with
  barriers := Tab.set f.barriers k b
  waits := f.waits.map fun x => if x.id = w.id then { x with gen := some (s.barrier k).gen } else x }

theorem barCount_busy (some_ : (s.barrier k).count ≠ 0) (other : (s.barrier k).ctx ≠ some g.ctx) :
    s.barCount w g k = s.barToken w (failToken cENGINE eBUSY 0) 0 := by
  simp only [State.barCount, counted_busy some_ other]

variable (ok : (s.barrier k).admits g.ctx (bitsAt w.word 16 16))
include ok

theorem barCount_more (more : (s.barrier k).count + 1 < bitsAt w.word 16 16) {b : Barrier}
    (b_eq : b = ⟨(s.barrier k).count + 1, (s.barrier k).gen, bitsAt w.word 16 16, some g.ctx, max (s.barrier k).ts (s.arrivalTs w),
      (s.context g.ctx).part⟩) :
    s.barCount w g k = if w.kind = 1 then (s.arrived w k b).barToken w (s.barrier k).gen b.ts else s.arrived w k b := by
  subst b_eq
  simp only [State.barCount, counted_more ok more, mismatch_of_admits ok, Bool.false_eq_true, if_false, State.arrived, State.arrivalTs,
    Nat.succ_ne_zero]

theorem barCount_last (last : (s.barrier k).count + 1 = bitsAt w.word 16 16) {b : Barrier}
    (b_eq : b = ⟨0, ((s.barrier k).gen + 1) % 2 ^ 16, 0, none, max (s.barrier k).ts (s.arrivalTs w), (s.context g.ctx).part⟩) :
    s.barCount w g k = (if w.kind = 1 then (s.arrived w k b).barToken w (s.barrier k).gen b.ts else s.arrived w k b).barRelease k
      (s.barrier k).gen b.ts := by
  subst b_eq
  simp only [State.barCount, counted_last ok last, mismatch_of_admits ok, Bool.false_eq_true, if_false, if_true, State.arrived,
    State.arrivalTs]

end

/-! ### A token or a release leaves the barriers as they are -/

theorem barToken_barriers (s : State) (w : BarWait) (v ts : Nat) : (s.barToken w v ts).fab.barriers = s.fab.barriers := by
  simp [State.barToken, State.arrive, State.dropWait, State.setStamp]

theorem foldl_barToken_barriers (ws : List BarWait) (gen ts : Nat) : ∀ s : State,
    (ws.foldl (fun s w => s.barToken w gen ts) s).fab.barriers = s.fab.barriers := by
  induction ws with
  | nil => exact fun s => rfl
  | cons w ws ih => exact fun s => (ih _).trans (barToken_barriers ..)

theorem barRelease_of_near {k : Nat × Nat} (near : k.1 ≠ podInstance) (gen ts : Nat) : s.barRelease k gen ts =
    (s.fab.waits.filter fun w => s.barKey w == k && w.kind != 2 && w.gen == some gen).foldl (fun s w => s.barToken w gen ts) s := by
  simp [State.barRelease, near]

theorem barRelease_barriers (s : State) (k : Nat × Nat) (gen ts : Nat) : (s.barRelease k gen ts).fab.barriers = s.fab.barriers := by
  unfold State.barRelease
  dsimp only
  split
  · rw [send_fab, foldl_barToken_barriers]
  · rw [foldl_barToken_barriers]

theorem barrier_congr (barriers : t.fab.barriers = s.fab.barriers) (k : Nat × Nat) : t.barrier k = s.barrier k := by
  rw [State.barrier, State.barrier, barriers]

theorem arrived_barrier (s : State) (w : BarWait) (k : Nat × Nat) (b : Barrier) : (s.arrived w k b).barrier k = b :=
  Tab.getD_set_self ..

/-! ### Arrivals from other packages, and the release from the pod (24 R432) -/

section
variable {pkg word kind ctx id : Nat} (counted : kind < 2) (home : s.barHome (bitsAt word 0 12) = s.out.pod.index)
include counted home

theorem podArrival_busy (some_ : (s.barrier (podInstance, bitsAt word 0 12)).count ≠ 0)
    (other : (s.barrier (podInstance, bitsAt word 0 12)).ctx ≠ some ctx) :
    s.podArrival pkg word kind ctx id = s.send (.barrierAnswer pkg id (failToken cENGINE eBUSY 0)) := by
  have go : ¬(kind ≥ 2 ∨ s.barHome (bitsAt word 0 12) ≠ s.out.pod.index) := by simp [home]; omega
  simp only [State.podArrival, if_neg go, counted_busy some_ other]

theorem podArrival_more (ok : (s.barrier (podInstance, bitsAt word 0 12)).admits ctx (bitsAt word 16 16))
    (more : (s.barrier (podInstance, bitsAt word 0 12)).count + 1 < bitsAt word 16 16) : s.podArrival pkg word kind ctx id =
      (s.updFab fun f => { f with
        barriers := Tab.set f.barriers (podInstance, bitsAt word 0 12) ⟨(s.barrier (podInstance, bitsAt word 0 12)).count + 1, (s.barrier (podInstance, bitsAt word 0 12)).gen, bitsAt word 16 16,
          some ctx, max (s.barrier (podInstance, bitsAt word 0 12)).ts s.podActs, (s.context ctx).part⟩ }).send
        (.barrierAnswer pkg id (s.barrier (podInstance, bitsAt word 0 12)).gen) := by
  have go : ¬(kind ≥ 2 ∨ s.barHome (bitsAt word 0 12) ≠ s.out.pod.index) := by simp [home]; omega
  simp only [State.podArrival, if_neg go, counted_more ok more, mismatch_of_admits ok, Bool.false_eq_true, if_false, Nat.succ_ne_zero]

end

theorem barKey_congr (agents : t.agents = s.agents) (ms : t.ms = s.ms) (w : BarWait) : t.barKey w = s.barKey w := by
  simp only [State.barKey, agent?_congr agents ms]

theorem execPodBarrierRelease_none {bid gen : Nat} (none_ : ∀ w ∈ s.fab.waits, s.barKey w ≠ (podInstance, bid % 2 ^ 12)) :
    execPodBarrierRelease bid gen s = .next (s.updFab fun f => { f with
      barriers := Tab.set f.barriers (podInstance, bid % 2 ^ 12) ⟨0, (gen % 2 ^ 16 + 1) % 2 ^ 16, 0, none, max (s.barrier (podInstance, bid % 2 ^ 12)).ts s.podActs,
        (s.barrier (podInstance, bid % 2 ^ 12)).part⟩ }) := by
  unfold execPodBarrierRelease
  dsimp only
  rw [List.filter_eq_nil_iff.2 fun w mem => ?_]
  · rfl
  · rw [barKey_congr (by exact rfl) (by exact rfl), beq_iff_eq]
    exact none_ w mem

theorem execPodBarrierRelease_one {bid gen : Nat} {w : BarWait} (waits : s.fab.waits = [w])
    (key : s.barKey w = (podInstance, bid % 2 ^ 12)) (kind : w.kind ≠ 2) (arrived : w.gen = some (gen % 2 ^ 16)) :
    execPodBarrierRelease bid gen s = .next ((s.updFab fun f => { f with
      barriers := Tab.set f.barriers (podInstance, bid % 2 ^ 12) ⟨0, (gen % 2 ^ 16 + 1) % 2 ^ 16, 0, none,
        max (s.barrier (podInstance, bid % 2 ^ 12)).ts s.podActs, (s.barrier (podInstance, bid % 2 ^ 12)).part⟩ }).barToken w
          (gen % 2 ^ 16) (max (s.barrier (podInstance, bid % 2 ^ 12)).ts s.podActs)) := by
  unfold execPodBarrierRelease
  dsimp only
  have key' (f : Fabric → Fabric) : (s.updFab f).barKey w = (podInstance, bid % 2 ^ 12) := (barKey_congr rfl rfl w).trans key
  rw [updFab_fab]
  dsimp only
  rw [waits]
  simp only [List.filter_cons, key', beq_self_eq_true, if_true, List.filter_nil, List.foldl_cons, List.foldl_nil, if_neg kind, arrived]

/-- Settles O53: the next command of a queue by the search for it, a completion by its kind, and an arrival by what its barrier admits.
That a pass waits for no unlinked tile load, and where pod barriers are counted, are the model's readings (logs 45 and 43). -/
theorem enginesAndBarriers : Obligations.EnginesAndBarriers := by
  unfold Obligations.EnginesAndBarriers
  intro s
  refine ⟨fun a g e agent alive => ⟨execEngineCommandStart_none agent, fun c next => ⟨?_, ?_⟩, fun c earlier first =>
      ⟨nextStart_of_startable first, nextStart_of_not_startable first⟩⟩, fun c d fresh load fresh' pass a g queue waits free =>
      ⟨nextStart_pass fresh load queue waits fresh' pass free, nextStart_linked fresh load queue waits⟩,
    fun a g c => startable_cancelled, fun a g e c v agent first result =>
      ⟨execEngineCompletion_walk agent first result, execEngineCompletion_other agent first result⟩, fun w g found agent =>
      ⟨fun kind x gen => ⟨fun done => ?_, fun open_ => ?_⟩, execBarrierArrival_waits found agent, fun kind gen unsent clear =>
        ⟨execBarrierArrival_sends found agent kind gen unsent clear, fun here => ?_⟩⟩, fun k gen ts near => barRelease_of_near near gen ts,
    fun pkg word kind ctx id counted home => ⟨podArrival_busy counted home, podArrival_more counted home⟩,
    fun bid gen => ⟨execPodBarrierRelease_none, fun w => execPodBarrierRelease_one⟩⟩
  · refine (execEngineCommandStart_some agent alive next).trans ?_
    cases e <;> rfl
  · rintro rfl op valid n m me
    exact (execEngineCommandStart_some agent alive next).trans (congrArg _ (startMatrix_mclr op valid me))
  · exact (execBarrierArrival_barw found agent kind gen).trans (congrArg _ (if_pos done))
  · exact (execBarrierArrival_barw found agent kind gen).trans (congrArg _ (if_neg (by simp [open_])))
  · have counts := execBarrierArrival_counts found agent kind gen unsent clear here
    refine ⟨fun some_ other => counts.trans (congrArg _ (barCount_busy some_ other)), fun first two zero => ?_,
      fun some_ same names more zero => ?_, fun some_ same names last => ⟨_, counts, ?_, fun zero => ?_⟩, fun one first two => ?_⟩
    · have ok : (s.barrier (s.barKey w)).admits g.ctx (bitsAt w.word 16 16) := .inl first
      rw [barCount_more ok (by omega) rfl, if_neg (by omega), first] at counts
      exact counts
    · have ok : (s.barrier (s.barKey w)).admits g.ctx (bitsAt w.word 16 16) := .inr ⟨same, names⟩
      rw [barCount_more ok more rfl, if_neg (by omega)] at counts
      exact counts
    · have ok : (s.barrier (s.barKey w)).admits g.ctx (bitsAt w.word 16 16) := .inr ⟨same, names⟩
      rw [barCount_last ok last rfl, barrier_congr (barRelease_barriers ..)]
      split
      · exact (barrier_congr (barToken_barriers ..) _).trans (arrived_barrier ..)
      · exact arrived_barrier ..
    · have ok : (s.barrier (s.barKey w)).admits g.ctx (bitsAt w.word 16 16) := .inr ⟨same, names⟩
      rw [barCount_last ok last rfl, if_neg (by omega)]
      rfl
    · have ok : (s.barrier (s.barKey w)).admits g.ctx (bitsAt w.word 16 16) := .inl first
      rw [barCount_more ok (by omega) rfl, if_pos one, first] at counts
      exact counts

end Sys2Proof.Machine
end

section
/-! PROOF. How launches are admitted, started, completed and pre-empted. Settles O55. -/
namespace Sys2Proof.Machine

variable {s t u : State}

/-! ### Admission (20 R351, R353) -/

theorem execLqTailWrite_overrun {n : Nat} {v : BitVec 64}
    (past : 2 ^ (s.lq n).lsize < wrap 32 (Int.ofNat (v.toNat % 2 ^ 32) - (s.lq n).done)) :
    execLqTailWrite n v s = .next (s.count (8 * (s.partition (s.lqPart n)).first) none 0x52) :=
  congrArg _ (if_pos past)

theorem execLqTailWrite_stored {n : Nat} {v : BitVec 64}
    (within : wrap 32 (Int.ofNat (v.toNat % 2 ^ 32) - (s.lq n).done) ≤ 2 ^ (s.lq n).lsize) :
    execLqTailWrite n v s = .next (s.updLq n fun q => { q with tail := v.toNat % 2 ^ 32 }) :=
  congrArg _ (if_neg (Nat.not_lt.2 within))

theorem execLaunchAdmit_barred {n : Nat} (barred : s.mayAdmit n = false) : execLaunchAdmit n s = .next s := by
  simp only [execLaunchAdmit, barred, Bool.not_false, if_true]

theorem mayAdmit_barred {n : Nat} (h : (s.lq n).en = false ∨ (s.lq n).head = (s.lq n).tail ∨ (s.lq n).depth + 1 ≤ (s.lq n).depthUsed) :
    s.mayAdmit n = false := by
  unfold State.mayAdmit
  obtain off | empty | full := h
  · simp [off]
  · simp [empty]
  · simp [Nat.not_lt.2 full]

theorem execLaunchAdmit_asked {n : Nat} (asked : s.asked 0 n (s.lq n).head = true) : execLaunchAdmit n s = .next s := by
  unfold execLaunchAdmit
  dsimp only
  rw [fnADMIT, if_pos asked, ite_self]

theorem execLaunchAdmit_decides {n : Nat} (may : s.mayAdmit n = true) (unasked : s.asked 0 n (s.lq n).head = false)
    (alone : s.assisted (s.lqPart n) 0 = false) : execLaunchAdmit n s = .next (s.admitHead n) := by
  simp only [execLaunchAdmit, may, fnADMIT, unasked, alone, Bool.not_true, Bool.false_eq_true, if_false]

section
variable {n : Nat} {bs : List Byte}
  (read : s.muRead (8 * (s.partition (s.lqPart n)).first) 0x1FF (s.lq n).ctx
    (wrap 64 ((s.lq n).base + 256 * ((s.lq n).head % 2 ^ (s.lq n).lsize) : Nat)) 192 = (u, .ok bs))
  (ok : (Descriptor.of bs).ok u (s.lqPart n) = true)
include read ok

/-- A legal descriptor that waits: for another launch, for the stage that it needs, or for die row 0. -/
theorem admitHead_waits (waits : (∃ x ∈ (Descriptor.of bs).needs, s.depMet x = false) ∨
      s.out.stage < 3 ∧ (Descriptor.of bs).flags.testBit 3 = false ∨ s.rowZeroFails = true) : s.admitHead n = s := by
  have stays : (!((Descriptor.of bs).needs.all s.depMet) || (decide (s.out.stage < 3) && !(Descriptor.of bs).flags.testBit 3) ||
      s.rowZeroFails) = true := by
    obtain ⟨x, mem, unmet⟩ | ⟨stage, flag⟩ | fails := waits
    · have open_ : (Descriptor.of bs).needs.all s.depMet = false := List.all_eq_false.2 ⟨x, mem, by simp [unmet]⟩
      simp [open_]
    · simp [stage, flag]
    · simp [fails]
  simp only [State.admitHead, read, ok, stays, Bool.not_true, Bool.false_eq_true, if_false, if_true]

theorem admitHead_admits (met : ∀ x ∈ (Descriptor.of bs).needs, s.depMet x = true) (stage : s.out.stage = 3)
    (sound : s.rowZeroFails = false) (fits : shapeFits (u.lqDies n) (Descriptor.of bs).height (Descriptor.of bs).width = true) :
    s.admitHead n = u.admits n (u.launchOf (s.lq n).ctx (Descriptor.of bs)) := by
  have all_ : (Descriptor.of bs).needs.all s.depMet = true := List.all_eq_true.2 met
  have goes : (!((Descriptor.of bs).needs.all s.depMet) || (decide (s.out.stage < 3) && !(Descriptor.of bs).flags.testBit 3) ||
      s.rowZeroFails) = false := by simp [all_, stage, sound]
  simp only [State.admitHead, read, ok, goes, fits, Bool.not_true, Bool.false_eq_true, if_false]

end

/-! ### Start and completion (20 R354, R355) -/

section
variable {rid : Nat} {l : Launch} (launch : s.launch? rid = some l)
include launch

theorem execLaunchStart_early {x : Nat} (at_ : l.startTick = some x) (early : s.clk.tick < x) : execLaunchStart rid s = .next s := by
  simp only [execLaunchStart, launch, at_, Option.getD_some, early, decide_true, Bool.or_true, if_true]

/-- The first pace point of an actor of a launch that starts: none before the start, and the launch's start tick one of its points. -/
def State.firstPace (s : State) (l : Launch) (p : Nat) : Nat :=
  if s.clk.tick ≤ l.startTick.getD s.clk.tick ∨ p = 0 then l.startTick.getD s.clk.tick
  else nextPacePoint (l.startTick.getD s.clk.tick) p (s.clk.tick - 1)

/-- An agent of a launch that starts. -/
def Agent.paced (g : Agent) (s : State) (l : Launch) : Agent := { g with nextPace := (g.pace.map (s.firstPace l)).getD g.nextPace }

omit launch in
theorem paced_of_none {g : Agent} (pace : g.pace = none) : g.paced s l = g := by
  have same : (g.pace.map (s.firstPace l)).getD g.nextPace = g.nextPace := by rw [pace, Option.map_none, Option.getD_none]
  rw [Agent.paced, same]

theorem execLaunchStart_starts (running : l.state = .running) (waits : l.started = false)
    (due : ∀ x, l.startTick = some x → x ≤ s.clk.tick) : execLaunchStart rid s =
    .next (({ s with agents := s.agents.map fun e => if inRid rid e.1 then (e.1, e.2.paced s l) else e } : State).updLaunch rid
      fun l => { l with started := true }) := by
  have on_time : ¬s.clk.tick < l.startTick.getD s.clk.tick := by
    cases at_ : l.startTick with
    | none => exact lt_irrefl _
    | some x => exact not_lt.2 (due x at_)
  have go : (l.state != .running || l.started || decide (s.clk.tick < l.startTick.getD s.clk.tick)) = false := by
    simp only [running, waits, on_time, bne_self_eq_false, Bool.or_self, decide_false]
  simp only [execLaunchStart, launch, go, Bool.false_eq_true, if_false]
  refine congrArg (fun f => Host.Outcome.next (({ s with agents := s.agents.map f } : State).updLaunch rid
    fun l => { l with started := true })) (funext fun e => ?_)
  cases pace : e.2.pace <;> simp only [Agent.paced, pace, State.firstPace, Option.map_none, Option.map_some, Option.getD_none,
    Option.getD_some, Bool.or_eq_true, decide_eq_true_eq]

end

theorem firstPace_spec {l : Launch} {p : Nat} (due : ∀ x, l.startTick = some x → x ≤ s.clk.tick) (pos : p ≠ 0) :
    s.clk.tick ≤ s.firstPace l p ∧ s.firstPace l p < s.clk.tick + p ∧
      (s.firstPace l p - l.startTick.getD s.clk.tick) % p = 0 := by
  have before : l.startTick.getD s.clk.tick ≤ s.clk.tick := by
    cases at_ : l.startTick with
    | none => exact le_refl _
    | some x => exact due x at_
  unfold State.firstPace
  by_cases now : s.clk.tick ≤ l.startTick.getD s.clk.tick
  · rw [if_pos (.inl now), Nat.sub_self, Nat.zero_mod]
    omega
  · rw [if_neg (not_or.2 ⟨now, pos⟩)]
    obtain ⟨lo, hi, point⟩ := nextPacePoint_spec (now := s.clk.tick - 1) pos (Nat.le_sub_one_of_lt (Nat.lt_of_not_le now))
    exact ⟨by omega, by omega, point⟩

theorem execLaunchComplete_eq {rid : Nat} {l : Launch} {r : Region} (launch : s.launch? rid = some l) (region : s.region? rid = some r)
    (running : l.state = .running) (started : l.started = true) (op : r.op = .none) : execLaunchComplete rid s =
      .next (if s.quiescent rid then
        if (s.completeLaunch rid 0 0).exitHolds rid then s.completeLaunch rid 0 0 else (s.completeLaunch rid 0 0).freeRegion rid
      else s) := by
  cases quiet : s.quiescent rid with
  | false => simp [execLaunchComplete, launch, region, running, started, op, quiet]
  | true =>
    simp [execLaunchComplete, launch, region, running, started, op, quiet, stOK]
    rfl

/-! ### Floors (20 R360) -/

section
variable {die ctx x : Nat} (since : (s.credit die ctx).floorSince = some x)
include since

theorem execFloorPreempt_early (early : s.clk.tick < x + (s.schedcfg die).2) : execFloorPreempt die ctx s = .next s := by
  simp only [execFloorPreempt, since, early, decide_true, Bool.or_true, Bool.true_or, if_true]

theorem execFloorPreempt_none (none_ : s.victim die ctx = none) : execFloorPreempt die ctx s = .next s := by
  simp only [execFloorPreempt, since, none_, ite_self]

theorem execFloorPreempt_drains (starves : s.starves die ctx = true) (counts : (s.schedcfg die).2 ≠ 0)
    (over_ : x + (s.schedcfg die).2 ≤ s.clk.tick)
    (unasked : ∀ a ∈ s.sched.assists, ¬(a.fn = 2 ∧ a.die = die ∧ a.cand.headD 0 = ctx)) {rid : Nat} {r : Region}
    (victim : s.victim die ctx = some (rid, r)) (alone : s.assisted (s.partOf r.ctx) 2 = false) :
    execFloorPreempt die ctx s = .next (s.drainVictim die ctx rid) := by
  have unasked' : (s.sched.assists.any fun a => a.fn == fnVICTIM && a.die == die && a.cand.headD 0 == ctx) = false := by
    refine List.any_eq_false.2 fun a mem => ?_
    have := unasked a mem
    simpa [fnVICTIM, and_assoc] using this
  have go : (decide ((s.schedcfg die).2 = 0) || decide (s.clk.tick < x + (s.schedcfg die).2) || !s.starves die ctx ||
      (s.sched.assists.any fun a => a.fn == fnVICTIM && a.die == die && a.cand.headD 0 == ctx)) = false := by
    simp only [counts, Nat.not_lt.2 over_, starves, unasked', decide_false, Bool.not_true, Bool.or_self]
  have alone' : s.assisted (s.partOf r.ctx) fnVICTIM = false := alone
  simp only [execFloorPreempt, since, go, victim, alone', Bool.false_eq_true, if_false]

end

/-! ### The host's answers (20 R366) -/

/-- A state in which a request for the host has been answered. -/
def State.unasked (s : State) (p slot : Nat) : State :=
  s.updSched fun z => { z with assists := z.assists.filter fun b => !(b.p == p && b.slot == slot) }

section
variable {p slot y x : Nat} {a : Assist} (found : s.sched.assists.find? (fun b => b.p == p && b.slot == slot) = some a)
  (steady : s.swapping = false)
include found steady

/-- A refused request leaves the list, which is the model's choice (log 29). -/
theorem execHostAssistAnswer_refused (notWatchdog : a.fn ≠ 4) :
    execHostAssistAnswer p slot false y x s = .next (s.unasked p slot) := by
  simp only [execHostAssistAnswer, found, steady, fnWDOG, Bool.not_false, Bool.false_eq_true, if_false, if_true]
  exact congrArg _ (if_neg notWatchdog)

theorem execHostAssistAnswer_admits (fn : a.fn = 0) (may : (s.unasked p slot).mayAdmit a.lq = true)
    (head : ((s.unasked p slot).lq a.lq).head = a.seq) :
    execHostAssistAnswer p slot true y x s = .next ((s.unasked p slot).admitHead a.lq) := by
  unfold State.unasked at may head ⊢
  simp only [execHostAssistAnswer, found, steady, fn, may, head, Bool.not_true, Bool.false_eq_true, if_false, beq_self_eq_true,
    Bool.and_self, if_true]

/-- The answer names the victim's queue and sequence number, which is the model's choice (log 29). -/
theorem execHostAssistAnswer_drains (fn : a.fn = 2) {r : Region} (region : (s.unasked p slot).region? (ridOf y x) = some r)
    (running : (s.unasked p slot).running (ridOf y x) = true) (op : r.op = .none) (part : (s.unasked p slot).partOf r.ctx = p) :
    execHostAssistAnswer p slot true y x s = .next ((s.unasked p slot).drainVictim a.die (a.cand.headD 0) (ridOf y x)) := by
  unfold State.unasked at region running part ⊢
  simp only [execHostAssistAnswer, found, steady, fn, region, running, op, part, Bool.not_true, Bool.false_eq_true, if_false,
    beq_self_eq_true, Bool.and_self, if_true]

end

/-- Settles O55: each step of a launch by its own lemma. What an answer of the host names, and that a refused request leaves the list, is
the model's choice (log 29). -/
theorem launchesRun : Obligations.LaunchesRun := by
  unfold Obligations.LaunchesRun
  intro s
  refine ⟨fun n v => ⟨execLqTailWrite_overrun, execLqTailWrite_stored⟩, fun n => ⟨fun barred =>
      execLaunchAdmit_barred (mayAdmit_barred barred), execLaunchAdmit_asked, fun may unasked alone u bs read => ?_⟩, fun die => rfl,
    fun rid l launch running waits => ⟨fun x => execLaunchStart_early launch, fun due unpaced => ?_,
      fun due a g p mem mine pace pos => ?_⟩, fun rid l r launch region running started op => ⟨fun busy => ?_, fun quiet => ?_⟩,
    fun die ctx x since starves counts => ⟨execFloorPreempt_early since, fun _ => execFloorPreempt_none since,
      fun over_ unasked rid r victim alone => execFloorPreempt_drains since starves counts over_ unasked victim alone⟩,
    fun p slot ok y x a found steady => ⟨?_, ?_, ?_⟩⟩
  · have decides := execLaunchAdmit_decides may unasked alone
    exact ⟨fun ok unmet => decides.trans (congrArg _ (admitHead_waits read ok (.inl unmet))),
      fun ok stage flag => decides.trans (congrArg _ (admitHead_waits read ok (.inr (.inl ⟨stage, flag⟩)))),
      fun ok fails => decides.trans (congrArg _ (admitHead_waits read ok (.inr (.inr fails)))),
      fun ok met stage sound fits => decides.trans (congrArg _ (admitHead_admits read ok met stage sound fits))⟩
  · refine (execLaunchStart_starts launch running waits due).trans ?_
    have same : s.agents.map (fun e => if inRid rid e.1 then (e.1, e.2.paced s l) else e) = s.agents := by
      refine (List.map_congr_left fun e mem => ?_).trans (List.map_id _)
      split
      next mine => rw [paced_of_none (unpaced e mem mine), id_eq]
      next => rfl
    rw [same]
  · obtain ⟨lo, hi, point⟩ := firstPace_spec due pos
    refine ⟨_, s.firstPace l p, execLaunchStart_starts launch running waits due, List.mem_map.2 ⟨_, mem, ?_⟩, lo, hi, point⟩
    simp only [mine, if_true, Agent.paced, pace, Option.map_some, Option.getD_some]
  · exact (execLaunchComplete_eq launch region running started op).trans (congrArg _ (if_neg (by simp [busy])))
  · exact (execLaunchComplete_eq launch region running started op).trans (congrArg _ (if_pos quiet))
  · rintro rfl notWatchdog
    exact execHostAssistAnswer_refused found steady notWatchdog
  · rintro rfl fn may head
    exact execHostAssistAnswer_admits found steady fn may head
  · rintro rfl fn r region running op part
    exact execHostAssistAnswer_drains found steady fn region running op part

end Sys2Proof.Machine
end

section
/-! PROOF. Drains, freezes, kills of contexts, the operations on regions, and page migration. Used for O56. -/
namespace Sys2Proof.Machine

variable {s t u : State} {rid : Nat} {r : Region}

/-! ### Drains and freezes (21 R369 to R371) -/

section
variable {deadline a_reg id : Nat} {a : Aid} (region : s.region? rid = some r)
include region

theorem execDrainComplete_waits (op : r.op = .drain deadline .software (some (a, a_reg, id)))
    (moves : (s.drained rid r && s.settled rid) = false) : execDrainComplete rid s = .next s := by
  unfold execDrainComplete
  cases running : s.running rid <;>
    simp only [region, op, moves, Bool.false_eq_true, if_false]

theorem execDrainComplete_closes (running : s.running rid = true) (op : r.op = .drain deadline .software (some (a, a_reg, id)))
    (drained : s.drained rid r = true) (settled : s.settled rid = true) : execDrainComplete rid s = .next
      (((((s.exitSources rid).filter fun q => (s.head? q).map (·.kind) == some kDRAIN).foldl State.removeDrain s).closeCapture
        rid 0 false false).arrive a a_reg id 0 []) := by
  simp only [execDrainComplete, region, running, op, drained, settled, Bool.and_self, if_true]
  rfl

theorem execDrainTimeout_waits {by_ : Asker} {who : Option (Aid × Nat × Nat)} (op : r.op = .drain deadline by_ who)
    (early : s.clk.tick < deadline ∨ s.tickEnds = false) : execDrainTimeout rid s = .next s := by
  have stays : (!s.tickEnds || decide (s.clk.tick < deadline)) = true := by
    obtain early | inside := early
    · simp [early]
    · simp [inside]
  simp only [execDrainTimeout, region, op, stays, if_true]

theorem execDrainTimeout_software (op : r.op = .drain deadline .software (some (a, a_reg, id))) (late : deadline ≤ s.clk.tick)
    (ends : s.tickEnds = true) : execDrainTimeout rid s =
      .next ((s.updRegion rid fun r => { r with op := .none }).arrive a a_reg id sTIMEOUT []) := by
  simp only [execDrainTimeout, region, op, ends, Nat.not_lt.2 late, decide_false, Bool.not_true, Bool.or_self, Bool.false_eq_true,
    if_false]

theorem execDrainTimeout_allocator (op : r.op = .drain deadline .allocator none) (late : deadline ≤ s.clk.tick)
    (ends : s.tickEnds = true) : execDrainTimeout rid s =
      .next (((s.updRegion rid fun r => { r with op := .none }).updLaunch rid fun l => { l with preempted := true }).startFreeze
        rid none) := by
  simp only [execDrainTimeout, region, op, ends, Nat.not_lt.2 late, decide_false, Bool.not_true, Bool.or_self, Bool.false_eq_true,
    if_false]

variable {start : Nat} {drnp : Bool} (running : s.running rid = true) (op : r.op = .freeze start (some (a, a_reg, id)) drnp)
include running op

theorem execFreezeCaptureClose_waits
    (early : s.clk.dieCycle (r.quad 0 0).1 < start + (r.height - 1) + (r.width - 1) ∨ s.settled rid = false) :
    execFreezeCaptureClose rid s = .next s := by
  have stays : (s.wavePassed r && s.settled rid) = false := by
    obtain early | moves := early
    · simp only [State.wavePassed, op, Nat.not_le.2 early, decide_false, Bool.false_and]
    · rw [moves, Bool.and_false]
  simp only [execFreezeCaptureClose, region, running, op, stays, Bool.false_eq_true, if_false]

theorem execFreezeCaptureClose_closes (passed : start + (r.height - 1) + (r.width - 1) ≤ s.clk.dieCycle (r.quad 0 0).1)
    (settled : s.settled rid = true) : execFreezeCaptureClose rid s = .next
      ((s.closeCapture rid 1 drnp (((s.launch? rid).map (·.preempted)).getD false)).arrive a a_reg id 0 []) := by
  have wave : s.wavePassed r = true := by simp only [State.wavePassed, op, passed, decide_true]
  simp only [execFreezeCaptureClose, region, running, op, wave, settled, Bool.and_self, if_true]

end

/-! ### Kills of contexts (21 R381, R382) -/

theorem bitsAt_toNat_one {n : Nat} (v : BitVec n) (k : Nat) : bitsAt v.toNat k 1 = 1 ↔ v.getLsbD k = true := by
  rw [← beq_iff_eq, bitsAt_one, BitVec.testBit_toNat]

section
variable {c : Nat} {v : BitVec 64}

theorem execCtxkillWrite_off (off : v.getLsbD 0 = false) : execCtxkillWrite c v s = .next s :=
  congrArg _ (if_neg fun h => Bool.eq_false_iff.1 off ((bitsAt_toNat_one v 0).1 h))

theorem execCtxkillWrite_on (on : v.getLsbD 0 = true) : execCtxkillWrite c v s = .next (s.endContext c true) :=
  congrArg _ (if_pos ((bitsAt_toNat_one v 0).2 on))

theorem endContext_done (done : ((s.heldLaunches c).foldl (fun s r => s.killLaunch r) s).killsDone c = true) :
    s.endContext c true = ((s.heldLaunches c).foldl (fun s r => s.killLaunch r) s).finishContext c := by
  simp only [State.endContext, done, Bool.not_true, Bool.false_eq_true, if_false, if_true]

theorem endContext_waits (waits : ((s.heldLaunches c).foldl (fun s r => s.killLaunch r) s).killsDone c = false) :
    s.endContext c true = ((s.heldLaunches c).foldl (fun s r => s.killLaunch r) s).updSched fun x =>
      { x with ending := addOnce x.ending c } := by
  simp only [State.endContext, waits, Bool.not_true, Bool.false_eq_true, if_false]

theorem endContext_bare (none_ : ∀ e ∈ s.sched.regions, e.2.ctx ≠ c) (calls : s.sched.calls = []) :
    s.endContext c true = s.updContext c fun x => { x with live := false } := by
  have held : s.heldLaunches c = [] := by
    rw [State.heldLaunches, List.map_eq_nil_iff, List.filter_eq_nil_iff]
    exact fun e mem => by simpa using none_ e mem
  rw [endContext_done (by rw [held, List.foldl_nil, State.killsDone, held]; rfl), held, List.foldl_nil, State.finishContext]
  have calls' : (s.updContext c fun x => { x with live := false }).sched.calls = [] := calls
  simp only [calls', List.filter_nil, List.foldl_nil]

end

/-! ### Operations on regions (23 R416, R417) -/

section
variable {a : Aid} {g : Agent} {o : SysOp} {id : Nat} {l : Launch} (region : s.region? rid = some r)
include region

theorem regionOp_frz (op : o.op = 0xD7) (running : l.state = .running) (thawed : s.frozen rid = false) :
    s.regionOp a g o id rid l = s.startFreeze rid (some (a, o.reg, id)) := by
  simp only [State.regionOp, op, region, running, thawed, beq_self_eq_true, Bool.not_false, Bool.and_self, if_true]

theorem regionOp_drn (op : o.op = 0xD8) (running : l.state = .running) (thawed : s.frozen rid = false) (idle : r.op = .none) :
    s.regionOp a g o id rid l = s.startDrain rid (s.clk.tick + scalNat o.b) .software (some (a, o.reg, id)) := by
  simp only [State.regionOp, op, region, running, thawed, idle, beq_self_eq_true, Bool.not_false, Bool.and_self, Bool.not_true,
    Bool.false_eq_true, if_false, Option.map_some, if_true]

theorem regionOp_imgld (op : o.op = 0xDA) (exported : l.state = .exported) :
    s.regionOp a g o id rid l = s.beginImgld a o.reg id rid (scalNat o.b) := by
  simp only [State.regionOp, op, region, exported, bne_self_eq_false, Bool.false_eq_true, if_false]

/-- That a completed launch is freed so, and answers FREED, is the model's reading (log 16). -/
theorem regionOp_rfree (op : o.op = 0xDC) (free : o.rm ≠ 1) (completed : l.state = .completed) : s.regionOp a g o id rid l =
    (((s.answerRegionOp r sSTATE).completeLaunch rid stFREED 0).freeRegion rid).arrive a o.reg id 0 [] := by
  simp only [State.regionOp, op, region, if_neg free, completed, decide_true, Bool.true_or, if_true]

omit region in
theorem regionOp_gone (op : o.op = 0xD7 ∨ o.op = 0xD8 ∨ o.op = 0xD9 ∨ o.op = 0xDA ∨ o.op = 0xDC) (gone : s.region? rid = none) :
    s.regionOp a g o id rid l = s.arrive a o.reg id sSTATE [] := by
  obtain e | e | e | e | e := op <;> simp only [State.regionOp, gone, e]

end

/-! ### Page migration (22 R396, R397) -/

section
variable {p : Nat} {v : BitVec 64}

/-- Addresses that a migration may not have: of no page, of one page twice, or outside the partition's memory. -/
def Partition.badPages (x : Partition) : Prop := x.migva % 2 ^ 16 ≠ 0 ∨ x.migold % 2 ^ 16 ≠ 0 ∨ x.mignew % 2 ^ 16 ≠ 0 ∨
  x.migold = x.mignew ∨ x.rows.length * 2 ^ 37 ≤ x.migold ∨ x.rows.length * 2 ^ 37 ≤ x.mignew

theorem badPages_iff (x : Partition) : (x.migva % 2 ^ 16 != 0 || x.migold % 2 ^ 16 != 0 || x.mignew % 2 ^ 16 != 0 ||
    x.migold == x.mignew || decide (x.migold ≥ x.memory) || decide (x.mignew ≥ x.memory)) = true ↔ x.badPages := by
  simp only [Bool.or_eq_true, bne_iff_ne, beq_iff_eq, decide_eq_true_eq, or_assoc, Partition.badPages, Partition.memory, ge_iff_le]

theorem migrate_off (off : v.getLsbD 63 = false) : s.migrate p v.toNat = s := by
  have zero : bitsAt v.toNat 63 1 = 0 := by
    have lt : bitsAt v.toNat 63 1 < 2 := Nat.mod_lt _ (by decide)
    have ne : bitsAt v.toNat 63 1 ≠ 1 := fun h => Bool.eq_false_iff.1 off ((bitsAt_toNat_one v 63).1 h)
    omega
  simp only [State.migrate, zero, if_true]

variable (on : v.getLsbD 63 = true)
include on

theorem migrate_busy (busy : (s.partition p).migdone = false) :
    s.migrate p v.toNat = s.updPartition p fun x => { x with migst := 1 } := by
  simp only [State.migrate, (bitsAt_toNat_one v 63).2 on, busy, Nat.one_ne_zero, Bool.not_false, if_false, if_true]

theorem migrate_invalid (idle : (s.partition p).migdone = true) (bad : (s.partition p).badPages) :
    s.migrate p v.toNat = s.updPartition p fun x => { x with migst := 2, migdone := true } := by
  simp only [State.migrate, (bitsAt_toNat_one v 63).2 on, idle, (badPages_iff _).2 bad, Nat.one_ne_zero, Bool.not_true,
    Bool.false_eq_true, if_false, if_true]

theorem migrate_begins (idle : (s.partition p).migdone = true) (good : ¬(s.partition p).badPages) :
    s.migrate p v.toNat = s.updPartition p fun x => { x with
      migctx := v.toNat % 2 ^ 10, migst := 3, migdone := false, migrun := some (x.migva, x.migold, x.mignew) } := by
  have good' := Bool.eq_false_iff.2 (mt (badPages_iff _).1 good)
  simp only [State.migrate, (bitsAt_toNat_one v 63).2 on, idle, good', Nat.one_ne_zero, Bool.not_true, Bool.false_eq_true, if_false]
  rfl

end

/-- That the steps of a migration are one step of the model is its choice (log 40). -/
theorem migrateRest_moves {p va old new : Nat} (run : (s.partition p).migrun = some (va, old, new)) : s.migrateRest p =
    ((((s.shootDown (s.partition p).migctx (some va) none).copyPage (memBase p + old) (memBase p + new)).retryAll
      (memBase p + old)).updPartition p fun x => { x with migst := 0, migdone := true, migrun := none }) := by
  simp only [State.migrateRest, run]

theorem keepsBytes_foldl_corrected (ls : List Nat) : ∀ s : State, KeepsBytes s (ls.foldl (fun s l => s.corrected (l * 64)) s) := by
  induction ls with
  | nil => exact .refl
  | cons l ls ih => exact fun s => (keepsBytes_corrected s (l * 64)).trans (ih _)

theorem recallRange_of_no_stash (none_ : s.fab.stashes = []) (pa n : Nat) : s.recallRange pa n = s :=
  foldl_eq_self fun j _ => recall_of_unowned fun e mem => by simp [none_] at mem

/-- A migrated page reads as the old one did. -/
theorem byteAt_copyPage (none_ : s.fab.stashes = []) (wf : Memory.wf s.ms.mem = true) {old new : Nat} (old_ : old % 2 ^ 16 = 0)
    (new_ : new % 2 ^ 16 = 0) {j : Nat} (lt : j < 2 ^ 16) : (s.copyPage old new).byteAt (new + j) = s.byteAt (old + j) := by
  have keeps := keepsBytes_foldl_corrected (s.ms.ce.filter fun l => l / 1024 == old / 2 ^ 16) s
  have bytes := homeBytes_eq (s := (s.ms.ce.filter fun l => l / 1024 == old / 2 ^ 16).foldl (fun s l => s.corrected (l * 64)) s)
    (onePart_of_page old_)
  unfold State.copyPage
  simp only [recallRange_of_no_stash none_]
  generalize (s.ms.ce.filter fun l => l / 1024 == old / 2 ^ 16).foldl (fun s l => s.corrected (l * 64)) s = u at keeps bytes
  have length : (u.homeBytes old (2 ^ 16)).length = 2 ^ 16 := by rw [bytes, List.length_map, List.length_range]
  refine (byteAt_written (s := u) (bs := u.homeBytes old (2 ^ 16)) (pa := new) (keeps.mem ▸ wf) (length ▸ onePart_of_page new_)
    ?mem ?blank _).trans ?_
  case mem => rfl
  case blank => rfl
  rw [if_pos ⟨by omega, by rw [length]; omega⟩, Nat.add_sub_cancel_left, bytes, List.getD_eq_getElem _ _ (by simpa using lt),
    List.getElem_map, List.getElem_range, keeps.byteAt]

end Sys2Proof.Machine
end

section
/-! PROOF. Shoot-downs of contexts and changes of partitions, and with them the whole of O56. Settles O56. -/
namespace Sys2Proof.Machine

variable {s t u : State} {c : Nat}

/-! ### What the flush of stashes leaves as it is -/

/-- The same agents, schedules, outside and accesses under way. -/
structure KeepsWaits (s t : State) : Prop where
  agents : t.agents = s.agents
  sched : t.sched = s.sched
  out : t.out = s.out
  reqs : t.ms.reqs = s.ms.reqs
  ioWrites : t.ms.ioWrites = s.ms.ioWrites
  tlbDie : t.ms.tlbDie = s.ms.tlbDie
  tlbQuad : t.ms.tlbQuad = s.ms.tlbQuad

theorem KeepsWaits.refl (s : State) : KeepsWaits s s := ⟨rfl, rfl, rfl, rfl, rfl, rfl, rfl⟩

theorem KeepsWaits.trans (h : KeepsWaits s t) (h' : KeepsWaits t u) : KeepsWaits s u :=
  ⟨h'.agents.trans h.agents, h'.sched.trans h.sched, h'.out.trans h.out, h'.reqs.trans h.reqs, h'.ioWrites.trans h.ioWrites,
    h'.tlbDie.trans h.tlbDie, h'.tlbQuad.trans h.tlbQuad⟩

theorem keepsWaits_foldl {α : Type} {f : State → α → State} (step : ∀ s x, KeepsWaits s (f s x)) (xs : List α) :
    ∀ s, KeepsWaits s (xs.foldl f s) := by
  induction xs with
  | nil => exact .refl
  | cons x xs ih => exact fun s => (step s x).trans (ih _)

theorem keepsWaits_flushStash (s : State) (on : Nat → Bool) (hit : StashLine → Bool) : KeepsWaits s (s.flushStash on hit) := by
  refine keepsWaits_foldl (fun s e => ?_) _ s
  split
  · exact .refl s
  · refine (keepsWaits_foldl (fun s l => ?_) e.2.lines s).trans ⟨rfl, rfl, rfl, rfl, rfl, rfl, rfl⟩
    split
    · exact ⟨rfl, rfl, rfl, rfl, rfl, rfl, rfl⟩
    · exact .refl s

/-! ### Shoot-downs (22 R395) -/

@[simp] theorem shootDown_sched (s : State) (ctx : Nat) (va die : Option Nat) : (s.shootDown ctx va die).sched = s.sched :=
  (keepsWaits_flushStash ..).sched

@[simp] theorem shootDown_out (s : State) (ctx : Nat) (va die : Option Nat) : (s.shootDown ctx va die).out = s.out :=
  (keepsWaits_flushStash ..).out

/-- What is under way when a shoot-down begins is under way after it has dropped the entries. -/
theorem performed_shootDown (s : State) (ctx : Nat) (va die : Option Nat) (id : Nat) :
    (s.shootDown ctx va die).performed id = s.performed id := by
  have keeps := keepsWaits_flushStash s (⟨ctx, va, die⟩ : Shot).on fun l => l.ctx == ctx && s.shotHits ⟨ctx, va, die⟩ l.va
  simp only [State.performed, State.shootDown, updMs_ms, updMs_agents, keeps.reqs, keeps.ioWrites, keeps.agents]

/-- No cache holds a translation of a context. -/
def State.Untranslated (s : State) (c : Nat) : Prop :=
  (∀ e ∈ s.ms.tlbDie, ∀ x ∈ e.2, x.ctx ≠ c) ∧ ∀ e ∈ s.ms.tlbQuad, ∀ x ∈ e.2, x.ctx ≠ c

theorem State.Untranslated.of_ms (h : s.Untranslated c) (ms : t.ms = s.ms) : t.Untranslated c := by rwa [State.Untranslated, ms]

theorem untranslated_shootDown (s : State) (c : Nat) : (s.shootDown c none none).Untranslated c := by
  have key (es : List Cached) : ∀ x ∈ es.filter (fun x => !(⟨c, none, none⟩ : Shot).drops x), x.ctx ≠ c := fun x mem => by
    simpa [Shot.drops] using (List.mem_filter.1 mem).2
  refine ⟨fun e mem => ?_, fun e mem => ?_⟩
  · obtain ⟨e, -, rfl⟩ := List.mem_map.1 mem
    exact key _
  · obtain ⟨e, -, rfl⟩ := List.mem_map.1 mem
    exact key _

theorem State.Untranslated.shootDown (h : s.Untranslated c) (ctx : Nat) (va die : Option Nat) : (s.shootDown ctx va die).Untranslated c := by
  have keeps := keepsWaits_flushStash s (⟨ctx, va, die⟩ : Shot).on fun l => l.ctx == ctx && s.shotHits ⟨ctx, va, die⟩ l.va
  obtain ⟨dies, quads⟩ := h
  rw [← keeps.tlbDie] at dies
  rw [← keeps.tlbQuad] at quads
  refine ⟨fun e mem x hx => ?_, fun e mem x hx => ?_⟩
  · obtain ⟨e', mem', rfl⟩ := List.mem_map.1 mem
    split at hx
    · exact dies e' mem' x (List.mem_filter.1 hx).1
    · exact dies e' mem' x hx
  · obtain ⟨e', mem', rfl⟩ := List.mem_map.1 mem
    split at hx
    · exact quads e' mem' x (List.mem_filter.1 hx).1
    · exact quads e' mem' x hx

theorem State.Untranslated.endShot (h : s.Untranslated c) (w : SysWait) : (s.endShot w).Untranslated c := by
  unfold State.endShot
  split
  · exact h.of_ms (updAgent_ms ..)
  · exact (h.shootDown ..).of_ms rfl
  · exact h.of_ms rfl

theorem State.Untranslated.settleSys (h : s.Untranslated c) : s.settleSys.Untranslated c := by
  unfold State.settleSys
  dsimp only
  generalize s.sched.sysWaits.filter _ = ready
  have h' : (s.updSched fun x => { x with sysWaits := x.sysWaits.filter fun w => !ready.contains w }).Untranslated c := h.of_ms rfl
  generalize s.updSched _ = t at h' ⊢
  induction ready generalizing t with
  | nil => exact h'
  | cons w ws ih => exact ih _ ((h'.of_ms (t := t.updOut fun o => { o with shots := Tab.erase o.shots w.id }) rfl).endShot w)

/-- A shoot-down that waits may end. -/
def State.shotDone (s : State) (w : SysWait) : Bool :=
  w.on.all s.performed && !(w.blocks.any s.hasBlock) && w.sent.isEmpty && (Tab.getD s.out.shots w.id []).isEmpty

theorem settleSys_waits (waits : ∀ w ∈ s.sched.sysWaits, s.shotDone w = false) :
    s.settleSys = s.updSched fun x => { x with sysWaits := x.sysWaits.filter fun w => !([] : List SysWait).contains w } := by
  have none_ : s.sched.sysWaits.filter (fun w => w.on.all s.performed && !(w.blocks.any s.hasBlock) && w.sent.isEmpty &&
      (Tab.getD s.out.shots w.id []).isEmpty) = [] :=
    List.filter_eq_nil_iff.2 fun w mem => Bool.eq_false_iff.1 (waits w mem)
  simp only [State.settleSys, none_, List.foldl_nil]

theorem settleSys_one {w : SysWait} (one : s.sched.sysWaits = [w]) (done : s.shotDone w = true) : s.settleSys =
    ((s.updSched fun x => { x with sysWaits := x.sysWaits.filter fun v => !([w] : List SysWait).contains v }).updOut fun o =>
      { o with shots := Tab.erase o.shots w.id }).endShot w := by
  have ready : s.sched.sysWaits.filter (fun w => w.on.all s.performed && !(w.blocks.any s.hasBlock) && w.sent.isEmpty &&
      (Tab.getD s.out.shots w.id []).isEmpty) = [w] := by
    rw [one, List.filter_cons, if_pos (by exact done), List.filter_nil]
  simp only [State.settleSys, ready, List.foldl_cons, List.foldl_nil]

/-! ### A write of `CTXPT` (22 R389) -/

/-- The wait of a write of a context's root. -/
def State.rootWait (s : State) (c v : Nat) : SysWait := s.takeId.2.shotWaits ⟨c, none, none⟩ s.nextId (.root c v)

/-- A state whose entries a write of a context's root has dropped, with its wait. -/
def State.rootShot (s : State) (c v : Nat) : State :=
  ((s.takeId.2.shootDown c none none).updOut fun y => { y with
    requesters := y.requesters.map fun e => (e.1, { e.2 with items := e.2.items.map (IopItem.untranslate c) }) }).updSched fun y =>
      { y with sysWaits := y.sysWaits ++ [s.rootWait c v] }

theorem execCtxptWrite_eq (c : Nat) (v : BitVec 64) : execCtxptWrite c v s = .next (s.rootShot c v.toNat).settleSys := rfl

theorem rootShot_untranslated (s : State) (c v : Nat) : (s.rootShot c v).Untranslated c :=
  (untranslated_shootDown s.takeId.2 c).of_ms rfl

theorem performed_congr (agents : t.agents = s.agents) (ms : t.ms = s.ms) (id : Nat) : t.performed id = s.performed id := by
  simp only [State.performed, agents, ms]

theorem performed_rootShot (s : State) (c v id : Nat) : (s.rootShot c v).performed id = s.performed id := by
  rw [State.rootShot, performed_congr (updSched_agents ..) (updSched_ms ..), performed_congr (updOut_agents ..) (updOut_ms ..),
    performed_shootDown]
  rfl

section
variable {v : Nat} (clear : s.sched.sysWaits = [])
include clear

theorem rootShot_sysWaits : (s.rootShot c v).sched.sysWaits = [s.rootWait c v] := by
  simp [State.rootShot, State.takeId, clear]

/-- A posted write of the context that has not been performed keeps the old root. -/
theorem settleSys_rootShot_waits {w : IoWrite} (mem : w ∈ s.ms.ioWrites) (ctx : w.ctx = c) (open_ : s.performed w.id = false) (d : Nat) :
    (s.rootShot c v).settleSys.context d = s.context d := by
  have on : w.id ∈ (s.rootWait c v).on := List.mem_append_right _
    (List.mem_map.2 ⟨w, List.mem_filter.2 ⟨mem, by simp [ctx]⟩, rfl⟩)
  have waits : (s.rootShot c v).shotDone (s.rootWait c v) = false := by
    have not_yet : (s.rootWait c v).on.all (s.rootShot c v).performed = false :=
      List.all_eq_false.2 ⟨_, on, by simp [performed_rootShot, open_]⟩
    simp only [State.shotDone, not_yet, Bool.false_and]
  rw [settleSys_waits fun w mem => by
    rw [rootShot_sysWaits clear, List.mem_singleton] at mem
    exact mem ▸ waits]
  simp [State.context, State.rootShot, State.takeId]

/-- Where nothing that the context's entries translated is under way, the root is set. -/
theorem settleSys_rootShot_ends (reqs : s.ms.reqs = []) (writes : s.ms.ioWrites = []) (agents : ∀ e ∈ s.agents, e.2.ctx ≠ c)
    (items : ∀ e ∈ s.out.requesters, e.2.items = []) (shots : Tab.get? s.out.shots s.nextId = none) :
    ∃ u : State, (s.rootShot c v).settleSys = u.updContext c (fun x => { x with root := bitsAt v 12 40, rootV := bitsAt v 0 1 == 1 }) ∧
      ∀ d, u.context d = s.context d := by
  have on : (s.rootWait c v).on = [] := by simp [State.rootWait, State.shotWaits, State.takeId, reqs, writes]
  have blocks : (s.rootWait c v).blocks = [] := by
    have none_ : s.agents.filter (fun e => e.2.ctx == c && (⟨c, none, none⟩ : Shot).on e.2.die) = [] :=
      List.filter_eq_nil_iff.2 fun e mem => by simp [agents e mem]
    simp only [State.rootWait, State.shotWaits, State.takeId, none_, List.flatMap_nil]
  have sent : (s.rootWait c v).sent = [] := by
    refine List.filter_eq_nil_iff.2 fun e mem => ?_
    obtain ⟨e', mem', rfl⟩ := List.mem_map.1 mem
    simp [items e' mem']
  have shots' : Tab.getD (s.rootShot c v).out.shots (s.rootWait c v).id [] = [] := by
    have same : (s.rootShot c v).out.shots = s.out.shots := by simp [State.rootShot, State.takeId]
    have id : (s.rootWait c v).id = s.nextId := rfl
    rw [same, id, Tab.getD, shots, Option.getD_none]
  have done : (s.rootShot c v).shotDone (s.rootWait c v) = true := by
    simp only [State.shotDone, on, blocks, sent, shots', List.all_nil, List.any_nil, List.isEmpty_nil, Bool.not_false, Bool.and_self]
  refine ⟨_, settleSys_one (rootShot_sysWaits clear) done, fun d => ?_⟩
  simp [State.context, State.rootShot, State.takeId]

end

/-! ### Changes of partitions (21 R387) -/

section
variable {v : BitVec 64}

theorem pchg_busy (busy : s.sched.pchg.done = false) : s.pchg v.toNat = s := by
  simp only [State.pchg, busy, Bool.not_false, if_true]

theorem pchg_torn (idle : s.sched.pchg.done = true) (torn : ∃ p < 8, contiguous (pchgRows v.toNat p) = false) :
    s.pchg v.toNat = s.updSched fun x => { x with pchg := ⟨true, 0, 2⟩ } := by
  obtain ⟨p, lt, apart⟩ := torn
  have no : ((List.range 8).all fun p => contiguous (pchgRows v.toNat p)) = false :=
    List.all_eq_false.2 ⟨p, List.mem_range.2 lt, by simp [apart]⟩
  simp only [State.pchg, idle, no, Bool.not_true, Bool.not_false, Bool.false_eq_true, if_false, if_true]

variable (idle : s.sched.pchg.done = true) (whole : ∀ p < 8, contiguous (pchgRows v.toNat p) = true)
include idle whole

theorem pchg_notIdle {who : Nat}
    (busy : s.notIdle (s.pchgAffects v.toNat) ((s.pchgAffects v.toNat).flatMap fun p => (s.partition p).dies) = some who) :
    s.pchg v.toNat = s.updSched fun x => { x with pchg := ⟨true, who, 1⟩ } := by
  have yes : ((List.range 8).all fun p => contiguous (pchgRows v.toNat p)) = true :=
    List.all_eq_true.2 fun p mem => whole p (List.mem_range.1 mem)
  simp only [State.pchg, idle, yes, busy, Bool.not_true, Bool.false_eq_true, if_false]

theorem pchg_begins
    (quiet : s.notIdle (s.pchgAffects v.toNat) ((s.pchgAffects v.toNat).flatMap fun p => (s.partition p).dies) = none) :
    s.pchg v.toNat = s.updSched fun x => { x with pchg := ⟨false, 0, 3⟩, pchgRun := some v.toNat } := by
  have yes : ((List.range 8).all fun p => contiguous (pchgRows v.toNat p)) = true :=
    List.all_eq_true.2 fun p mem => whole p (List.mem_range.1 mem)
  simp only [State.pchg, idle, yes, quiet, Bool.not_true, Bool.false_eq_true, if_false]

end

/-- The rows that stand side by side are those between the first and the last. -/
theorem between_of_contiguous : ∀ g : Fin 8 → Bool, contiguous ((List.range 8).filter fun r => if h : r < 8 then g ⟨r, h⟩ else false) = true →
    let rows := (List.range 8).filter fun r => if h : r < 8 then g ⟨r, h⟩ else false
    rows ≠ [] → (List.range 8).filter (fun r => decide (rows.head?.getD 0 ≤ r) && decide (r ≤ rows.getLast?.getD 0)) = rows := by
  decide +kernel

theorem pchgRows_eq (v p : Nat) : pchgRows v p =
    (List.range 8).filter fun r => if h : r < 8 then (fun r : Fin 8 => bitsAt v (8 * r) 3 == p) ⟨r, h⟩ else false :=
  List.filter_congr fun r mem => by rw [dif_pos (List.mem_range.1 mem)]

/-- A partition given rows that stand side by side has these. -/
theorem rows_of_pchgRows {v p : Nat} (whole : contiguous (pchgRows v p) = true) {x : Partition}
    (valid : x.v = !(pchgRows v p).isEmpty) (first : x.first = (pchgRows v p).head?.getD 0)
    (last : x.last = (pchgRows v p).getLast?.getD 0) : x.rows = pchgRows v p := by
  rw [Partition.rows, valid]
  by_cases none_ : pchgRows v p = []
  · simp [none_]
  · rw [if_pos (by simpa using none_), first, last]
    rw [pchgRows_eq] at whole none_ ⊢
    exact between_of_contiguous (fun r => bitsAt v (8 * r) 3 == p) whole none_

/-- What the change of a partition's rows gives each partition. -/
def State.withRows (s : State) (v p : Nat) : State := s.updPartition p fun x =>
  { x with v := !(pchgRows v p).isEmpty, first := (pchgRows v p).head?.getD 0, last := (pchgRows v p).getLast?.getD 0 }

theorem partition_updPartition_self (s : State) (p : Nat) (f : Partition → Partition) : (s.updPartition p f).partition p = f (s.partition p) :=
  Tab.getD_set_self ..

theorem partition_updPartition_ne (s : State) {p q : Nat} (f : Partition → Partition) (ne : q ≠ p) :
    (s.updPartition p f).partition q = s.partition q := Tab.getD_set_ne _ _ _ ne

theorem rows_foldl_withRows {v : Nat} (whole : ∀ p < 8, contiguous (pchgRows v p) = true) (ps : List Nat) (bound : ∀ p ∈ ps, p < 8) (q : Nat) :
    ∀ s : State, ((ps.foldl (fun s p => s.withRows v p) s).partition q).rows =
      if q ∈ ps then pchgRows v q else (s.partition q).rows := by
  induction ps with
  | nil => exact fun s => rfl
  | cons p ps ih =>
    intro s
    obtain ⟨lt, bound'⟩ := List.forall_mem_cons.1 bound
    rw [List.foldl_cons, ih bound']
    by_cases same : q = p
    · subst same
      have here : ((s.withRows v q).partition q).rows = pchgRows v q :=
        rows_of_pchgRows (whole q lt) (by rw [State.withRows, partition_updPartition_self])
          (by rw [State.withRows, partition_updPartition_self]) (by rw [State.withRows, partition_updPartition_self])
      rw [here, ite_self, if_pos List.mem_cons_self]
    · rw [State.withRows, partition_updPartition_ne s _ same]
      simp only [List.mem_cons, same, false_or]

theorem sched_foldl {α : Type} {f : State → α → State} (step : ∀ s x, (f s x).sched = s.sched) (xs : List α) :
    ∀ s, (xs.foldl f s).sched = s.sched := by
  induction xs with
  | nil => exact fun s => rfl
  | cons x xs ih => exact fun s => (ih _).trans (step s x)

@[simp] theorem shootAll_sched (s : State) : s.shootAll.sched = s.sched := (keepsWaits_flushStash ..).sched

/-- The dies of the partitions after a change. -/
def State.withDies (s : State) (v : Nat) : State :=
  s.updSched fun x => { x with nbr := (List.range 64).map fun d => (d, bitsAt v (8 * (d / 8)) 3) }

theorem pchgRest_sched {v : Nat} (run : s.sched.pchgRun = some v) : s.pchgRest.sched =
    { (((s.pchgAffects v).foldl (fun s p => s.withRows v p) ((s.pchgAffects v).foldl (fun s p => s.flushSlices p) s)).withDies v).sched with
      pchg := ⟨true, 0, 0⟩, pchgRun := none } := by
  simp only [State.pchgRest, run, updSched_sched, shootAll_sched, sched_foldl rewriteVpt_sched]
  rfl

theorem partition_congr (sched : t.sched = s.sched) (p : Nat) : t.partition p = s.partition p := by
  rw [State.partition, State.partition, sched]

/-- A change of partitions gives each its rows, and each die its partition. That its steps are one step of the model is log 40. -/
theorem pchgRest_changes {v : Nat} (run : s.sched.pchgRun = some v) (whole : ∀ p < 8, contiguous (pchgRows v p) = true) :
    s.pchgRest.sched.pchg = ⟨true, 0, 0⟩ ∧ s.pchgRest.sched.pchgRun = none ∧
    (∀ p < 8, (s.pchgRest.partition p).rows = pchgRows v p) ∧ (∀ d < 64, s.pchgRest.dieOf d = v / 2 ^ (8 * (d / 8)) % 8) := by
  have sched := pchgRest_sched run
  refine ⟨by rw [sched], by rw [sched], fun p lt => ?_, fun d lt => ?_⟩
  · have flushed : ((s.pchgAffects v).foldl (fun s p => s.flushSlices p) s).partition p = s.partition p :=
      partition_congr (sched_foldl (f := fun s p => s.flushSlices p) (fun _ _ => rfl) _ s) p
    have rows := rows_foldl_withRows whole (s.pchgAffects v) (fun q mem => List.mem_range.1 (List.mem_filter.1 mem).1) p
      ((s.pchgAffects v).foldl (fun s p => s.flushSlices p) s)
    rw [flushed] at rows
    rw [State.partition, sched]
    refine rows.trans ?_
    split
    next => rfl
    next same =>
      have not_ := mt (fun ne => List.mem_filter.2 ⟨List.mem_range.2 lt, ne⟩) same
      rw [bne_iff_ne, ne_eq, not_not] at not_
      exact not_.symm
  · rw [State.dieOf, sched, State.withDies, updSched_sched, getD_map_range _ lt, bitsAt_eq]
    rfl

/-! ### The split of the chapter's example, from reset -/

theorem reset_notIdle (ps dies : List Nat) : State.reset.notIdle ps dies = none := rfl

/-- The state in which the example's change has begun. -/
def splitBegun : State := State.reset.updSched fun x => { x with pchg := ⟨false, 0, 3⟩, pchgRun := some 0x0101010100000000 }

theorem execPchgWrite_split : execPchgWrite 0x0101010100000000 State.reset = .next splitBegun := by
  have whole : ∀ p < 8, contiguous (pchgRows (0x0101010100000000 : BitVec 64).toNat p) = true := by decide +kernel
  exact congrArg _ (pchg_begins rfl whole (reset_notIdle ..))

theorem splitBegun_reads : splitBegun.readCr 0xE0008 = 3 := by decide +kernel

theorem pchgRest_split_reads : splitBegun.pchgRest.readCr 0xE0008 = 0x01000000 ∧ splitBegun.pchgRest.readCr 0xC0000 = 0x8018 ∧
    splitBegun.pchgRest.readCr 0xC0100 = 0x803C ∧ splitBegun.pchgRest.readCr 0xD0000 = 0 ∧ splitBegun.pchgRest.readCr 0xD2000 = 1 := by
  decide +kernel

/-- Settles O56: drains, freezes, kills, the roots of contexts, changes of partitions, migrations and operations on regions, each by its
own lemmas. That a completed launch is freed by `rfree.free` with FREED is log 16, that a drain's timeout comes at the end of a tick log 4, that a
shoot-down waits for posted writes log 41, and that the steps of a change or of a migration are one step of the model log 40: the model's
choices. -/
theorem regionsAndContextsChange : Obligations.RegionsAndContextsChange := by
  unfold Obligations.RegionsAndContextsChange
  intro s
  refine ⟨fun rid r deadline a code id region running op => ⟨fun moves => ?_, execDrainComplete_closes region running op,
      execDrainTimeout_waits region op, execDrainTimeout_software region op⟩,
    fun rid r deadline region op => execDrainTimeout_allocator region op, fun rid r start a code id drnp region running op =>
      ⟨execFreezeCaptureClose_waits region running op, execFreezeCaptureClose_closes region running op⟩,
    fun c v => ⟨execCtxkillWrite_off, fun on none_ calls => (execCtxkillWrite_on on).trans (congrArg _ (endContext_bare none_ calls)),
      fun on => ⟨fun done => (execCtxkillWrite_on on).trans (congrArg _ (endContext_done done)), fun waits =>
        (execCtxkillWrite_on on).trans (congrArg _ (endContext_waits waits))⟩⟩,
    fun c v => ?_, ⟨splitBegun, splitBegun.pchgRest, execPchgWrite_split, splitBegun_reads, rfl, pchgRest_split_reads⟩,
    fun v idle whole => ⟨fun who busy => congrArg _ (pchg_notIdle idle whole busy), fun quiet => congrArg _ (pchg_begins idle whole quiet)⟩, fun v run whole => ⟨_, rfl, pchgRest_changes run whole⟩,
    fun v => ⟨fun busy => congrArg _ (pchg_busy busy), fun idle torn => congrArg _ (pchg_torn idle torn)⟩,
    fun p v => ⟨fun off => congrArg _ (migrate_off off), fun on busy => congrArg _ (migrate_busy on busy),
      fun on idle bad => congrArg _ (migrate_invalid on idle bad), fun on idle good => congrArg _ (migrate_begins on idle good)⟩,
    fun p va old new run => congrArg _ (migrateRest_moves run), fun old new none_ wf old_ new_ j lt => byteAt_copyPage none_ wf old_ new_ lt,
    fun a g o id rid l => ⟨fun r op region runs => regionOp_frz region op runs.1 runs.2,
      fun r op region runs => regionOp_drn region op runs.1 runs.2, fun r op region => regionOp_imgld region op,
      fun r op free region => regionOp_rfree region op free, regionOp_gone⟩⟩
  · refine execDrainComplete_waits region op ?_
    simp only [Bool.and_eq_true, decide_eq_true_eq] at moves
    rw [moves.2, Bool.and_false]
  · refine ⟨_, execCtxptWrite_eq c v, (rootShot_untranslated s c v.toNat).settleSys.1, (rootShot_untranslated s c v.toNat).settleSys.2,
      fun clear => ⟨fun ⟨w, mem, ctx, open_⟩ => settleSys_rootShot_waits clear mem ctx open_, fun reqs writes agents items shots => ?_⟩⟩
    obtain ⟨u, ends, contexts⟩ := settleSys_rootShot_ends (v := v.toNat) clear reqs writes agents items shots
    rw [ends]
    refine ⟨?_, ?_, fun d ne => ?_⟩
    · rw [State.context, State.updContext, updSched_sched, Tab.getD_set_self, bitsAt_eq]
    · rw [State.context, State.updContext, updSched_sched, Tab.getD_set_self, bitsAt_one, BitVec.testBit_toNat]
    · exact (Tab.getD_set_ne _ _ _ ne).trans (contexts d)

end Sys2Proof.Machine
end

section
/-! PROOF. What functions of the host and requesters do at the I/O ordering point. Used for O57. -/
namespace Sys2Proof.Machine

variable {s t u v : State} {q : Nat}

/-! ### Buckets, requesters and registers of functions (24 R421, R422, R434) -/

theorem charge_free {f : Nat} (free : (s.vf f).rate = 0) (n : Nat) : s.charge (some f) n = s := if_pos free

/-- That a byte costs 675 units is the model's choice (log 14). -/
theorem charge_limited {f : Nat} (limited : (s.vf f).rate ≠ 0) (n : Nat) :
    s.charge (some f) n = s.updVf f fun x => { x with bucket := x.bucket - 675 * n } := if_neg limited

@[simp] theorem charge_ms (s : State) (f : Option Nat) (n : Nat) : (s.charge f n).ms = s.ms := by
  unfold State.charge
  split
  · split <;> rfl
  · rfl

theorem requesterOf_vf {f : Nat} (vf : f < 256) : requesterOf (some f) = f + 1 := if_pos (Nat.le_of_lt vf)

theorem requesterOf_pf {k : Nat} (pos : 1 ≤ k) : requesterOf (some (256 + k)) = 258 + k := by
  have past : ¬functionNumber (some (256 + k)) ≤ pfNumber := by show ¬256 + k ≤ 256; omega
  rw [requesterOf, if_neg past]
  show 256 + k + 2 = _
  omega

theorem vfOnly_vf {f : Nat} (vf : f < 256) : vfOnly (some f) = some f := by simp [vfOnly, pfNumber, vf]

theorem vfOnly_pf (k : Nat) : vfOnly (some (256 + k)) = none := by simp [vfOnly, pfNumber]

theorem functionExists_vf {f : Nat} (vf : f < 256) : functionExists (some f) = true := by
  exact decide_eq_true (show f < 264 by omega)

theorem functionExists_pf {k : Nat} : functionExists (some (256 + k)) = decide (k < 8) := by
  exact decide_eq_decide.2 (show 256 + k < 264 ↔ k < 8 by omega)

section
variable {addr n : Nat}

theorem hostRegWrite_pf0 (control : addr < 0x100000) : s.hostRegWrite none addr n = s.functionWrite none addr n true := if_pos control

theorem hostRegWrite_pf {k : Nat} (port : k < 8) (control : addr < 0x100000) :
    s.hostRegWrite (some (256 + k)) addr n = s.functionWrite (some (256 + k)) addr n true := by
  simp only [State.hostRegWrite, functionExists_pf, port, vfOnly_pf, control, decide_true, Bool.not_true, Bool.false_eq_true, if_false,
    if_true]

theorem hostRegWrite_unbound {f : Nat} (vf : f < 256) (control : addr < 0x100000) (unbound : s.boundCtx f = none) :
    s.hostRegWrite (some f) addr n = s := by
  simp only [State.hostRegWrite, functionExists_vf vf, vfOnly_vf vf, control, unbound, Bool.not_true, Bool.false_eq_true, if_false, if_true]

theorem hostRegWrite_local {f off : Nat} (vf : f < 256) (page : off < 4096) :
    s.hostRegWrite none (0x100000 + 4096 * f + off) n = s.writeLocal f off n true := by
  have past : ¬0x100000 + 4096 * f + off < 0x100000 := by omega
  have within : 0x100000 + 4096 * f + off < 0x200000 := by omega
  have index : (0x100000 + 4096 * f + off - 0x100000) / 4096 = f := by omega
  have rest : (0x100000 + 4096 * f + off) % 4096 = off := by omega
  refine (if_neg past).trans ((if_pos within).trans ?_)
  rw [index, rest]

theorem functionWrite_other {who : Option Nat} {atM : Bool} (other : ∀ d t, Reg.at addr ≠ some (.cqNotify d t)) :
    s.functionWrite who addr n atM = s.writeCr addr n atM := by
  unfold State.functionWrite
  split
  next d t at_ => exact absurd at_ (other d t)
  next => rfl

end

theorem execControlRegisterWrite_now {who : Option Nat} {addr : Nat} {x : BitVec 64}
    (none_ : ((s.charge who 8).requester (requesterOf who)).items = []) :
    execControlRegisterWrite who addr x s = .next ((s.charge who 8).hostRegWrite who addr x.toNat) := by
  simp only [execControlRegisterWrite, none_, List.isEmpty_nil, if_true]

theorem execControlRegisterWrite_later {who : Option Nat} {addr : Nat} {x : BitVec 64}
    (some_ : ((s.charge who 8).requester (requesterOf who)).items ≠ []) :
    execControlRegisterWrite who addr x s = .next ((s.charge who 8).iopAdd (requesterOf who) (.reg who addr x.toNat)) := by
  simp only [execControlRegisterWrite, Bool.eq_false_iff.2 (mt List.isEmpty_iff.1 some_), Bool.false_eq_true, if_false]

/-! ### Resets of functions (24 R427) -/

theorem resetRecord_length (f : Nat) (ctx : Option Nat) (nkill tick : Nat) (cuts : List Nat) :
    (resetRecord f ctx nkill tick cuts).length = 64 := by
  simp [resetRecord, natBytes_length, List.length_flatMap]

theorem resetRecord_take (f : Nat) (ctx : Option Nat) (nkill tick : Nat) (cuts : List Nat) :
    (resetRecord f ctx nkill tick cuts).take 2 = natBytes 2 f := by
  simp only [resetRecord, List.append_assoc]
  rw [List.take_left' (natBytes_length ..)]

theorem vf_updVf_self (s : State) (f : Nat) (g : Vf → Vf) : (s.updVf f g).vf f = g (s.vf f) := Tab.getD_set_self ..

theorem resetVf_ends (s : State) (f : Nat) : ∃ (u : State) (record : List Byte), s.resetVf f =
      (u.updVf f fun x => { x with rst := record, hcrt := 0, hcrh := 0, aperEn := false }).managementRecord cVF_RESET
        ((s.boundAny f).getD 0xFFFF) (((s.boundAny f).map u.partOf).getD 0) f ∧
    record.length = 64 ∧ record.take 2 = natBytes 2 f :=
  ⟨_, _, rfl, resetRecord_length .., resetRecord_take ..⟩

theorem execFunctionLevelReset_vf {f : Nat} (vf : f < 256) : execFunctionLevelReset f s = .next (s.resetVf f) := congrArg _ (if_pos vf)

/-- That a reset of a physical function resets its virtual ones is the model's reading (log 63). -/
theorem execFunctionLevelReset_pf {k : Nat} (port : k < 8) : execFunctionLevelReset (256 + k) s =
    .next (((List.range 256).filter fun f => ((s.quietFunction (if k = 0 then none else some (256 + k))).updVf (256 + k) fun _ =>
      Vf.reset).pfOf f == k).foldl (fun s f => s.resetVf f)
        ((s.quietFunction (if k = 0 then none else some (256 + k))).updVf (256 + k) fun _ => Vf.reset)) := by
  have notVf : ¬256 + k < pfNumber := by show ¬256 + k < 256; omega
  have first : (256 + k = pfNumber) = (k = 0) := by
    show (256 + k = 256) = _
    rw [eq_iff_iff]
    omega
  have index : 256 + k - pfNumber = k := by show 256 + k - 256 = k; omega
  simp only [execFunctionLevelReset, if_neg notVf, functionExists_pf, port, decide_true, Bool.not_true, Bool.false_eq_true, if_false,
    first, index]

theorem execFunctionLevelReset_absent {k : Nat} (absent : 8 ≤ k) : execFunctionLevelReset (256 + k) s = .next s := by
  have notVf : ¬256 + k < pfNumber := by show ¬256 + k < 256; omega
  simp only [execFunctionLevelReset, if_neg notVf, functionExists_pf, Nat.not_lt.2 absent, decide_false, Bool.not_false, if_true]

/-! ### What a requester sends next (24 R424, R425) -/

theorem splitSent_write (x : Access) (ctx : Nat) (bytes : List Byte) (route : Nat) (tail : List IopItem) :
    splitSent (.write x ctx bytes route false :: tail) = ([], .write x ctx bytes route false :: tail) := rfl

theorem splitSent_sent (x : Access) (ctx : Nat) (bytes : List Byte) (route : Nat) (tail : List IopItem) :
    splitSent (.write x ctx bytes route true :: tail) = (.write x ctx bytes route true :: (splitSent tail).1, (splitSent tail).2) := rfl

section
variable {x : Access} {ctx route : Nat} {bytes : List Byte} {tail : List IopItem}

section
variable (items : (s.requester q).items = .write x ctx bytes route false :: tail)
include items

theorem execIopWriteSend_changing (changes : s.changing (memPart x.pa) = true) : execIopWriteSend q s = .next s := by
  simp only [execIopWriteSend, items, splitSent_write, changes, if_true]

theorem execIopWriteSend_write (steady : s.changing (memPart x.pa) = false) : execIopWriteSend q s =
    .next ((s.raisePts (.route (s.iopOf q) route) ((s.requester q).ackedElse route)).setItems q
      (.write x ctx bytes route true :: tail)) := by
  simp only [execIopWriteSend, items, splitSent_write, steady, List.all_nil, List.nil_append, Bool.false_eq_true, if_false, if_true]

end

section
variable {x' : Access} {ctx' route' : Nat} {bytes' : List Byte}
  (items : (s.requester q).items = .write x ctx bytes route true :: .write x' ctx' bytes' route' false :: tail)
include items

theorem execIopWriteSend_behind (other : route' ≠ route) : execIopWriteSend q s = .next s := by
  have apart : (([IopItem.write x ctx bytes route true] : List IopItem).all fun i => i.route? == some route') = false := by
    simp [IopItem.route?, Ne.symm other]
  simp only [execIopWriteSend, items, splitSent_sent, splitSent_write, apart, Bool.false_eq_true, if_false, ite_self]

theorem execIopWriteSend_same (same : route' = route) (steady : s.changing (memPart x'.pa) = false) : execIopWriteSend q s =
    .next ((s.raisePts (.route (s.iopOf q) route') ((s.requester q).ackedElse route')).setItems q
      (.write x ctx bytes route true :: .write x' ctx' bytes' route' true :: tail)) := by
  have along : (([IopItem.write x ctx bytes route true] : List IopItem).all fun i => i.route? == some route') = true := by
    simp [IopItem.route?, same]
  simp only [execIopWriteSend, items, splitSent_sent, splitSent_write, steady, along, Bool.false_eq_true, if_false, if_true,
    List.cons_append, List.nil_append]

end

section
variable {va f : Nat} (off : s.aperture f va = none)
include off

theorem execIopWriteSend_raw_off (items : (s.requester q).items = .raw (some f) ctx va bytes :: tail) :
    execIopWriteSend q s = .next (s.setItems q tail) := by
  simp only [execIopWriteSend, items, splitSent, off, List.nil_append]

theorem execIopWriteSend_read_off {size : Nat} {r : Bool} (items : (s.requester q).items = .read (some f) ctx va size r :: tail) :
    execIopWriteSend q s = .next ((s.setItems q tail).send (.completion q 1 [])) := by
  simp only [execIopWriteSend, items, splitSent, State.iopBeginRead, off, List.isEmpty_nil, List.nil_append, if_true]

end

theorem ite_isPod {α : Type} (a b : α) : (if isPod q then a else b) = if 1024 ≤ q then a else b := by simp [isPod]

section
variable {va : Nat} (items : (s.requester q).items = .raw none ctx va bytes :: tail)
include items

theorem execIopWriteSend_raw {xs : List Access} (ok : s.iopAccess ctx va bytes.length true = (u, .ok xs)) :
    execIopWriteSend q s = .next (u.setItems q (lineItems u ctx xs bytes ++ tail)) := by
  simp only [execIopWriteSend, items, splitSent, State.iopExpand, ok, List.nil_append]

theorem execIopWriteSend_raw_fault {cause a : Nat} (bad : s.iopAccess ctx va bytes.length true = (u, .error (cause, a))) :
    execIopWriteSend q s =
      .next ((if 1024 ≤ q then u.send (.completion q cause []) else u.iopFault ctx cause a).setItems q tail) := by
  simp only [execIopWriteSend, items, splitSent, State.iopExpand, bad, List.nil_append, ite_isPod]

end

theorem execIopWriteSend_read_fault {va size cause a : Nat} {r : Bool}
    (items : (s.requester q).items = .read none ctx va size r :: tail) (bad : s.iopAccess ctx va size false = (u, .error (cause, a))) :
    execIopWriteSend q s = .next ((u.setItems q tail).send (.completion q (if 1024 ≤ q then cause else 2) [])) := by
  simp only [execIopWriteSend, items, splitSent, State.iopBeginRead, bad, List.isEmpty_nil, List.nil_append, if_true, readFailure,
    ite_isPod]

/-- The next line of a read: the read goes on, is answered, or fails. -/
theorem execIopWriteSend_reading {y : Access} {left xs : List Access} {got bs : List Byte} {r ue : Bool}
    (items : (s.requester q).items = .reading ctx (y :: left) got r :: tail)
    (ok : s.iopAccess ctx y.va y.len false = (u, .ok (x :: xs))) (still : u.movingAt x = .still)
    (read : (u.raisePts (.route (u.iopOf q) (u.routeOf x)) (u.requester q).acked).readAccess (.route (u.iopOf q) (u.routeOf x)) ctx x
      false = (v, bs, ue)) : execIopWriteSend q s =
    .next (if ue then (v.setItems q tail).send (.completion q (if 1024 ≤ q then cMEMORY_UE else 2) [])
      else if left.isEmpty then (v.setItems q tail).send (.completion q 0 (got ++ bs))
      else v.setItems q (.reading ctx left (got ++ bs) r :: tail)) := by
  simp only [execIopWriteSend, items, splitSent, State.iopReadLine, ok, still, read, List.isEmpty_nil, List.nil_append, if_true,
    readFailure, ite_isPod]
  cases ue <;> rfl

theorem hostRegRead_setItems (s : State) (q : Nat) (is : List IopItem) (who : Option Nat) (addr : Nat) :
    (s.setItems q is).hostRegRead who addr = s.hostRegRead who addr := rfl

theorem execIopWriteSend_regRead {who : Option Nat} {addr : Nat} (items : (s.requester q).items = .regRead who addr :: tail) :
    execIopWriteSend q s =
      .next ((s.setItems q tail).send (.completion q 0 (natBytes 8 ((s.setItems q tail).hostRegRead who addr)))) := by
  simp only [execIopWriteSend, items, splitSent, List.isEmpty_nil, if_true, hostRegRead_setItems]

/-! ### Acknowledgements (24 R424, R426) -/

theorem execIopAck_unsent (items : (s.requester q).items = .write x ctx bytes route false :: tail) : execIopAck q s = .next s := by
  simp only [execIopAck, items]

section
variable (items : (s.requester q).items = .write x ctx bytes route true :: tail)
include items

theorem execIopAck_arriving (moving : s.movingAt x = .arriving) : execIopAck q s = .next s := by
  simp only [execIopAck, items, moving]

theorem execIopAck_moving (moving : s.movingAt x = .moving) {y : Access} (again : s.retried (s.iopDie ctx) 0x1FF ctx x = (u, y)) :
    execIopAck q s = .next (u.setItems q (.write y ctx bytes (u.routeOf y) true :: tail)) := by
  simp only [execIopAck, items, moving, again]

variable (still : s.movingAt x = .still)
include still

theorem execIopAck_performed (write : ((s.setItems q tail).ackSent q).writeAccess
      (.route (((s.setItems q tail).ackSent q).iopOf q) route) ctx x bytes true = (u, true)) : execIopAck q s =
    .next (if 1024 ≤ q then (u.noteAck q route).send (.completion q 0 []) else u.noteAck q route).settleSys := by
  simp only [execIopAck, items, still, write, ite_isPod]

theorem execIopAck_error (write : ((s.setItems q tail).ackSent q).writeAccess
      (.route (((s.setItems q tail).ackSent q).iopOf q) route) ctx x bytes true = (u, false)) : execIopAck q s =
    .next (u.asyncRecord cMEMORY_UE ctx 0 (u.iopDie ctx) 0x1FF 0 x.va).settleSys := by
  simp only [execIopAck, items, still, write]

end

end

end Sys2Proof.Machine
end

section
/-! PROOF. Posted writes of the device, accesses of the chiplet's harts, and with them the whole of O57. Settles O57. -/
namespace Sys2Proof.Machine

variable {s t u v : State}

/-! ### The first of a list -/

theorem findIdx?_of_none {α : Type} {p : α → Bool} {xs : List α} (none_ : ∀ x ∈ xs, p x = false) : findIdx? p xs = none := by
  simp only [findIdx?, List.findIdx_eq_length.2 none_, lt_irrefl, if_false]

theorem findIdx?_of_first {α : Type} {p : α → Bool} {before rest : List α} {w : α} (none_ : ∀ x ∈ before, p x = false)
    (first : p w = true) : findIdx? p (before ++ w :: rest) = some before.length := by
  have index : (before ++ w :: rest).findIdx p = before.length := by
    induction before with
    | nil => simp [List.findIdx_cons, first]
    | cons x before ih =>
      obtain ⟨here, later⟩ := List.forall_mem_cons.1 none_
      simp [List.findIdx_cons, here, ih later]
  simp only [findIdx?, index, List.length_append, List.length_cons, Nat.lt_add_right_iff_pos, Nat.zero_lt_succ, if_true]

/-! ### Posted writes of the device (24 R426, R434) -/

/-- The function of a limiter. -/
def limiterOf (f : Nat) : Option Nat := if f < 256 then some f else none

/-- A posted write that may go out, but for the bucket of its function. -/
def State.mayPost (s : State) (f : Nat) (w : IoWrite) : Prop := w.sent = false ∧ w.vf = limiterOf f ∧ ∀ n ∈ w.after, s.performed n = true

theorem mayPost_iff {f : Nat} {w : IoWrite} : (!w.sent && w.vf == limiterOf f && w.after.all s.performed) = true ↔ s.mayPost f w := by
  simp only [Bool.and_eq_true, Bool.not_eq_true', beq_iff_eq, List.all_eq_true, State.mayPost, and_assoc]

theorem limited_of_empty {f : Nat} (vf : f < 256) (rate : (s.vf f).rate ≠ 0) (empty : (s.vf f).bucket ≤ 0) :
    s.limited (limiterOf f) = true := by
  simp [limiterOf, vf, State.limited, rate, empty]

theorem limited_of_open {f : Nat} (open_ : f < 256 → (s.vf f).rate = 0 ∨ 0 < (s.vf f).bucket) : s.limited (limiterOf f) = false := by
  unfold limiterOf
  split
  next vf =>
    obtain free | filled := open_ vf
    · simp [State.limited, free]
    · simp [State.limited, filled]
  next => rfl

/-- A posted write that goes out. -/
def State.posting (u : State) (before : List IoWrite) (w : IoWrite) (rest : List IoWrite) : State :=
  (u.updMs fun m => { m with ioWrites := before ++ { w with sent := true } :: rest }).send w.message

section
variable {f : Nat}

theorem execRateLimitRelease_limited (limited : s.limited (limiterOf f) = true) : execRateLimitRelease f s = .next s := by
  unfold limiterOf at limited
  simp only [execRateLimitRelease, limited, if_true]

variable (open_ : s.limited (limiterOf f) = false)
include open_

theorem execRateLimitRelease_frame (none_ : ∀ w ∈ s.ms.ioWrites, ¬s.mayPost f w) :
    execRateLimitRelease f s = .next (s.releaseFrame f) := by
  have index := findIdx?_of_none fun w mem => Bool.eq_false_iff.2 (mt mayPost_iff.1 (none_ w mem))
  unfold limiterOf at open_ index
  simp only [execRateLimitRelease, open_, index, Bool.false_eq_true, if_false]

/-- The first write that may go out does; a host call's message costs 4 bytes more, which is the model's choice (log 14). -/
theorem execRateLimitRelease_posts {before rest : List IoWrite} {w : IoWrite} (writes : s.ms.ioWrites = before ++ w :: rest)
    (none_ : ∀ x ∈ before, ¬s.mayPost f x) (first : s.mayPost f w) : execRateLimitRelease f s =
      .next (w.vec.elim ((s.charge (limiterOf f) w.size).posting before w rest)
        fun x => ((s.charge (limiterOf f) (w.size + 4)).posting before w rest).raiseVector w.vf x) := by
  have index : findIdx? (fun w => !w.sent && w.vf == limiterOf f && w.after.all s.performed) s.ms.ioWrites = some before.length := by
    rw [writes]
    exact findIdx?_of_first (fun x mem => Bool.eq_false_iff.2 (mt mayPost_iff.1 (none_ x mem))) (mayPost_iff.2 first)
  have at_ : s.ms.ioWrites[before.length]? = some w := by simp [writes]
  have replaced (n : Nat) : ((s.charge (limiterOf f) n).updMs fun m => { m with
      ioWrites := m.ioWrites.set before.length { w with sent := true } }).send w.message =
        (s.charge (limiterOf f) n).posting before w rest := by
    simp only [State.posting, State.updMs, charge_ms, writes, List.set_append_right _ _ (Nat.le_refl _), Nat.sub_self, List.set_cons_zero]
  unfold limiterOf at open_ index replaced ⊢
  simp only [execRateLimitRelease, open_, index, at_, Bool.false_eq_true, if_false, replaced]
  cases w.vec <;> simp

end

section
variable {w : IoWrite} {rest : List IoWrite} (writes : s.ms.ioWrites = w :: rest) (sent : w.sent = true)
include writes sent

/-- An acknowledged write is gone; the last one of its number writes its register. -/
theorem execIoWriteAck_eq : execIoWriteAck w.id s = .next ((if rest.any (fun x => x.id == w.id) then none else w.reg).elim
    (s.updMs fun m => { m with ioWrites := rest }) (fun r => (s.updMs fun m => { m with ioWrites := rest }).arrive r.1 r.2.1 r.2.2 0
      [r.2.2])).settleSys := by
  have index : findIdx? (fun x => x.sent && x.id == w.id) s.ms.ioWrites = some 0 := by
    rw [writes]
    exact findIdx?_of_first (before := []) (by simp) (by simp [sent])
  have at_ : s.ms.ioWrites[0]? = some w := by simp [writes]
  have erased : (s.updMs fun m => { m with ioWrites := m.ioWrites.eraseIdx 0 }) = s.updMs fun m => { m with ioWrites := rest } := by
    simp only [State.updMs, writes, List.eraseIdx_cons_zero]
  simp only [execIoWriteAck, index, at_, erased, updMs_ms]
  cases rest.any (fun x => x.id == w.id)
  · cases w.reg <;> rfl
  · rfl

theorem execIoWriteAck_more (more : ∃ x ∈ rest, x.id = w.id) :
    execIoWriteAck w.id s = .next (s.updMs fun m => { m with ioWrites := rest }).settleSys := by
  have any_ : rest.any (fun x => x.id == w.id) = true := by simpa using more
  rw [execIoWriteAck_eq writes sent, any_]
  rfl

theorem execIoWriteAck_last (last : ∀ x ∈ rest, x.id ≠ w.id) : execIoWriteAck w.id s = .next (w.reg.elim
    (s.updMs fun m => { m with ioWrites := rest }) (fun r => (s.updMs fun m => { m with ioWrites := rest }).arrive r.1 r.2.1 r.2.2 0
      [r.2.2])).settleSys := by
  have none_ : rest.any (fun x => x.id == w.id) = false := by simpa using last
  rw [execIoWriteAck_eq writes sent, none_]
  rfl

end

/-! ### Harts of the chiplet (24 R429) -/

section
variable {h pa n mt : Nat} (pos : 1 ≤ n) (within : pa % 64 + n ≤ 64) (type : mt < 2)
include pos within type

/-- The line of a hart's access, in the partition of die row 0. -/
def State.hartLine (s : State) (pa mt n : Nat) : Access := ⟨pa, memBase (s.dieOf 0) + pa % 2 ^ 52, mt, n, none⟩

theorem hartAccess_read_refused (refused : s.refuses 0 (s.homeDie (s.hartLine pa mt n)) = true) :
    s.hartAccess h mt pa (.read n) = (s.refuse (s.homeDie (s.hartLine pa mt n))).send (.hart h []) := by
  have small : mt % 2 = mt := Nat.mod_eq_of_lt type
  have fits : ¬(n = 0 ∨ pa % 64 + n > 64) := by omega
  have notIo : ¬mt = 2 := by omega
  unfold State.hartLine at refused ⊢
  simp only [State.hartAccess, if_neg notIo, small, HartOp.size, if_neg fits, refused, if_true]

/-- That a hart acts for no context is the model's reading (log 58). -/
theorem hartAccess_read (home : s.refuses 0 (s.homeDie (s.hartLine pa mt n)) = false) {bs : List Byte}
    (read : s.readAccess (.hart h) 1024 (s.hartLine pa mt n) false = (u, bs, false)) :
    s.hartAccess h mt pa (.read n) = u.send (.hart h bs) := by
  have small : mt % 2 = mt := Nat.mod_eq_of_lt type
  have fits : ¬(n = 0 ∨ pa % 64 + n > 64) := by omega
  have notIo : ¬mt = 2 := by omega
  unfold State.hartLine at home read
  simp only [State.hartAccess, if_neg notIo, small, HartOp.size, if_neg fits, home, noCtx, read, Bool.false_eq_true, if_false]

theorem hartAccess_write (home : s.refuses 0 (s.homeDie (s.hartLine pa mt n)) = false) {bs : List Byte} (length : bs.length = n) :
    s.hartAccess h mt pa (.write bs) = (s.writeAccess (.hart h) 1024 (s.hartLine pa mt n) bs false).1.send (.hart h []) := by
  have small : mt % 2 = mt := Nat.mod_eq_of_lt type
  have fits : ¬(n = 0 ∨ pa % 64 + n > 64) := by omega
  have notIo : ¬mt = 2 := by omega
  unfold State.hartLine at home ⊢
  simp only [State.hartAccess, if_neg notIo, small, HartOp.size, length, if_neg fits, home, noCtx, Bool.false_eq_true, if_false]

end

/-- A record for management is the last of those unhandled. -/
theorem managementRecord_posted (s : State) (cause ctx part detail : Nat) : ∃ e,
    (s.managementRecord cause ctx part detail).sched.traps.getLast? = some e ∧ e.management = true ∧ e.trap.cause = cause ∧
      e.trap.ctx = ctx ∧ e.trap.detail = detail :=
  ⟨_, List.getLast?_concat .., rfl, rfl, rfl, rfl⟩

theorem managementRecord_vf (s : State) (cause ctx part detail f : Nat) : (s.managementRecord cause ctx part detail).vf f = s.vf f := rfl

/-- Settles O57: each access at the edge by its own lemmas. What a byte, a message and a register write cost is log 14, that a hart acts
for no context log 58, and which virtual functions a physical one has log 63: the model's choices. -/
theorem hostAccesses : Obligations.HostAccesses := by
  unfold Obligations.HostAccesses
  intro s
  refine ⟨fun f n => ⟨fun free => charge_free free n, fun limited => charge_limited limited n⟩,
    fun who addr x => ⟨execControlRegisterWrite_now, execControlRegisterWrite_later, rfl⟩,
    ⟨rfl, fun f vf => requesterOf_vf vf, fun k pos => requesterOf_pf pos⟩,
    fun addr n control => ⟨hostRegWrite_pf0 control, fun k port => hostRegWrite_pf port control,
      fun f vf unbound => hostRegWrite_unbound vf control unbound⟩,
    fun f off n vf page => hostRegWrite_local vf page, fun who a n atM other => functionWrite_other other,
    fun _ _ _ => rfl, fun _ _ _ => rfl, fun _ _ _ _ => ⟨fun _ => rfl, rfl⟩, fun f vf => ?_,
    fun k => ⟨execFunctionLevelReset_pf, execFunctionLevelReset_absent⟩,
    fun q x ctx bytes route tail items => ⟨execIopWriteSend_changing items, execIopWriteSend_write items⟩,
    fun q x ctx bytes route x' ctx' bytes' route' tail items => ⟨execIopWriteSend_behind items, execIopWriteSend_same items⟩,
    fun q f ctx va tail off => ⟨fun bytes => execIopWriteSend_raw_off off, fun size r => execIopWriteSend_read_off off⟩,
    fun q ctx va bytes tail u items => ⟨fun xs => execIopWriteSend_raw items, fun cause a => execIopWriteSend_raw_fault items⟩,
    fun q ctx va size r tail u cause a => execIopWriteSend_read_fault,
    fun q ctx y left got r tail u x xs v bs ue items ok still read => ⟨fun sound more => ?_, fun sound last => ?_, fun bad => ?_⟩,
    fun q x ctx bytes route rest items => ⟨execIopAck_arriving items, fun u y moving => execIopAck_moving items moving,
      fun u => execIopAck_performed items, fun u => execIopAck_error items⟩,
    fun q x ctx bytes route rest => execIopAck_unsent, fun f => ⟨fun vf rate empty =>
      execRateLimitRelease_limited (limited_of_empty vf rate empty), fun open_ => ⟨fun none_ =>
        execRateLimitRelease_frame (limited_of_open open_) none_, fun before w rest writes none_ first => ?_⟩⟩,
    fun w rest writes sent => ⟨execIoWriteAck_more writes sent, fun last => ?_⟩, fun q who addr tail => execIopWriteSend_regRead,
    fun h pa n pos within mt type => ⟨hartAccess_read_refused pos within type, fun home u bs => hartAccess_read pos within type home,
      fun home bs => hartAccess_write pos within type home⟩, fun h pa bs => rfl⟩
  · obtain ⟨u, record, reset, length, start⟩ := resetVf_ends s f
    refine ⟨s.resetVf f, ?_⟩
    obtain ⟨e, last, management, cause, ctx, detail⟩ := managementRecord_posted
      (u.updVf f fun x => { x with rst := record, hcrt := 0, hcrh := 0, aperEn := false }) cVF_RESET ((s.boundAny f).getD 0xFFFF)
      (((s.boundAny f).map u.partOf).getD 0) f
    have vf' : (((u.updVf f fun x => { x with rst := record, hcrt := 0, hcrh := 0, aperEn := false }).managementRecord cVF_RESET
        ((s.boundAny f).getD 0xFFFF) (((s.boundAny f).map u.partOf).getD 0) f).vf f) =
        { u.vf f with rst := record, hcrt := 0, hcrh := 0, aperEn := false } :=
      (managementRecord_vf ..).trans (vf_updVf_self ..)
    rw [← reset] at last vf'
    rw [vf']
    exact ⟨e, execFunctionLevelReset_vf vf, rfl, rfl, rfl, rfl, length, start, last, management, cause, ctx, detail⟩
  · have goes := execIopWriteSend_reading items ok still read
    rw [sound, if_neg Bool.false_ne_true, if_neg (by simpa using more)] at goes
    exact goes
  · have goes := execIopWriteSend_reading items ok still read
    rw [sound, if_neg Bool.false_ne_true, if_pos (by simpa using last)] at goes
    exact goes
  · have goes := execIopWriteSend_reading items ok still read
    rw [bad, if_pos rfl] at goes
    exact goes
  · have posts := execRateLimitRelease_posts (limited_of_open open_) writes none_ first
    refine ⟨fun plain => ?_, fun x vector => ?_⟩
    · rw [plain] at posts
      exact posts
    · rw [vector] at posts
      exact posts
  · have acks := execIoWriteAck_last writes sent last
    refine ⟨fun none_ => ?_, fun a code n reg => ?_⟩
    · rw [none_] at acks
      exact acks
    · rw [reg] at acks
      exact acks

end Sys2Proof.Machine
end

section
/-! PROOF. Frames of the text service, the blocker, and vocabularies. Settles O58. -/
namespace Sys2Proof.Machine

variable {s t u : State} {conn n : Nat} {bytes : List Byte}

/-! ### Frames (24 R435) -/

/-- A state whose limiter has been charged for a frame. -/
def State.frameCharged (s : State) (bytes : List Byte) : State := s.charge (some (fieldAt bytes 6 2)) bytes.length

theorem execTextFrame_short (bad : frameOk bytes = false) (short : bytes.length < 8) : execTextFrame conn bytes s = .next (s.textBad conn) := by
  have free : ¬(bytes.length ≥ 8 ∧ fieldAt bytes 6 2 < 256) := fun h => by omega
  simp only [execTextFrame, if_neg free, bad, Bool.not_false, if_true]

theorem execTextFrame_bad (bad : frameOk bytes = false) (long : 8 ≤ bytes.length) (vf : fieldAt bytes 6 2 < 256) :
    execTextFrame conn bytes s = .next ((s.frameCharged bytes).textBad conn) := by
  simp only [execTextFrame, if_pos (show bytes.length ≥ 8 ∧ fieldAt bytes 6 2 < 256 from ⟨long, vf⟩), bad, Bool.not_false, if_true,
    State.frameCharged]

theorem frameOk_charges (ok : frameOk bytes = true) : bytes.length ≥ 8 ∧ fieldAt bytes 6 2 < 256 := by
  simp only [frameOk, Bool.and_eq_true, decide_eq_true_eq] at ok
  obtain ⟨⟨⟨⟨⟨⟨⟨⟨⟨length, -⟩, -⟩, -⟩, vf⟩, -⟩, -⟩, -⟩, -⟩, -⟩ := ok
  exact ⟨by omega, vf⟩

section
variable (ok : frameOk bytes = true)
include ok

section
variable {k : Session} (session : (s.frameCharged bytes).session? (fieldAt bytes 8 4) = some k) (isOpen : k.isOpen = true)
include session isOpen

theorem execTextFrame_astray (astray : k.conn ≠ conn ∨ fieldAt bytes 20 4 ≠ k.fseq) :
    execTextFrame conn bytes s = .next ((s.frameCharged bytes).textBad conn) := by
  have discards : (k.conn != conn || fieldAt bytes 20 4 != k.fseq || (fieldAt bytes 5 1).testBit 0) = true := by
    obtain other | out_of_order := astray
    · simp [other]
    · simp [out_of_order]
  unfold State.frameCharged at session ⊢
  simp only [execTextFrame, if_pos (frameOk_charges ok), ok, session, isOpen, discards, Bool.not_true, Bool.false_eq_true, if_false, if_true]

theorem execTextFrame_continues (same : k.conn = conn) (order : fieldAt bytes 20 4 = k.fseq)
    (going : (fieldAt bytes 5 1).testBit 0 = false) : execTextFrame conn bytes s =
      .next (((s.frameCharged bytes).updSession (fieldAt bytes 8 4) fun k => { k with fseq := k.fseq + 1 }).feedFrame (fieldAt bytes 8 4)
        (bytes.drop 32) ((fieldAt bytes 5 1).testBit 2)) := by
  have keeps : (k.conn != conn || fieldAt bytes 20 4 != k.fseq || (fieldAt bytes 5 1).testBit 0) = false := by
    simp only [same, order, going, bne_self_eq_false, Bool.or_self]
  unfold State.frameCharged at session ⊢
  simp only [execTextFrame, if_pos (frameOk_charges ok), ok, session, isOpen, keeps, Bool.not_true, Bool.false_eq_true, if_false, if_true]

end

section
variable (closed : ∀ k, (s.frameCharged bytes).session? (fieldAt bytes 8 4) = some k → k.isOpen = false)
include closed

/-- A frame of no open request: one that does not start a request is discarded. That this holds for a frame with neither START, CONT nor END
is the model's reading (log 13). -/
theorem execTextFrame_unopened : execTextFrame conn bytes s = .next
    (if !(fieldAt bytes 5 1).testBit 0 || (fieldAt bytes 5 1).testBit 1 || fieldAt bytes 20 4 != 0 then (s.frameCharged bytes).textBad conn
    else (s.frameCharged bytes).startRequest conn (fieldAt bytes 8 4) (fieldAt bytes 6 2) (fieldAt bytes 12 1) (bytes.drop 32)
      ((fieldAt bytes 5 1).testBit 2)) := by
  unfold State.frameCharged at closed ⊢
  cases session : (s.charge (some (fieldAt bytes 6 2)) bytes.length).session? (fieldAt bytes 8 4) with
  | none => simp only [execTextFrame, if_pos (frameOk_charges ok), ok, session, Bool.not_true, Bool.false_eq_true, if_false]
  | some k =>
    simp only [execTextFrame, if_pos (frameOk_charges ok), ok, session, closed k session, Bool.not_true, Bool.false_eq_true, if_false]

theorem execTextFrame_strays (going : (fieldAt bytes 5 1).testBit 0 = false) :
    execTextFrame conn bytes s = .next ((s.frameCharged bytes).textBad conn) := by
  rw [execTextFrame_unopened ok closed, going]
  rfl

theorem execTextFrame_starts (start : (fieldAt bytes 5 1).testBit 0 = true) (first : (fieldAt bytes 5 1).testBit 1 = false)
    (zero : fieldAt bytes 20 4 = 0) : execTextFrame conn bytes s =
      .next ((s.frameCharged bytes).startRequest conn (fieldAt bytes 8 4) (fieldAt bytes 6 2) (fieldAt bytes 12 1) (bytes.drop 32)
        ((fieldAt bytes 5 1).testBit 2)) := by
  rw [execTextFrame_unopened ok closed, start, first, zero]
  rfl

end

end

section
variable {vf slot : Nat} {ends : Bool}

theorem startRequest_unbound (unbound : s.boundCtx vf = none) :
    s.startRequest conn n vf slot bytes ends = s.rejectFrame conn vf n slot false := by
  simp only [State.startRequest, unbound]

theorem startRequest_unserved {ctx : Nat} (bound : s.boundCtx vf = some ctx)
    (lacks : s.holdsText ctx = false ∨ Tab.get? s.out.vocabs (vf, slot) = none) :
    s.startRequest conn n vf slot bytes ends = s.rejectFrame conn vf n slot false := by
  have none_ : (if s.holdsText ctx then Tab.get? s.out.vocabs (vf, slot) else none) = none := by
    obtain deaf | empty := lacks
    · rw [deaf]
      rfl
    · rw [empty, ite_self]
  simp only [State.startRequest, bound, none_]

theorem startRequest_fresh {ctx : Nat} {v : Vocab} (bound : s.boundCtx vf = some ctx) (holds : s.holdsText ctx = true)
    (vocab : Tab.get? s.out.vocabs (vf, slot) = some v) (new : s.session? n = none) : s.startRequest conn n vf slot bytes ends =
      (s.updOut fun o => { o with
        sessions := Tab.set o.sessions n ⟨conn, false, vf, ctx, slot, v, true, 1, [], 0, none, 0, 0, 0, [], [], 0, 0⟩ }).feedFrame n bytes
          ends := by
  simp only [State.startRequest, bound, holds, vocab, new, if_true]

end

/-! ### The carder and the blocker (24 R439, R441) -/

theorem execBlockerRecord_none {ctx : Nat}
    (none_ : s.fab.texts.find? (fun q => (s.queue? q).any (fun x => x.ctx == ctx) && (s.head? q).isSome) = none) :
    execBlockerRecord ctx s = .next s := by
  simp only [execBlockerRecord, none_]

section
variable {ctx : Nat} {q : Qid} {r : Record}
  (found : s.fab.texts.find? (fun q => (s.queue? q).any (fun x => x.ctx == ctx) && (s.head? q).isSome) = some q)
  (head : s.takeHead q = (u, some r))
include found head

theorem execBlockerRecord_takes : execBlockerRecord ctx s = .next (u.blockRecord r) := by
  simp only [execBlockerRecord, found, head]

/-- That a record without a key counts on the port of connection 0 is the model's choice (log 13). -/
theorem execBlockerRecord_bad (bad : r.kind ≠ kDATA ∨ r.kv = false) : execBlockerRecord ctx s = .next (u.textBad 0) := by
  have no : (decide (r.kind = kDATA) && r.kv) = false := by
    obtain other | bare := bad
    · simp [other]
    · simp [bare]
  rw [execBlockerRecord_takes found head]
  simp only [State.blockRecord, no, Bool.false_eq_true, if_false]

theorem execBlockerRecord_adds (data : r.kind = kDATA) (key : r.kv = true) {k : Session} (session : u.session? r.key = some k)
    (known : lane32 r.payload 0 < k.vocab.ntok) : execBlockerRecord ctx s =
      .next (u.release r.key (k.vocab.detoken (lane32 r.payload 0)) (bitsAt (lane32 r.payload 2) 0 1 == 1)) := by
  rw [execBlockerRecord_takes found head]
  simp only [State.blockRecord, data, key, decide_true, Bool.and_self, if_true, session, ge_iff_le, Nat.not_le.2 known, if_false]

end

/-- A state in which a byte has followed a token that was held: the token is put, not as the last. -/
def State.heldPut (s : State) (n t at_ : Nat) (y : Byte) : State :=
  ((s.putToken n t at_ false).updSession n fun k => { k with held := none }).updSession n fun k => { k with piece := k.piece ++ [y] }

theorem feedByte_held {k : Session} {token at_ : Nat} {y : Byte} (session : s.session? n = some k) (held : k.held = some (token, at_))
    (empty : k.piece = []) (short : ∀ k', (s.heldPut n token at_ y).session? n = some k' → k'.piece.length < 256) :
    s.feedByte n y = s.heldPut n token at_ y := by
  have put : s.putHeld n = (s.putToken n token at_ false).updSession n fun k => { k with held := none } := by
    simp only [State.putHeld, session, Option.bind_some, held]
  unfold State.heldPut at short ⊢
  simp only [State.feedByte, session, empty, List.getLast?_nil, put]
  split
  next k' at' => exact if_neg (Nat.not_le.2 (short k' at'))
  next => rfl

theorem execTextReplyTimeout_waits {k : Session} (session : s.session? n = some k) (waits : k.released = [] ∨ s.clk.tick < k.since + 2700) :
    execTextReplyTimeout n s = .next s := by
  have stays : (k.released.isEmpty || decide (s.clk.tick < k.since + 2700)) = true := by
    obtain none_ | early := waits
    · simp [none_]
    · simp [early]
  simp only [execTextReplyTimeout, session, stays, if_true]

theorem execTextReplyTimeout_leaves {k : Session} (session : s.session? n = some k) (some_ : k.released ≠ [])
    (late : k.since + 2700 ≤ s.clk.tick) : execTextReplyTimeout n s = .next (s.replyFrame n k k.released false) := by
  have goes : (k.released.isEmpty || decide (s.clk.tick < k.since + 2700)) = false := by
    simp [some_, Nat.not_lt.2 late]
  simp only [execTextReplyTimeout, session, goes, Bool.false_eq_true, if_false]

/-- A session of a connection that has closed. -/
def closeOn (conn : Nat) (e : Nat × Session) : Nat × Session := if e.2.conn = conn then (e.1, { e.2 with closed := true }) else e

theorem closeOn_closed {e : Nat × Session} (same : (closeOn conn e).2.conn = conn) : (closeOn conn e).2.closed = true := by
  unfold closeOn at same ⊢
  split
  next => rfl
  next other =>
    rw [if_neg other] at same
    exact absurd same other

theorem textBad_out (conn : Nat) : (s.textBad conn).out = s.out := rfl

theorem foldl_textBad_out {α : Type} (conn : Nat) (xs : List α) : ∀ s : State, (xs.foldl (fun s _ => s.textBad conn) s).out = s.out := by
  induction xs with
  | nil => exact fun s => rfl
  | cons x xs ih => exact fun s => (ih _).trans (textBad_out _)

theorem execConnectionClosed_out (conn : Nat) : ∃ t, execConnectionClosed conn s = .next t ∧
    t.out.sessions = s.out.sessions.map (closeOn conn) ∧ t.out.frames = s.out.frames.filter fun f => f.2.1 != conn := by
  refine ⟨_, rfl, ?_, ?_⟩
  · rw [updOut_out, foldl_textBad_out]
    rfl
  · rw [updOut_out, foldl_textBad_out]

/-! ### Vocabularies (24 R438) -/

section
variable {call vf slot : Nat} {c : Call} {b : Vec}

/-- That a call of a context with no virtual function answers NOSVC is the model's choice (log 44). -/
theorem execVocload_unbound (named : s.vocCall call 1 = some (c, b, none, slot)) :
    execVocload call s = .next (s.completeCall c sNOSVC []) := by
  simp only [execVocload, named]

theorem execVocdrop_unbound (named : s.vocCall call 2 = some (c, b, none, slot)) :
    execVocdrop call s = .next (s.completeCall c sNOSVC []) := by
  simp only [execVocdrop, named]

/-- That a load and a drop wait in the swap window is the model's reading (log 39). -/
theorem execVocload_swapping (named : s.vocCall call 1 = some (c, b, some vf, slot)) (swapping : s.swapping = true) :
    execVocload call s = .next s := by
  simp only [execVocload, named, swapping, if_true]

theorem execVocdrop_swapping (named : s.vocCall call 2 = some (c, b, some vf, slot)) (swapping : s.swapping = true) :
    execVocdrop call s = .next s := by
  simp only [execVocdrop, named, swapping, if_true]

variable (steady : s.swapping = false)
include steady

theorem execVocload_busy (named : s.vocCall call 1 = some (c, b, some vf, slot)) (busy : s.slotBusy vf slot = true) :
    execVocload call s = .next (s.completeCall c sBUSY []) := by
  simp only [execVocload, named, steady, busy, Bool.false_eq_true, if_false, if_true]

theorem execVocdrop_busy (named : s.vocCall call 2 = some (c, b, some vf, slot)) (busy : s.slotBusy vf slot = true) :
    execVocdrop call s = .next (s.completeCall c sBUSY []) := by
  simp only [execVocdrop, named, steady, busy, Bool.false_eq_true, if_false, if_true]

theorem execVocdrop_drops (named : s.vocCall call 2 = some (c, b, some vf, slot)) (idle : s.slotBusy vf slot = false) :
    execVocdrop call s =
      .next ((s.updOut fun o => { o with vocabs := Tab.erase o.vocabs (vf, slot) }).completeCall c 0 []) := by
  simp only [execVocdrop, named, steady, idle, Bool.false_eq_true, if_false]

variable {bs : List Byte} (named : s.vocCall call 1 = some (c, b, some vf, slot)) (idle : s.slotBusy vf slot = false)
  (read : s.vocRead c.ctx (scalNat b) = (u, .ok bs))
include named idle read

theorem execVocload_bad (bad : (⟨bs, u.takeId.1⟩ : Vocab).ok = false) :
    execVocload call s = .next (u.takeId.2.completeCall c sBADIMG []) := by
  simp only [execVocload, named, steady, idle, read, bad, Bool.false_eq_true, if_false]

theorem execVocload_loads (ok : (⟨bs, u.takeId.1⟩ : Vocab).ok = true) : execVocload call s =
    .next ((u.takeId.2.updOut fun o => { o with vocabs := Tab.set o.vocabs (vf, slot) ⟨bs, u.takeId.1⟩ }).completeCall c 0 []) := by
  simp only [execVocload, named, steady, idle, read, ok, Bool.false_eq_true, if_false, if_true]

end

/-- Settles O58: each step of the text service by its own lemmas. That frames that start nothing and records without a key count as they do is
log 13, that a vocabulary waits in the swap window log 39, and NOSVC for a context with no virtual function log 44: the model's choices. -/
theorem textService : Obligations.TextService := by
  unfold Obligations.TextService
  intro s
  refine ⟨fun conn bytes => execTextFrame_short, fun conn bytes => ⟨execTextFrame_bad, fun ok k session isOpen =>
      ⟨execTextFrame_astray ok session isOpen, execTextFrame_continues ok session isOpen⟩, fun ok closed =>
        ⟨execTextFrame_strays ok closed, fun start first zero => ?_⟩⟩,
    fun ctx => ⟨execBlockerRecord_none, fun q u r found head => ⟨execBlockerRecord_bad found head, fun data key k =>
      execBlockerRecord_adds found head data key⟩⟩, fun n k token at_ y => feedByte_held, fun n k session =>
      ⟨execTextReplyTimeout_waits session, execTextReplyTimeout_leaves session⟩, fun conn => ?_, fun port => rfl,
    fun call c b vf slot => ⟨execVocload_unbound, execVocdrop_unbound, fun swapping => ⟨fun named => execVocload_swapping named swapping,
      fun named => execVocdrop_swapping named swapping⟩, execVocload_busy, execVocdrop_busy, execVocdrop_drops,
      fun u bs steady named idle read => ⟨execVocload_bad steady named idle read, execVocload_loads steady named idle read⟩⟩⟩
  · have starts := execTextFrame_starts (conn := conn) ok closed start first zero
    exact ⟨fun unbound => starts.trans (congrArg _ (startRequest_unbound unbound)),
      fun ctx bound lacks => starts.trans (congrArg _ (startRequest_unserved bound lacks)),
      fun ctx v bound holds vocab new => starts.trans (congrArg _ (startRequest_fresh bound holds vocab new))⟩
  · obtain ⟨t, closes, sessions, frames⟩ := execConnectionClosed_out (s := s) conn
    refine ⟨t, closes, by rw [sessions, List.length_map], fun e mem same => ?_, frames, fun e mem other => ?_⟩
    · rw [sessions] at mem
      obtain ⟨e, -, rfl⟩ := List.mem_map.1 mem
      exact closeOn_closed same
    · rw [sessions]
      exact List.mem_map.2 ⟨e, mem, if_neg other⟩

end Sys2Proof.Machine
end

section
/-! PROOF. Scrubbing, links, errors of regions, and the watchdog ladder: what O60 says of them. -/
namespace Sys2Proof.Machine

variable {s : State} {pa l lq die vq cu : Nat}

/-! ### Scrubbing (26 R445, R446) -/

theorem corrected_of_wrong (wrong : lineOf pa ∈ s.ms.ce) : s.corrected pa =
    (s.count (s.storeDie pa) none 0x60).updMs fun m => { m with ce := m.ce.filter (· != lineOf pa) } := by
  rw [State.corrected, if_pos (List.contains_iff_mem.2 wrong)]

theorem corrected_readable {code : Nat} (readable : lineOf pa ∉ s.ms.ue) :
    lineOf pa ∉ ((s.count (s.storeDie pa) none code).corrected pa).ms.ue := by
  unfold State.corrected
  split
  · simpa only [updMs_ms, count_ms] using readable
  · simpa only [count_ms] using readable

/-- A line that no uncorrectable error marks is at most corrected. -/
theorem execScrub_of_readable (readable : lineOf pa ∉ s.ms.ue) : execScrub pa s =
    .next (if lineOf pa ∈ s.ms.ce then (s.count (s.storeDie pa) none 0x63).corrected pa else s) := by
  simp only [execScrub, List.contains_iff_mem]
  split
  next wrong => exact congrArg _ (if_neg (corrected_readable readable))
  next => rfl

theorem execScrub_sound (readable : lineOf pa ∉ s.ms.ue) (sound : lineOf pa ∉ s.ms.ce) : execScrub pa s = .next s := by
  rw [execScrub_of_readable readable, if_neg sound]

theorem execScrub_corrects (wrong : lineOf pa ∈ s.ms.ce) (readable : lineOf pa ∉ s.ms.ue) : execScrub pa s =
    .next (((s.count (s.storeDie pa) none 0x63).count (s.storeDie pa) none 0x60).updMs fun m => { m with
      ce := m.ce.filter (· != lineOf pa) }) := by
  rw [execScrub_of_readable readable, if_pos wrong, corrected_of_wrong (s := s.count (s.storeDie pa) none 0x63) wrong]
  rfl

/-- That an uncorrectable line counts on the die that stores it is the model's choice (log 52). -/
theorem execScrub_counts (lost : lineOf pa ∈ s.ms.ue) (sound : lineOf pa ∉ s.ms.ce) :
    execScrub pa s = .next (s.count (s.storeDie pa) none 0x61) := by
  simp only [execScrub, List.contains_iff_mem, if_neg sound, if_pos lost]

/-! ### Links (26 R450, R451) -/

section
variable (retraining : (s.linkState l).retraining = true)
include retraining

theorem execLinkCrcFailure_retraining : execLinkCrcFailure l s = .next s := by
  simp only [execLinkCrcFailure, retraining, if_true]

theorem execLinkRetrainDone_ok : execLinkRetrainDone l true s = .next (s.updLinkState l fun _ => ⟨0, false, 0⟩) := by
  simp only [execLinkRetrainDone, retraining, Bool.not_true, Bool.false_eq_true, if_false, if_true]

theorem execLinkRetrainDone_failed : execLinkRetrainDone l false s =
    .next (if (s.linkState l).failed + 1 = 3 then (s.updLinkState l fun x => { x with failed := x.failed + 1 }).linkFails l
      else s.updLinkState l fun x => { x with failed := x.failed + 1 }) := by
  simp only [execLinkRetrainDone, retraining, Bool.not_true, Bool.false_eq_true, if_false]

end

section
variable (up : (s.linkState l).retraining = false)
include up

theorem execLinkRetrainDone_up (ok : Bool) : execLinkRetrainDone l ok s = .next s := by
  simp only [execLinkRetrainDone, up, Bool.not_false, if_true]

theorem execLinkCrcFailure_retrains (spent : 16 ≤ (s.linkState l).replays) :
    execLinkCrcFailure l s = .next (s.updLinkState l fun x => { x with replays := 0, retraining := true }) := by
  simp only [execLinkCrcFailure, up, Bool.false_eq_true, if_false, if_pos spent]

/-- That a replay counts on the receiving die is the model's reading (log 32). -/
theorem execLinkCrcFailure_replays (left : (s.linkState l).replays < 16) : execLinkCrcFailure l s =
    .next ((s.count (linkTo l) none 0x62).updLinkState l fun x => { x with replays := x.replays + 1 }) := by
  simp only [execLinkCrcFailure, up, Bool.false_eq_true, if_false, if_neg (not_le.2 left)]

theorem replayed_up : s.replayed l = s.updLinkState l fun x => { x with replays := 0 } := by
  simp only [State.replayed, up, Bool.false_eq_true, if_false]

end

/-! ### An error in a region (26 R448) -/

/-- The part of a count that a die keeps in its `RASLOG`. -/
def RasDie.uncorrectable (r : RasDie) : RasDie := { r with eccUncorr := min (r.eccUncorr + 1) (2 ^ 32 - 1) }

theorem ras_count_ue : (s.count die none 0x61).ras die = (s.ras die).uncorrectable := Tab.getD_set_self ..

theorem physQuad_count_ue : (s.count die none 0x61).physQuad die vq = s.physQuad die vq := by
  rw [State.physQuad, ras_count_ue, State.physQuad, RasDie.uncorrectable]

theorem quadUe_eq {q : Nat} (beneath : s.physQuad die vq = some q) : s.quadUe die vq = (s.count die none 0x61).quadError die q := by
  simp only [State.quadUe, physQuad_count_ue, beneath]

section
variable {q : Nat} (beneath : s.physQuad die vq = some q)
include beneath

theorem execRegionStateUe_outside (outside : ((s.count die none 0x61).quadError die q).placed.find? (fun e =>
      e.2.cells.any fun c => e.2.quad c.1 c.2 == (die, vq)) = none) :
    execRegionStateUe die vq cu s = .next ((s.count die none 0x61).quadError die q) := by
  simp only [execRegionStateUe, quadUe_eq beneath, outside]

theorem execRegionStateUe_kills {rid : Nat} {r : Region} (inside : ((s.count die none 0x61).quadError die q).placed.find? (fun e =>
      e.2.cells.any fun c => e.2.quad c.1 c.2 == (die, vq)) = some (rid, r)) :
    execRegionStateUe die vq cu s =
      .next ((((s.count die none 0x61).quadError die q).killLaunch rid).asyncRecord cMEMORY_UE r.ctx r.inc die vq cu 0) := by
  simp only [execRegionStateUe, quadUe_eq beneath, inside]

end

/-! ### The watchdog ladder (26 R455, R457). That a step acts at the end of a tick is the model's choice (log 4). -/

section
variable {act : State → State} (running : s.runningOf lq ≠ [])
include running

theorem ladderAct_off (off : (s.budgets (s.lqPart lq)).b1 = 0) :
    s.ladderAct lq act = s.updLadder lq fun l => { l with step := 0 } := by
  obtain ⟨rid, rids, cons⟩ := List.exists_cons_of_ne_nil running
  simp only [State.ladderAct, cons, State.ladderOff, off, beq_self_eq_true, if_true, State.ladderStop]

theorem ladderAct_acts (on : (s.budgets (s.lqPart lq)).b1 ≠ 0) (unasked : ∀ n, s.asked fnWDOG lq n = false)
    (alone : s.assisted (s.lqPart lq) fnWDOG = false) : s.ladderAct lq act = act s := by
  obtain ⟨rid, rids, cons⟩ := List.exists_cons_of_ne_nil running
  simp only [State.ladderAct, cons, State.ladderOff, beq_eq_false_iff_ne.2 on, unasked, alone, Bool.false_eq_true, if_false]

end

theorem execWatchdogL1_waits (waits : (s.budgets (s.lqPart lq)).b1 = 0 ∨ (s.ladder lq).idle < (s.budgets (s.lqPart lq)).b1 ∨
    s.tickEnds = false) : execWatchdogL1 lq s = .next s := by
  refine congrArg _ (if_pos ?_)
  simp only [Bool.or_eq_true, Bool.not_eq_true', decide_eq_true_eq]
  obtain off | early | within := waits
  · exact .inl (.inl (.inr off))
  · exact .inr early
  · exact .inl (.inl (.inl within))

theorem execWatchdogL1_records (ends : s.tickEnds = true) (on : (s.budgets (s.lqPart lq)).b1 ≠ 0) (first : (s.ladder lq).step = 0)
    (due : (s.budgets (s.lqPart lq)).b1 ≤ (s.ladder lq).idle) (running : s.runningOf lq ≠ []) : execWatchdogL1 lq s = .next
      ((s.ladderStep lq 1).asyncRecord cWATCHDOG (s.lq lq).ctx 0 (8 * (s.partition (s.lqPart lq)).first) 0x1FF 0 0) := by
  have busy : (s.runningOf lq).isEmpty = false := List.isEmpty_eq_false_iff.2 running
  simp only [execWatchdogL1, ends, on, first, not_lt.2 due, busy, Bool.not_true, bne_self_eq_false, decide_false, Bool.or_self,
    Bool.false_eq_true, if_false]

/-- A step of the ladder after the first waits for its predecessor, its budget and the end of a tick. -/
def State.stepWaits (s : State) (lq step budget : Nat) : Bool :=
  !s.tickEnds || (s.ladder lq).step != step || decide (s.clk.tick < (s.ladder lq).since + budget)

theorem stepWaits_eq_true {step budget : Nat}
    (waits : (s.ladder lq).step ≠ step ∨ s.clk.tick < (s.ladder lq).since + budget ∨ s.tickEnds = false) :
    s.stepWaits lq step budget = true := by
  rw [State.stepWaits, Bool.or_eq_true, Bool.or_eq_true, Bool.not_eq_true', bne_iff_ne, decide_eq_true_eq]
  obtain other | early | within := waits
  · exact .inl (.inr other)
  · exact .inr early
  · exact .inl (.inl within)

theorem stepWaits_eq_false {step budget : Nat} (ends : s.tickEnds = true) (at_ : (s.ladder lq).step = step)
    (due : (s.ladder lq).since + budget ≤ s.clk.tick) : s.stepWaits lq step budget = false := by
  simp only [State.stepWaits, ends, at_, not_lt.2 due, Bool.not_true, bne_self_eq_false, decide_false, Bool.or_self]

theorem execWatchdogL2_waits (waits : s.stepWaits lq 1 (s.budgets (s.lqPart lq)).b2 = true) : execWatchdogL2 lq s = .next s :=
  congrArg _ (if_pos waits)

theorem execWatchdogL2_acts (due : s.stepWaits lq 1 (s.budgets (s.lqPart lq)).b2 = false) :
    execWatchdogL2 lq s = .next (s.ladderAct lq fun s => s.ladderL2 lq) := congrArg _ (if_neg (Bool.eq_false_iff.1 due))

theorem execWatchdogL4_waits (waits : s.stepWaits lq 3 (s.budgets (s.lqPart lq)).b3 = true) : execWatchdogL4 lq s = .next s :=
  congrArg _ (if_pos waits)

theorem execWatchdogL4_acts (due : s.stepWaits lq 3 (s.budgets (s.lqPart lq)).b3 = false) :
    execWatchdogL4 lq s = .next (s.ladderAct lq fun s => s.ladderL4 lq) := congrArg _ (if_neg (Bool.eq_false_iff.1 due))

theorem execWatchdogL5_waits (waits : s.stepWaits lq 4 (s.budgets (s.lqPart lq)).b4 = true) : execWatchdogL5 lq s = .next s :=
  congrArg _ (if_pos waits)

theorem execWatchdogL5_acts (due : s.stepWaits lq 4 (s.budgets (s.lqPart lq)).b4 = false) (running : s.runningOf lq ≠ []) :
    execWatchdogL5 lq s = .next (if (s.budgets (s.lqPart lq)).b1 = 0 then s.updLadder lq fun l => { l with step := 0 }
      else s.powerOn.send .functionResets) := by
  have busy : (s.runningOf lq).isEmpty = false := List.isEmpty_eq_false_iff.2 running
  have acts : execWatchdogL5 lq s = .next (if (s.runningOf lq).isEmpty then s.ladderIdle lq
    else if s.ladderOff lq then s.ladderStop lq else s.powerOn.send .functionResets) :=
    congrArg _ (if_neg (Bool.eq_false_iff.1 due))
  simp only [acts, busy, State.ladderOff, State.ladderStop, beq_iff_eq, Bool.false_eq_true, if_false]

end Sys2Proof.Machine
end

section
/-! PROOF. The command processors' cores, the commands on their firmware, and its swap. Settles O60. -/
namespace Sys2Proof.Machine

variable {s t : State} {c d slot cmd : Nat} {f : CpCore → CpCore}

/-! ### Cores (26 R459) -/

theorem cp_updCp_self (s : State) (c : Nat) (f : CpCore → CpCore) : (s.updCp c f).cp c = f (s.cp c) := Tab.getD_set_self ..

theorem cp_updCp_ne (s : State) {c d : Nat} (f : CpCore → CpCore) (ne : d ≠ c) : (s.updCp c f).cp d = s.cp d := Tab.getD_set_ne _ _ _ ne

theorem cp_foldl_updCp (f : CpCore → CpCore) (d : Nat) {cs : List Nat} (distinct : cs.Nodup) :
    ∀ s : State, (cs.foldl (fun s c => s.updCp c f) s).cp d = if d ∈ cs then f (s.cp d) else s.cp d := by
  induction cs with
  | nil => exact fun s => rfl
  | cons c cs ih =>
    intro s
    obtain ⟨once, distinct⟩ := List.nodup_cons.1 distinct
    rw [List.foldl_cons, ih distinct]
    by_cases same : d = c
    · subst same
      rw [if_neg once, if_pos List.mem_cons_self, cp_updCp_self]
    · simp only [cp_updCp_ne _ _ same, List.mem_cons, same, false_or]

theorem cp_updCps (s : State) (f : CpCore → CpCore) (core : d < 8) : (s.updCps f).cp d = f (s.cp d) :=
  (cp_foldl_updCp f d List.nodup_range s).trans (if_pos (List.mem_range.2 core))

theorem part_foldl {α β : Type} {part : State → β} {f : State → α → State} (step : ∀ s x, part (f s x) = part s) (xs : List α) :
    ∀ s, part (xs.foldl f s) = part s := by
  induction xs with
  | nil => exact fun s => rfl
  | cons x xs ih => exact fun s => (ih _).trans (step s x)

theorem act_updCps (s : State) (f : CpCore → CpCore) : (s.updCps f).out.fw.act = s.out.fw.act :=
  part_foldl (part := fun s => s.out.fw.act) (f := fun s c => s.updCp c f) (fun _ _ => rfl) _ s

theorem execBvcpwdWrite_restarts (core : c < 8) :
    execBvcpwdWrite c s = .next (s.updCp c fun x => { x with wdog := s.clk.tick + 2 ^ 24 }) := congrArg _ (if_pos core)

theorem execCpWatchdogExpiry_stays (stays : (s.cp c).role = 1 ∨ s.clk.tick < (s.cp c).wdog) : execCpWatchdogExpiry c s = .next s := by
  refine congrArg _ (if_pos ?_)
  simp only [Bool.or_eq_true, decide_eq_true_eq]
  exact stays.elim (fun standby => .inl (.inr standby)) .inr

/-- The core that takes over from another. -/
def partner (c : Nat) : Nat := if c % 2 = 0 then c + 1 else c - 1

theorem partner_ne (c : Nat) : c ≠ partner c := by
  unfold partner
  split <;> omega

/-- The partner of a core goes on in its place, with the firmware of the boot slot. -/
def State.handsOver (s : State) (c : Nat) : State :=
  ((s.updCp c fun x => { x with role := 1 }).updCp (partner c) fun x => { x with
    role := 0
    wdog := s.clk.tick + 2 ^ 24 }).updFw fun w => { w with act := w.boot }

theorem cp_handsOver (s : State) (c d : Nat) : (s.handsOver c).cp d =
    ((s.updCp c fun x => { x with role := 1 }).updCp (partner c) fun x => { x with
      role := 0
      wdog := s.clk.tick + 2 ^ 24 }).cp d := rfl

theorem execCpWatchdogExpiry_hands_over (core : c < 8) (active : (s.cp c).role ≠ 1) (spent : (s.cp c).wdog ≤ s.clk.tick) :
    ∃ t, execCpWatchdogExpiry c s = .next t ∧ t.out.fw.act = s.out.fw.boot ∧ (t.cp c).role = 1 ∧ (t.cp (partner c)).role = 0 := by
  have runs : ¬ (decide (c ≥ 8) || decide ((s.cp c).role = 1) || decide (s.clk.tick < (s.cp c).wdog)) = true := by
    simp only [Bool.or_eq_true, decide_eq_true_eq, not_or]
    exact ⟨⟨by omega, active⟩, by omega⟩
  have hands : execCpWatchdogExpiry c s = .next (s.handsOver c) := congrArg _ (if_neg runs)
  refine ⟨_, hands, rfl, ?_, ?_⟩
  · rw [cp_handsOver, cp_updCp_ne _ _ (partner_ne c), cp_updCp_self]
  · rw [cp_handsOver, cp_updCp_self]

/-! ### Reads of images -/

theorem recall_fw (s : State) (pa : Nat) : (s.recall pa).out.fw = s.out.fw := by
  refine part_foldl (part := fun s => s.out.fw) (fun s e => ?_) _ s
  dsimp only
  split
  next l found =>
    rw [updFab_out]
    split <;> rfl
  next => rfl

theorem recallRange_fw (s : State) (pa n : Nat) : (s.recallRange pa n).out.fw = s.out.fw :=
  part_foldl (part := fun s => s.out.fw) (fun s _ => recall_fw s _) _ s

theorem count_fw (s : State) (d : Nat) (vq : Option Nat) (code n : Nat) : (s.count d vq code n).out.fw = s.out.fw := by
  unfold State.count
  split
  · rfl
  · rfl

theorem cpRead_fw (s : State) (pa n : Nat) : (s.cpRead pa n).1.out.fw = s.out.fw := by
  simp only [State.cpRead]
  split
  · exact recallRange_fw s _ n
  · exact (count_fw _ _ none _ _).trans (recallRange_fw s _ n)

/-- An image that a slot has taken, with the status of its verification. -/
def State.staged (s : State) (slot : Nat) (bs : List Byte) : State :=
  (s.updFw fun w => { w with
    slots := Tab.set w.slots slot bs
    verified := if verifyImage s.out.fw.floor bs = 0 then addOnce w.verified slot else w.verified.filter (· != slot)
  }).fwDone 1 (verifyImage s.out.fw.floor bs)

/-- What STAGE leads to: a slot has taken an image, and nothing else of the firmware has changed. -/
def State.Stages (s : State) (slot : Nat) (u : State) : Prop :=
  ∃ (t : State) (bs : List Byte), t.out.fw = s.out.fw ∧ u = t.staged slot bs

theorem staged_image (s : State) (slot : Nat) (bs : List Byte) : (s.staged slot bs).out.fw.image slot = bs := Tab.getD_set_self ..

theorem staged_st (s : State) (slot : Nat) (bs : List Byte) : (s.staged slot bs).out.fw.st = verifyImage s.out.fw.floor bs := rfl

/-! ### Commands (26 R461, R462) -/

theorem fwCommand_busy {act : State → State} (busy : s.out.fw.done = false) :
    s.fwCommand cmd slot act = s.updFw fun w => { w with st := 6 } := by
  simp only [State.fwCommand, busy, Bool.not_false, if_true]

section
variable {act : State → State} (free : s.out.fw.done = true)
include free

theorem fwCommand_running (running : slot = s.out.fw.act) : s.fwCommand cmd slot act = s.fwDone cmd 6 := by
  simp only [State.fwCommand, free, Bool.not_true, Bool.false_eq_true, if_false, if_pos running]

theorem fwCommand_acts (standby : slot ≠ s.out.fw.act) : s.fwCommand cmd slot act = act s := by
  simp only [State.fwCommand, free, Bool.not_true, Bool.false_eq_true, if_false, if_neg standby]

theorem fwStage_stages (standby : slot ≠ s.out.fw.act) : s.Stages slot (s.fwStage slot) := by
  rw [State.fwStage, fwCommand_acts free standby]
  extract_lets src
  split
  next t header read =>
    have keeps : t.out.fw = s.out.fw := (congrArg (·.1.out.fw) read).symm.trans (cpRead_fw ..)
    extract_lets len
    split
    next u body rest =>
      refine ⟨u, header ++ body, ?_, rfl⟩
      split at rest
      · cases rest
        exact keeps
      · exact (congrArg (·.1.out.fw) rest).symm.trans ((cpRead_fw ..).trans keeps)

theorem fwStage_verifies (standby : slot ≠ s.out.fw.act) : (s.fwStage slot).out.fw.done = true ∧ (s.fwStage slot).out.fw.cmd = 1 ∧
    (s.fwStage slot).out.fw.st = verifyImage s.out.fw.floor ((s.fwStage slot).out.fw.image slot) := by
  obtain ⟨t, bs, same, stages⟩ := fwStage_stages free standby
  rw [stages]
  exact ⟨rfl, rfl, by rw [staged_image, staged_st, same]⟩

theorem fwSvnlock_raises (standby : slot ≠ s.out.fw.act) :
    s.fwSvnlock slot = (s.updFw fun w => { w with floor := max w.floor (fieldAt (w.image w.act) 8 4) }).fwDone 4 0 :=
  fwCommand_acts free standby

theorem fwBootsel_verified (standby : slot ≠ s.out.fw.act) (verified : s.slotStatus slot = 0) :
    s.fwBootsel slot = (s.updFw fun w => { w with boot := slot }).fwDone 3 0 := by
  rw [State.fwBootsel, fwCommand_acts free standby]
  simp only [verified, if_true]

theorem fwBootsel_unverified (standby : slot ≠ s.out.fw.act) (unverified : s.slotStatus slot ≠ 0) :
    s.fwBootsel slot = s.fwDone 3 (s.slotStatus slot) := by
  rw [State.fwBootsel, fwCommand_acts free standby]
  simp only [if_neg unverified]

theorem fwSwap_unverified (standby : slot ≠ s.out.fw.act) (unverified : s.slotStatus slot ≠ 0) :
    s.fwSwap slot = s.fwDone 2 (s.slotStatus slot) := by
  rw [State.fwSwap, fwCommand_acts free standby]
  exact if_pos (bne_iff_ne.2 unverified)

theorem fwSwap_starts (standby : slot ≠ s.out.fw.act) (verified : s.slotStatus slot = 0) :
    (s.fwSwap slot).out.fw.swap = .starting ∧ (s.fwSwap slot).out.fw.done = false ∧ (s.fwSwap slot).out.fw.cmd = 2 := by
  rw [State.fwSwap, fwCommand_acts free standby]
  simp only [verified, bne_self_eq_false, Bool.false_eq_true, if_false]
  exact ⟨rfl, rfl, rfl⟩

end

section
variable (named : slot < 2)
include named

theorem execStage_eq : execStage slot s = .next (s.fwStage slot) := by rw [execStage, Nat.mod_eq_of_lt named]
theorem execSwapFirmware_eq : execSwapFirmware slot s = .next (s.fwSwap slot) := by rw [execSwapFirmware, Nat.mod_eq_of_lt named]
theorem execBootsel_eq : execBootsel slot s = .next (s.fwBootsel slot) := by rw [execBootsel, Nat.mod_eq_of_lt named]
theorem execSvnlock_eq : execSvnlock slot s = .next (s.fwSvnlock slot) := by rw [execSvnlock, Nat.mod_eq_of_lt named]

end

/-! ### The swap (26 R462). That the sets go on with the record that the active set left is the model's choice (log 39). -/

/-- A core whose `BVSWAP` has been written. -/
def State.swapBits (s : State) (c : Nat) (v : BitVec 64) : State :=
  s.updCp c fun x => { x with ready := v.getLsbD 0, release := v.getLsbD 1 }

theorem role_swapBits (s : State) (c : Nat) (v : BitVec 64) (d : Nat) : ((s.swapBits c v).cp d).role = (s.cp d).role := by
  by_cases same : d = c
  · subst same
    rw [State.swapBits, cp_updCp_self]
  · rw [State.swapBits, cp_updCp_ne _ _ same]

/-- The active set has yielded, and the swap window is open. -/
def State.yields (s : State) (r : SwapRecord) : State :=
  (s.updCps fun c => if c.role = 0 then { c with role := 2 } else c).updFw fun w => { w with swap := .released s.clk.tick r }

theorem cp_yields {r : SwapRecord} (core : d < 8) :
    (s.yields r).cp d = if (s.cp d).role = 0 then { s.cp d with role := 2 } else s.cp d :=
  cp_updCps s (fun c => if c.role = 0 then { c with role := 2 } else c) core

theorem resumeRecord_out (s : State) (r : SwapRecord) : (s.resumeRecord r).out = { s.out with vocabs := r.vocabs } := by
  rw [State.resumeRecord, updOut_out, updSched_out]
  exact congrArg (fun o : Outside => { o with vocabs := r.vocabs }) (part_foldl (part := State.out) (fun s e => updPartition_out s _ _) _ s)

theorem cp_of_cores {c : Nat} (same : t.out.fw.cores = s.out.fw.cores) : t.cp c = s.cp c := congrArg (fun cores => Tab.getD cores c (CpCore.reset c)) same

theorem execTakeover_closed (closed : ∀ t0 r, s.out.fw.swap ≠ .released t0 r) : execTakeover s = .next s := by
  unfold execTakeover
  split
  next t0 r swap => exact absurd swap (closed t0 r)
  next => rfl

/-- The set that goes on, with the record that the active set left: `act` is the slot that runs. -/
def State.goesOn (s : State) (r : SwapRecord) (f : CpCore → CpCore) (w : Firmware → Firmware) (st : Nat) : State :=
  (((s.updCps f).resumeRecord r).updFw w).fwDone 2 st

section
variable {r : SwapRecord} {w : Firmware → Firmware} {st : Nat} (cores : ∀ x, (w x).cores = x.cores)

theorem goesOn_fw : (s.goesOn r f w st).out.fw = { w (s.updCps f).out.fw with done := true, cmd := 2, st := st } := by
  rw [State.goesOn, State.fwDone, State.updFw, updOut_out, State.updFw, updOut_out, resumeRecord_out]

theorem goesOn_vocabs : (s.goesOn r f w st).out.vocabs = r.vocabs := rfl
theorem goesOn_assists : (s.goesOn r f w st).sched.assists = r.inHand := rfl

include cores in
theorem cp_goesOn (core : d < 8) : (s.goesOn r f w st).cp d = f (s.cp d) :=
  (cp_of_cores (by rw [goesOn_fw]; exact cores _)).trans (cp_updCps s f core)

end

section
variable {t0 : Nat} {record : SwapRecord} (swap : s.out.fw.swap = .released t0 record)
include swap

theorem execTakeover_waits (early : s.clk.tick < t0 + 1350000) : execTakeover s = .next s := by
  simp only [execTakeover, swap, if_pos early]

theorem execTakeover_resumes (late : t0 + 1350000 ≤ s.clk.tick) : execTakeover s =
    .next (s.goesOn record (fun c => if c.role = 2 then { c with role := 0, release := false } else c) (fun w => { w with swap := .none }) 7) := by
  simp only [execTakeover, swap, if_neg (not_lt.2 late), State.goesOn]

end

section
variable {v : BitVec 64} (core : c < 8)
include core

theorem execBvswapWrite_none (swap : s.out.fw.swap = .none) : execBvswapWrite c v s = .next (s.swapBits c v) := by
  have same : (s.swapBits c v).out.fw.swap = .none := swap
  unfold State.swapBits at same ⊢
  simp only [execBvswapWrite, if_neg (not_le.2 core), same]

theorem execBvswapWrite_starting (swap : s.out.fw.swap = .starting) : execBvswapWrite c v s =
    .next (if (s.swapBits c v).everyCp 0 CpCore.release then (s.swapBits c v).yields s.swapRecord else s.swapBits c v) := by
  have same : (s.swapBits c v).out.fw.swap = .starting := swap
  have record : (s.swapBits c v).swapRecord = s.swapRecord := rfl
  rw [← record]
  unfold State.swapBits at same ⊢
  simp only [execBvswapWrite, if_neg (not_le.2 core), same, State.yields]

theorem execBvswapWrite_released {t0 : Nat} {record : SwapRecord} (swap : s.out.fw.swap = .released t0 record) : execBvswapWrite c v s =
    .next (if (s.swapBits c v).everyCp 1 CpCore.ready then
        (s.swapBits c v).goesOn record (fun c => { c with role := if c.role = 1 then 0 else 1, release := false })
          (fun w => { w with act := 1 - s.out.fw.act, boot := 1 - s.out.fw.act, swap := .none }) 0
      else s.swapBits c v) := by
  have same : (s.swapBits c v).out.fw.swap = .released t0 record := swap
  have act : ((s.swapBits c v).updCps fun c => { c with role := if c.role = 1 then 0 else 1, release := false }).out.fw.act = s.out.fw.act :=
    act_updCps (s.swapBits c v) _
  unfold State.swapBits at same act ⊢
  simp only [execBvswapWrite, if_neg (not_le.2 core), same, act, State.goesOn]

theorem execBvswapWrite_yields (swap : s.out.fw.swap = .starting) (released : (s.swapBits c v).everyCp 0 CpCore.release = true) :
    ∃ t, execBvswapWrite c v s = .next t ∧ t.out.fw.swap = .released s.clk.tick s.swapRecord ∧
      ∀ d < 8, (s.cp d).role = 0 → (t.cp d).role = 2 := by
  refine ⟨(s.swapBits c v).yields s.swapRecord, (execBvswapWrite_starting core swap).trans (congrArg _ (if_pos released)), rfl,
    fun d small active => ?_⟩
  rw [cp_yields small, if_pos ((role_swapBits ..).trans active)]

theorem execBvswapWrite_exchanges {t0 : Nat} {record : SwapRecord} (swap : s.out.fw.swap = .released t0 record)
    (ready : (s.swapBits c v).everyCp 1 CpCore.ready = true) : ∃ t, execBvswapWrite c v s = .next t ∧
      t.out.fw.swap = .none ∧ t.out.fw.st = 0 ∧ t.out.fw.done = true ∧ t.out.fw.act = 1 - s.out.fw.act ∧
      t.out.fw.boot = 1 - s.out.fw.act ∧ t.out.vocabs = record.vocabs ∧ t.sched.assists = record.inHand ∧
      ∀ d < 8, (s.cp d).role = 1 → (t.cp d).role = 0 := by
  refine ⟨_, (execBvswapWrite_released core swap).trans (congrArg _ (if_pos ready)), ?_, ?_, ?_, ?_, ?_, goesOn_vocabs, goesOn_assists,
    fun d small standby => ?_⟩
  iterate 5 rw [goesOn_fw]
  rw [cp_goesOn _ small]
  · exact if_pos ((role_swapBits ..).trans standby)
  · exact fun _ => rfl

end

theorem execTakeover_fails {t0 : Nat} {record : SwapRecord} (swap : s.out.fw.swap = .released t0 record)
    (late : t0 + 1350000 ≤ s.clk.tick) : ∃ t, execTakeover s = .next t ∧ t.out.fw.swap = .none ∧ t.out.fw.st = 7 ∧
      t.out.fw.done = true ∧ t.out.fw.act = s.out.fw.act ∧ t.out.vocabs = record.vocabs ∧ t.sched.assists = record.inHand ∧
      ∀ d < 8, (s.cp d).role = 2 → (t.cp d).role = 0 := by
  refine ⟨_, execTakeover_resumes swap late, ?_, ?_, ?_, ?_, goesOn_vocabs, goesOn_assists, fun d small yielded => ?_⟩
  iterate 3 rw [goesOn_fw]
  · rw [goesOn_fw]
    dsimp only
    rw [act_updCps]
  · rw [cp_goesOn _ small, if_pos yielded]
    exact fun _ => rfl

/-! ### The statement, part by part -/

theorem linkRules (s : State) (l : Nat) : let x := s.linkState l
    (x.retraining = true →
      exec (.linkCrcFailure l) s = .next s ∧
      exec (.linkRetrainDone l true) s = .next (s.updLinkState l fun _ => ⟨0, false, 0⟩) ∧
      (x.failed + 1 ≠ 3 → exec (.linkRetrainDone l false) s = .next (s.updLinkState l fun x => { x with failed := x.failed + 1 })) ∧
      (x.failed + 1 = 3 → exec (.linkRetrainDone l false) s =
        .next ((s.updLinkState l fun x => { x with failed := x.failed + 1 }).linkFails l))) ∧
    (x.retraining = false → exec (.linkRetrainDone l true) s = .next s ∧ exec (.linkRetrainDone l false) s = .next s ∧
      (16 ≤ x.replays → exec (.linkCrcFailure l) s = .next (s.updLinkState l fun x => { x with replays := 0, retraining := true })) ∧
      (x.replays < 16 → exec (.linkCrcFailure l) s =
        .next ((s.count (linkTo l) none 0x62).updLinkState l fun x => { x with replays := x.replays + 1 })) ∧
      s.replayed l = s.updLinkState l fun x => { x with replays := 0 }) :=
  ⟨fun down => ⟨execLinkCrcFailure_retraining down, execLinkRetrainDone_ok down,
      fun again => (execLinkRetrainDone_failed down).trans (congrArg _ (if_neg again)),
      fun third => (execLinkRetrainDone_failed down).trans (congrArg _ (if_pos third))⟩,
    fun up => ⟨execLinkRetrainDone_up up true, execLinkRetrainDone_up up false, execLinkCrcFailure_retrains up,
      execLinkCrcFailure_replays up, replayed_up up⟩⟩

theorem ladderRules (s : State) (lq : Nat) : let l := s.ladder lq
    let b := s.budgets (s.lqPart lq)
    (b.b1 = 0 ∨ l.idle < b.b1 ∨ s.tickEnds = false → exec (.watchdogL1 lq) s = .next s) ∧
    (s.tickEnds = true → b.b1 ≠ 0 → l.step = 0 → b.b1 ≤ l.idle → s.runningOf lq ≠ [] → exec (.watchdogL1 lq) s = .next
      ((s.ladderStep lq 1).asyncRecord cWATCHDOG (s.lq lq).ctx 0 (8 * (s.partition (s.lqPart lq)).first) 0x1FF 0 0)) ∧
    (l.step ≠ 1 ∨ s.clk.tick < l.since + b.b2 ∨ s.tickEnds = false → exec (.watchdogL2 lq) s = .next s) ∧
    (l.step = 1 → l.since + b.b2 ≤ s.clk.tick → s.tickEnds = true → b.b1 ≠ 0 → s.runningOf lq ≠ [] →
      (∀ n, s.asked fnWDOG lq n = false) → s.assisted (s.lqPart lq) fnWDOG = false →
      exec (.watchdogL2 lq) s = .next (s.ladderL2 lq)) ∧
    (l.step ≠ 3 ∨ s.clk.tick < l.since + b.b3 ∨ s.tickEnds = false → exec (.watchdogL4 lq) s = .next s) ∧
    (l.step = 3 → l.since + b.b3 ≤ s.clk.tick → s.tickEnds = true → b.b1 ≠ 0 → s.runningOf lq ≠ [] →
      (∀ n, s.asked fnWDOG lq n = false) → s.assisted (s.lqPart lq) fnWDOG = false →
      exec (.watchdogL4 lq) s = .next (s.ladderL4 lq)) ∧
    (l.step ≠ 4 ∨ s.clk.tick < l.since + b.b4 ∨ s.tickEnds = false → exec (.watchdogL5 lq) s = .next s) ∧
    (l.step = 4 → l.since + b.b4 ≤ s.clk.tick → s.tickEnds = true → b.b1 ≠ 0 → s.runningOf lq ≠ [] →
      exec (.watchdogL5 lq) s = .next (s.powerOn.send .functionResets)) ∧
    (s.tickEnds = true → b.b1 = 0 → s.runningOf lq ≠ [] →
      (l.step = 1 → l.since + b.b2 ≤ s.clk.tick → exec (.watchdogL2 lq) s = .next (s.updLadder lq fun l => { l with step := 0 })) ∧
      (l.step = 3 → l.since + b.b3 ≤ s.clk.tick → exec (.watchdogL4 lq) s = .next (s.updLadder lq fun l => { l with step := 0 })) ∧
      (l.step = 4 → l.since + b.b4 ≤ s.clk.tick → exec (.watchdogL5 lq) s = .next (s.updLadder lq fun l => { l with step := 0 }))) :=
  ⟨execWatchdogL1_waits, execWatchdogL1_records,
    fun waits => execWatchdogL2_waits (stepWaits_eq_true waits), fun at_ due ends on running unasked alone =>
      (execWatchdogL2_acts (stepWaits_eq_false ends at_ due)).trans (congrArg _ (ladderAct_acts running on unasked alone)),
    fun waits => execWatchdogL4_waits (stepWaits_eq_true waits), fun at_ due ends on running unasked alone =>
      (execWatchdogL4_acts (stepWaits_eq_false ends at_ due)).trans (congrArg _ (ladderAct_acts running on unasked alone)),
    fun waits => execWatchdogL5_waits (stepWaits_eq_true waits), fun at_ due ends on running =>
      (execWatchdogL5_acts (stepWaits_eq_false ends at_ due) running).trans (congrArg _ (if_neg on)),
    fun ends off running =>
      ⟨fun at_ due => (execWatchdogL2_acts (stepWaits_eq_false ends at_ due)).trans (congrArg _ (ladderAct_off running off)),
        fun at_ due => (execWatchdogL4_acts (stepWaits_eq_false ends at_ due)).trans (congrArg _ (ladderAct_off running off)),
        fun at_ due => (execWatchdogL5_acts (stepWaits_eq_false ends at_ due) running).trans (congrArg _ (if_pos off))⟩⟩

section
variable (named : slot < 2)
include named

theorem exec_firmware_busy (busy : s.out.fw.done = false) :
    ∀ i ∈ [Instr.stage slot, .swapFirmware slot, .bootsel slot, .svnlock slot], exec i s = .next (s.updFw fun w => { w with st := 6 }) := by
  simp only [List.forall_mem_cons]
  exact ⟨(execStage_eq named).trans (congrArg _ (fwCommand_busy busy)), (execSwapFirmware_eq named).trans (congrArg _ (fwCommand_busy busy)),
    (execBootsel_eq named).trans (congrArg _ (fwCommand_busy busy)), (execSvnlock_eq named).trans (congrArg _ (fwCommand_busy busy)),
    List.forall_mem_nil _⟩

theorem exec_firmware_running (free : s.out.fw.done = true) (running : slot = s.out.fw.act) :
    exec (.stage slot) s = .next (s.fwDone 1 6) ∧ exec (.swapFirmware slot) s = .next (s.fwDone 2 6) ∧
      exec (.bootsel slot) s = .next (s.fwDone 3 6) ∧ exec (.svnlock slot) s = .next (s.fwDone 4 6) :=
  ⟨(execStage_eq named).trans (congrArg _ (fwCommand_running free running)),
    (execSwapFirmware_eq named).trans (congrArg _ (fwCommand_running free running)),
    (execBootsel_eq named).trans (congrArg _ (fwCommand_running free running)),
    (execSvnlock_eq named).trans (congrArg _ (fwCommand_running free running))⟩

end

/-- Settles O60: each part by the lemmas of its mechanism. A replay counts on the receiving die by log 32, a scrub's count on the die of the
line's storage by log 52, the resets that the last step notes are log 49, the end of the tick is log 4, and the sets' record is log 39: the
model's choices. -/
theorem repairsAndFirmware : Obligations.RepairsAndFirmware := by
  unfold Obligations.RepairsAndFirmware
  intro s
  refine ⟨fun pa => ⟨execScrub_sound, execScrub_counts, execScrub_corrects⟩, linkRules s, fun die vq cu q beneath =>
      ⟨execRegionStateUe_outside beneath, fun rid r => execRegionStateUe_kills beneath⟩, ladderRules s, fun c core =>
      ⟨execBvcpwdWrite_restarts core, execCpWatchdogExpiry_stays, execCpWatchdogExpiry_hands_over core⟩, fun slot named => ?_,
    fun swap => ⟨execTakeover_closed (by simp [swap]), fun c v core => execBvswapWrite_none core swap⟩,
    fun swap => ⟨execTakeover_closed (by simp [swap]), fun c v core =>
      ⟨fun waits => (execBvswapWrite_starting core swap).trans (congrArg _ (if_neg (Bool.eq_false_iff.1 waits))),
        execBvswapWrite_yields core swap⟩⟩,
    fun t0 record swap => ⟨execTakeover_waits swap, execTakeover_fails swap, fun c v core =>
      ⟨fun waits => (execBvswapWrite_released core swap).trans (congrArg _ (if_neg (Bool.eq_false_iff.1 waits))),
        execBvswapWrite_exchanges core swap⟩⟩⟩
  · exact ⟨fun i mem busy => exec_firmware_busy named busy i mem, exec_firmware_running named, fun free standby =>
      ⟨⟨_, execStage_eq named, fwStage_verifies free standby⟩, (execSvnlock_eq named).trans (congrArg _ (fwSvnlock_raises free standby)),
        fun verified => ⟨(execBootsel_eq named).trans (congrArg _ (fwBootsel_verified free standby verified)),
          ⟨_, execSwapFirmware_eq named, fwSwap_starts free standby verified⟩⟩,
        fun unverified => ⟨(execBootsel_eq named).trans (congrArg _ (fwBootsel_unverified free standby unverified)),
          (execSwapFirmware_eq named).trans (congrArg _ (fwSwap_unverified free standby unverified))⟩⟩⟩

end Sys2Proof.Machine
end
